-- ==== Sys2Proof/Word.lean ====
section
/-! DEFINITION. The register word, the byte, and sparse tables kept in one canonical form. -/
namespace Sys2Proof

/-- A register word (00 R8: registers are 32 bits wide). -/
abbrev Word := BitVec 32

/-- One byte. -/
abbrev Byte := BitVec 8

/-- A sparse table: pairs of key and value, keys strictly rising. A key that is not listed holds the table's default. -/
abbrev Tab (α : Type) := List (Nat × α)

end Sys2Proof
end

