-- ==== Sys2Proof/Syntax.lean ====
section
/-! DEFINITION. The commands of the block: one constructor of `Instr` per row of spec/opcode_table.json, with what
comes from outside the device as its operands: the addresses and data of accesses, measured quantities, indices. -/
namespace Sys2Proof

/-- The domains, in the numbering of 13 R329 and 14 R343. -/
inductive Dom where
  | aon | mgmt | hosta | hostb | line0 | line1 | faba | fabb | fec | table | chain
deriving DecidableEq, Repr

/-- The supplies that the power-good monitors watch (17 R407). -/
inductive Supply where
  | vcore | vana | vhs | vio | vaon
deriving DecidableEq, Repr

/-- Who makes a register access (18 R434). -/
inductive Requester where
  | mport | steward
deriving DecidableEq, Repr

/-- The event blocks of 11 R303, each instance of it. -/
inductive EvBlk where
  | aon | therm | cfg | stw | dma | cal | ldg | chn | sec | mem
  | hl (lane : Fin 8) | hpcs | tx (c : Fin 2) | rx (c : Fin 2) | fth | fabric | fec | peer | bias | lp
deriving DecidableEq, Repr

/-- A token of a fabric channel (01 R17): 224 bits of payload, and the fields of the sideband. -/
structure Token where
  payload : BitVec 224
  stream  : Byte
  index   : BitVec 16
  slip    : Bool
  poison  : Bool
  hdr     : Bool
deriving DecidableEq, Repr

/-- A token that the clocked side presents to a bushel, with the lane of the half it belongs to at a host-side one. -/
structure BushelTok where
  n     : Fin 12
  lane  : Fin 4
  token : Token
deriving DecidableEq, Repr

/-- A fill token that an empty bushel sends (01 R31): how many tokens have arrived from the fabric since its last one, and at a
host transmitter the lane of the half whose symbols it stands for. -/
structure FillReq where
  n       : Fin 12
  arrived : Nat
  lane    : Fin 4
deriving DecidableEq, Repr

/-- A complex number, parts in steps of 2^-40. -/
structure Cx where
  re : Int
  im : Int
deriving DecidableEq, Repr

/-- A correlator peak (04 R120): symbol timing, frequency offset in MHz, and the correlator's sums in squared native units:
|Σ r·a*|² and Σ|r|². -/
structure Peak where
  timing : Nat
  foff   : Int
  corr2  : Nat
  energy : Nat
deriving DecidableEq, Repr

/-- What the demultiplexer gives of one subcarrier on both polarisations (05 R143), two samples a symbol, before any Fathom
correction: the first symbol as an index into the furlong of the unit's last header, its arrival time in symbols of the carrier,
and the samples, which start (NTAPS - 1)/2 half symbols before it. -/
structure RxSyms where
  k0   : Int
  t0   : Nat
  xs   : List Cx
  ys   : List Cx
deriving DecidableEq, Repr

/-- The 96 field bits of one subcarrier's training header as decided (03 R77): bit 95 is f0. -/
structure HdrSc where
  sc   : Nat
  bits : BitVec 96
deriving DecidableEq, Repr

/-- What the receiver measures at a header: symbol timing, symbol-rate offset in ppm (05 R143), the frequency drift of each
subcarrier since the header before in Hz (05 R151), and the symbols received since that header, by subcarrier. -/
structure HdrMeas where
  timing : Nat
  rate   : Int
  drift  : List (Nat × Int)
  syms   : List (Nat × RxSyms)
deriving DecidableEq, Repr

/-- What one subcarrier's estimators bring to a quality interval beside what the block holds: its mean power, and the errors of
its SNR (0.01 dB) and GMI (2^-12 bit) estimates, which 05 R158 bounds. -/
structure QSample where
  sc     : Nat
  power  : Nat
  snrErr : Int
  gmiErr : Int
deriving DecidableEq, Repr

/-- The error of the unit's GAIN estimate, in 0.01 dB (05 R158). -/
structure QUnit where
  gainErr : Int
deriving DecidableEq, Repr

/-- An item of a client's stream at the transmit demapper (06 R185). -/
inductive ClientItem where
  | frame (err : Bool) (content : List Byte)
  | orderedSet (w : Word)
deriving DecidableEq, Repr

/-- An item that the host PCS hands to the demapper: the group's RS codewords that hold bits of it, numbered from the group's
entry to ACQUIRE (08 R223), and whether it holds an invalid 66-bit block (08 R224). -/
structure HostItem where
  item    : ClientItem
  cws     : List Nat
  invalid : Bool
deriving DecidableEq, Repr

/-- Why a host lane lost lock (08 R231). -/
inductive LossCause where
  | signal | cdr | frame
deriving DecidableEq, Repr

/-- The coefficients one calibration run or pass produced (10 R266, R274): residual offset (2^-4 LSB) and gain (2.14)
per sub-converter, skew taps (2.14), line DAC trims, the temperature at the start. -/
structure CalResult where
  og   : List (Int × Nat)
  skew : List Int
  dac  : List Byte
deriving DecidableEq, Repr

/-- The kinds of the device's own store records (15 R444). -/
inductive RecKind where
  | snapshot | checkpoint | calib (c : Fin 2) | bias (c : Fin 2) | peer | repair
deriving DecidableEq, Repr

/-- Why an MPORT frame is discarded with status FRAME (15 R366). -/
inductive FrameFault where
  | unknownOp | badCount | wrongLength | cut
deriving DecidableEq, Repr

/-- A Chain-port packet (15 R375): header fields, payload bytes before padding, CRC word. -/
structure Packet where
  flags   : Byte
  seq     : BitVec 16
  arg     : Word
  payload : List Byte
  crc     : Word
deriving DecidableEq, Repr

/-- How a DMA transfer ended (15 R388; 12 R316). -/
inductive DmaOutcome where
  | done | sourceError (addr : Word) | destError
deriving DecidableEq, Repr

/-- What one self-test slice found (16 R391, R393): the failing bits (memory, word, bit), whether the logic signature
differed, whether it was the last slice, whether it ran past 1.5 times SLICE, and the ms the test has run. -/
structure SliceReport where
  fails    : List (Nat × Nat × Nat)
  logicBad : Bool
  last     : Bool
  late     : Bool
  elapsed  : Nat
deriving DecidableEq, Repr

/-- One fuse group as sensed (16 R400, R401): marker, data, CRC. -/
structure FuseWord where
  marker : Bool
  data   : Nat
  crc    : Nat
deriving DecidableEq, Repr

/-- The two lasers of a port (10 R276). -/
inductive Laser where
  | tx | lo
deriving DecidableEq, Repr

/-- The commands. Each constructor is the row of spec/opcode_table.json that its docstring names. -/
inductive Instr where
  /-- AON_POWER_ON_RESET (R408): the two address straps as sampled. -/
  | aonPowerOnReset (addr1 addr0 : Bool)
  /-- SUPPLY_LOSS (R409). -/
  | supplyLoss (supply : Supply)
  /-- REGISTER_WRITE (R8). -/
  | registerWrite (req : Requester) (addr data : Word)
  /-- WRITE (R365). -/
  | write (addr data : Word) (crc : Byte)
  /-- READ (R365). -/
  | read (addr : Word) (crc : Byte)
  /-- WRITE_SAME (R365). -/
  | writeSame (addr : Word) (words : List Word) (crc : Byte)
  /-- READ_PHASE (R366). -/
  | readPhase
  /-- SCL_TIMEOUT (R368): whether a frame was in progress. -/
  | sclTimeout (inFrame : Bool)
  /-- MPORT_READ_STRETCH_TIMEOUT (R368). -/
  | mportReadStretchTimeout
  /-- TBL_DATA_ACCESS (R437): a write of the word, or a read. -/
  | tblDataAccess (req : Requester) (wr : Option Word)
  /-- ADDRESS_MATCH_WAKE (R349). -/
  | addressMatchWake
  /-- WAKE_PIN (R349): whether the pin stays low after its falling edge. -/
  | wakePin (heldLow : Bool)
  /-- PWR_TARGET_WRITE (R348). -/
  | pwrTargetWrite (value : Word)
  /-- WAKE_POWER_GOOD (R344). -/
  | wakePowerGood (d : Dom)
  /-- WAKE_CLOCK_PRESENT (R344). -/
  | wakeClockPresent (d : Dom)
  /-- WAKE_PLL_LOCK (R344). -/
  | wakePllLock (d : Dom)
  /-- WAKE_COMPLETE (R344). -/
  | wakeComplete (d : Dom)
  /-- WAKE_STEP_TIMEOUT (R345). -/
  | wakeStepTimeout (d : Dom)
  /-- WAKE_RETRY (R345). -/
  | wakeRetry (d : Dom)
  /-- DOMAIN_ENTRY (R346). -/
  | domainEntry (d : Dom)
  /-- ENTRY_SAVES_DONE (R346). -/
  | entrySavesDone (d : Dom)
  /-- SAVE_TIMEOUT (R346). -/
  | saveTimeout (d : Dom)
  /-- ENTRY_ISOLATE_AND_SWITCH (R346). -/
  | entryIsolateAndSwitch (d : Dom)
  /-- IMAGE_SELECTION (R62). -/
  | imageSelection
  /-- LOAD_START (R51): the LOAD_SRC written with START. -/
  | loadStart (src : BitVec 3)
  /-- ABORT (R56): the ABORT_ZONE written with ABORT. -/
  | abort (zone : Byte)
  /-- CFG_LOAD_DATA (R51). -/
  | cfgLoadData (data : Word)
  /-- STORE_IMAGE_READ_DONE (R51). -/
  | storeImageReadDone
  /-- IMAGE_HEADER (R446). -/
  | imageHeader
  /-- IMAGE_END (R447). -/
  | imageEnd
  /-- SECTION_HEADER (R50). -/
  | sectionHeader
  /-- RECORD_STAGED (R48). -/
  | recordStaged
  /-- SECTION_END (R56). -/
  | sectionEnd
  /-- COPY_COMPLETE (R56). -/
  | copyComplete (zone : Byte)
  /-- LOAD_TIMEOUT (R447). -/
  | loadTimeout
  /-- LOCAL_FURLONG_BOUNDARY (R53). -/
  | localFurlongBoundary
  /-- RX_COMMIT_SWITCH (R56). -/
  | rxCommitSwitch (zone : Byte)
  /-- COMMIT_TIMEOUT (R56). -/
  | commitTimeout (zone : Byte)
  /-- LANE_GROUP_COMMIT (R57). -/
  | laneGroupCommit (zone : Byte)
  /-- STEWARD_RESTART_COMPLETE (R57). -/
  | stewardRestartComplete
  /-- REVERT_SWITCH (R66). -/
  | revertSwitch (zone : Byte)
  /-- FABRIC_REGISTER_APPLY (R36). -/
  | fabricRegisterApply
  /-- HEADROOM_WINDOW_END (R23): bushel, saturated-slot count, smallest slack of the window. -/
  | headroomWindowEnd (n : Fin 12) (count : Nat) (slackMin : Nat)
  /-- HR_THRESHOLD_WRITE (R26): THR1 when true, else THR0. -/
  | hrThresholdWrite (thr1 : Bool) (value : Word)
  /-- BUSHEL_SLIP (R30): the token that the clocked side presents to a full bushel. -/
  | bushelSlip (n : BushelTok)
  /-- SLIP_RECOVERY (R30): the token that the clocked side then presents. -/
  | slipRecovery (n : BushelTok)
  /-- FILL_TOKEN (R31). -/
  | fillToken (n : FillReq)
  /-- BLOCK_SLOT (R74). -/
  | blockSlot (c : Fin 2) (sc : Fin 32)
  /-- HOLD_GAP_BLOCK (R73): the group by its first lane. -/
  | holdGapBlock (lane : Fin 8)
  /-- DEMAPPER_CHUNK (R187): the group by its first lane, and the items that have become complete. -/
  | demapperChunk (lane : Fin 8) (items : List HostItem)
  /-- TX_ENABLE (R100). -/
  | txEnable (c : Fin 2) (on : Bool)
  /-- TX_LOCKS_PRESENT (R100). -/
  | txLocksPresent (c : Fin 2)
  /-- TX_LOCK_LOST (R100): the synthesiser's lock when true, else the laser's. -/
  | txLockLost (c : Fin 2) (synth : Bool)
  /-- TX_TIMEOUT (R100). -/
  | txTimeout (c : Fin 2)
  /-- OFFSET_UPDATE (R105): converter, and the sum of 2c - 255 over 2^20 codes. -/
  | offsetUpdate (c : Fin 2) (conv : Fin 4) (sum2 : Int)
  /-- AGC_SLOW_UPDATE (R111): the four measured RMS values. -/
  | agcSlowUpdate (c : Fin 2) (rms : List Nat)
  /-- AGC_FAST_UPDATE (R111): the four measured RMS values. -/
  | agcFastUpdate (c : Fin 2) (rms : List Nat)
  /-- AGC_REPLACEMENT_END (R113). -/
  | agcReplacementEnd (c : Fin 2)
  /-- CD_SCAN_STEP (R121): the interpolated peak of the scan metric, used at the last step. -/
  | cdScanStep (c : Fin 2) (u : Fin 16) (peakD : Int)
  /-- CANDIDATE_DECLARED (R121). -/
  | candidateDeclared (c : Fin 2) (u : Fin 16) (peak : Peak)
  /-- SECOND_CORRELATOR_PEAK (R120): the peak and its header. -/
  | secondCorrelatorPeak (c : Fin 2) (u : Fin 16) (peak : Peak) (hdr : List HdrSc)
  /-- RX_HEADER (R119). -/
  | rxHeader (c : Fin 2) (u : Fin 16) (hdr : List HdrSc) (meas : HdrMeas)
  /-- SEARCH_TIMEOUT (R121). -/
  | searchTimeout (c : Fin 2) (u : Fin 16)
  /-- UNIT_ENABLED (R120). -/
  | unitEnabled (c : Fin 2) (u : Fin 16)
  /-- UNIT_DISABLED (R120). -/
  | unitDisabled (c : Fin 2) (u : Fin 16)
  /-- EQ_TAP_UPDATE (R145): the 64 symbols it adapts on. -/
  | eqTapUpdate (c : Fin 2) (sc : Fin 32) (syms : RxSyms)
  /-- QUALITY_INTERVAL_END (R155). -/
  | qualityIntervalEnd (c : Fin 2) (u : Fin 16) (q : QUnit) (scs : List QSample)
  /-- FATHOM_PAGE_CLEAR (R135). -/
  | fathomPageClear
  /-- CLEAR_ALL (R138). -/
  | clearAll
  /-- SNAP_REQ (R141). -/
  | snapReq
  /-- SNAPSHOT_PERIODIC (R141). -/
  | snapshotPeriodic
  /-- SNAPSHOT_PAGE_COPY (R141). -/
  | snapshotPageCopy
  /-- SNAPSHOT_DONE (R141): whether the flash programmed and read back well. -/
  | snapshotDone (ok : Bool)
  /-- SNAPSHOT_LOAD_DONE (R142). -/
  | snapshotLoadDone
  /-- CODEWORD_ENTERS_POOL (R167): group, subcarrier of its carrier, the symbols that carry it, and which of its 720 tokens of
  32 LLRs arrived marked POISON (12 R312). -/
  | codewordEntersPool (g : Fin 32) (sc : Fin 32) (syms : RxSyms) (poison : List Nat)
  /-- ENGINE_ASSIGN (R167). -/
  | engineAssign
  /-- DECODER_ITERATION (R171): codeword, and by base row whether a product that falls between two message values is taken
  away from zero (the messages' precision is not stated). -/
  | decoderIteration (id : Nat) (up : List Bool)
  /-- CODEWORD_DEADLINE (R172). -/
  | codewordDeadline (id : Nat)
  /-- OUTER_BLOCK_DECODE (R173). -/
  | outerBlockDecode (c : Fin 2) (sc : Fin 32)
  /-- FIRKIN_WAIT_EXPIRY (R180). -/
  | firkinWaitExpiry (f : Fin 8192)
  /-- MAPPER_CHUNK (R188): the client by its group's first lane. -/
  | mapperChunk (lane : Fin 8)
  /-- PEER_CTRL_WRITE (R196). -/
  | peerCtrlWrite (n : Fin 64) (value : Word)
  /-- PEER_SAVE (R200). -/
  | peerSave
  /-- LANE_LOCK_LOST (R232). -/
  | laneLockLost (lane : Fin 8) (cause : LossCause)
  /-- LANE_LOCKED (R231): the returning frequency's difference from the held value, in ppm. -/
  | laneLocked (lane : Fin 8) (ppm : Int)
  /-- GROUP_ALIGNED (R232). -/
  | groupAligned (lane : Fin 8)
  /-- HOLD_CONFIRMATION (R232). -/
  | holdConfirmation (lane : Fin 8) (pass : Bool)
  /-- HOLD_FAST_TIMEOUT (R232). -/
  | holdFastTimeout (lane : Fin 8)
  /-- HOLD_LONG (R232). -/
  | holdLong (lane : Fin 8)
  /-- GROUP_ZONE_STATE_CHANGE (R232). -/
  | groupZoneStateChange (lane : Fin 8)
  /-- RESTART (R229). -/
  | restart (lane : Fin 8)
  /-- LOOP (R236). -/
  | loop (lane : Fin 8) (value : BitVec 2)
  /-- ADAPT_DONE (R229). -/
  | adaptDone (lane : Fin 8)
  /-- INNER_FRAME (R222): the 448 bits at the frame position, bit 447 sent first. -/
  | innerFrame (lane : Fin 8) (bits : BitVec 448)
  /-- PATTERN_CHECK (R239): decided symbols, as bit pairs (PAM4) or bits (NRZ). -/
  | patternCheck (lane : Fin 8) (samples : List Int)
  /-- MODULATOR_FRAME (R252): at each conversion instant of the frame (R244) the uncalibrated codes of the 32 inputs. -/
  | modulatorFrame (codes : List (List Int))
  /-- TONE_BLOCK_END (R250): what the detector's rounding, which is not stated, adds to TONE_I and TONE_Q. -/
  | toneBlockEnd (ch : Fin 24) (i q : Int)
  /-- HK_SLOT_WRITE (R247). -/
  | hkSlotWrite (slot : Fin 32) (value : Word)
  /-- CAL_START (R245). -/
  | calStart
  /-- HK_CAL_COMPLETE (R245): the new gain and offset factors. -/
  | hkCalComplete (gain : BitVec 16) (offset : BitVec 16)
  /-- FULL_REQ (R270). -/
  | fullReq
  /-- FG_REQ (R265): bit c asks for carrier c. -/
  | fgReq (carriers : BitVec 2)
  /-- CAL_TRIGGER (R267). -/
  | calTrigger
  /-- WAKE_FG_RUN_START (R268). -/
  | wakeFgRunStart (c : Fin 2)
  /-- FG_RUN_COMPLETE (R271). -/
  | fgRunComplete (c : Fin 2) (res : CalResult)
  /-- BG_PASS_COMPLETE (R264). -/
  | bgPassComplete (c : Fin 2) (res : CalResult)
  /-- REF_LOST (R263): which flags clear. -/
  | refLost (refclk vref : Bool)
  /-- REF_PRESENT (R263). -/
  | refPresent
  /-- PORT_BLOCK_WRITE (R279): word offset 0, 1, 2 or 3 of the port block. -/
  | portBlockWrite (c : Fin 2) (word : Fin 4) (value : Word)
  /-- PORT_ENABLE (R279). -/
  | portEnable (c : Fin 2)
  /-- LASER_STATUS_POLL (R277): the answers of the transmit laser and the local oscillator. -/
  | laserStatusPoll (c : Fin 2) (tx lo : Word)
  /-- LASER_POWER_POLL (R277). -/
  | laserPowerPoll (c : Fin 2) (tx lo : Word)
  /-- SET_CHANNEL (R276). -/
  | setChannel (c : Fin 2) (l : Laser) (n : BitVec 16)
  /-- SET_FINE (R276). -/
  | setFine (c : Fin 2) (l : Laser) (mhz : BitVec 16)
  /-- SET_POWER (R276). -/
  | setPower (c : Fin 2) (l : Laser) (power : BitVec 16)
  /-- OUTPUT (R276). -/
  | output (c : Fin 2) (l : Laser) (on : Bool)
  /-- READ_STATUS (R276): the laser's answer frame. -/
  | readStatus (c : Fin 2) (l : Laser) (answer : Word)
  /-- READ_POWER (R276). -/
  | readPower (c : Fin 2) (l : Laser) (answer : Word)
  /-- READ_FREQ_ERR (R276). -/
  | readFreqErr (c : Fin 2) (l : Laser) (answer : Word)
  /-- EVENT_DETECTION (R282): block, source bit, and what the source's own EVT_SRC field takes. -/
  | eventDetection (b : EvBlk) (source : Fin 32) (info : Word)
  /-- EVT_FORCE (R289). -/
  | evtForce (b : EvBlk) (bits : Word)
  /-- ACK_MINOR (R288). -/
  | ackMinor (b : EvBlk)
  /-- ACK_MAJOR (R288). -/
  | ackMajor (b : EvBlk)
  /-- PROMOTION_WINDOW_EXPIRY (R285). -/
  | promotionWindowExpiry (b : EvBlk) (source : Fin 32)
  /-- MERGED_RECORD (R293). -/
  | mergedRecord (b : EvBlk) (source : Fin 32)
  /-- SCRUB_VISIT (R311): memory and the eight stored words of the row the scrubber reads. -/
  | scrubVisit (m : Fin 11) (row : List Nat)
  /-- SCRUB_LATE (R311). -/
  | scrubLate (m : Fin 11)
  /-- TRIPLET_RESTORE_DONE (R314): page, and whether the store read succeeded. -/
  | tripletRestoreDone (page : Byte) (ok : Bool)
  /-- RELOAD_DONE (R315): the line. -/
  | reloadDone (line : BitVec 14)
  /-- FETCH_TRAP (R315). -/
  | fetchTrap (line : BitVec 14)
  /-- STEWARD_LOAD_TRAP (R313): the data word. -/
  | stewardLoadTrap (word : BitVec 15)
  /-- GRAIN_TICK (R321). -/
  | grainTick
  /-- TRIM_MEASUREMENT (R321): the new GRAIN_LEN and the phase error in ticks. -/
  | trimMeasurement (grainLen : BitVec 16) (err : Int)
  /-- TIME_UNTRIMMED (R323). -/
  | timeUntrimmed
  /-- CHECKPOINT_PERIODIC (R324). -/
  | checkpointPeriodic
  /-- CKPT_REQ (R324). -/
  | ckptReq
  /-- CHECKPOINT_RETRY (R326). -/
  | checkpointRetry
  /-- RECORD_WRITE_COMPLETE (R444): kind, and whether the flash programmed and read back well. -/
  | recordWriteComplete (kind : RecKind) (ok : Bool)
  /-- RECORD_STORE (R330). -/
  | recordStore
  /-- LDG_FREE (R331). -/
  | ldgFree (value : Word)
  /-- RES_CLEAR (R336). -/
  | resClear
  /-- HISTOGRAM_INTERVAL_END (R338). -/
  | histogramIntervalEnd
  /-- VOUT_COMMAND (R351): whether the regulator acknowledges. -/
  | voutCommand (ack : Bool)
  /-- STATUS_WORD (R351). -/
  | statusWord (ack : Bool) (status : BitVec 16)
  /-- READ_VOUT (R351). -/
  | readVout (ack : Bool) (raw : BitVec 16)
  /-- AVS_REQUEST (R352). -/
  | avsRequest
  /-- AVS_REQUEST_TIMEOUT (R353). -/
  | avsRequestTimeout
  /-- AVS_EN_WRITE (R353). -/
  | avsEnWrite (en : Bool)
  /-- TEMP_READING (R356): the mean code of 64 settled outputs of slot 31. -/
  | tempReading (meanCode : Int)
  /-- HOST_TEMP_WRITE (R358). -/
  | hostTempWrite (value : Word)
  /-- HOST_TEMP_STALE (R358). -/
  | hostTempStale
  /-- THERM_THRESHOLD_WRITE (R359): THR1 when true, else THR0. -/
  | thermThresholdWrite (thr1 : Bool) (value : Word)
  /-- THERMAL_THROTTLE_RISE (R360). -/
  | thermalThrottleRise
  /-- THERMAL_THROTTLE_FALL (R360). -/
  | thermalThrottleFall
  /-- SHUTDOWN_COUNT_EXPIRY (R363). -/
  | shutdownCountExpiry
  /-- STORE_TRANSFER_START (R373). -/
  | storeTransferStart
  /-- STORE_READ (R370). -/
  | storeRead (addr : Word) (len : BitVec 13)
  /-- PAGE_PROGRAM (R370). -/
  | pageProgram (addr : Word) (data : List Byte)
  /-- BLOCK_ERASE (R370). -/
  | blockErase (addr : Word)
  /-- WRITE_ENABLE (R370). -/
  | writeEnable
  /-- STORE_READ_STATUS (R370): the busy bit returned. -/
  | storeReadStatus (busy : Bool)
  /-- READ_ID (R370): the JEDEC capacity code. -/
  | readId (capacity : Byte)
  /-- EXTENDED_ADDRESS (R370). -/
  | extendedAddress (bank : Byte)
  /-- STORE_BUSY_TIMEOUT (R370). -/
  | storeBusyTimeout
  /-- LINK_UP (R379): RX reaches block lock. -/
  | linkUp
  /-- RX_LOCK_LOST (R379). -/
  | rxLockLost
  /-- CREDIT_TIMEOUT (R379). -/
  | creditTimeout
  /-- STREAM_STALL (R379). -/
  | streamStall (k : Fin 8)
  /-- CREDIT (R378). -/
  | credit (p : Packet)
  /-- CREDIT_SEND (R378). -/
  | creditSend
  /-- CONFIG (R386). -/
  | config (p : Packet)
  /-- SNAPSHOT (R386). -/
  | snapshot (p : Packet)
  /-- STORE (R386). -/
  | store (p : Packet)
  /-- CAPTURE (R376). -/
  | capture
  /-- LEDGER (R381). -/
  | ledger
  /-- TELEMETRY_PERIOD (R382). -/
  | telemetryPeriod
  /-- DRAIN_REQ (R381). -/
  | drainReq
  /-- CAP_START (R384). -/
  | capStart
  /-- CAPTURE_TRIGGER (R384). -/
  | captureTrigger
  /-- CAPTURE_DONE (R384): the words recorded. -/
  | captureDone (samples : List (BitVec 56))
  /-- DOORBELL (R387). -/
  | doorbell
  /-- MBOX_RESPONSE (R387): the four response words and RESULT. -/
  | mboxResponse (r0 r1 r2 r3 : Word) (result : Byte)
  /-- WATCHDOG_EXPIRY (R387). -/
  | watchdogExpiry
  /-- DMA_START (R388). -/
  | dmaStart (c : Fin 8)
  /-- DMA_DONE (R388). -/
  | dmaDone (c : Fin 8) (outcome : DmaOutcome)
  /-- BIST_SLICE_END (R391). -/
  | bistSliceEnd (d : Dom) (report : SliceReport)
  /-- BIST_SLICE_CUT (R391). -/
  | bistSliceCut (d : Dom)
  /-- ACC_REQ (R397): the 256 bits the entropy source gives. -/
  | accReq (entropy : BitVec 256)
  /-- ACC_SUBMIT (R398). -/
  | accSubmit
  /-- ACC_CLOSE (R398). -/
  | accClose
  /-- CHALLENGE_EXPIRY (R398). -/
  | challengeExpiry
  /-- ACCESS_LIFE_EXPIRY (R398). -/
  | accessLifeExpiry
  /-- FUSE_INTEGRITY_CHECK (R401): the 14 groups as sensed. -/
  | fuseIntegrityCheck (sensed : List FuseWord)
  /-- PROG (R402). -/
  | prog
  /-- FUSE_PROG_COMPLETE (R402): the group as sensed after programming. -/
  | fuseProgComplete (sensed : FuseWord)
  /-- MPORT_FRAME_DISCARD (R366). -/
  | mportFrameDiscard (fault : FrameFault)
  /-- BAD_PACKET (R376): TYPE and LEN of the packet, which its CRC covers. -/
  | badPacket (typ : Byte) (len : BitVec 16) (p : Packet)
  /-- HOST_RS_CODEWORD (R223): the 544 symbols received. -/
  | hostRsCodeword (lane : Fin 8) (word : List (BitVec 10))
  /-- SIGNAL_DETECT (R231): the returning frequency's difference from the held value, in ppm. -/
  | signalDetect (lane : Fin 8) (ppm : Int)
  /-- HOST_STALE (R358). -/
  | hostStale
  /-- SENSOR_READING_OLD (R356). -/
  | sensorReadingOld
  /-- AVS_STRETCH_TIMEOUT (R422). -/
  | avsStretchTimeout
deriving DecidableEq, Repr

end Sys2Proof
end

