-- ==== Sys2Proof/Machine/Bits.lean ====
section
/-! DEFINITION. Numbers as the manual writes them: wrap comparison, sign, rounding, limits, bytes and bits; and the
operations of sparse tables. -/
namespace Sys2Proof.Machine

/-- `a` is after `b` in `w` bits (02 R53). -/
def after (a b w : Nat) : Bool :=
  let d := (a % 2 ^ w + 2 ^ w - b % 2 ^ w) % 2 ^ w
  decide (1 ≤ d) && decide (d ≤ 2 ^ (w - 1) - 1)

/-- The bits [lo + width - 1 : lo] of a number. -/
def bitsOf (x lo width : Nat) : Nat := x / 2 ^ lo % 2 ^ width

/-- Bit `i` of a number. -/
def bitOf (x i : Nat) : Bool := x / 2 ^ i % 2 = 1

/-- A stored `w`-bit number read as two's complement (00 R5). -/
def toS (w n : Nat) : Int := if n % 2 ^ w < 2 ^ (w - 1) then (n % 2 ^ w : Nat) else (n % 2 ^ w : Nat) - (2 ^ w : Nat)

/-- A signed number as its `w`-bit two's complement (00 R5). -/
def ofS (w : Nat) (i : Int) : Nat := (i % (2 ^ w : Nat)).toNat

/-- The nearest limit (the "stored as the nearest limit" of the register tables). -/
def clampN (lo hi x : Nat) : Nat := if x < lo then lo else if hi < x then hi else x

/-- Limit a signed number. -/
def clampI (lo hi x : Int) : Int := if x < lo then lo else if hi < x then hi else x

/-- Division rounded to nearest, halves away from zero. -/
def rdiv (a : Int) (b : Nat) : Int :=
  if 0 ≤ a then ((2 * a + b) / (2 * b : Nat)) else -((-2 * a + b) / (2 * b : Nat))

/-- Halving towards zero (09 R259: an odd code halves towards mid-scale). -/
def halfZ (a : Int) : Int := Int.tdiv a 2

/-- Count up, saturating at the largest `w`-bit number. -/
def satInc (w x : Nat) : Nat := if x + 1 < 2 ^ w then x + 1 else 2 ^ w - 1

/-- The bit list of a number, most significant of `w` bits first. -/
def bitsMsb : Nat → Nat → List Bool
  | 0, _ => []
  | w + 1, x => bitOf x w :: bitsMsb w x

/-- The number a bit list spells, first bit most significant. -/
def ofBitsMsb (bs : List Bool) : Nat := bs.foldl (fun a b => 2 * a + if b then 1 else 0) 0

/-- The `k` bytes of a number, least significant first. -/
def leBytes : Nat → Nat → List Byte
  | 0, _ => []
  | k + 1, x => BitVec.ofNat 8 x :: leBytes k (x / 256)

/-- The number a byte list spells, least significant byte first. -/
def ofLe : List Byte → Nat
  | [] => 0
  | b :: bs => b.toNat + 256 * ofLe bs

/-- The `k` bytes of a number, most significant first. -/
def beBytes (k x : Nat) : List Byte := (leBytes k x).reverse

/-- The number a byte list spells, most significant byte first. -/
def ofBe (bs : List Byte) : Nat := ofLe bs.reverse

/-- `k` bytes at offset `o` of a byte list, little-endian (02 R43). -/
def leAt (bs : List Byte) (o k : Nat) : Nat := ofLe ((bs.drop o).take k)

/-- Cut a list into pieces of `n` (fuel bounds the number of pieces). -/
def pieces {α : Type} (n : Nat) : Nat → List α → List (List α)
  | 0, _ => []
  | _ + 1, [] => []
  | fuel + 1, x :: xs => (x :: xs).take n :: pieces n fuel ((x :: xs).drop n)

/-- What a sparse table lists for a key. -/
def tfind {α : Type} : Tab α → Nat → Option α
  | [], _ => none
  | (k, v) :: t, i => if i = k then some v else tfind t i

/-- What a sparse table holds for a key, unlisted keys holding `d`. -/
def tget {α : Type} (t : Tab α) (i : Nat) (d : α) : α := (tfind t i).getD d

/-- Unlist a key, wherever it stands. -/
def tdel {α : Type} : Tab α → Nat → Tab α
  | [], _ => []
  | (k, v) :: t, i => if i = k then tdel t i else (k, v) :: tdel t i

/-- List a key with a value, keys kept rising. -/
def tput {α : Type} : Tab α → Nat → α → Tab α
  | [], i, x => [(i, x)]
  | (k, v) :: t, i, x => if i < k then (i, x) :: (k, v) :: t else if i = k then (i, x) :: t else (k, v) :: tput t i x

/-- Set a key, an entry equal to the default being unlisted. -/
def tset {α : Type} [DecidableEq α] (t : Tab α) (i : Nat) (x d : α) : Tab α :=
  if x = d then tdel t i else tput t i x

/-- Keys strictly rise. -/
def trising {α : Type} : Tab α → Bool
  | [] => true
  | [_] => true
  | (k, _) :: (k', v') :: t => decide (k < k') && trising ((k', v') :: t)

/-- The entries whose keys satisfy `p`. -/
def tkeep {α : Type} (p : Nat → Bool) (t : Tab α) : Tab α := t.filter fun e => p e.1

end Sys2Proof.Machine
end

