-- ==== Sys2Proof/Machine/Codec.lean ====
section
/-! DEFINITION. The check codes and ciphers the manual fixes: CRC-8 (06 R185), CRC-16 (03 R71), CRC-32C (15 R372),
SHA-256, HMAC-SHA-256 and ECDSA P-256 (02 R43, R44; 16 R397), and the generators of 03 R79 and 08 R238. -/
namespace Sys2Proof.Machine

/-- One step of a most-significant-bit-first CRC of width `w` and generator `g`. -/
def crcBit (w g : Nat) (r : Nat) (b : Bool) : Nat :=
  let top := bitOf r (w - 1) != b
  let s := r * 2 % 2 ^ w
  if top then s ^^^ g else s

/-- A most-significant-bit-first CRC over a bit list. -/
def crcBits (w g init : Nat) (bs : List Bool) : Nat := bs.foldl (crcBit w g) init

/-- The CRC-16 of the line format (03 R71). -/
def crc16 (bs : List Bool) : Nat := crcBits 16 0x1021 0xFFFF bs

/-- The CRC-8 of item headers, laser frames and MPORT frames (06 R185). -/
def crc8 (bytes : List Byte) : Nat := crcBits 8 0x07 0 (bytes.flatMap fun b => bitsMsb 8 b.toNat)

/-- One reflected step of CRC-32C. -/
def crc32cBit (r : Nat) (b : Bool) : Nat :=
  if bitOf r 0 != b then (r / 2) ^^^ 0x82F63B78 else r / 2

/-- CRC-32C (15 R372): generator 0x1EDC_6F41 reflected, initial value and final XOR 0xFFFF_FFFF. -/
def crc32c (bytes : List Byte) : Nat :=
  (bytes.flatMap fun b => (bitsMsb 8 b.toNat).reverse).foldl crc32cBit 0xFFFFFFFF ^^^ 0xFFFFFFFF

/-- The header and pilot generator (03 R79): next state and output bit. -/
def prbs15 (st : Nat) : Nat × Bool :=
  let new := bitOf st 14 != bitOf st 13
  ((st * 2 + if new then 1 else 0) % 2 ^ 15, new)

/-- The seed of subcarrier `s` and polarisation `p` at symbol 0 of a furlong (03 R79). -/
def prbsSeed (s p : Nat) : Nat := (0x4015 + 0x0100 * s + 0x0040 * p) % 2 ^ 15

/-- The first `n` output bits of the generator from a state. -/
def prbsBits : Nat → Nat → List Bool
  | 0, _ => []
  | n + 1, st => let (st', b) := prbs15 st; b :: prbsBits n st'

/-- Taps (as powers of x below the degree) and degree of a pattern code of 08 R238, none for a reserved code. -/
def patPoly : Nat → Option (Nat × List Nat × Nat)
  | 0 => some (7, [7, 6], 0x7F)
  | 1 => some (13, [13, 12, 2, 1], 0x1FFF)
  | 2 => some (31, [31, 28], 0x7FFFFFFF)
  | 3 => some (16, [16, 14, 13, 11], 0xACE1)
  | _ => none

/-- One step of a Fibonacci pattern generator (08 R238): the output bit of each step is fed back. -/
def patStep (deg : Nat) (taps : List Nat) (st : Nat) : Nat × Bool :=
  let b := taps.foldl (fun a t => a != bitOf st (t - 1)) false
  ((st * 2 + if b then 1 else 0) % 2 ^ deg, b)

/-! ### SHA-256 -/

/-- A 32-bit addition. -/
def add32 (a b : Nat) : Nat := (a + b) % 2 ^ 32

/-- A 32-bit rotation to the right. -/
def rotr (n x : Nat) : Nat := (x / 2 ^ n + x * 2 ^ (32 - n)) % 2 ^ 32

/-- A number below `n` has a divisor among those listed. -/
def divides (ds : List Nat) (n : Nat) : Bool := ds.any fun d => n % d == 0

/-- The primes below a bound, in rising order: what no smaller prime divides. -/
def primesTo : Nat → List Nat
  | 0 => []
  | n + 1 => let ps := primesTo n; if 2 ≤ n ∧ !divides ps n then ps ++ [n] else ps

/-- The largest `r` below 2^b with r^k at most `x`, found bit by bit. -/
def rootBits (k x : Nat) : Nat → Nat → Nat
  | 0, r => r
  | b + 1, r => let t := r + 2 ^ b; rootBits k x b (if t ^ k ≤ x then t else r)

/-- The first 32 bits of the fraction of the k-th root of `p`: the constants of SHA-256 are such fractions, of the
primes. -/
def rootFrac (k p : Nat) : Nat := rootBits k (p * 2 ^ (32 * k)) 40 0 % 2 ^ 32

/-- The round constants: cube roots of the primes to 311. -/
def shaK : List Nat := (primesTo 312).map (rootFrac 3)

/-- The value a digest starts from: square roots of the primes to 19. -/
def shaIv : List Nat := (primesTo 20).map (rootFrac 2)

/-- Exclusive or of the rotations of a word by each of a list. -/
def rotXor (ns : List Nat) (x : Nat) : Nat := ns.foldl (fun a n => a ^^^ rotr n x) 0

/-- The message schedule: the last sixteen words, newest first, extended `n` times. -/
def shaSched : Nat → List Nat → List Nat
  | 0, ws => ws
  | n + 1, ws =>
    let w15 := ws.getD 14 0
    let w2 := ws.getD 1 0
    let s0 := rotXor [7, 18] w15 ^^^ (w15 / 8)
    let s1 := rotXor [17, 19] w2 ^^^ (w2 / 1024)
    shaSched n (add32 (add32 s1 (ws.getD 6 0)) (add32 s0 (ws.getD 15 0)) :: ws)

/-- One round over the eight working words, oldest name first: each moves one place on, and the sums enter at the
first and fifth place. -/
def shaRound (v : List Nat) (kw : Nat) : List Nat :=
  match v with
  | [a, b, c, d, e, f, g, h] =>
    let pick := (e &&& f) ||| ((e ^^^ (2 ^ 32 - 1)) &&& g)
    let most := (a &&& b) ||| (c &&& (a ||| b))
    let t := h + rotXor [6, 11, 25] e + pick + kw
    [add32 t (rotXor [2, 13, 22] a + most), a, b, c, add32 d t, e, f, g]
  | _ => v

/-- One block of 64 bytes. -/
def shaBlock (v : List Nat) (blk : List Byte) : List Nat :=
  let w := ((pieces 4 16 blk).map ofBe).reverse
  List.zipWith add32 v ((List.zipWith add32 (shaSched 48 w).reverse shaK).foldl shaRound v)

/-- SHA-256 of a byte string, in its natural byte order (02 R43). -/
def sha256 (m : List Byte) : List Byte :=
  let zeros := (119 - m.length % 64) % 64
  let padded := m ++ [0x80#8] ++ List.replicate zeros 0#8 ++ beBytes 8 (8 * m.length)
  ((pieces 64 (padded.length / 64) padded).foldl shaBlock shaIv).flatMap (beBytes 4)

/-- HMAC-SHA-256 with a 32-byte key (16 R397). -/
def hmacSha256 (key : List Byte) (m : List Byte) : List Byte :=
  let k := key ++ List.replicate (64 - key.length) 0#8
  sha256 (k.map (· ^^^ 0x5C#8) ++ sha256 (k.map (· ^^^ 0x36#8) ++ m))

/-! ### ECDSA P-256 -/

/-- The prime of P-256. -/
def p256P : Nat := 0xffffffff00000001000000000000000000000000ffffffffffffffffffffffff
/-- The order of P-256's base point. -/
def p256N : Nat := 0xffffffff00000000ffffffffffffffffbce6faada7179e84f3b9cac2fc632551
/-- The constant b of P-256. -/
def p256B : Nat := 0x5ac635d8aa3a93e7b3ebbd55769886bc651d06b0cc53b0f63bce3c3e27d2604b
/-- The base point of P-256. -/
def p256G : Nat × Nat :=
  (0x6b17d1f2e12c4247f8bce6e563a440f277037d812deb33a0f4a13945d898c296,
   0x4fe342e2fe1a7f9b8ee7eb4a7c0f9e162bce33576b315ececbb6406837bf51f5)

/-- Power modulo `m`, over `fuel` exponent bits. -/
def powMod (m : Nat) : Nat → Nat → Nat → Nat
  | 0, _, _ => 1 % m
  | fuel + 1, b, e =>
    let r := powMod m fuel (b * b % m) (e / 2)
    if e % 2 = 1 then r * b % m else r

/-- The inverse modulo a prime. -/
def invMod (m a : Nat) : Nat := powMod m 256 (a % m) (m - 2)

/-- A point lies on P-256 (16 R402). -/
def onP256 (x y : Nat) : Bool :=
  decide (x < p256P) && decide (y < p256P) &&
    (y * y % p256P == (x * x * x + (p256P - 3) * x + p256B) % p256P)

/-- Addition of points; `none` is the point at infinity. -/
def ecAdd : Option (Nat × Nat) → Option (Nat × Nat) → Option (Nat × Nat)
  | none, q => q
  | p, none => p
  | some (x1, y1), some (x2, y2) =>
    if x1 = x2 ∧ (y1 + y2) % p256P = 0 then none
    else
      let l := if x1 = x2 then (3 * x1 * x1 + p256P - 3) * invMod p256P (2 * y1) % p256P
               else (y2 + p256P - y1) * invMod p256P (x2 + p256P - x1) % p256P
      let x3 := (l * l + 2 * p256P - x1 - x2) % p256P
      some (x3, (l * (x1 + p256P - x3) + p256P - y1) % p256P)

/-- Scalar multiple of a point, over `fuel` scalar bits. -/
def ecMul : Nat → Nat → Option (Nat × Nat) → Option (Nat × Nat)
  | 0, _, _ => none
  | fuel + 1, k, q =>
    let r := ecMul fuel (k / 2) (ecAdd q q)
    if k % 2 = 1 then ecAdd r q else r

/-- An ECDSA P-256 signature (r followed by s, 32 bytes big-endian each) over a digest verifies against the key
(x, y) (02 R43, R44, R45). -/
def ecdsaOk (x y : Nat) (digest sig : List Byte) : Bool :=
  let r := ofBe (sig.take 32)
  let s := ofBe (sig.drop 32)
  if !onP256 x y || r = 0 || s = 0 || p256N ≤ r || p256N ≤ s then false
  else
    let w := invMod p256N s
    match ecAdd (ecMul 256 (ofBe digest * w % p256N) (some p256G)) (ecMul 256 (r * w % p256N) (some (x, y))) with
    | none => false
    | some (px, _) => px % p256N == r

end Sys2Proof.Machine
end

