-- ==== Sys2Proof/Machine/Fixed.lean ====
section
/-! DEFINITION. Real numbers of the signal formulas, in fixed point: an integer counts steps of 2^-40. Each operation is
exact but for one rounding, or cuts its series below that step. How the device represents the reals between one stated
rounding and the next is not stated: DESIGN CHOICE (log 112). -/
namespace Sys2Proof.Machine

/-- The fixed-point one. -/
def fxOne : Int := 1099511627776

/-- A whole number. -/
def fxOf (n : Int) : Int := n * fxOne

/-- The quotient of two whole numbers; 0 where the divisor is 0. -/
def fxRat (a : Int) (b : Nat) : Int := if b = 0 then 0 else rdiv (a * fxOne) b

/-- Product. -/
def fxMul (a b : Int) : Int := rdiv (a * b) 1099511627776

/-- Quotient; 0 where the divisor is 0. -/
def fxDiv (a b : Int) : Int := if b = 0 then 0 else if 0 < b then rdiv (a * fxOne) b.toNat else -rdiv (a * fxOne) (-b).toNat

/-- Rounded to a whole number, halves away from zero. -/
def fxRound (a : Int) : Int := rdiv a 1099511627776

/-- The square root of what is not negative. -/
def fxSqrt (a : Int) : Int := (rootBits 2 (a.toNat * 1099511627776) 64 0 : Nat)

/-- π. -/
def fxPi : Int := 3454217652357

/-- A polynomial, coefficients from the constant upward. -/
def fxPoly (cs : List Int) (x : Int) : Int := cs.foldr (fun c a => c + fxMul a x) 0

/-- A power series by Horner's rule, each term being the one before times `y` over the next divisor. -/
def fxNest (y : Int) (ds : List Nat) : Int := ds.foldr (fun d a => fxOne + rdiv (fxMul y a) d) fxOne

/-- Sine of an angle within ±π. -/
def fxSinRad (x : Int) : Int := fxMul x (fxNest (-(fxMul x x)) ((List.range 15).map fun k => (2 * k + 2) * (2 * k + 3)))

/-- An angle in turns taken into ±1/2. -/
def fxTurn (t : Int) : Int := (t + fxOne / 2) % fxOne - fxOne / 2

/-- Sine of an angle in turns. -/
def fxSin (t : Int) : Int := fxSinRad (2 * fxMul fxPi (fxTurn t))

/-- Cosine of an angle in turns. -/
def fxCos (t : Int) : Int := fxSin (t + fxOne / 4)

/-- ln 2. -/
def fxLn2 : Int := 762123384786

/-- ln 10. -/
def fxLn10 : Int := 2531719086166

/-- The exponential. -/
def fxExp (x : Int) : Int :=
  let n := x / fxLn2
  let r := fxNest (x - n * fxLn2) (List.range' 1 18)
  if n < 0 then r / (2 : Int) ^ (-n).toNat else r * (2 : Int) ^ n.toNat

/-- The natural logarithm of what is positive. -/
def fxLn (a : Int) : Int :=
  let n := (Nat.log2 a.toNat : Int) - 40
  let m := if n < 0 then a * (2 : Int) ^ (-n).toNat else a / (2 : Int) ^ n.toNat
  let z := fxDiv (m - fxOne) (m + fxOne)
  n * fxLn2 + 2 * fxMul z (fxPoly ((List.range 22).map fun k => fxRat 1 (2 * k + 1)) (fxMul z z))

/-- Ten to a power. -/
def fxTen (x : Int) : Int := fxExp (fxMul x fxLn10)

/-- The common logarithm. -/
def fxLog10 (x : Int) : Int := fxDiv (fxLn x) fxLn10

/-- The angle, in radians, whose tangent is within ±1: the angle is halved twice before the series. -/
def fxAtan (z : Int) : Int :=
  let half (z : Int) : Int := fxDiv z (fxOne + fxSqrt (fxOne + fxMul z z))
  let w := half (half z)
  4 * fxMul w (fxPoly ((List.range 18).map fun k => fxRat (if k % 2 = 0 then 1 else -1) (2 * k + 1)) (fxMul w w))

/-- Zero. -/
def cxZero : Cx := ⟨0, 0⟩
/-- Sum. -/
def cxAdd (a b : Cx) : Cx := ⟨a.re + b.re, a.im + b.im⟩
/-- Difference. -/
def cxSub (a b : Cx) : Cx := ⟨a.re - b.re, a.im - b.im⟩
/-- Product. -/
def cxMul (a b : Cx) : Cx := ⟨fxMul a.re b.re - fxMul a.im b.im, fxMul a.re b.im + fxMul a.im b.re⟩
/-- Conjugate. -/
def cxConj (a : Cx) : Cx := ⟨a.re, -a.im⟩
/-- A multiple by a real. -/
def cxScale (k : Int) (a : Cx) : Cx := ⟨fxMul k a.re, fxMul k a.im⟩
/-- The squared magnitude. -/
def cxAbs2 (a : Cx) : Int := fxMul a.re a.re + fxMul a.im a.im
/-- The unit vector at an angle in turns. -/
def cxTurn (t : Int) : Cx := ⟨fxCos t, fxSin t⟩
/-- Sum of a list. -/
def cxSum (l : List Cx) : Cx := l.foldl cxAdd cxZero

/-- The argument, in radians. -/
def cxArg (a : Cx) : Int :=
  if a.re = 0 ∧ a.im = 0 then 0
  else if a.im.natAbs ≤ a.re.natAbs then
    let t := fxAtan (fxDiv a.im a.re)
    if 0 ≤ a.re then t else if 0 ≤ a.im then t + fxPi else t - fxPi
  else (if 0 ≤ a.im then fxPi / 2 else -(fxPi / 2)) - fxAtan (fxDiv a.re a.im)

/-- The transform of a block at one bin: `k` of `n` points. -/
def dftBin (x : List Cx) (n : Nat) (inv : Bool) (k : Nat) : Cx :=
  cxSum (x.zipIdx.map fun e => cxMul e.1 (cxTurn (fxRat ((if inv then 1 else -1) * ((k * e.2 % n : Nat) : Int)) n)))

/-- The transform of a block. -/
def dft (x : List Cx) : List Cx := (List.range x.length).map (dftBin x x.length false)

/-- The inverse transform. -/
def idft (x : List Cx) : List Cx := (List.range x.length).map fun k => cxScale (fxRat 1 x.length) (dftBin x x.length true k)

/-- The signed offset of bin `k` of `n`: bins of the upper half stand for negative frequencies. -/
def binOffset (n k : Nat) : Int := if 2 * k < n then k else (k : Int) - n

/-- The turns of H(f) of 03 R97 and 04 R114 for `d` ps/nm at `f` Hz from a carrier of `nu` Hz: D λ² f² / (2c), λ = c/ν. -/
def dispTurns (d : Int) (f : Int) (nu : Nat) : Int := fxRat (d * 299792458 * f * f) (2000 * nu * nu)

/-- A block multiplied by H(f) bin by bin, `step` the distance of bins in Hz over `den` and `d` the dispersion by bin (none:
the bin is set to zero). -/
def disperse (x : List Cx) (fs : Nat) (nu : Nat) (d : Int → Option Int) : List Cx :=
  let n := x.length
  idft ((dft x).zipIdx.map fun e =>
    let f := binOffset n e.2 * fs / n
    match d f with
    | some d => cxMul e.1 (cxTurn (dispTurns d f nu))
    | none => cxZero)

/-- The root-raised-cosine impulse of roll-off 1/25 at `n/os` symbols, truncated to ±64 symbols (03 R95). -/
def rrc (os : Nat) (n : Int) : Int :=
  if (64 * os : Nat) < n.natAbs then 0
  else if n = 0 then fxOne - fxRat 1 25 + fxDiv (fxRat 4 25) fxPi
  else
    let t := fxRat n os
    let b4 := fxRat 4 25
    let den := fxRat (625 * (os * os : Nat) - 16 * n * n) (625 * os * os)
    if den = 0 then
      let p2 := fxDiv (fxOf 2) fxPi
      fxMul (fxRat 1 25) (fxDiv (fxMul (fxOne + p2) (fxSin (fxRat 25 8)) + fxMul (fxOne - p2) (fxCos (fxRat 25 8))) (fxSqrt (fxOf 2)))
    else
      fxDiv (fxSin (fxRat (24 * n) (50 * os)) + fxMul (fxMul b4 t) (fxCos (fxRat (26 * n) (50 * os)))) (fxMul (fxMul fxPi t) den)

end Sys2Proof.Machine
end

