-- ==== Sys2Proof/Config.lean ====
section
/-! DEFINITION. The free values: what the manual leaves open and the machine goes on with. None has a body, so
nothing proved about the model can rest on a value of one of them. Each is named in the assumption log. -/
namespace Sys2Proof.Config

/-- A fresh number for the draw with this index: the choices that the manual bounds and does not fix. -/
opaque freeValue : Nat → Nat

/-- The temperature, in 0.1 degree, that the factory trim fuses make of a mean sensor code (14 R356): the
conversion is not stated. -/
opaque tempOfCode : Int → Int

end Sys2Proof.Config
end

