-- ==== Sys2Proof/Machine/State.lean ====
section
/-! DEFINITION. The state of the block as plain data, and the state right after reset. What software reads as a
register field stands once, in `regs`; the other structures hold what the spec gives the machine beside registers. -/
namespace Sys2Proof.Machine

/-- A register field: address of its register, lowest bit, width, reset value (00 R8, R12). -/
structure Fld where
  addr  : Nat
  lo    : Nat
  width : Nat
  rst   : Nat
deriving DecidableEq, Repr

/-- The promotion counter of a source (11 R285): OPEN keeps the count and the threshold its window opened with. -/
inductive EvCount where
  | idle | opened (count n : Nat) | spent
deriving DecidableEq, Repr

/-- A merged detection waiting for the next millisecond (11 R293). -/
structure Merged where
  cls   : Nat
  flags : Nat
  count : Nat
deriving DecidableEq, Repr

/-- What a block keeps of one source beside its registers (11 R285, R293). -/
structure EvSrc where
  count  : EvCount
  marked : Bool
  merged : Option Merged
deriving DecidableEq, Repr

/-- A Ledger record (13 R327): payload words from word 4. -/
structure LRec where
  typ     : Nat
  flags   : Nat
  seq     : Nat
  time    : Nat
  payload : List Nat
deriving DecidableEq, Repr

/-- A run of lost records of one cause (13 R331). -/
structure LossRun where
  first : Nat
  count : Nat
  cause : Nat
deriving DecidableEq, Repr

/-- One histogram (13 R337): three sets of bins and of extremes, and its flags of R339. -/
structure Hist where
  cur  : Tab Nat
  prev : Tab Nat
  life : Tab Nat
  curX : Int × Int
  prevX : Int × Int
  lifeX : Int × Int
  sat : Bool
  lifeValid : Bool
deriving DecidableEq, Repr

/-- The Ledger beside its registers (13 R328-R340): SEQ of the next record, intake queue, records of the region with
their offsets, pending LOSS runs, reserve, histograms, damaged histograms, records lost for a
full queue whose RECORD_LOST is still to be raised. -/
structure LedgerSt where
  seq     : Nat
  intake  : List LRec
  region  : List (Nat × LRec)
  runs    : List LossRun
  reserve : List LRec
  hist    : Tab Hist
  damaged : List Nat
  unrep   : Nat
deriving DecidableEq, Repr

/-- Operating time (13 R320-R326): grains, power-cycle count, grains since the AON reset, phase correction left in
ticks, grains at the last checkpoint written, whether a failed periodic checkpoint waits for its retry, and whether
the reference was seen absent. -/
structure TimeSt where
  grains    : Nat
  cycles    : Nat
  sinceRst  : Nat
  err       : Int
  lastCkpt  : Nat
  ckptRetry : Bool
deriving DecidableEq, Repr

/-- An MPORT frame in the queue of four (15 R367): address and the words still to apply. -/
structure MpFrame where
  addr  : Nat
  words : List Word
deriving DecidableEq, Repr

/-- MPORT and the window beside their registers (15 R364-R369; 18 R434-R437): device address, queue of writes, STATUS and
DATA of the last complete frame, bytes of the last read phase, address of a READ that still stretches, latches of the
requesters, the steward's window, data of the last read of TBL_DATA. -/
structure MpSt where
  addr     : Nat
  queue    : List MpFrame
  last     : Option (Nat × Nat)
  reply    : List Byte
  pendRead : Option Nat
  latch    : Tab Nat
  stwSel   : Nat
  stwAddr  : Nat
  stwErr   : Nat
  tblOut   : Nat
deriving DecidableEq, Repr

/-- How a domain leaves ON step by step (14 R346); a forced off takes its steps at once. -/
inductive EntryKind where
  | retention | orderly
deriving DecidableEq, Repr

/-- A domain's sequence (14 R342-R347): WAKING with its step, whether from off, whether it is the retry. -/
inductive DomSt where
  | off
  | waking (step : Nat) (fromOff retry : Bool)
  | on
  | entering (step : Nat) (kind : EntryKind)
  | retention
deriving DecidableEq, Repr

/-- The power controller beside its registers (14 R342-R350): sequences, domains whose retry is owed, domains whose retry
failed and whose target has not been set since, whether MGMT has come up since power-on, whether the image selection is over. -/
structure PwSt where
  dom       : Tab DomSt
  retryPend : List Nat
  gaveUp    : List Nat
  firstUp   : Bool
  booted    : Bool
deriving DecidableEq, Repr

/-- What a section's records give its zone (02 R46, R445). -/
structure ZContent where
  regs    : List (Nat × Nat)
  code    : Option Nat
  firkins : List (Nat × Nat × Nat)
  table   : List (Nat × Nat)
  perches : List (Nat × Nat)
  routes  : List (List Byte)
  fw      : List (Nat × List Byte)
deriving DecidableEq, Repr

/-- The header of a section (02 R45). -/
structure SecHdr where
  len   : Nat
  zone  : Nat
  mode  : Nat
  key   : Nat
  epoch : Nat
  recs  : Nat
  build : Nat
  tx    : Nat
  rx    : Nat
deriving DecidableEq, Repr

/-- A section being staged (02 R50, R56): header, DIGEST it must have, record bytes so far, content, the source it
comes from (1 image A, 2 image B, 3 volatile) with its offset, and whether it belongs to a streamed image. -/
structure SecSt where
  hdr     : SecHdr
  digest  : List Byte
  body    : List Byte
  content : ZContent
  src     : Nat
  off     : Nat
  inImage : Bool
deriving DecidableEq, Repr

/-- A whole image being taken (02 R446, R447): IMAGE_SEQ, IMAGE_LEN, SECTION_COUNT, DIGEST, bytes after the header so
far, zones met. -/
structure ImgSt where
  seq    : Nat
  len    : Nat
  count  : Nat
  digest : List Byte
  body   : List Byte
  zones  : List Nat
deriving DecidableEq, Repr

/-- The loader beside its registers (02 R51, R447; 15 R386): source of the load in progress, bytes not yet taken,
their offset in the image, the section, the image, store sections still to take, bytes of a section that ended early to pass
over, CONFIG payload discarded since a sequence gap. -/
structure LoaderSt where
  src     : Nat
  buf     : List Byte
  pos     : Nat
  sec     : Option SecSt
  img     : Option ImgSt
  todo    : List (Nat × List Byte)
  skip    : Nat
  discard : Bool
deriving DecidableEq, Repr

/-- What a commit or a revert brings to a zone (02 R56, R61, R65, R66): completed content, the identity it sets, its commit
points, and its place among the sections armed. -/
structure Pending where
  content : ZContent
  epoch   : Nat
  build   : Nat
  src     : Nat
  off     : Nat
  inImage : Bool
  tx      : Nat
  rx      : Nat
  mode    : Nat
  issue   : Nat
  order   : Nat
deriving DecidableEq, Repr

/-- A zone beside its registers (02 R56, R60, R66): content copied to inactive banks, content in the active banks, a
revert waiting for its switch (`none` content: a withdrawal) with the domain whose wake brought it, whether the transmit side of a
commit has switched, and the groups whose stream is still to carry the header at which its perches switch. -/
structure ZoneSt where
  copied   : Option Pending
  active   : ZContent
  revert   : Option (Option Pending)
  waking   : Nat
  switched : Bool
  waits    : List Nat
deriving DecidableEq, Repr

/-- A record write in progress (15 R372, R444): kind, bytes with sequence number and check word still to be set, and
for a checkpoint its CAUSE. -/
structure RecWrite where
  kind  : RecKind
  bytes : List Byte
  cause : Nat
deriving DecidableEq, Repr

/-- The store and its port (15 R370-R373, R444): flash bytes in canonical form (an unlisted byte reads 0xFF), write
enable, extended address, a program or erase in progress, whether STORE_SMALL holds, bytes of the last read, record
writes, waiting transfers by rank. -/
structure StoreSt where
  cells    : List Host.Cell
  wel      : Bool
  bank     : Nat
  busy     : Bool
  small    : Bool
  lastRead : List Byte
  writes   : List RecWrite
  waiting  : List Nat
deriving DecidableEq, Repr

/-- A firkin block (03 R70): header fields and the 64 payload words. -/
structure Blk where
  typ    : Nat
  firkin : Nat
  fseq   : Nat
  words  : List Word
deriving DecidableEq, Repr

/-- The framer of one subcarrier in its run (03 R81-R87): bits not yet framed, codewords framed, data of the codewords
of the outer block so far, outer parity of that block, the codewords framed in order. -/
structure TxRun where
  bits  : List Bool
  count : Nat
  data  : List (List Bool)
  par   : List Bool
  cws   : List (List Bool)
deriving DecidableEq, Repr

/-- Line transmit beside its registers (03 R70-R100): wait timers with their timeout, queued blocks and next FSEQ of
each firkin, firkin served last and block sent last per subcarrier, EPOCH the headers carry, item stream and chunk
count of each client, furlongs of each run, header points of the furlong in progress per subcarrier and polarisation (signs
of real and imaginary parts). -/
structure TxSt where
  timer   : Tab Nat
  queue   : Tab (List Blk)
  fseq    : Tab Nat
  served  : Tab Nat
  sent    : Tab Blk
  run     : Tab TxRun
  epoch   : Tab Nat
  stream  : Tab (List Word)
  chunk   : Tab Nat
  runFur  : Tab Nat
  header  : Tab (List (Bool × Bool))
deriving DecidableEq, Repr

/-- An acquisition unit beside its registers (04 R118-R126; 05 R143, R151): trial D, search timer, candidate, headers passed in
a row, peaks retained in order, headers failed in a row, whether the next header is the first, last FURLONG and pass and fail
runs by subcarrier, subcarriers masked in the stay, EPOCH and FURLONG of the last header, last passing FURLONG since a transmit
switch, last unexpected tag, intruders with the furlongs since they were seen, frequency offset in Hz, symbol timing,
symbol-rate offset in ppm, FURLONG at which the run in progress began. -/
structure AcqU where
  trialD   : Int
  timer    : Option Nat
  cand     : Option Peak
  passes   : Nat
  retained : List (Peak × List HdrSc)
  fails    : Nat
  first    : Bool
  lastFur  : Tab Nat
  failRun  : Tab Nat
  passRun  : Tab Nat
  staySeen : List Nat
  prevEp   : Option Nat
  prevFur  : Option Nat
  passFur  : Option Nat
  unexp    : Option Nat
  intr     : Tab Nat
  foffHz   : Int
  timing   : Nat
  rate     : Int
  runFur   : Nat
deriving DecidableEq, Repr

/-- Sums over reference points x and received points r (05 R157): Σ r·x*, Σ|x|², Σ|r|². -/
structure RefSum where
  corr : Cx
  e    : Int
  r    : Int
deriving DecidableEq, Repr

/-- What a subcarrier has gathered of a quality interval (05 R155-R159): sums over headers and pilots and over regenerated
points, codewords released and failed, pre-FEC errors and bits, the sum of log2 terms with the pol-symbols it covers, Σ|e|²
without and with the correction. -/
structure QAcc where
  known   : RefSum
  data    : RefSum
  cws     : Nat
  fails   : Nat
  errs    : Nat
  bits    : Nat
  info    : Int
  pols    : Nat
  without : Int
  withCor : Int
deriving DecidableEq, Repr

/-- Line receive beside its registers: units, AGC replacement, equaliser taps of each subcarrier (four complex taps a
position), iteration and codeword counts of each group at the last interval, interval length of each measuring unit,
subcarriers (32 c + sc) whose codeword in progress is to be erased (01 R32; 04 R126), carriers whose symbol timing a slip took
(01 R32), subcarriers whose LLRs are zero until their next header (05 R146), those that adapt as in ALIGN until it (05 R147),
Fathom level of each subcarrier stream (05 R136), tentative decisions by arrival time (05 R132), the quality interval in
progress and the last complete one, header and pilot sums since ALIGN entry (05 R154). -/
structure RxSt where
  unit   : Tab AcqU
  agcRep : List Nat
  taps   : Tab (List Int)
  qPrev  : Tab (Nat × Nat)
  qLen   : Tab Nat
  slipped : List Nat
  retime  : List Nat
  mute    : List Nat
  early   : List Nat
  level   : Tab Nat
  dec     : Tab (Tab (Cx × Cx))
  qAcc    : Tab QAcc
  qDone   : Tab QAcc
  known   : Tab RefSum
deriving DecidableEq, Repr

/-- A snapshot being written (05 R141): next page, header bytes before PAGE_CRC, bytes of the pages copied. -/
structure SnapSt where
  next  : Nat
  head  : List Byte
  pages : List (List Byte)
deriving DecidableEq, Repr

/-- The Fathom engine beside its registers (05 R131-R142): table, gradient accumulators by entry, pages
to clear, load in progress, snapshot in progress, stopped by a Grave fault (11 R303). -/
structure FathomSt where
  table   : Tab Nat
  acc     : Tab (Int × Int)
  clear   : List Nat
  loading : Bool
  snap    : Option SnapSt
  stopped : Bool
deriving DecidableEq, Repr

/-- What a subcarrier's SC_SHAPE and its group's CODE_SELECT say of its codewords (03 R84): mode, composition, B, information
columns, outer code. -/
structure CwCfg where
  mode  : Nat
  c0    : Nat
  c1    : Nat
  c2    : Nat
  b     : Nat
  kb    : Nat
  outer : Bool
deriving DecidableEq, Repr

/-- A codeword in the decoder pool (06 R167-R172): phase 0 waiting, 1 decoding, 2 done; `zero` its syndrome is zero,
`first` it is the first of a run, `num` its number in the run; its LLRs before quantisation, its decoder's sums and
messages, its points with the Fathom correction and without, the arrival time of each. -/
structure Cw where
  id     : Nat
  grp    : Nat
  sc     : Nat
  cfg    : CwCfg
  num    : Nat
  phase  : Nat
  iter   : Nat
  hard   : List (BitVec 192)
  zero   : Bool
  erased : Bool
  first  : Bool
  llr    : List Int
  post   : List Int
  msgs   : List (List Int)
  pts    : List Cx
  raw    : List Cx
  times  : List Nat
deriving DecidableEq, Repr

/-- The outer decoder and deframer of one subcarrier (06 R173-R177): the block whose data is
next to be final, the component words of that block that failed, data bits not yet cut into blocks
with their erasure. -/
structure Deframe where
  last   : Option (List Cw)
  lastBad : List Nat
  bits   : List Bool
  lost   : List Bool
deriving DecidableEq, Repr

/-- An entry of a firkin's receive queue (06 R178). -/
inductive QEnt where
  | block (b : Blk)
  | gaps (cause fseq count : Nat)
deriving DecidableEq, Repr

/-- A client mapper (06 R188): words read and not yet used, whether they start a chunk, chunk index. -/
structure MapSt where
  words : List Word
  next  : Nat
deriving DecidableEq, Repr

/-- The FEC domain beside its registers (06 R167-R191; 07 R206): identity of the next codeword, pool in order of entry,
deframers, receive queues, expected sequence numbers, pending COMMIT marks with the place they follow, firkin maps (peer
group and subcarrier in the transmit and in the receive bank, client), per-firkin counts, client mappers, items of the last chunk delivered, subcarriers whose
next codeword begins a run, codewords of the run entered by subcarrier. -/
structure FecSt where
  nextId  : Nat
  pool    : List Cw
  deframe : Tab Deframe
  rxq     : Tab (List QEnt)
  expect  : Tab Nat
  commit  : Tab (Nat × Nat)
  line    : Tab Nat
  rxLine  : Tab Nat
  client  : Tab Nat
  cnt     : Tab Nat
  mapper  : Tab MapSt
  itemsOut : Tab (List ClientItem)
  runMark : List Nat
  runPos  : Tab Nat
deriving DecidableEq, Repr

/-- The inner-frame search of a lane (08 R222): the bits received last, bits after the last frame's end, consecutive wrong SYNCs in
lock, frame of the quad, the MSG bits of the quad so far as passed on. -/
structure InnerSt where
  bits : List Bool
  tail : Nat
  bad  : Nat
  quad : Nat
  msg  : List Bool
deriving DecidableEq, Repr

/-- The pattern checker of a lane (08 R239): register, error-free run, errored symbols of the last 256. -/
structure PatSt where
  lfsr : Nat
  good : Nat
  win  : List Bool
deriving DecidableEq, Repr

/-- Host lanes beside their registers (08 R222-R239): groups whose hold timer or time in ACQUIRE runs, those that have
raised HOLD_LONG for it, those a Grave fault stopped, coefficients in force, frame search, pattern checkers, by lane the newest
samples and decided levels (newest first), by group RS codewords since its entry to ACQUIRE with the uncorrectable ones, and items
that a near-end loop returns. -/
structure HostSt where
  timers  : List Nat
  alarmed : List Nat
  grave   : List Nat
  coef    : Tab Nat
  inner   : Tab InnerSt
  pat     : Tab PatSt
  smp     : Tab (List Int)
  dec     : Tab (List Int)
  rsSeq   : Tab Nat
  rsBad   : Tab (List Nat)
  back    : Tab (List ClientItem)
deriving DecidableEq, Repr

/-- A bias search (09 R256): step, frames since C reached T, and the E values found. -/
structure SearchSt where
  step : Nat
  wait : Nat
  errs : List Int
deriving DecidableEq, Repr

/-- A bias channel beside its registers (09 R248-R256): P, dither phase, register writes waiting for the frame boundary,
search, blocks at the limit and blocks OVR in a row, the settled outputs that the detector has taken (each with the phase at its
frame boundary and whether it is over-range, oldest first), the code driven, a carrier fault to act on. -/
structure BiasCh where
  p      : Int
  phase  : Nat
  pend   : List (Nat × Nat)
  search : Option SearchSt
  rail   : Nat
  ovrRun : Nat
  blk    : List (Int × Nat × Bool)
  code   : Int
  fault  : Bool
deriving DecidableEq, Repr

/-- A decimation chain (09 R246, R247): delay lines, inputs seen by each stage, loop-rate outputs since the restart,
over-range seen. -/
structure Chain where
  d1 : List Int
  d2 : List Int
  d3 : List Int
  n1 : Nat
  n2 : Nat
  n3 : Nat
  outs : Nat
  ovr  : Bool
deriving DecidableEq, Repr

/-- Control converters beside their registers: the settled outputs of the last frame by slot, with their over-range flags. -/
structure BiasSt where
  ch    : Tab BiasCh
  chain : Tab Chain
  out   : Tab (Int × Bool)
deriving DecidableEq, Repr

/-- Calibration beside its registers (10 R262-R271): foreground runs in progress, runs owed after a wake, coefficients
in force, results waiting for their boundary, the HK_CAL factors waiting, whether a triggered calibration runs and
whether in its first step, carriers whose run or pass of it is still to end, temperatures at the start. -/
structure CalSt where
  running : List Nat
  wakeRun : List Nat
  coef    : Tab CalResult
  waiting : Tab CalResult
  hkWait  : Option (Nat × Nat)
  trig    : Bool
  trigHk  : Bool
  owed    : List Nat
  temp    : Tab Int
deriving DecidableEq, Repr

/-- A laser behind a port (10 R276-R279): output last commanded, run of bad answers, frames of the last command,
last frequency error, whether it is stopped for good. -/
structure LaserSt where
  on      : Bool
  bad     : Nat
  sent    : List Nat
  freqErr : Int
deriving DecidableEq, Repr

/-- Laser ports beside their registers. -/
structure LaserPortSt where
  laser   : Tab LaserSt
  stopped : List Nat
deriving DecidableEq, Repr

/-- A protected memory (12 R305-R319): next row, poison list, the uncorrected words that a full list could not take (R313),
repeated corrections (row*128+bit to passes in a row and the pass it was last seen), rows mapped to spares. -/
structure MemSt where
  row    : Nat
  poison : List Nat
  bad    : List Nat
  runs   : Tab (Nat × Nat)
  mapped : List Nat
deriving DecidableEq, Repr

/-- Memory protection beside its registers: memories, candidates known (m, cause, row), the AON candidate buffer. -/
structure ProtSt where
  mem    : Tab MemSt
  cands  : List (Nat × Nat × Nat)
  buffer : List (Nat × Nat)
deriving DecidableEq, Repr

/-- The adaptive voltage master beside its registers (14 R351-R353): the request outstanding with its stage (0 its
VOUT_COMMAND is due, 1 its STATUS_WORD, 2 its READ_VOUT), updates in a row at or above LOWER, whether AVS_CEILING was raised
for this period, whether the first READ_VOUT of a wake is due, the word last sent with VOUT_COMMAND. -/
structure AvsSt where
  request : Option Nat
  stage   : Nat
  low     : Nat
  ceiling : Bool
  first   : Bool
  vout    : Nat
deriving DecidableEq, Repr

/-- Temperature and throttle beside their registers (14 R355-R363): readings in a row that show a broken sensor, whether
TEMP_WARN waits for a fall below WARN - HYST, whether a missing source set TH_REQ, whether the sensor's reading is less than
10 ms old, whether every value since TH_REQ began to rise is at or above THROTTLE. -/
structure ThermSt where
  badRun : Nat
  warned : Bool
  stale  : Bool
  fresh  : Bool
  rising : Bool
deriving DecidableEq, Repr

/-- A bushel beside its registers (01 R23-R31): whether it slips, tokens discarded or filled in the slip, whether it has
completed a window since it was last on, and since the last wake that matters to VALID, H(n) of its last window in 2^-26,
WIN_LOG2 of the window in progress (0: the register's, as nothing changed it since the window began), its occupancy,
the first token written after its last slip, arriving tokens it still owes to discard for fill tokens, the samples
or symbols of the last fill token. -/
structure Bushel where
  slipping : Bool
  tokens   : Nat
  done     : Bool
  since    : Bool
  h        : Nat
  win      : Nat
  occ      : Nat
  written  : Option Token
  owed     : Nat
  fill     : List Int
deriving DecidableEq, Repr

/-- The fabric beside its registers: bushels, windows in a row at or above RAISE, writes of fabric-resident registers that
wait for a token (01 R36). -/
structure FabricSt where
  bushel : Tab Bushel
  good   : Nat
  writes : List (Nat × Nat)
deriving DecidableEq, Repr

/-- An outbound packet as last sent (15 R375, R376). -/
structure OutPkt where
  typ     : Nat
  flags   : Nat
  seq     : Nat
  arg     : Nat
  payload : List Byte
deriving DecidableEq, Repr

/-- A drain in progress (15 R381): records still to send with their offsets, reserve entries still to send with the index
of the next, whether a packet of it was sent. -/
structure DrainSt where
  recs  : List (Nat × LRec)
  resv  : List LRec
  index : Nat
  begun : Bool
deriving DecidableEq, Repr

/-- The Chain port beside its registers (15 R374-R386): block lock, SEQ expected and SEQ to send, limits and use of the
streams out and in, the packet sent last, drain, whether a firkin entry was dropped since the last packet of its stream,
capture memory, first 32 bytes of the capture's header, its words, place in its stream, CAP_SEQ, whether a capture is armed
or recording, telemetry list, next offset of an inbound snapshot, whether it has failed, first bytes of it, whether a Grave
fault stopped the port. -/
structure ChainSt where
  blockLock : Bool
  inSeq     : Option Nat
  outSeq    : Nat
  limOut    : Tab Nat
  usedOut   : Tab Nat
  limIn     : Tab Nat
  usedIn    : Tab Nat
  sent      : Option OutPkt
  drain     : Option DrainSt
  fkDropped : Bool
  capMem    : Tab Nat
  capHead   : List Byte
  capWords  : Nat
  capPos    : Nat
  capSeq    : Nat
  capArmed  : Bool
  capTrig   : Bool
  tlm       : Tab Nat
  snapNext  : Option Nat
  snapBad   : Bool
  snapBuf   : List Byte
  stopped   : Bool
deriving DecidableEq, Repr

/-- A transfer of a DMA channel (15 R388): spaces, addresses and length as at its START. -/
structure DmaRun where
  srcSpace : Nat
  dstSpace : Nat
  src      : Nat
  dst      : Nat
  len      : Nat
deriving DecidableEq, Repr

/-- The steward (01 R42; 12 R315; 15 R387): running, restart in progress, held in reset by a Grave fault, halted on a
marked line, restarting for a firmware commit; the DMA channels halted by a Grave fault (11 R303); the transfers of
the user's channels. -/
structure StwSt where
  running : Bool
  restart : Bool
  held    : Bool
  halted  : Option Nat
  commit  : Bool
  dmaStop : Bool
  dma     : Tab DmaRun
deriving DecidableEq, Repr

/-- Self-test beside its registers (16 R389-R394): the domains with a failure since their last completion. -/
structure BistSt where
  failed : List Nat
deriving DecidableEq, Repr

/-- Security beside its registers (16 R395-R402): the scopes that the outstanding challenge asks, the three secrets (key
working copy, response buffer, steward's key registers), the fuse array and its shadow, groups whose check failed, the
group being programmed with what it is to hold, grains since the AON reset when field access opened. -/
structure SecSt' where
  challenge : Option Nat
  keyCopy   : Nat
  respBuf   : Nat
  keyRegs   : Nat
  fuses     : List FuseWord
  shadow    : List FuseWord
  failed    : List Nat
  prog      : Option (Nat × FuseWord)
  opened    : Nat
deriving DecidableEq, Repr

/-- The state of the block. `pending` is the queue of commands that wait, first in, first out; `freeCnt` is the
model's own counter for free values. -/
structure State where
  pending : List Instr
  regs    : Tab Nat
  ev      : Tab EvSrc
  ldg     : LedgerSt
  time    : TimeSt
  mp      : MpSt
  pw      : PwSt
  ld      : LoaderSt
  zones   : Tab ZoneSt
  st      : StoreSt
  tx      : TxSt
  rx      : RxSt
  fth     : FathomSt
  fec     : FecSt
  host    : HostSt
  bias    : BiasSt
  cal     : CalSt
  lp      : LaserPortSt
  prot    : ProtSt
  avs     : AvsSt
  therm   : ThermSt
  fab     : FabricSt
  chn     : ChainSt
  stw     : StwSt
  bist    : BistSt
  sec     : SecSt'
  freeCnt : Nat
deriving DecidableEq, Repr

/-- Faults: the manual gives the block no stop, so no meaning raises one. -/
inductive Fault where
  /-- Raised by nothing: kept so that the type says what a stop would be. Safe. -/
  | none
deriving DecidableEq, Repr

/-- Refusals. -/
inductive Refusal where
  /-- Raised by an arm of `exec` whose command has no meaning yet. Safe: nothing is claimed of the command. -/
  | notModelled (mnemonic : String)
deriving DecidableEq, Repr

/-- An empty histogram (13 R338): the extremes of an empty set. -/
def Hist.empty : Hist :=
  ⟨[], [], [], (0x7FFFFFFF, -0x80000000), (0x7FFFFFFF, -0x80000000), (0x7FFFFFFF, -0x80000000), false, false⟩

/-- Content that sets nothing: every field then takes its default (02 R445). -/
def ZContent.empty : ZContent := ⟨[], none, [], [], [], [], []⟩

/-- An unprogrammed fuse group (16 R400, R401). -/
def FuseWord.blank : FuseWord := ⟨false, 0, 0⟩

/-- The machine right after AON power-on reset (00 R12; 14 R350; 17 R408): MGMT and CHAIN have their targets at ON and
start their wakes; every other domain is OFF; fuses unprogrammed and the flash erased (DESIGN CHOICE, log 3, 4). -/
def State.reset : State where
  pending := []
  regs := []
  ev := []
  ldg := ⟨0, [], [], [], [], [], [], 0⟩
  time := ⟨0, 0, 0, 0, 0, false⟩
  mp := ⟨0x58, [], none, [], none, [], 0, 0, 0, 0⟩
  pw := ⟨[(1, .waking 1 true false), (10, .waking 1 true false)], [], [], false, false⟩
  ld := ⟨0, [], 0, none, none, [], 0, false⟩
  zones := []
  st := ⟨[], false, 0, false, false, [], [], []⟩
  tx := ⟨[], [], [], [], [], [], [], [], [], [], []⟩
  rx := ⟨[], [], [], [], [], [], [], [], [], [], [], [], [], []⟩
  fth := ⟨[], [], [], false, none, false⟩
  fec := ⟨0, [], [], [], [], [], [], [], [], [], [], [], [], []⟩
  host := ⟨[], [], [], [], [], [], [], [], [], [], []⟩
  bias := ⟨[], [], []⟩
  cal := ⟨[], [], [], [], none, false, false, [], []⟩
  lp := ⟨[], []⟩
  prot := ⟨[], [], []⟩
  avs := ⟨none, 0, 0, false, false, 0⟩
  therm := ⟨0, false, false, false, false⟩
  fab := ⟨[], 0, []⟩
  chn := ⟨false, none, 0, [], [], [], [], none, none, false, [], [], 0, 0, 0, false, false, [], none, false, [], false⟩
  stw := ⟨false, false, false, none, false, false, []⟩
  bist := ⟨[]⟩
  sec := ⟨none, 0, 0, 0, List.replicate 14 FuseWord.blank, List.replicate 14 FuseWord.blank, [], none, 0⟩
  freeCnt := 0

end Sys2Proof.Machine
end

