-- ==== Sys2Proof/Machine/Fields.lean ====
section
/-! DEFINITION. The register fields, each with its address, bits and reset value as the register tables of the
chapters give them. A field that a section, the store or the fuses set has here the value of an image, store or fuse
set that gives none (02 R445). A 64-bit counter stands once, at the address of its low half. -/
namespace Sys2Proof.Machine

/-- Default scrub period of memory `m`, in seconds (12 R305). -/
def scrubDefault (m : Nat) : Nat := [60, 600, 1, 1, 1, 1, 600, 60, 60, 600, 1].getD m 0

/-- Least scrub period of memory `m`, in seconds (12 R305). -/
def scrubMin (m : Nat) : Nat := [10, 10, 1, 1, 1, 1, 10, 1, 1, 1, 1].getD m 0

/-- Spare rows of memory `m` (12 R305). -/
def spareRows (m : Nat) : Nat := [512, 512, 64, 64, 64, 64, 128, 32, 32, 32, 2].getD m 0

/-- IDENT_DEVICE 18 R434 [31:0]. -/
def F.IDENT_DEVICE : Fld := ⟨0x00000000, 0, 32, 0x3208⟩
/-- IDENT_STEPPING 18 R434 [7:0]. -/
def F.IDENT_STEPPING : Fld := ⟨0x00000004, 0, 8, 0xA1⟩
/-- TBL_SEL 18 R439 [15:0]. -/
def F.TBL_SEL : Fld := ⟨0x00000100, 0, 16, 0⟩
/-- TBL_ADDR 18 R439 [31:0]. -/
def F.TBL_ADDR : Fld := ⟨0x00000104, 0, 32, 0⟩
/-- TBL_STATUS 18 R439 [2:0]. -/
def F.TBL_ERR : Fld := ⟨0x0000010C, 0, 3, 0⟩
/-- WAKE_CFG 14 R363 [31:31]. -/
def F.WAKE_N_LOW : Fld := ⟨0x0001000C, 31, 1, 0⟩
/-- WAKE_CFG 14 R363 [26:17]. -/
def F.WAKE_PEND : Fld := ⟨0x0001000C, 17, 10, 0⟩
/-- WAKE_CFG 14 R363 [10:1]. -/
def F.WAKE_SET : Fld := ⟨0x0001000C, 1, 10, 1⟩
/-- PWR_TIMER 14 R363 [15:0]. -/
def F.SAVE_TIMEOUT : Fld := ⟨0x00010010, 0, 16, 100⟩
/-- AVS_CTRL 14 R363 [31:31]. -/
def F.AVS_EN : Fld := ⟨0x00010020, 31, 1, 1⟩
/-- AVS_CTRL 14 R363 [22:16]. -/
def F.AVS_ADDR : Fld := ⟨0x00010020, 16, 7, 0x40⟩
/-- AVS_CTRL 14 R363 [12:8]. -/
def F.AVS_EXP : Fld := ⟨0x00010020, 8, 5, 0x14⟩
/-- AVS_CTRL 14 R363 [5:0]. -/
def F.AVS_STEP : Fld := ⟨0x00010020, 0, 6, 10⟩
/-- AVS_LIMIT 14 R363 [31:16]. -/
def F.VMAX : Fld := ⟨0x00010024, 16, 16, 800⟩
/-- AVS_LIMIT 14 R363 [15:0]. -/
def F.VMIN : Fld := ⟨0x00010024, 0, 16, 550⟩
/-- AVS_STATUS 14 R363 [31:16]. -/
def F.VCORE_READ : Fld := ⟨0x00010028, 16, 16, 0⟩
/-- AVS_STATUS 14 R363 [15:0]. -/
def F.VCORE_REQ : Fld := ⟨0x00010028, 0, 16, 0⟩
/-- AVS_STATUS2 14 R363 [16:16]. -/
def F.AVS_FAILED : Fld := ⟨0x0001002C, 16, 1, 0⟩
/-- AVS_STATUS2 14 R363 [15:0]. -/
def F.AVS_STATUS_WORD : Fld := ⟨0x0001002C, 0, 16, 0⟩
/-- FLT_GRAVE 11 R304 [31:31]. -/
def F.GRAVE_LOCK : Fld := ⟨0x00010040, 31, 1, 0⟩
/-- FLT_GRAVE 11 R304 [30:28]. -/
def F.GRAVE_CAUSE : Fld := ⟨0x00010040, 28, 3, 0⟩
/-- FLT_GRAVE 11 R304 [20:16]. -/
def F.GRAVE_SOURCE : Fld := ⟨0x00010040, 16, 5, 0⟩
/-- FLT_GRAVE 11 R304 [15:0]. -/
def F.GRAVE_BLOCK : Fld := ⟨0x00010040, 0, 16, 0⟩
/-- FLT_PINS 11 R304 [2:2]. -/
def F.PIN_GRAVE : Fld := ⟨0x00010044, 2, 1, 0⟩
/-- FLT_PINS 11 R304 [1:1]. -/
def F.PIN_MAJOR : Fld := ⟨0x00010044, 1, 1, 0⟩
/-- FLT_PINS 11 R304 [0:0]. -/
def F.PIN_MINOR : Fld := ⟨0x00010044, 0, 1, 0⟩
/-- TIME_STATUS 13 R341 [15:0]. -/
def F.GRAIN_LEN : Fld := ⟨0x00010068, 0, 16, 0x8000⟩
/-- TIME_FLAGS 13 R341 [3:3]. -/
def F.LEDGER_EXHAUSTED : Fld := ⟨0x0001006C, 3, 1, 0⟩
/-- TIME_FLAGS 13 R341 [2:2]. -/
def F.SLEWING : Fld := ⟨0x0001006C, 2, 1, 0⟩
/-- TIME_FLAGS 13 R341 [1:1]. -/
def F.TIME_UNTRIMMED : Fld := ⟨0x0001006C, 1, 1, 1⟩
/-- TIME_FLAGS 13 R341 [0:0]. -/
def F.TIME_VALID : Fld := ⟨0x0001006C, 0, 1, 0⟩
/-- MP_STATUS 15 R369 [31:16]. -/
def F.FRAME_ERRS : Fld := ⟨0x00010080, 16, 16, 0⟩
/-- MP_STATUS 15 R369 [15:0]. -/
def F.MP_CRC_ERRS : Fld := ⟨0x00010080, 0, 16, 0⟩
/-- AON_EVT_SRC 14 R363 [3:0]. -/
def F.AON_SRC : Fld := ⟨0x00010140, 0, 4, 0⟩
/-- THERM_TEMP 14 R363 [31:16]. -/
def F.TEMP : Fld := ⟨0x00020000, 16, 16, 0⟩
/-- THERM_TEMP 14 R363 [7:6]. -/
def F.TEMP_SRC : Fld := ⟨0x00020000, 6, 2, 0⟩
/-- THERM_TEMP 14 R363 [5:5]. -/
def F.SENSOR_BROKEN : Fld := ⟨0x00020000, 5, 1, 0⟩
/-- THERM_TEMP 14 R363 [4:4]. -/
def F.HOST_STALE : Fld := ⟨0x00020000, 4, 1, 1⟩
/-- THERM_TEMP 14 R363 [3:3]. -/
def F.HOT : Fld := ⟨0x00020000, 3, 1, 0⟩
/-- THERM_TEMP 14 R363 [1:0]. -/
def F.SHUT_COUNT : Fld := ⟨0x00020000, 0, 2, 0⟩
/-- THERM_SENSOR 14 R363 [15:0]. -/
def F.SENSOR : Fld := ⟨0x00020004, 0, 16, 0⟩
/-- THERM_THR0 14 R363 [31:16]. -/
def F.WARN : Fld := ⟨0x00020008, 16, 16, 1000⟩
/-- THERM_THR0 14 R363 [15:0]. -/
def F.THROTTLE : Fld := ⟨0x00020008, 0, 16, 1080⟩
/-- THERM_THR1 14 R363 [31:16]. -/
def F.SHUTDOWN : Fld := ⟨0x0002000C, 16, 16, 1200⟩
/-- THERM_THR1 14 R363 [15:0]. -/
def F.HYST : Fld := ⟨0x0002000C, 0, 16, 40⟩
/-- HOST_TEMP 14 R363 [31:16]. -/
def F.HOST_AGE : Fld := ⟨0x00020010, 16, 16, 0xFFFF⟩
/-- HOST_TEMP 14 R363 [15:0]. -/
def F.HOST_TEMP : Fld := ⟨0x00020010, 0, 16, 0⟩
/-- THR_STATE 14 R363 [31:28]. -/
def F.THR_STEP : Fld := ⟨0x00020014, 28, 4, 0⟩
/-- THR_STATE 14 R363 [27:24]. -/
def F.HR_REQ : Fld := ⟨0x00020014, 24, 4, 0⟩
/-- THR_STATE 14 R363 [23:20]. -/
def F.TH_REQ : Fld := ⟨0x00020014, 20, 4, 0⟩
/-- THR_STATE 14 R363 [19:16]. -/
def F.FLOOR : Fld := ⟨0x00020014, 16, 4, 0⟩
/-- THR_STATE 14 R363 [10:8]. -/
def F.THR_F : Fld := ⟨0x00020014, 8, 3, 0⟩
/-- THR_STATE 14 R363 [5:4]. -/
def F.THR_V : Fld := ⟨0x00020014, 4, 2, 0⟩
/-- THR_STATE 14 R363 [1:0]. -/
def F.THR_E : Fld := ⟨0x00020014, 0, 2, 0⟩
/-- CFG_CTRL 02 R66 [31:24]. -/
def F.ABORT_ZONE : Fld := ⟨0x00030000, 24, 8, 0⟩
/-- CFG_CTRL 02 R66 [16:16]. -/
def F.CFG_ABORT : Fld := ⟨0x00030000, 16, 1, 0⟩
/-- CFG_CTRL 02 R66 [9:9]. -/
def F.CFG_START : Fld := ⟨0x00030000, 9, 1, 0⟩
/-- CFG_CTRL 02 R66 [2:0]. -/
def F.LOAD_SRC : Fld := ⟨0x00030000, 0, 3, 0⟩
/-- CFG_STATUS 02 R66 [31:24]. -/
def F.LAST_ZONE : Fld := ⟨0x00030004, 24, 8, 0⟩
/-- CFG_STATUS 02 R66 [23:20]. -/
def F.CFG_LAST_RESULT : Fld := ⟨0x00030004, 20, 4, 0⟩
/-- CFG_STATUS 02 R66 [19:16]. -/
def F.LOADER_STATE : Fld := ⟨0x00030004, 16, 4, 0⟩
/-- CFG_STATUS 02 R66 [3:3]. -/
def F.NO_IMAGE : Fld := ⟨0x00030004, 3, 1, 0⟩
/-- CFG_STATUS 02 R66 [2:2]. -/
def F.FALLBACK : Fld := ⟨0x00030004, 2, 1, 0⟩
/-- CFG_STATUS 02 R66 [1:0]. -/
def F.BOOTED : Fld := ⟨0x00030004, 0, 2, 0⟩
/-- CFG_LOAD_DATA 02 R66 [31:0]. -/
def F.CFG_LOAD_DATA : Fld := ⟨0x00030008, 0, 32, 0⟩
/-- CFG_TIMEOUT 02 R66 [31:16]. -/
def F.COMMIT_TIMEOUT : Fld := ⟨0x0003000C, 16, 16, 1000⟩
/-- CFG_TIMEOUT 02 R66 [15:0]. -/
def F.LOAD_TIMEOUT : Fld := ⟨0x0003000C, 0, 16, 200⟩
/-- FURLONG_NOW 02 R66 [31:0]. -/
def F.FURLONG_NOW : Fld := ⟨0x00030010, 0, 32, 0⟩
/-- CFG_ISSUE_SEQ 02 R66 [31:0]. -/
def F.CFG_ISSUE_SEQ : Fld := ⟨0x00030014, 0, 32, 0⟩
/-- ZONE_W0 02 R66, R67 [31:16]. -/
def F.ZONE_EPOCH (z : Nat) : Fld := ⟨0x00030400 + 0x10 * z, 16, 16, 0⟩
/-- ZONE_W0 02 R66, R67 [15:12]. -/
def F.ZONE_STATE (z : Nat) : Fld := ⟨0x00030400 + 0x10 * z, 12, 4, 0⟩
/-- ZONE_W0 02 R66, R67 [11:8]. -/
def F.ZONE_RESULT (z : Nat) : Fld := ⟨0x00030400 + 0x10 * z, 8, 4, 0⟩
/-- ZONE_W0 02 R66, R67 [0:0]. -/
def F.ZONE_PRESENT (z : Nat) : Fld := ⟨0x00030400 + 0x10 * z, 0, 1, 0⟩
/-- ZONE_W4 02 R66, R67 [31:16]. -/
def F.PEND_EPOCH (z : Nat) : Fld := ⟨0x00030404 + 0x10 * z, 16, 16, 0⟩
/-- ZONE_W4 02 R66, R67 [1:1]. -/
def F.SWITCHED_TX (z : Nat) : Fld := ⟨0x00030404 + 0x10 * z, 1, 1, 0⟩
/-- ZONE_W4 02 R66, R67 [0:0]. -/
def F.SWITCHED_RX (z : Nat) : Fld := ⟨0x00030404 + 0x10 * z, 0, 1, 0⟩
/-- ZONE_W8 02 R66, R67 [31:0]. -/
def F.COMMIT_TX (z : Nat) : Fld := ⟨0x00030408 + 0x10 * z, 0, 32, 0⟩
/-- ZONE_WC 02 R66, R67 [31:0]. -/
def F.COMMIT_RX (z : Nat) : Fld := ⟨0x0003040C + 0x10 * z, 0, 32, 0⟩
/-- ZONE_BUILD 02 R66, R67 [31:0]. -/
def F.ZONE_BUILD (z : Nat) : Fld := ⟨0x00030800 + 0x4 * z, 0, 32, 0⟩
/-- ZONE_SRC 02 R67 [31:30]. -/
def F.ZONE_SRC (z : Nat) : Fld := ⟨0x00030900 + 0x4 * z, 30, 2, 0⟩
/-- ZONE_SRC 02 R67 [23:0]. -/
def F.ZONE_OFFSET (z : Nat) : Fld := ⟨0x00030900 + 0x4 * z, 0, 24, 0⟩
/-- MBOX_CMD 15 R388 [31:0]. -/
def F.MBOX_CMD : Fld := ⟨0x00040300, 0, 32, 0⟩
/-- MBOX_ARG 15 R388 [31:0]. -/
def F.MBOX_ARG (i : Nat) : Fld := ⟨0x00040304 + 0x4 * i, 0, 32, 0⟩
/-- MBOX_RSP 15 R388 [31:0]. -/
def F.MBOX_RSP (i : Nat) : Fld := ⟨0x00040314 + 0x4 * i, 0, 32, 0⟩
/-- MBOX_STAT 15 R388 [15:8]. -/
def F.MBOX_RESULT : Fld := ⟨0x00040324, 8, 8, 0⟩
/-- MBOX_STAT 15 R388 [1:1]. -/
def F.MBOX_BUSY : Fld := ⟨0x00040324, 1, 1, 0⟩
/-- MBOX_STAT 15 R388 [0:0]. -/
def F.DOORBELL : Fld := ⟨0x00040324, 0, 1, 0⟩
/-- STORE_CFG 15 R388 [7:4]. -/
def F.STORE_DUMMY : Fld := ⟨0x00040340, 4, 4, 8⟩
/-- STORE_CFG 15 R388 [3:3]. -/
def F.STORE_ADDR4 : Fld := ⟨0x00040340, 3, 1, 1⟩
/-- STORE_CFG 15 R388 [2:2]. -/
def F.STORE_QUAD : Fld := ⟨0x00040340, 2, 1, 0⟩
/-- STORE_CFG 15 R388 [1:0]. -/
def F.SCK_DIV : Fld := ⟨0x00040340, 0, 2, 3⟩
/-- STORE_STATUS 15 R388 [31:24]. -/
def F.CAPACITY : Fld := ⟨0x00040344, 24, 8, 0⟩
/-- STORE_STATUS 15 R388 [3:0]. -/
def F.STORE_ACTIVE : Fld := ⟨0x00040344, 0, 4, 0⟩
/-- DMA_CTRL 15 R388 [11:10]. -/
def F.DMA_ERR (c : Nat) : Fld := ⟨0x00040400 + 0x20 * c, 10, 2, 0⟩
/-- DMA_CTRL 15 R388 [9:9]. -/
def F.DMA_BUSY (c : Nat) : Fld := ⟨0x00040400 + 0x20 * c, 9, 1, 0⟩
/-- DMA_CTRL 15 R388 [8:8]. -/
def F.DMA_START (c : Nat) : Fld := ⟨0x00040400 + 0x20 * c, 8, 1, 0⟩
/-- DMA_CTRL 15 R388 [5:4]. -/
def F.DST_SPACE (c : Nat) : Fld := ⟨0x00040400 + 0x20 * c, 4, 2, 0⟩
/-- DMA_CTRL 15 R388 [1:0]. -/
def F.SRC_SPACE (c : Nat) : Fld := ⟨0x00040400 + 0x20 * c, 0, 2, 0⟩
/-- DMA_SRC 15 R388 [31:0]. -/
def F.DMA_SRC (c : Nat) : Fld := ⟨0x00040404 + 0x20 * c, 0, 32, 0⟩
/-- DMA_DST 15 R388 [31:0]. -/
def F.DMA_DST (c : Nat) : Fld := ⟨0x00040408 + 0x20 * c, 0, 32, 0⟩
/-- DMA_LEN 15 R388 [31:0]. -/
def F.DMA_LEN (c : Nat) : Fld := ⟨0x0004040C + 0x20 * c, 0, 32, 0⟩
/-- DMA_HALT 15 R388 [31:0]. -/
def F.HALT_ADDR (c : Nat) : Fld := ⟨0x00040410 + 0x20 * c, 0, 32, 0⟩
/-- CAL_CTRL 10 R443 [23:16]. -/
def F.CAL_DELTA_T : Fld := ⟨0x00050000, 16, 8, 40⟩
/-- CAL_CTRL 10 R443 [3:2]. -/
def F.FG_REQ : Fld := ⟨0x00050000, 2, 2, 0⟩
/-- CAL_CTRL 10 R443 [0:0]. -/
def F.FULL_REQ : Fld := ⟨0x00050000, 0, 1, 0⟩
/-- CAL_STATUS 10 R443 [31:16]. -/
def F.T_LAST : Fld := ⟨0x00050004, 16, 16, 0⟩
/-- CAL_STATUS 10 R443 [15:15]. -/
def F.T_LAST_VALID : Fld := ⟨0x00050004, 15, 1, 0⟩
/-- CAL_STATUS 10 R443 [7:6]. -/
def F.REC_SRC1 : Fld := ⟨0x00050004, 6, 2, 0⟩
/-- CAL_STATUS 10 R443 [5:4]. -/
def F.REC_SRC0 : Fld := ⟨0x00050004, 4, 2, 0⟩
/-- CAL_STATUS 10 R443 [3:2]. -/
def F.BG_PRIO : Fld := ⟨0x00050004, 2, 2, 0⟩
/-- CAL_STATUS 10 R443 [1:1]. -/
def F.VREF_OK : Fld := ⟨0x00050004, 1, 1, 0⟩
/-- CAL_STATUS 10 R443 [0:0]. -/
def F.REFCLK_OK : Fld := ⟨0x00050004, 0, 1, 0⟩
/-- CAL_RESULT 10 R443 [10:8]. -/
def F.CAL_BG1 : Fld := ⟨0x00050008, 8, 3, 0⟩
/-- CAL_RESULT 10 R443 [5:3]. -/
def F.CAL_FG1 : Fld := ⟨0x00050008, 3, 3, 0⟩
/-- CAL_RESULT 10 R443 [2:0]. -/
def F.CAL_FG0 : Fld := ⟨0x00050008, 0, 3, 0⟩
/-- CAL_RESULT_BG0 10 R443 [2:0]. -/
def F.CAL_BG0 : Fld := ⟨0x0005000C, 0, 3, 0⟩
/-- CAL_EVT_SRC 10 R443 [0:0]. -/
def F.CAL_SRC : Fld := ⟨0x00050140, 0, 1, 0⟩
/-- LDG_CTRL 13 R341 [1:1]. -/
def F.RES_CLEAR : Fld := ⟨0x00060000, 1, 1, 0⟩
/-- LDG_CTRL 13 R341 [0:0]. -/
def F.CKPT_REQ : Fld := ⟨0x00060000, 0, 1, 0⟩
/-- LDG_STATUS 13 R341 [31:16]. -/
def F.HIST_SEQ : Fld := ⟨0x00060004, 16, 16, 0⟩
/-- LDG_STATUS 13 R341 [8:2]. -/
def F.RES_COUNT : Fld := ⟨0x00060004, 2, 7, 0⟩
/-- LDG_STATUS 13 R341 [1:1]. -/
def F.LDG_CLOSED : Fld := ⟨0x00060004, 1, 1, 0⟩
/-- LDG_STATUS 13 R341 [0:0]. -/
def F.LDG_STOPPED : Fld := ⟨0x00060004, 0, 1, 0⟩
/-- LDG_WR 13 R341 [21:0]. -/
def F.LDG_WR : Fld := ⟨0x00060008, 0, 22, 0⟩
/-- LDG_RD 13 R341 [21:0]. -/
def F.LDG_RD : Fld := ⟨0x0006000C, 0, 22, 0⟩
/-- LDG_FREE 13 R341 [21:0]. -/
def F.LDG_FREE : Fld := ⟨0x00060010, 0, 22, 0⟩
/-- LDG_LAST_GOOD 13 R341 [21:0]. -/
def F.LDG_LAST_GOOD : Fld := ⟨0x00060014, 0, 22, 0⟩
/-- LDG_SEQ 13 R341 [31:0]. -/
def F.LDG_SEQ : Fld := ⟨0x00060018, 0, 32, 0⟩
/-- LOSS_FIRST 13 R341 [31:0]. -/
def F.LOSS_FIRST : Fld := ⟨0x0006001C, 0, 32, 0⟩
/-- LOSS_PEND 13 R341 [31:0]. -/
def F.LOSS_PEND : Fld := ⟨0x00060020, 0, 32, 0⟩
/-- CHN_CTRL 15 R388 [31:31]. -/
def F.CHN_LINK : Fld := ⟨0x00070000, 31, 1, 0⟩
/-- CHN_CTRL 15 R388 [4:4]. -/
def F.DRAIN_RES : Fld := ⟨0x00070000, 4, 1, 0⟩
/-- CHN_CTRL 15 R388 [3:3]. -/
def F.DRAIN_REQ : Fld := ⟨0x00070000, 3, 1, 0⟩
/-- CHN_CTRL 15 R388 [0:0]. -/
def F.EVT_MSG_EN : Fld := ⟨0x00070000, 0, 1, 0⟩
/-- MSG_DROPS 15 R388 [31:0]. -/
def F.MSG_DROPS : Fld := ⟨0x00070004, 0, 32, 0⟩
/-- TLM_PERIOD 15 R388 [15:0]. -/
def F.TLM_PERIOD : Fld := ⟨0x00070008, 0, 16, 0⟩
/-- FKC 15 R388 [31:31]. -/
def F.FKC_EN : Fld := ⟨0x0007000C, 31, 1, 0⟩
/-- FKC 15 R388 [12:0]. -/
def F.FKC_FIRKIN : Fld := ⟨0x0007000C, 0, 13, 0⟩
/-- CAP_CTRL 15 R388 [31:24]. -/
def F.CAP_INDEX : Fld := ⟨0x00070200, 24, 8, 0⟩
/-- CAP_CTRL 15 R388 [21:20]. -/
def F.CAP_SOURCE : Fld := ⟨0x00070200, 20, 2, 0⟩
/-- CAP_CTRL 15 R388 [17:16]. -/
def F.CAP_TRIGGER : Fld := ⟨0x00070200, 16, 2, 0⟩
/-- CAP_CTRL 15 R388 [1:1]. -/
def F.CAP_STREAM : Fld := ⟨0x00070200, 1, 1, 1⟩
/-- CAP_CTRL 15 R388 [0:0]. -/
def F.CAP_START : Fld := ⟨0x00070200, 0, 1, 0⟩
/-- CAP_WORDS 15 R388 [22:0]. -/
def F.CAP_WORDS : Fld := ⟨0x00070204, 0, 23, 4194304⟩
/-- CAP_PRE 15 R388 [22:0]. -/
def F.CAP_PRE : Fld := ⟨0x00070208, 0, 23, 0⟩
/-- CAP_TRIG 15 R388 [20:16]. -/
def F.TRIG_BIT : Fld := ⟨0x0007020C, 16, 5, 0⟩
/-- CAP_TRIG 15 R388 [15:0]. -/
def F.TRIG_BLOCK : Fld := ⟨0x0007020C, 0, 16, 0⟩
/-- CAP_STATUS 15 R388 [31:16]. -/
def F.CAP_SEQ : Fld := ⟨0x00070210, 16, 16, 0⟩
/-- CAP_STATUS 15 R388 [1:1]. -/
def F.STREAMING : Fld := ⟨0x00070210, 1, 1, 0⟩
/-- CAP_STATUS 15 R388 [0:0]. -/
def F.CAP_BUSY : Fld := ⟨0x00070210, 0, 1, 0⟩
/-- ACC_CTRL 16 R402 [18:16]. -/
def F.ACC_SCOPE : Fld := ⟨0x00080010, 16, 3, 0⟩
/-- ACC_CTRL 16 R402 [2:2]. -/
def F.ACC_CLOSE : Fld := ⟨0x00080010, 2, 1, 0⟩
/-- ACC_CTRL 16 R402 [1:1]. -/
def F.ACC_SUBMIT : Fld := ⟨0x00080010, 1, 1, 0⟩
/-- ACC_CTRL 16 R402 [0:0]. -/
def F.ACC_REQ : Fld := ⟨0x00080010, 0, 1, 0⟩
/-- ACC_STATUS 16 R402 [31:30]. -/
def F.ACC_STATE : Fld := ⟨0x00080014, 30, 2, 0⟩
/-- ACC_STATUS 16 R402 [26:24]. -/
def F.OPEN_SCOPE : Fld := ⟨0x00080014, 24, 3, 0⟩
/-- ACC_STATUS 16 R402 [23:20]. -/
def F.ACC_RESULT : Fld := ⟨0x00080014, 20, 4, 0⟩
/-- ACC_STATUS 16 R402 [3:0]. -/
def F.ACC_FAILS : Fld := ⟨0x00080014, 0, 4, 0⟩
/-- ACC_TIMER 16 R402 [31:16]. -/
def F.ACC_REMAIN : Fld := ⟨0x00080018, 16, 16, 0⟩
/-- ACC_TIMER 16 R402 [15:0]. -/
def F.ACC_LIFE : Fld := ⟨0x00080018, 0, 16, 60⟩
/-- CHALLENGE 16 R402 [31:0]. -/
def F.CHALLENGE (i : Nat) : Fld := ⟨0x00080020 + 0x4 * i, 0, 32, 0⟩
/-- RESPONSE 16 R402 [31:0]. -/
def F.RESPONSE (i : Nat) : Fld := ⟨0x00080040 + 0x4 * i, 0, 32, 0⟩
/-- FUSE_CTRL 16 R402 [19:16]. -/
def F.FUSE_GROUP : Fld := ⟨0x00080060, 16, 4, 0⟩
/-- FUSE_CTRL 16 R402 [0:0]. -/
def F.FUSE_PROG : Fld := ⟨0x00080060, 0, 1, 0⟩
/-- FUSE_STATUS 16 R402 [17:4]. -/
def F.PROGRAMMED : Fld := ⟨0x00080064, 4, 14, 0⟩
/-- FUSE_STATUS 16 R402 [3:2]. -/
def F.FUSE_RESULT : Fld := ⟨0x00080064, 2, 2, 0⟩
/-- FUSE_STATUS 16 R402 [1:1]. -/
def F.FUSE_BUSY : Fld := ⟨0x00080064, 1, 1, 0⟩
/-- FUSE_STATUS 16 R402 [0:0]. -/
def F.INTEGRITY_OK : Fld := ⟨0x00080064, 0, 1, 0⟩
/-- FUSE_DATA 16 R402 [31:0]. -/
def F.FUSE_DATA (j : Nat) : Fld := ⟨0x00080070 + 0x4 * j, 0, 32, 0⟩
/-- BIST_CTRL 16 R402 [10:1]. -/
def F.BIST_EN : Fld := ⟨0x000800C0, 1, 10, 0x3FF⟩
/-- BIST_TIME 16 R402 [31:16]. -/
def F.BIST_LIMIT : Fld := ⟨0x000800C4, 16, 16, 200⟩
/-- BIST_TIME 16 R402 [15:0]. -/
def F.BIST_SLICE : Fld := ⟨0x000800C4, 0, 16, 2000⟩
/-- SEC_EVT_SRC 16 R402 [19:16]. -/
def F.SEC_GROUP : Fld := ⟨0x00080140, 16, 4, 0⟩
/-- SEC_EVT_SRC 16 R402 [3:0]. -/
def F.SEC_DOM : Fld := ⟨0x00080140, 0, 4, 0⟩
/-- MEM_EVT_SRC0 12 R319 [31:28]. -/
def F.UNC_MEM : Fld := ⟨0x00080240, 28, 4, 0⟩
/-- MEM_EVT_SRC0 12 R319 [21:0]. -/
def F.UNC_WORD : Fld := ⟨0x00080240, 0, 22, 0⟩
/-- MEM_EVT_SRC1 12 R319 [31:28]. -/
def F.CORR_MEM : Fld := ⟨0x00080244, 28, 4, 0⟩
/-- MEM_EVT_SRC1 12 R319 [21:0]. -/
def F.CORR_WORD : Fld := ⟨0x00080244, 0, 22, 0⟩
/-- MEM_EVT_SRC2 12 R319 [22:16]. -/
def F.CORR_BIT : Fld := ⟨0x00080248, 16, 7, 0⟩
/-- MEM_EVT_SRC2 12 R319 [3:0]. -/
def F.CAND_MEM : Fld := ⟨0x00080248, 0, 4, 0⟩
/-- MEM_SCRUB 12 R319 [15:0]. -/
def F.SCRUB_PERIOD (m : Nat) : Fld := ⟨0x00080300 + 0x4 * m, 0, 16, scrubDefault m⟩
/-- MEM_CORR 12 R319. -/
def F.MEM_CORR (m : Nat) : Fld := ⟨0x00080400 + 0x20 * m, 0, 64, 0⟩
/-- MEM_UNCORR 16 R402. -/
def F.MEM_UNCORR (m : Nat) : Fld := ⟨0x00080408 + 0x20 * m, 0, 64, 0⟩
/-- MEM_STAT 16 R402 [31:16]. -/
def F.PASSES (m : Nat) : Fld := ⟨0x00080410 + 0x20 * m, 16, 16, 0⟩
/-- MEM_STAT 16 R402 [6:0]. -/
def F.POISONED (m : Nat) : Fld := ⟨0x00080410 + 0x20 * m, 0, 7, 0⟩
/-- MEM_SPARES 16 R402 [9:0]. -/
def F.SPARES_FREE (m : Nat) : Fld := ⟨0x00080414 + 0x20 * m, 0, 10, spareRows m⟩
/-- BIST_RES0 16 R402 [31:30]. -/
def F.BIST_RESULT (d : Nat) : Fld := ⟨0x00080600 + 0x10 * d, 30, 2, 0⟩
/-- BIST_RES0 16 R402 [23:16]. -/
def F.FAIL_COUNT (d : Nat) : Fld := ⟨0x00080600 + 0x10 * d, 16, 8, 0⟩
/-- BIST_RES0 16 R402 [15:0]. -/
def F.NEXT_SLICE (d : Nat) : Fld := ⟨0x00080600 + 0x10 * d, 0, 16, 0⟩
/-- BIST_RES1 16 R402 [31:28]. -/
def F.FAIL_MEM (d : Nat) : Fld := ⟨0x00080604 + 0x10 * d, 28, 4, 0⟩
/-- BIST_RES1 16 R402 [21:0]. -/
def F.FAIL_WORD (d : Nat) : Fld := ⟨0x00080604 + 0x10 * d, 0, 22, 0⟩
/-- BIST_RES2 16 R402 [6:0]. -/
def F.FAIL_BIT (d : Nat) : Fld := ⟨0x00080608 + 0x10 * d, 0, 7, 0⟩
/-- BIST_RES3 16 R402 [31:0]. -/
def F.COMPLETE_TIME (d : Nat) : Fld := ⟨0x0008060C + 0x10 * d, 0, 32, 0⟩
/-- BIST_CAND 16 R402 [5:0]. -/
def F.BIST_CAND : Fld := ⟨0x000806C0, 0, 6, 0⟩
/-- LANE_TX 08 R241 [26:24]. -/
def F.LANE_RATE (l : Nat) : Fld := ⟨0x00100000 + 0x1000 * l, 24, 3, 0⟩
/-- LANE_TX 08 R241 [20:16]. -/
def F.LANE_PRE (l : Nat) : Fld := ⟨0x00100000 + 0x1000 * l, 16, 5, 0⟩
/-- LANE_TX 08 R241 [12:8]. -/
def F.LANE_POST (l : Nat) : Fld := ⟨0x00100000 + 0x1000 * l, 8, 5, 0⟩
/-- LANE_TX 08 R241 [6:0]. -/
def F.LANE_SWING (l : Nat) : Fld := ⟨0x00100000 + 0x1000 * l, 0, 7, 0⟩
/-- LANE_RX 08 R241 [29:20]. -/
def F.ECHO_START (l : Nat) : Fld := ⟨0x00100004 + 0x1000 * l, 20, 10, 0⟩
/-- LANE_RX 08 R241 [14:10]. -/
def F.CTLE_INIT (l : Nat) : Fld := ⟨0x00100004 + 0x1000 * l, 10, 5, 0⟩
/-- LANE_RX 08 R241 [2:2]. -/
def F.PRECODE (l : Nat) : Fld := ⟨0x00100004 + 0x1000 * l, 2, 1, 0⟩
/-- LANE_RX 08 R241 [1:1]. -/
def F.RX_INV (l : Nat) : Fld := ⟨0x00100004 + 0x1000 * l, 1, 1, 0⟩
/-- LANE_RX 08 R241 [0:0]. -/
def F.TX_INV (l : Nat) : Fld := ⟨0x00100004 + 0x1000 * l, 0, 1, 0⟩
/-- LANE_CDR 08 R241 [1:0]. -/
def F.CDR_BW (l : Nat) : Fld := ⟨0x00100008 + 0x1000 * l, 0, 2, 1⟩
/-- LANE_ADAPT 08 R241 [16:16]. -/
def F.RESTART (l : Nat) : Fld := ⟨0x0010000C + 0x1000 * l, 16, 1, 0⟩
/-- LANE_ADAPT 08 R241 [15:12]. -/
def F.LANE_MU (l : Nat) : Fld := ⟨0x0010000C + 0x1000 * l, 12, 4, 12⟩
/-- LANE_ADAPT 08 R241 [7:6]. -/
def F.ECHO_MODE (l : Nat) : Fld := ⟨0x0010000C + 0x1000 * l, 6, 2, 1⟩
/-- LANE_ADAPT 08 R241 [5:4]. -/
def F.DFE_MODE (l : Nat) : Fld := ⟨0x0010000C + 0x1000 * l, 4, 2, 1⟩
/-- LANE_ADAPT 08 R241 [3:2]. -/
def F.FFE_MODE (l : Nat) : Fld := ⟨0x0010000C + 0x1000 * l, 2, 2, 1⟩
/-- LANE_ADAPT 08 R241 [1:0]. -/
def F.CTLE_MODE (l : Nat) : Fld := ⟨0x0010000C + 0x1000 * l, 0, 2, 1⟩
/-- LANE_STATUS 08 R241 [20:16]. -/
def F.LANE_CTLE (l : Nat) : Fld := ⟨0x00100010 + 0x1000 * l, 16, 5, 0⟩
/-- LANE_STATUS 08 R241 [5:5]. -/
def F.ADAPT_DONE (l : Nat) : Fld := ⟨0x00100010 + 0x1000 * l, 5, 1, 0⟩
/-- LANE_STATUS 08 R241 [4:4]. -/
def F.FRAME_LOCK (l : Nat) : Fld := ⟨0x00100010 + 0x1000 * l, 4, 1, 0⟩
/-- LANE_STATUS 08 R241 [3:3]. -/
def F.FREQ_KEPT (l : Nat) : Fld := ⟨0x00100010 + 0x1000 * l, 3, 1, 0⟩
/-- LANE_STATUS 08 R241 [2:2]. -/
def F.CDR_LOCK (l : Nat) : Fld := ⟨0x00100010 + 0x1000 * l, 2, 1, 0⟩
/-- LANE_STATUS 08 R241 [1:1]. -/
def F.SIG_DET (l : Nat) : Fld := ⟨0x00100010 + 0x1000 * l, 1, 1, 0⟩
/-- LANE_STATUS 08 R241 [0:0]. -/
def F.LOCKED (l : Nat) : Fld := ⟨0x00100010 + 0x1000 * l, 0, 1, 0⟩
/-- LANE_PAT 08 R241 [11:9]. -/
def F.CHK_PAT (l : Nat) : Fld := ⟨0x00100014 + 0x1000 * l, 9, 3, 0⟩
/-- LANE_PAT 08 R241 [8:8]. -/
def F.CHK_EN (l : Nat) : Fld := ⟨0x00100014 + 0x1000 * l, 8, 1, 0⟩
/-- LANE_PAT 08 R241 [4:2]. -/
def F.GEN_PAT (l : Nat) : Fld := ⟨0x00100014 + 0x1000 * l, 2, 3, 0⟩
/-- LANE_PAT 08 R241 [0:0]. -/
def F.GEN_EN (l : Nat) : Fld := ⟨0x00100014 + 0x1000 * l, 0, 1, 0⟩
/-- LANE_CHK 08 R241 [0:0]. -/
def F.CHK_LOCK (l : Nat) : Fld := ⟨0x00100018 + 0x1000 * l, 0, 1, 0⟩
/-- PAT_ERR 08 R241. -/
def F.PAT_ERR (l : Nat) : Fld := ⟨0x00100020 + 0x1000 * l, 0, 64, 0⟩
/-- PAT_BITS 08 R241. -/
def F.PAT_BITS (l : Nat) : Fld := ⟨0x00100028 + 0x1000 * l, 0, 64, 0⟩
/-- INNER_CORR 08 R241. -/
def F.INNER_CORR (l : Nat) : Fld := ⟨0x00100030 + 0x1000 * l, 0, 64, 0⟩
/-- INNER_UNCORR 08 R241. -/
def F.INNER_UNCORR (l : Nat) : Fld := ⟨0x00100038 + 0x1000 * l, 0, 64, 0⟩
/-- HPCS_CTRL 08 R241 [15:0]. -/
def F.HOLD_ALARM : Fld := ⟨0x00110000, 0, 16, 10⟩
/-- HPCS_EVT_SRC 08 R241 [10:8]. -/
def F.LONG_LANE : Fld := ⟨0x00110140, 8, 3, 0⟩
/-- HPCS_EVT_SRC 08 R241 [6:4]. -/
def F.UNCORR_LANE : Fld := ⟨0x00110140, 4, 3, 0⟩
/-- HPCS_EVT_SRC 08 R241 [2:0]. -/
def F.HOLD_LANE : Fld := ⟨0x00110140, 0, 3, 0⟩
/-- GRP_CFG 08 R241 [19:16]. -/
def F.GRP_WIDTH (l : Nat) : Fld := ⟨0x00110400 + 0x40 * l, 16, 4, 0⟩
/-- GRP_CFG 08 R241 [2:0]. -/
def F.GRP_CLIENT (l : Nat) : Fld := ⟨0x00110400 + 0x40 * l, 0, 3, 0⟩
/-- GRP_STATE 08 R241 [2:0]. -/
def F.GRP_STATE (l : Nat) : Fld := ⟨0x00110404 + 0x40 * l, 0, 3, 0⟩
/-- GRP_LOOP 08 R241 [1:0]. -/
def F.GRP_LOOP (l : Nat) : Fld := ⟨0x00110408 + 0x40 * l, 0, 2, 0⟩
/-- GRP_HOLDS 08 R241 [31:0]. -/
def F.HOLDS (l : Nat) : Fld := ⟨0x0011040C + 0x40 * l, 0, 32, 0⟩
/-- RS_CORR 08 R241. -/
def F.RS_CORR (l : Nat) : Fld := ⟨0x00110410 + 0x40 * l, 0, 64, 0⟩
/-- RS_UNCORR 08 R241. -/
def F.RS_UNCORR (l : Nat) : Fld := ⟨0x00110418 + 0x40 * l, 0, 64, 0⟩
/-- HOLD_US 08 R241. -/
def F.HOLD_US (l : Nat) : Fld := ⟨0x00110420 + 0x40 * l, 0, 64, 0⟩
/-- TX_CTRL 03 R103 [0:0]. -/
def F.TX_ENABLE (c : Nat) : Fld := ⟨0x00200000 + 0x10000 * c, 0, 1, 0⟩
/-- TX_STATUS 03 R103 [6:6]. -/
def F.TX_FG_CAL (c : Nat) : Fld := ⟨0x00200004 + 0x10000 * c, 6, 1, 0⟩
/-- TX_STATUS 03 R103 [5:5]. -/
def F.LASER_LOCK (c : Nat) : Fld := ⟨0x00200004 + 0x10000 * c, 5, 1, 0⟩
/-- TX_STATUS 03 R103 [4:4]. -/
def F.SYNTH_LOCK (c : Nat) : Fld := ⟨0x00200004 + 0x10000 * c, 4, 1, 0⟩
/-- TX_STATUS 03 R103 [2:0]. -/
def F.TX_STATE (c : Nat) : Fld := ⟨0x00200004 + 0x10000 * c, 0, 3, 0⟩
/-- TX_TIMEOUT 03 R103 [15:0]. -/
def F.TX_ENABLE_TIMEOUT (c : Nat) : Fld := ⟨0x00200008 + 0x10000 * c, 0, 16, 500⟩
/-- TX_CD_PRE 03 R103 [15:0]. -/
def F.D_PRE (c : Nat) : Fld := ⟨0x0020000C + 0x10000 * c, 0, 16, 0⟩
/-- TX_LEVEL 03 R103 [31:16]. -/
def F.TX_RMS (c : Nat) : Fld := ⟨0x00200010 + 0x10000 * c, 16, 16, 2048⟩
/-- TX_LEVEL 03 R103 [15:0]. -/
def F.DAC_GAIN (c : Nat) : Fld := ⟨0x00200010 + 0x10000 * c, 0, 16, 1016⟩
/-- TX_CLIP_CNT 03 R103. -/
def F.TX_CLIP_CNT (c : Nat) : Fld := ⟨0x00200018 + 0x10000 * c, 0, 64, 0⟩
/-- TXG_TAG 03 R103 [31:0]. -/
def F.TXG_TAG (c : Nat) (g : Nat) : Fld := ⟨0x00200200 + 0x10000 * c + 0x4 * g, 0, 32, 0⟩
/-- SC_SHAPE0 03 R103 [13:8]. -/
def F.SHAPE_B (c : Nat) (s : Nat) : Fld := ⟨0x00200400 + 0x10000 * c + 0x10 * s, 8, 6, 0⟩
/-- SC_SHAPE0 03 R103 [1:0]. -/
def F.SHAPE_MODE (c : Nat) (s : Nat) : Fld := ⟨0x00200400 + 0x10000 * c + 0x10 * s, 0, 2, 0⟩
/-- SC_SHAPE4 03 R103 [29:20]. -/
def F.SHAPE_C2 (c : Nat) (s : Nat) : Fld := ⟨0x00200404 + 0x10000 * c + 0x10 * s, 20, 10, 0⟩
/-- SC_SHAPE4 03 R103 [19:10]. -/
def F.SHAPE_C1 (c : Nat) (s : Nat) : Fld := ⟨0x00200404 + 0x10000 * c + 0x10 * s, 10, 10, 0⟩
/-- SC_SHAPE4 03 R103 [9:0]. -/
def F.SHAPE_C0 (c : Nat) (s : Nat) : Fld := ⟨0x00200404 + 0x10000 * c + 0x10 * s, 0, 10, 0⟩
/-- SC_SHAPE8 03 R103 [26:16]. -/
def F.SC_ATTEN (c : Nat) (s : Nat) : Fld := ⟨0x00200408 + 0x10000 * c + 0x10 * s, 16, 11, 0⟩
/-- SC_SHAPE8 03 R103 [9:0]. -/
def F.SHAPE_K (c : Nat) (s : Nat) : Fld := ⟨0x00200408 + 0x10000 * c + 0x10 * s, 0, 10, 0⟩
/-- SC_SHAPEC 03 R103 [15:0]. -/
def F.SHAPE_ENTROPY (c : Nat) (s : Nat) : Fld := ⟨0x0020040C + 0x10000 * c + 0x10 * s, 0, 16, 0⟩
/-- RX_AGC_CTRL 04 R129 [15:0]. -/
def F.AGC_TARGET (c : Nat) : Fld := ⟨0x00220000 + 0x10000 * c, 0, 16, 2048⟩
/-- RX_AGC_STATUS 04 R129 [1:0]. -/
def F.AGC_MODE (c : Nat) : Fld := ⟨0x00220004 + 0x10000 * c, 0, 2, 0⟩
/-- RX_AGC_GAIN 04 R129 [15:0]. -/
def F.AGC_GAIN (c : Nat) (i : Nat) : Fld := ⟨0x00220010 + 0x10000 * c + 0x4 * i, 0, 16, 4096⟩
/-- RX_OFFSET 04 R129 [7:0]. -/
def F.RX_TRIM (c : Nat) (i : Nat) : Fld := ⟨0x00220020 + 0x10000 * c + 0x4 * i, 0, 8, 0⟩
/-- ACQ_CTRL 04 R129 [31:16]. -/
def F.SEARCH_TIMEOUT (c : Nat) : Fld := ⟨0x00220040 + 0x10000 * c, 16, 16, 10⟩
/-- ACQ_CTRL 04 R129 [15:0]. -/
def F.ACQ_THR (c : Nat) : Fld := ⟨0x00220040 + 0x10000 * c, 0, 16, 16384⟩
/-- RX_SC_MASK 04 R129 [31:0]. -/
def F.RX_SC_MASK (c : Nat) : Fld := ⟨0x00220044 + 0x10000 * c, 0, 32, 0⟩
/-- RX_OVR_CNT 04 R129. -/
def F.RX_OVR_CNT (c : Nat) : Fld := ⟨0x00220048 + 0x10000 * c, 0, 64, 0⟩
/-- RX_FALSE_CNT 04 R129. -/
def F.RX_FALSE_CNT (c : Nat) : Fld := ⟨0x00220050 + 0x10000 * c, 0, 64, 0⟩
/-- Q_CTRL 05 R160 [3:0]. -/
def F.Q_AVG_LOG2 (c : Nat) : Fld := ⟨0x00220058 + 0x10000 * c, 0, 4, 8⟩
/-- RX_EVT_SRC 04 R129 [28:24]. -/
def F.MASK_SC (c : Nat) : Fld := ⟨0x00220140 + 0x10000 * c, 24, 5, 0⟩
/-- RX_EVT_SRC 04 R129 [23:20]. -/
def F.INTR_UNIT (c : Nat) : Fld := ⟨0x00220140 + 0x10000 * c, 20, 4, 0⟩
/-- RX_EVT_SRC 04 R129 [19:16]. -/
def F.LOS_UNIT (c : Nat) : Fld := ⟨0x00220140 + 0x10000 * c, 16, 4, 0⟩
/-- RX_EVT_SRC 04 R129 [15:12]. -/
def F.UNEXP_UNIT (c : Nat) : Fld := ⟨0x00220140 + 0x10000 * c, 12, 4, 0⟩
/-- RX_EVT_SRC 04 R129 [11:8]. -/
def F.FALSE_UNIT (c : Nat) : Fld := ⟨0x00220140 + 0x10000 * c, 8, 4, 0⟩
/-- RX_EVT_SRC 04 R129 [7:4]. -/
def F.ACQ_UNIT (c : Nat) : Fld := ⟨0x00220140 + 0x10000 * c, 4, 4, 0⟩
/-- ACQ0 04 R130 [29:24]. -/
def F.SC_COUNT (c : Nat) (u : Nat) : Fld := ⟨0x00220400 + 0x10000 * c + 0x20 * u, 24, 6, 0⟩
/-- ACQ0 04 R130 [20:16]. -/
def F.FIRST_SC (c : Nat) (u : Nat) : Fld := ⟨0x00220400 + 0x10000 * c + 0x20 * u, 16, 5, 0⟩
/-- ACQ0 04 R130 [2:0]. -/
def F.ACQ_STATE (c : Nat) (u : Nat) : Fld := ⟨0x00220400 + 0x10000 * c + 0x20 * u, 0, 3, 0⟩
/-- ACQ4 04 R129, R130; 05 R160 [31:16]. -/
def F.CD_MIN (c : Nat) (u : Nat) : Fld := ⟨0x00220404 + 0x10000 * c + 0x20 * u, 16, 16, 0⟩
/-- ACQ4 04 R129, R130; 05 R160 [15:0]. -/
def F.CD_MAX (c : Nat) (u : Nat) : Fld := ⟨0x00220404 + 0x10000 * c + 0x20 * u, 0, 16, 0⟩
/-- ACQ8 04 R129, R130; 05 R160 [31:0]. -/
def F.D_EST (c : Nat) (u : Nat) : Fld := ⟨0x00220408 + 0x10000 * c + 0x20 * u, 0, 32, 0⟩
/-- ACQC 04 R129, R130; 05 R160 [31:16]. -/
def F.FOFF (c : Nat) (u : Nat) : Fld := ⟨0x0022040C + 0x10000 * c + 0x20 * u, 16, 16, 0⟩
/-- ACQC 04 R129, R130; 05 R160 [15:0]. -/
def F.ACQ_POWER (c : Nat) (u : Nat) : Fld := ⟨0x0022040C + 0x10000 * c + 0x20 * u, 0, 16, 0⟩
/-- ACQ10 04 R129, R130; 05 R160 [31:0]. -/
def F.ACQ_TAG (c : Nat) (u : Nat) : Fld := ⟨0x00220410 + 0x10000 * c + 0x20 * u, 0, 32, 0⟩
/-- ACQ14 04 R129, R130; 05 R160 [31:0]. -/
def F.UNEXP_TAG (c : Nat) (u : Nat) : Fld := ⟨0x00220414 + 0x10000 * c + 0x20 * u, 0, 32, 0⟩
/-- ACQ18 04 R129, R130; 05 R160 [31:0]. -/
def F.INTR_TAG (c : Nat) (u : Nat) : Fld := ⟨0x00220418 + 0x10000 * c + 0x20 * u, 0, 32, 0⟩
/-- ACQ1C 04 R129, R130; 05 R160 [31:16]. -/
def F.INTR_POWER (c : Nat) (u : Nat) : Fld := ⟨0x0022041C + 0x10000 * c + 0x20 * u, 16, 16, 0⟩
/-- EQ0 05 R160 [15:12]. -/
def F.PILOT_AVG (c : Nat) (u : Nat) : Fld := ⟨0x00220600 + 0x10000 * c + 0x40 * u, 12, 4, 0⟩
/-- EQ0 05 R160 [11:8]. -/
def F.EQ_MU (c : Nat) (u : Nat) : Fld := ⟨0x00220600 + 0x10000 * c + 0x40 * u, 8, 4, 0⟩
/-- EQ0 05 R160 [4:0]. -/
def F.NTAPS (c : Nat) (u : Nat) : Fld := ⟨0x00220600 + 0x10000 * c + 0x40 * u, 0, 5, 0⟩
/-- EQ4 04 R129, R130; 05 R160 [31:16]. -/
def F.D_RES (c : Nat) (u : Nat) : Fld := ⟨0x00220604 + 0x10000 * c + 0x40 * u, 16, 16, 0⟩
/-- EQ4 04 R129, R130; 05 R160 [4:0]. -/
def F.NTAPS_EFF (c : Nat) (u : Nat) : Fld := ⟨0x00220604 + 0x10000 * c + 0x40 * u, 0, 5, 0⟩
/-- EQ8 04 R129, R130; 05 R160 [31:0]. -/
def F.EQ_REINIT_CNT (c : Nat) (u : Nat) : Fld := ⟨0x00220608 + 0x10000 * c + 0x40 * u, 0, 32, 0⟩
/-- EQC 04 R129, R130; 05 R160 [31:16]. -/
def F.U_SNR (c : Nat) (u : Nat) : Fld := ⟨0x0022060C + 0x10000 * c + 0x40 * u, 16, 16, 0⟩
/-- EQC 04 R129, R130; 05 R160 [15:0]. -/
def F.U_GMI (c : Nat) (u : Nat) : Fld := ⟨0x0022060C + 0x10000 * c + 0x40 * u, 0, 16, 0⟩
/-- EQ10 04 R129, R130; 05 R160 [31:16]. -/
def F.U_Q_SEQ (c : Nat) (u : Nat) : Fld := ⟨0x00220610 + 0x10000 * c + 0x40 * u, 16, 16, 0⟩
/-- EQ10 04 R129, R130; 05 R160 [1:1]. -/
def F.U_PILOT_ONLY (c : Nat) (u : Nat) : Fld := ⟨0x00220610 + 0x10000 * c + 0x40 * u, 1, 1, 0⟩
/-- EQ10 04 R129, R130; 05 R160 [0:0]. -/
def F.U_VALID (c : Nat) (u : Nat) : Fld := ⟨0x00220610 + 0x10000 * c + 0x40 * u, 0, 1, 0⟩
/-- BER_ERR 04 R129, R130; 05 R160. -/
def F.BER_ERR (c : Nat) (u : Nat) : Fld := ⟨0x00220614 + 0x10000 * c + 0x40 * u, 0, 64, 0⟩
/-- BER_BITS 04 R129, R130; 05 R160. -/
def F.BER_BITS (c : Nat) (u : Nat) : Fld := ⟨0x0022061C + 0x10000 * c + 0x40 * u, 0, 64, 0⟩
/-- QSC0 05 R160 [31:16]. -/
def F.SC_SNR (c : Nat) (s : Nat) : Fld := ⟨0x00220A00 + 0x10000 * c + 0x10 * s, 16, 16, 0⟩
/-- QSC0 05 R160 [15:0]. -/
def F.SC_GMI (c : Nat) (s : Nat) : Fld := ⟨0x00220A00 + 0x10000 * c + 0x10 * s, 0, 16, 0⟩
/-- QSC4 04 R129, R130; 05 R160 [31:16]. -/
def F.SC_EVM (c : Nat) (s : Nat) : Fld := ⟨0x00220A04 + 0x10000 * c + 0x10 * s, 16, 16, 0⟩
/-- QSC4 04 R129, R130; 05 R160 [15:0]. -/
def F.EQ_DELAY (c : Nat) (s : Nat) : Fld := ⟨0x00220A04 + 0x10000 * c + 0x10 * s, 0, 16, 0⟩
/-- QSC8 04 R129, R130; 05 R160 [31:16]. -/
def F.SC_Q_SEQ (c : Nat) (s : Nat) : Fld := ⟨0x00220A08 + 0x10000 * c + 0x10 * s, 16, 16, 0⟩
/-- QSC8 04 R129, R130; 05 R160 [1:1]. -/
def F.SC_PILOT_ONLY (c : Nat) (s : Nat) : Fld := ⟨0x00220A08 + 0x10000 * c + 0x10 * s, 1, 1, 0⟩
/-- QSC8 04 R129, R130; 05 R160 [0:0]. -/
def F.SC_VALID (c : Nat) (s : Nat) : Fld := ⟨0x00220A08 + 0x10000 * c + 0x10 * s, 0, 1, 0⟩
/-- FTH_CTRL 05 R160 [20:16]. -/
def F.ADAPT_LOG2 : Fld := ⟨0x00240000, 16, 5, 14⟩
/-- FTH_CTRL 05 R160 [11:8]. -/
def F.LEARN_MU : Fld := ⟨0x00240000, 8, 4, 10⟩
/-- FTH_CTRL 05 R160 [2:2]. -/
def F.CLEAR_ALL : Fld := ⟨0x00240000, 2, 1, 0⟩
/-- FTH_CTRL 05 R160 [1:1]. -/
def F.SNAP_REQ : Fld := ⟨0x00240000, 1, 1, 0⟩
/-- FTH_CTRL 05 R160 [0:0]. -/
def F.LEARN_EN : Fld := ⟨0x00240000, 0, 1, 1⟩
/-- FTH_STATUS 05 R160 [18:16]. -/
def F.FTH_LEVEL : Fld := ⟨0x00240004, 16, 3, 0⟩
/-- FTH_STATUS 05 R160 [3:2]. -/
def F.START_SRC : Fld := ⟨0x00240004, 2, 2, 0⟩
/-- FTH_STATUS 05 R160 [1:1]. -/
def F.SNAP_BUSY : Fld := ⟨0x00240004, 1, 1, 0⟩
/-- FTH_STATUS 05 R160 [0:0]. -/
def F.FTH_CLEARING : Fld := ⟨0x00240004, 0, 1, 0⟩
/-- FTH_SNAP_CTRL 05 R160 [15:0]. -/
def F.SNAP_PERIOD : Fld := ⟨0x00240008, 0, 16, 240⟩
/-- FTH_UPDATE_CNT 05 R160 [31:0]. -/
def F.FTH_UPDATE_CNT : Fld := ⟨0x0024000C, 0, 32, 0⟩
/-- FTH_SAT_CNT 05 R160. -/
def F.FTH_SAT_CNT : Fld := ⟨0x00240010, 0, 64, 0⟩
/-- FTHG0 05 R160 [31:28]. -/
def F.FTH_SCALE (g : Nat) : Fld := ⟨0x00240400 + 0x10 * g, 28, 4, 0⟩
/-- FTHG0 05 R160 [22:16]. -/
def F.FTH_REACH (g : Nat) : Fld := ⟨0x00240400 + 0x10 * g, 16, 7, 0⟩
/-- FTHG0 05 R160 [14:8]. -/
def F.PAGE_COUNT (g : Nat) : Fld := ⟨0x00240400 + 0x10 * g, 8, 7, 0⟩
/-- FTHG0 05 R160 [7:0]. -/
def F.PAGE_BASE (g : Nat) : Fld := ⟨0x00240400 + 0x10 * g, 0, 8, 0⟩
/-- FTHG4 05 R160 [31:0]. -/
def F.ADAPT_EPOCH (g : Nat) : Fld := ⟨0x00240404 + 0x10 * g, 0, 32, 0⟩
/-- FTHG8 05 R160 [31:0]. -/
def F.LEARN_TAG (g : Nat) : Fld := ⟨0x00240408 + 0x10 * g, 0, 32, 0⟩
/-- FTHGC 05 R160 [31:16]. -/
def F.FTH_GAIN (g : Nat) : Fld := ⟨0x0024040C + 0x10 * g, 16, 16, 0⟩
/-- FABRIC_HEADROOM 01 R25 [31:31]. -/
def F.HR_VALID : Fld := ⟨0x00250000, 31, 1, 0⟩
/-- FABRIC_HEADROOM 01 R25 [19:16]. -/
def F.HR_LIMIT_BUSHEL : Fld := ⟨0x00250000, 16, 4, 0⟩
/-- FABRIC_HEADROOM 01 R25 [15:0]. -/
def F.HEADROOM : Fld := ⟨0x00250000, 0, 16, 0⟩
/-- FABRIC_HR_CTRL 01 R25 [4:0]. -/
def F.WIN_LOG2 : Fld := ⟨0x00250004, 0, 5, 0x14⟩
/-- FABRIC_HR_THR0 01 R25 [31:16]. -/
def F.HR_LOWER : Fld := ⟨0x00250008, 16, 16, 0x2800⟩
/-- FABRIC_HR_THR0 01 R25 [15:0]. -/
def F.HR_RAISE : Fld := ⟨0x00250008, 0, 16, 0x1000⟩
/-- FABRIC_HR_THR1 01 R25 [15:0]. -/
def F.HR_THROTTLE : Fld := ⟨0x0025000C, 0, 16, 0x0400⟩
/-- BUSHEL_OCC 01 R25 [24:16]. -/
def F.SLACK_MIN (n : Nat) : Fld := ⟨0x00250100 + 0x4 * n, 16, 9, 0⟩
/-- BUSHEL_OCC 01 R25 [8:0]. -/
def F.BUSHEL_OCC (n : Nat) : Fld := ⟨0x00250100 + 0x4 * n, 0, 9, 0⟩
/-- BUSHEL_SAT 01 R25 [31:0]. -/
def F.BUSHEL_SAT (n : Nat) : Fld := ⟨0x00250140 + 0x4 * n, 0, 32, 0⟩
/-- FABRIC_EVT_SRC 18 R440 [8:0]. -/
def F.SLIP_TOKENS : Fld := ⟨0x00250240, 0, 9, 0⟩
/-- FEC_CTRL 06 R190 [15:0]. -/
def F.FIRKIN_WAIT : Fld := ⟨0x00300000, 0, 16, 20⟩
/-- FEC_POOL_STATUS 06 R190 [18:16]. -/
def F.ITER_LEVEL : Fld := ⟨0x00300004, 16, 3, 0⟩
/-- FEC_POOL_STATUS 06 R190 [5:0]. -/
def F.POOL_BUSY : Fld := ⟨0x00300004, 0, 6, 0⟩
/-- FEC_EVT_SRC 06 R190 [26:24]. -/
def F.HUNT_LANE : Fld := ⟨0x00300140, 24, 3, 0⟩
/-- FEC_EVT_SRC 06 R190 [12:0]. -/
def F.OVF_FIRKIN : Fld := ⟨0x00300140, 0, 13, 0⟩
/-- FEC_EVT_GRP 06 R190 [20:16]. -/
def F.LATE_GRP : Fld := ⟨0x00300144, 16, 5, 0⟩
/-- FEC_EVT_GRP 06 R190 [12:8]. -/
def F.OUTER_GRP : Fld := ⟨0x00300144, 8, 5, 0⟩
/-- FEC_EVT_GRP 06 R190 [4:0]. -/
def F.ERASED_GRP : Fld := ⟨0x00300144, 0, 5, 0⟩
/-- FECG0 06 R190 [14:8]. -/
def F.AVG_ITER (g : Nat) : Fld := ⟨0x00300400 + 0x40 * g, 8, 7, 0⟩
/-- FECG0 06 R190 [4:4]. -/
def F.OUTER_EN (g : Nat) : Fld := ⟨0x00300400 + 0x40 * g, 4, 1, 0⟩
/-- FECG0 06 R190 [1:0]. -/
def F.FEC_RATE (g : Nat) : Fld := ⟨0x00300400 + 0x40 * g, 0, 2, 0⟩
/-- FECG4 06 R190 [22:16]. -/
def F.AVG_EFF (g : Nat) : Fld := ⟨0x00300404 + 0x40 * g, 16, 7, 0⟩
/-- FECG4 06 R190 [15:0]. -/
def F.FEC_BANK (g : Nat) : Fld := ⟨0x00300404 + 0x40 * g, 0, 16, 0⟩
/-- FEC_CW 06 R190. -/
def F.FEC_CW (g : Nat) : Fld := ⟨0x00300408 + 0x40 * g, 0, 64, 0⟩
/-- FEC_ERASED 06 R190. -/
def F.FEC_ERASED (g : Nat) : Fld := ⟨0x00300410 + 0x40 * g, 0, 64, 0⟩
/-- FEC_ITER 06 R190. -/
def F.FEC_ITER (g : Nat) : Fld := ⟨0x00300418 + 0x40 * g, 0, 64, 0⟩
/-- OUTER_CORR 06 R190. -/
def F.OUTER_CORR (g : Nat) : Fld := ⟨0x00300420 + 0x40 * g, 0, 64, 0⟩
/-- FEC_LATE 06 R190. -/
def F.FEC_LATE (g : Nat) : Fld := ⟨0x00300428 + 0x40 * g, 0, 64, 0⟩
/-- BLK_LOST 06 R190. -/
def F.BLK_LOST (g : Nat) : Fld := ⟨0x00300430 + 0x40 * g, 0, 64, 0⟩
/-- FECC0 06 R190 [28:16]. -/
def F.N_FIRKIN (l : Nat) : Fld := ⟨0x00300C00 + 0x40 * l, 16, 13, 0⟩
/-- FECC0 06 R190 [0:0]. -/
def F.CLI_SYNC (l : Nat) : Fld := ⟨0x00300C00 + 0x40 * l, 0, 1, 0⟩
/-- CLI_FRAMES 06 R190. -/
def F.CLI_FRAMES (l : Nat) : Fld := ⟨0x00300C04 + 0x40 * l, 0, 64, 0⟩
/-- CLI_DROP 06 R190. -/
def F.CLI_DROP (l : Nat) : Fld := ⟨0x00300C0C + 0x40 * l, 0, 64, 0⟩
/-- CLI_OVERSIZE 06 R190. -/
def F.TX_OVERSIZE (l : Nat) : Fld := ⟨0x00300C14 + 0x40 * l, 0, 64, 0⟩
/-- CLI_HUNTS 06 R190 [31:0]. -/
def F.CLI_HUNTS (l : Nat) : Fld := ⟨0x00300C1C + 0x40 * l, 0, 32, 0⟩
/-- PEER_CTRL 07 R210 [0:0]. -/
def F.PEER_SAVE : Fld := ⟨0x00310000, 0, 1, 0⟩
/-- PEER_STAGE_TAG 07 R210 [31:0]. -/
def F.PEER_STAGE_TAG : Fld := ⟨0x00310004, 0, 32, 0⟩
/-- PEER_STATUS 07 R210 [9:8]. -/
def F.PEER_LOAD_SRC : Fld := ⟨0x00310008, 8, 2, 0⟩
/-- PEER_STATUS 07 R210 [7:7]. -/
def F.SAVE_BUSY : Fld := ⟨0x00310008, 7, 1, 0⟩
/-- PEER_STATUS 07 R210 [6:0]. -/
def F.FREE_COUNT : Fld := ⟨0x00310008, 0, 7, 64⟩
/-- PEER_EVT_SRC 07 R210 [5:0]. -/
def F.REFUSED_ENTRY : Fld := ⟨0x00310140, 0, 6, 0⟩
/-- PEER_TAG 07 R210 [31:0]. -/
def F.PEER_TAG (n : Nat) : Fld := ⟨0x00310400 + 0x10 * n, 0, 32, 0⟩
/-- PEER_CTRLN 07 R210 [31:30]. -/
def F.PEER_KIND (n : Nat) : Fld := ⟨0x00310404 + 0x10 * n, 30, 2, 0⟩
/-- PEER_CTRLN 07 R210 [24:24]. -/
def F.PEER_CARRIER (n : Nat) : Fld := ⟨0x00310404 + 0x10 * n, 24, 1, 0⟩
/-- PEER_CTRLN 07 R210 [20:16]. -/
def F.PEER_LAST (n : Nat) : Fld := ⟨0x00310404 + 0x10 * n, 16, 5, 0⟩
/-- PEER_CTRLN 07 R210 [12:8]. -/
def F.PEER_FIRST (n : Nat) : Fld := ⟨0x00310404 + 0x10 * n, 8, 5, 0⟩
/-- PEER_STAT 07 R210 [16:16]. -/
def F.PEER_INTR (n : Nat) : Fld := ⟨0x00310408 + 0x10 * n, 16, 1, 0⟩
/-- PEER_STAT 07 R210 [15:0]. -/
def F.PEER_EVENTS (n : Nat) : Fld := ⟨0x00310408 + 0x10 * n, 0, 16, 0⟩
/-- PEER_MASK 07 R210 [31:0]. -/
def F.CARRIED_MASK (n : Nat) : Fld := ⟨0x0031040C + 0x10 * n, 0, 32, 0⟩
/-- SC_CAP 07 R210 [23:16]. -/
def F.SC_ASSIGNED (k : Nat) : Fld := ⟨0x00310800 + 0x4 * k, 16, 8, 0⟩
/-- SC_CAP 07 R210 [7:0]. -/
def F.SC_CAP (k : Nat) : Fld := ⟨0x00310800 + 0x4 * k, 0, 8, 0⟩
/-- HK_CTRL 09 R260 [0:0]. -/
def F.HK_CAL_START : Fld := ⟨0x00400000, 0, 1, 0⟩
/-- HK_STATUS 09 R260 [1:1]. -/
def F.HK_CAL_VALID : Fld := ⟨0x00400004, 1, 1, 0⟩
/-- HK_STATUS 09 R260 [0:0]. -/
def F.HK_CAL_BUSY : Fld := ⟨0x00400004, 0, 1, 0⟩
/-- HK_CAL 09 R260 [31:16]. -/
def F.HK_GAIN : Fld := ⟨0x00400008, 16, 16, 16384⟩
/-- HK_CAL 09 R260 [15:0]. -/
def F.HK_OFFSET : Fld := ⟨0x00400008, 0, 16, 0⟩
/-- BIAS_EVT_SRC 09 R260 [28:24]. -/
def F.OVR_SLOT : Fld := ⟨0x00400140, 24, 5, 0⟩
/-- BIAS_EVT_SRC 09 R260 [20:16]. -/
def F.CLIP_CH : Fld := ⟨0x00400140, 16, 5, 0⟩
/-- BIAS_EVT_SRC 09 R260 [12:8]. -/
def F.RANGE_CH : Fld := ⟨0x00400140, 8, 5, 0⟩
/-- BIAS_EVT_SRC 09 R260 [4:0]. -/
def F.FAULT_CH : Fld := ⟨0x00400140, 0, 5, 0⟩
/-- HK_SLOT 09 R260 [4:0]. -/
def F.HK_INPUT (i : Nat) : Fld := ⟨0x00400200 + 0x4 * i, 0, 5, i⟩
/-- HK_DATA 09 R260 [17:17]. -/
def F.HK_OVR (i : Nat) : Fld := ⟨0x00400280 + 0x4 * i, 17, 1, 0⟩
/-- HK_DATA 09 R260 [16:16]. -/
def F.HK_SETTLED (i : Nat) : Fld := ⟨0x00400280 + 0x4 * i, 16, 1, 0⟩
/-- HK_DATA 09 R260 [15:0]. -/
def F.HK_DATA (i : Nat) : Fld := ⟨0x00400280 + 0x4 * i, 0, 16, 0⟩
/-- BC00 09 R260 [27:24]. -/
def F.BC_KI (n : Nat) : Fld := ⟨0x00400400 + 0x40 * n, 24, 4, 8⟩
/-- BC00 09 R260 [20:16]. -/
def F.BC_SLOT (n : Nat) : Fld := ⟨0x00400400 + 0x40 * n, 16, 5, 0⟩
/-- BC00 09 R260 [9:9]. -/
def F.LOOP_SIGN (n : Nat) : Fld := ⟨0x00400400 + 0x40 * n, 9, 1, 0⟩
/-- BC00 09 R260 [8:8]. -/
def F.BC_HARM (n : Nat) : Fld := ⟨0x00400400 + 0x40 * n, 8, 1, 0⟩
/-- BC00 09 R260 [4:4]. -/
def F.BC_RANGE (n : Nat) : Fld := ⟨0x00400400 + 0x40 * n, 4, 1, 0⟩
/-- BC00 09 R260 [1:0]. -/
def F.BC_MODE (n : Nat) : Fld := ⟨0x00400400 + 0x40 * n, 0, 2, 0⟩
/-- BC04 09 R260 [31:0]. -/
def F.PHASE_INC (n : Nat) : Fld := ⟨0x00400404 + 0x40 * n, 0, 32, 0x06C00000⟩
/-- BC08 09 R260 [19:16]. -/
def F.TONE_N_LOG2 (n : Nat) : Fld := ⟨0x00400408 + 0x40 * n, 16, 4, 10⟩
/-- BC08 09 R260 [11:0]. -/
def F.DITHER_AMP (n : Nat) : Fld := ⟨0x00400408 + 0x40 * n, 0, 12, 0⟩
/-- BC0C 09 R260 [15:0]. -/
def F.BC_SLEW (n : Nat) : Fld := ⟨0x0040040C + 0x40 * n, 0, 16, 64⟩
/-- BC10 09 R260 [31:16]. -/
def F.TONE_ROT (n : Nat) : Fld := ⟨0x00400410 + 0x40 * n, 16, 16, 0⟩
/-- BC10 09 R260 [15:0]. -/
def F.TONE_TARGET (n : Nat) : Fld := ⟨0x00400410 + 0x40 * n, 0, 16, 0⟩
/-- BC14 09 R260 [15:0]. -/
def F.SETPOINT (n : Nat) : Fld := ⟨0x00400414 + 0x40 * n, 0, 16, 0⟩
/-- BC18 09 R260 [31:16]. -/
def F.BC_CODE (n : Nat) : Fld := ⟨0x00400418 + 0x40 * n, 16, 16, 0⟩
/-- BC18 09 R260 [15:0]. -/
def F.BC_TARGET (n : Nat) : Fld := ⟨0x00400418 + 0x40 * n, 0, 16, 0⟩
/-- BC1C 09 R260 [31:16]. -/
def F.TONE_I (n : Nat) : Fld := ⟨0x0040041C + 0x40 * n, 16, 16, 0⟩
/-- BC1C 09 R260 [15:0]. -/
def F.TONE_Q (n : Nat) : Fld := ⟨0x0040041C + 0x40 * n, 0, 16, 0⟩
/-- BC20 09 R260 [31:16]. -/
def F.TONE_SEQ (n : Nat) : Fld := ⟨0x00400420 + 0x40 * n, 16, 16, 0⟩
/-- BC20 09 R260 [9:9]. -/
def F.SAVED_RANGE (n : Nat) : Fld := ⟨0x00400420 + 0x40 * n, 9, 1, 0⟩
/-- BC20 09 R260 [8:8]. -/
def F.SAVED_VALID (n : Nat) : Fld := ⟨0x00400420 + 0x40 * n, 8, 1, 0⟩
/-- BC20 09 R260 [6:4]. -/
def F.FAULT_CAUSE (n : Nat) : Fld := ⟨0x00400420 + 0x40 * n, 4, 3, 0⟩
/-- BC20 09 R260 [2:0]. -/
def F.BC_STATE (n : Nat) : Fld := ⟨0x00400420 + 0x40 * n, 0, 3, 0⟩
/-- BC24 09 R260 [15:0]. -/
def F.SAVED (n : Nat) : Fld := ⟨0x00400424 + 0x40 * n, 0, 16, 0⟩
/-- LP_EVT_SRC 10 R443 [0:0]. -/
def F.LP_SRC : Fld := ⟨0x00410140, 0, 1, 0⟩
/-- LP0 10 R443 [31:16]. -/
def F.TX_CHANNEL (c : Nat) : Fld := ⟨0x00410200 + 0x40 * c, 16, 16, 0⟩
/-- LP0 10 R443 [15:0]. -/
def F.TX_FINE (c : Nat) : Fld := ⟨0x00410200 + 0x40 * c, 0, 16, 0⟩
/-- LP4 10 R443 [31:16]. -/
def F.LO_CHANNEL (c : Nat) : Fld := ⟨0x00410204 + 0x40 * c, 16, 16, 0⟩
/-- LP4 10 R443 [15:0]. -/
def F.LO_FINE (c : Nat) : Fld := ⟨0x00410204 + 0x40 * c, 0, 16, 0⟩
/-- LP8 10 R443 [31:16]. -/
def F.TX_POWER (c : Nat) : Fld := ⟨0x00410208 + 0x40 * c, 16, 16, 0⟩
/-- LP8 10 R443 [15:0]. -/
def F.LO_POWER (c : Nat) : Fld := ⟨0x00410208 + 0x40 * c, 0, 16, 0⟩
/-- LPC 10 R443 [1:1]. -/
def F.PORT_EN (c : Nat) : Fld := ⟨0x0041020C + 0x40 * c, 1, 1, 1⟩
/-- LPC 10 R443 [0:0]. -/
def F.LO_EN (c : Nat) : Fld := ⟨0x0041020C + 0x40 * c, 0, 1, 0⟩
/-- LP10 10 R443 [31:24]. -/
def F.REFUSED_CMD (c : Nat) : Fld := ⟨0x00410210 + 0x40 * c, 24, 8, 0⟩
/-- LP10 10 R443 [19:16]. -/
def F.LO_STATUS (c : Nat) : Fld := ⟨0x00410210 + 0x40 * c, 16, 4, 0⟩
/-- LP10 10 R443 [3:0]. -/
def F.TX_LSTATUS (c : Nat) : Fld := ⟨0x00410210 + 0x40 * c, 0, 4, 0⟩
/-- LP14 10 R443 [31:16]. -/
def F.TX_READ_POWER (c : Nat) : Fld := ⟨0x00410214 + 0x40 * c, 16, 16, 0⟩
/-- LP14 10 R443 [15:0]. -/
def F.LO_READ_POWER (c : Nat) : Fld := ⟨0x00410214 + 0x40 * c, 0, 16, 0⟩
/-- LP18 10 R443 [31:16]. -/
def F.N_MAX (c : Nat) : Fld := ⟨0x00410218 + 0x40 * c, 16, 16, 0⟩
/-- LP18 10 R443 [15:0]. -/
def F.N_MIN (c : Nat) : Fld := ⟨0x00410218 + 0x40 * c, 0, 16, 0⟩
/-- LP1C 10 R443 [31:16]. -/
def F.PWR_LO_MAX (c : Nat) : Fld := ⟨0x0041021C + 0x40 * c, 16, 16, 0⟩
/-- LP1C 10 R443 [15:0]. -/
def F.PWR_TX_MAX (c : Nat) : Fld := ⟨0x0041021C + 0x40 * c, 0, 16, 0⟩
/-- PWR_TARGET, domain d = 1-10 (14 R363). -/
def F.TARGET (d : Nat) : Fld := ⟨0x00010000, 2 * d - 2, 2, if d = 1 ∨ d = 10 then 2 else 0⟩
/-- WAKE_FAIL, domain d = 1-10 (14 R363). -/
def F.WAKE_STEP (d : Nat) : Fld := ⟨0x00010008, 2 * d - 2, 2, 0⟩

end Sys2Proof.Machine
end

