-- ==== Sys2Proof/Machine/Ops.lean ====
section
/-! DEFINITION. The named operations over the register file, the domains, the zones, free values, operating time and
the offer of Ledger records. -/
namespace Sys2Proof

/-- The number of a domain (13 R329). -/
def Dom.num : Dom → Nat
  | .aon => 0 | .mgmt => 1 | .hosta => 2 | .hostb => 3 | .line0 => 4 | .line1 => 5 | .faba => 6 | .fabb => 7
  | .fec => 8 | .table => 9 | .chain => 10

end Sys2Proof

namespace Sys2Proof.Machine

/-! ### Fields -/

/-- The key of a field in the register file. -/
def Fld.key (f : Fld) : Nat := f.addr * 32 + f.lo

/-- The value of a field. -/
def getF (s : State) (f : Fld) : Nat := tget s.regs f.key f.rst

/-- Set a field, to the width it has. -/
def setF (s : State) (f : Fld) (v : Nat) : State := { s with regs := tset s.regs f.key (v % 2 ^ f.width) f.rst }

/-- A one-bit field as a truth value. -/
def getB (s : State) (f : Fld) : Bool := getF s f != 0

/-- Set a one-bit field. -/
def setB (s : State) (f : Fld) (b : Bool) : State := setF s f (if b then 1 else 0)

/-- A signed field. -/
def getS (s : State) (f : Fld) : Int := toS f.width (getF s f)

/-- Set a signed field. -/
def setS (s : State) (f : Fld) (i : Int) : State := setF s f (ofS f.width i)

/-- Add to a counter that wraps. -/
def addF (s : State) (f : Fld) (n : Nat) : State := setF s f (getF s f + n)

/-- Add to a counter that saturates. -/
def satF (s : State) (f : Fld) (n : Nat) : State := setF s f (min (getF s f + n) (2 ^ f.width - 1))

/-- Set several fields in order. -/
def setFs (s : State) (l : List (Fld × Nat)) : State := l.foldl (fun s p => setF s p.1 p.2) s

/-- Repeat an operation for every element of a list. -/
def each {α : Type} (l : List α) (f : State → α → State) (s : State) : State := l.foldl f s

/-- Do an operation where a condition holds. -/
def onlyIf (c : Bool) (f : State → State) (s : State) : State := if c then f s else s

/-- A fresh free value below `n` (0 counts as 1): a choice the manual bounds and does not fix (log 8). -/
def draw (s : State) (n : Nat) : Nat := Config.freeValue s.freeCnt % max n 1

/-- Count a draw. -/
def drew (s : State) : State := { s with freeCnt := s.freeCnt + 1 }

/-! ### Domains -/

/-- The state of a domain; AON is always on (14 R342). -/
def domAt (s : State) (d : Nat) : DomSt := if d = 0 then .on else tget s.pw.dom d .off

/-- Set the state of a domain. -/
def setDom (s : State) (d : Nat) (x : DomSt) : State :=
  { s with pw := { s.pw with dom := tset s.pw.dom d x .off } }

/-- A domain is ON. -/
def isOn (s : State) (d : Nat) : Bool := domAt s d == .on

/-- A domain is in a wake. -/
def isWaking (s : State) (d : Nat) : Bool := match domAt s d with | .waking .. => true | _ => false

/-- MGMT works: ON, or in the first two steps of its own orderly off (14 R346). -/
def mgmtWorks (s : State) : Bool :=
  match domAt s 1 with
  | .on => true
  | .entering st .orderly => decide (st ≤ 2)
  | _ => false

/-- The LINE domain of a carrier. -/
def lineDom (c : Nat) : Nat := 4 + c
/-- The fabric half of a carrier (01 R15). -/
def fabDom (c : Nat) : Nat := 6 + c
/-- The HOST domain of a lane (00 R7). -/
def hostDom (l : Nat) : Nat := if l < 4 then 2 else 3
/-- The fabric half of a lane (01 R15). -/
def laneFab (l : Nat) : Nat := if l < 4 then 6 else 7

/-- The domain of memory `m` (12 R305). -/
def memDom (m : Nat) : Nat := [9, 1, 8, 8, 6, 7, 1, 1, 1, 1, 1].getD m 1

/-! ### Zones (01 R40) -/

/-- The identifiers of R40. -/
def zoneOk (z : Nat) : Bool := decide (z < 4) || (decide (16 ≤ z) && decide (z < 24)) || (decide (32 ≤ z) && decide (z < 64))

/-- All zones in ascending order. -/
def zonesAll : List Nat := [0, 1, 2, 3] ++ List.range' 16 8 ++ List.range' 32 32

/-- What a zone holds beside its registers. -/
def ZoneSt.blank : ZoneSt := ⟨none, ZContent.empty, none, 0, false, []⟩

/-- A zone. -/
def zoneAt (s : State) (z : Nat) : ZoneSt := tget s.zones z ZoneSt.blank

/-- Set a zone. -/
def setZone (s : State) (z : Nat) (x : ZoneSt) : State := { s with zones := tset s.zones z x ZoneSt.blank }

/-- The word that a register takes where a section sets none of it (02 R445; 03 R103; 10 R443). -/
def defWord (a : Nat) : Nat :=
  if a = 0x00200010 ∨ a = 0x00210010 then 0x080003F8 else if a = 0x0041020C ∨ a = 0x0041024C then 2 else 0

/-- A register word of completed content (02 R445). -/
def ZContent.word (ct : ZContent) (a : Nat) : Nat := tget ct.regs a (defWord a)

/-- A field of completed content. -/
def contentF (ct : ZContent) (f : Fld) : Nat := bitsOf (ct.word f.addr) f.lo f.width

/-- A signed field of completed content. -/
def contentS (ct : ZContent) (f : Fld) : Int := toS f.width (contentF ct f)

/-- A zone has applied content. -/
def present (s : State) (z : Nat) : Bool := getB s (F.ZONE_PRESENT z)

/-- The transmit side of a zone is on its new bank and the receive side is not (02 R56). -/
def rxBehind (s : State) (z : Nat) : Bool :=
  getF s (F.ZONE_STATE z) == 3 && (zoneAt s z).switched

/-- A field of peer group `g` on the receive side: while the group switches, of the content it had (02 R56-R58). -/
def rxF (s : State) (g : Nat) (f : Fld) : Nat :=
  if rxBehind s (32 + g) then contentF (zoneAt s (32 + g)).active f else getF s f

/-- A field of CODE_SELECT of group `g` on the receive side. -/
def rxCode (s : State) (g : Nat) (f : Fld) : Nat :=
  if rxBehind s (32 + g) then bitsOf ((zoneAt s (32 + g)).active.code.getD 0) f.lo f.width else getF s f

/-- A field of peer group `g` on the transmit side. -/
def txF (s : State) (g : Nat) (f : Fld) : Nat :=
  match if rxBehind s (32 + g) then (zoneAt s (32 + g)).copied else none with
  | some p => contentF p.content f
  | none => getF s f

/-- TX_COMMIT of the section a zone holds copied. -/
def commitAt (s : State) (z : Nat) : Nat := ((zoneAt s z).copied.map Pending.tx).getD 0

/-- The width that a lane group's applied content gives it; the register of it may lie in a domain that is off. -/
def grpWidth (s : State) (l : Nat) : Nat := contentF (zoneAt s (16 + l)).active (F.GRP_WIDTH l)

/-- The lanes of the group whose first lane is `l`. -/
def grpLanes (s : State) (l : Nat) : List Nat := List.range' l (grpWidth s l)

/-- The group that holds a lane: its first lane. -/
def laneGroup (s : State) (k : Nat) : Option Nat :=
  (List.range 8).find? fun l => present s (16 + l) && (grpLanes s l).contains k

/-- The domains of a set of lanes: HOST domains and fabric halves (08 R215). -/
def lanesDoms (ls : List Nat) : List Nat := (ls.map hostDom ++ ls.map laneFab).eraseDups

/-- The domains that hold a zone's resources (01 R40; 14 R350): the fabric half and LINE domain of a carrier zone or
peer group, with FEC for a peer group; FEC, TABLE and both halves' engines for the Fathom allocation; MGMT for the
steward firmware. -/
def zoneDoms (s : State) (z : Nat) : List Nat :=
  if z < 2 then [lineDom z, fabDom z]
  else if z = 2 then [8, 9]
  else if z = 3 then [1]
  else if z < 32 then lanesDoms (grpLanes s (z - 16)) ++ [8]
  else [lineDom ((z - 32) / 16), fabDom ((z - 32) / 16), 8]

/-! ### Time and records -/

/-- Main time (13 R320). -/
def mainTime (s : State) : Nat := s.time.cycles * 2 ^ 40 + s.time.grains

/-- The FLAGS that every record carries (13 R327). -/
def recFlags (s : State) : Nat :=
  (if getB s F.TIME_UNTRIMMED then 1 else 0) + (if getB s F.TIME_VALID then 0 else 2)

/-- Count a record as lost (13 R331): it extends the last run where its cause and SEQ follow on, or opens a run, or
extends the eighth. -/
def addLoss (runs : List LossRun) (seq cause : Nat) : List LossRun :=
  match runs.reverse with
  | [] => [⟨seq, 1, cause⟩]
  | r :: rest =>
    if r.cause = cause ∧ (r.first + r.count) % 2 ^ 32 = seq then (({ r with count := r.count + 1 } : LossRun) :: rest).reverse
    else if runs.length < 8 then runs ++ [⟨seq, 1, cause⟩]
    else (({ r with count := (seq + 2 ^ 32 - r.first) % 2 ^ 32 + 1 } : LossRun) :: rest).reverse

/-- Note a lost record. -/
def loseRec (s : State) (seq cause : Nat) : State :=
  { s with ldg := { s.ldg with runs := addLoss s.ldg.runs seq cause } }

/-- Form a record with the next SEQ (13 R327, R328). -/
def newRec (s : State) (typ extra : Nat) (payload : List Nat) : LRec :=
  ⟨typ, recFlags s + extra, s.ldg.seq, if getB s F.TIME_VALID then mainTime s else 0, payload⟩

/-- Take the next SEQ. -/
def seqNext (s : State) : State := { s with ldg := { s.ldg with seq := (s.ldg.seq + 1) % 2 ^ 32 } }

/-- Put a record into the intake queue. -/
def intakePut (r : LRec) (s : State) : State := { s with ldg := { s.ldg with intake := s.ldg.intake ++ [r] } }

/-- A LOSS record of a run takes its SEQ and its place in the intake queue. -/
def lossPut (s : State) (r : LossRun) : State :=
  seqNext (intakePut (newRec s 8 0 [r.first, r.count % 2 ^ 32, r.cause]) s)

/-- Storing goes on: MGMT works and the record region is not stopped (13 R328, R330). -/
def ldgOpen (s : State) : Bool := mgmtWorks s && !getB s F.LDG_STOPPED

/-- Before any other record, LOSS records of every pending run (13 R331), as soon as the queue has room for them. -/
def flushLoss (s : State) : State :=
  if ldgOpen s && decide (s.ldg.intake.length + s.ldg.runs.length < 256) then
    s.ldg.runs.foldl lossPut { s with ldg := { s.ldg with runs := [] } }
  else s

/-- Offer a record (13 R328): AON assigns SEQ; it enters the intake queue of 256, or is lost with MGMT not on, with the
region stopped, or with the queue full. The record is also returned. -/
def offerR (s : State) (typ extra : Nat) (payload : List Nat) : State × LRec :=
  let s := flushLoss s
  let r := newRec s typ extra payload
  let s := seqNext s
  (if !mgmtWorks s then loseRec s r.seq 2
   else if getB s F.LDG_STOPPED then loseRec s r.seq 0
   else if 256 ≤ s.ldg.intake.length ∨ s.ldg.runs ≠ [] then
     let s := loseRec s r.seq 1
     { s with ldg := { s.ldg with unrep := s.ldg.unrep + 1 } }
   else intakePut r s, r)

/-- Offer a record. -/
def offer (s : State) (typ extra : Nat) (payload : List Nat) : State := (offerR s typ extra payload).1

/-- A DOMAIN record (13 R329). -/
def offerDomain (s : State) (d transition step : Nat) : State :=
  offer s 6 0 [d * 2 ^ 24 + transition * 2 ^ 16 + step * 2 ^ 8]

/-- A COMMIT record (02 R69; 13 R329). -/
def offerCommit (s : State) (zone result : Nat) (armed : Bool) (old new issue build : Nat) : State :=
  offer s 2 0 [zone * 2 ^ 24 + result * 2 ^ 20 + (if armed then 2 ^ 19 else 0), old * 2 ^ 16 + new, issue, build]

/-- A PEER record (13 R329). -/
def offerPeer (s : State) (departure : Bool) (g tag : Nat) (dEst : Nat) : State :=
  offer s 3 0 [(if departure then 2 ^ 24 else 0) + g * 2 ^ 16, tag, dEst]

/-- A sample of histogram `h` (13 R337): bin b = floor((value - edge) / width), limited to 0-63, in the current and
lifetime sets, with their extremes; `value`, `edge` and `width` over one denominator. -/
def histAdd (s : State) (h : Nat) (value num den : Int) : State :=
  let hg := tget s.ldg.hist h Hist.empty
  let b := (clampI 0 63 (num / max den 1)).toNat
  let cur := tget hg.cur b 0
  let hg' : Hist := { hg with
    cur := tset hg.cur b (satInc 32 cur) 0, life := tset hg.life b (satInc 48 (tget hg.life b 0)) 0,
    curX := (min hg.curX.1 value, max hg.curX.2 value), lifeX := (min hg.lifeX.1 value, max hg.lifeX.2 value),
    sat := hg.sat || decide (cur + 2 ≥ 2 ^ 32) }
  { s with ldg := { s.ldg with hist := tset s.ldg.hist h hg' Hist.empty } }

/-! ### Poison lists (12 R313) -/

/-- A memory no row of which was read. -/
def MemSt.blank : MemSt := ⟨0, [], [], [], []⟩

/-- A memory. -/
def memAt (s : State) (m : Nat) : MemSt := tget s.prot.mem m MemSt.blank

/-- Set a memory; POISONED follows the list. -/
def setMem (s : State) (m : Nat) (x : MemSt) : State :=
  setF { s with prot := { s.prot with mem := tset s.prot.mem m x MemSt.blank } } (F.POISONED m) x.poison.length

/-- A word is poisoned. -/
def poisoned (s : State) (m w : Nat) : Bool := (memAt s m).poison.contains w

/-- A word whose every use is that of an uncorrectable word: poisoned, or left uncorrected by a full list (12 R313). -/
def unusable (s : State) (m w : Nat) : Bool := poisoned s m w || (memAt s m).bad.contains w

/-- The memory with no poison. -/
def MemSt.clean (x : MemSt) : MemSt := { x with poison := [], bad := [] }

/-- A full write of words removes their poison (12 R310). -/
def unpoison (m : Nat) (ws : List Nat) (s : State) : State :=
  let x := memAt s m
  let keep := fun (l : List Nat) => l.filter fun w => !ws.contains w
  if (x.poison ++ x.bad).any ws.contains then setMem s m { x with poison := keep x.poison, bad := keep x.bad } else s

/-- An entry of the receive (`m` 2) or transmit (3) queues is used again, which rewrites its 38 words (12 R313). Which entry it is
is not stated: a free value (log 77). -/
def reuseEntry (m : Nat) (s : State) : State :=
  if (memAt s m).poison.isEmpty && (memAt s m).bad.isEmpty then s
  else unpoison m (List.range' (38 * draw s 32768) 38) (drew s)

end Sys2Proof.Machine
end

