-- ==== Sys2Proof/Machine/Flags.lean ====
section
/-! DEFINITION. The event blocks: their registers, the sources with their classes and domains, and one detection up to
its class action (11 R281-R295, R303, R304), with the message it sends on the Chain port (15 R375-R380). -/
namespace Sys2Proof

/-! ### Blocks and sources (11 R303) -/

/-- The address of a block's `<BLK>_EVT` register. -/
def EvBlk.base : EvBlk → Nat
  | .aon => 0x00010100 | .therm => 0x00020100 | .cfg => 0x00030100 | .stw => 0x00040100 | .dma => 0x00040200
  | .cal => 0x00050100 | .ldg => 0x00060100 | .chn => 0x00070100 | .sec => 0x00080100 | .mem => 0x00080200
  | .hl l => 0x00100100 + 0x1000 * l.val | .hpcs => 0x00110100 | .tx c => 0x00200100 + 0x10000 * c.val
  | .rx c => 0x00220100 + 0x10000 * c.val | .fth => 0x00240100 | .fabric => 0x00250200 | .fec => 0x00300100
  | .peer => 0x00310100 | .bias => 0x00400100 | .lp => 0x00410100

/-- The block code (R281): bits [23:8] of the address. -/
def EvBlk.code (b : EvBlk) : Nat := b.base / 256 % 65536

/-- Every block instance, in the order of its code. -/
def EvBlk.all : List EvBlk :=
  [.aon, .therm, .cfg, .stw, .dma, .cal, .ldg, .chn, .sec, .mem,
   .hl 0, .hl 1, .hl 2, .hl 3, .hl 4, .hl 5, .hl 6, .hl 7] ++
  [.hpcs, .tx 0, .tx 1, .rx 0, .rx 1, .fth, .fabric, .fec, .peer, .bias, .lp]

/-- The default class of each source, from bit 0 upward, as the owning chapter states it; 4 marks a bit without a
source. -/
def EvBlk.classes : EvBlk → List Nat
  | .aon => [2, 2, 2, 2, 2, 2, 2, 2, 2, 2, 0, 0, 0, 0, 0, 0, 0, 0, 0, 0, 0, 0, 0, 0, 2, 1, 0, 1]
  | .therm => [1, 0, 1, 2, 3, 2, 1, 0, 0]
  | .cfg => [0, 1, 1, 1, 2, 2, 2]
  | .stw => [0, 0, 0, 0, 0, 0, 0, 0, 0, 0, 0, 0, 0, 0, 0, 0, 0, 1, 0, 1, 1, 1, 2, 3]
  | .dma => [0, 0, 0, 0, 0, 0, 0, 0, 2, 2, 2, 2, 2, 2, 2, 2, 2, 2, 2, 2, 2, 2, 2, 2]
  | .cal => [0, 0, 1, 2, 1, 0]
  | .ldg => [0, 0, 2, 2, 1, 0, 1, 0, 0, 1, 0, 0, 0, 0, 1, 0]
  | .chn => [0, 1, 1, 1, 0, 1, 0, 1, 0, 0, 0, 0, 0, 0, 0, 1, 0, 0, 0, 0, 0, 0, 0, 0]
  | .sec => [1, 1, 1, 1, 1, 1, 1, 1, 1, 1, 0, 0, 0, 0, 1, 1, 2, 1, 0, 0, 1, 0, 2, 3]
  | .mem => [0, 0, 0, 0, 0, 0, 0, 0, 0, 0, 0, 1, 0, 1, 1, 1, 1, 0, 1, 1, 1, 1, 4, 2, 0, 1, 0, 0, 1, 0, 1, 0]
  | .hl _ => [1, 0, 0, 0]
  | .hpcs => [0, 0, 2]
  | .tx _ => [0, 2, 2]
  | .rx _ => [0, 0, 0, 1, 2, 2, 1]
  | .fth => [0, 0, 1, 0, 1]
  | .fabric => [1, 1, 1, 1, 1, 1, 1, 1, 1, 1, 1, 1, 0, 0, 0, 1]
  | .fec => [0, 0, 1, 1, 1, 0]
  | .peer => [0, 0, 0, 1, 0]
  | .bias => [1, 0, 0, 0, 0, 0]
  | .lp => [1, 2]

/-- The reset class of a source, 4 where the bit has no source. -/
def EvBlk.cls0 (b : EvBlk) (i : Nat) : Nat := b.classes.getD i 4

/-- The bit has a source. -/
def EvBlk.has (b : EvBlk) (i : Nat) : Bool := decide (b.cls0 i < 4)

/-- A fixed-Grave source (R284). -/
def EvBlk.fixed (b : EvBlk) (i : Nat) : Bool := b.cls0 i == 3

/-- The sources of a block. -/
def EvBlk.sources (b : EvBlk) : List Nat := (List.range 32).filter b.has

/-- The domain of a source (R303). -/
def EvBlk.srcDom (b : EvBlk) (i : Nat) : Nat :=
  match b with
  | .aon | .therm | .sec | .hpcs | .lp => 0
  | .cfg | .stw | .dma | .cal | .peer => 1
  | .ldg => if i = 9 ∨ i = 10 ∨ i = 14 then 0 else 1
  | .chn => 10
  | .mem => if i < 11 then Machine.memDom i else if i < 22 then Machine.memDom (i - 11) else 0
  | .hl l => Machine.hostDom l.val
  | .tx c | .rx c => Machine.lineDom c.val
  | .fth => 9
  | .fabric => if i < 6 then 6 else if i < 12 then 7 else 1
  | .fec => 8
  | .bias => 4

/-- The reset threshold of a source (R285; 04 R122; 18 R440). -/
def EvBlk.n0 (b : EvBlk) (i : Nat) : Nat :=
  match b with
  | .fabric => if i < 12 then 4 else 16
  | .rx _ => if i = 2 then 32 else 16
  | _ => 16

/-- The reset window of a source in ms (R285; 04 R122). -/
def EvBlk.w0 (b : EvBlk) (i : Nat) : Nat :=
  match b with
  | .rx _ => if i = 2 then 100 else 1000
  | _ => 1000

/-- The key of a source. -/
def EvBlk.key (b : EvBlk) (i : Nat) : Nat := b.code * 32 + i

end Sys2Proof

namespace Sys2Proof.Machine


/-! ### Registers of a block (11 R304) -/

/-- Status bit. -/
def F.EVT (b : EvBlk) (i : Nat) : Fld := ⟨b.base, i, 1, 0⟩
/-- Enable bit. -/
def F.EN (b : EvBlk) (i : Nat) : Fld := ⟨b.base + 4, i, 1, if b.has i then 1 else 0⟩
/-- Pending flag of class 1 Minor, 2 Major, 3 Grave. -/
def F.PEND (b : EvBlk) (cls : Nat) : Fld := ⟨b.base + 0xC, 15 + cls, 1, 0⟩
/-- Class. -/
def F.CLASS (b : EvBlk) (i : Nat) : Fld := ⟨b.base + 0x10 + 4 * (i / 16), 2 * (i % 16), 2, b.cls0 i % 4⟩
/-- EVT_SEQ. -/
def F.EVT_SEQ (b : EvBlk) : Fld := ⟨b.base + 0x18, 0, 32, 0⟩

/-- Threshold. -/
def F.EVT_N (b : EvBlk) (i : Nat) : Fld := ⟨b.base + 0x20 + 4 * (i / 4), 8 * (i % 4), 8, if b.has i then b.n0 i else 0⟩
/-- Window. -/
def F.EVT_W (b : EvBlk) (i : Nat) : Fld := ⟨b.base + 0x80 + 4 * (i / 2), 16 * (i % 2), 16, if b.has i then b.w0 i else 0⟩

/-- Addresses of event registers, which AON holds (18 R430). -/
def evtAddr (a : Nat) : Bool := EvBlk.all.any fun b => decide (b.base ≤ a) && decide (a < b.base + 0x100)

/-- The domain of a register in the pages up to 0x0008_0000 (18 R429; 02 R67). -/
def lowDom (a : Nat) : Nat :=
  let p := a / 65536
  if p = 8 then
    if 0x00080020 ≤ a ∧ a < 0x00080060 then 1
    else if 0x00080300 ≤ a ∧ a < 0x0008032C then memDom ((a - 0x00080300) / 4)
    else if 0x00080400 ≤ a ∧ a < 0x00080560 then memDom ((a - 0x00080400) / 0x20)
    else 0
  else if p = 7 then 10
  else if p = 3 then
    if 0x00030400 ≤ a ∧ a < 0x00030800 then (if a % 16 = 0 then 0 else 1)
    else if 0x00030800 ≤ a ∧ a < 0x00030A00 then 0
    else 1
  else if 4 ≤ p then 1
  else 0

/-- The domain of a register (18 R429-R431). -/
def regDom (a : Nat) : Nat :=
  let p := a / 65536
  if evtAddr a then 0
  else if p < 0x10 then lowDom a
  else if p = 0x10 then hostDom (a / 4096 % 16)
  else if p = 0x11 then (if 0x00110400 ≤ a then laneFab ((a - 0x00110400) / 0x40) else 1)
  else if p = 0x20 ∨ p = 0x22 then 4
  else if p = 0x21 ∨ p = 0x23 then 5
  else if p = 0x24 then 9
  else if p = 0x25 then
    if 0x00250100 ≤ a ∧ a < 0x00250170 then (if a / 4 % 16 < 6 then 6 else 7) else 1
  else if p = 0x30 then 8
  else if p = 0x31 then (if 0x00310800 ≤ a then 8 else 1)
  else if p = 0x40 then (if 0x00400700 ≤ a then 5 else 4)
  else if 0x00410240 ≤ a then 5
  else 4

/-- The key under which a write of a host lane coefficient waits for its perch (18 R439). -/
def coefKey (i : Nat) : Nat := 2 ^ 32 + i

/-- The fabric half of a write that waits for its perch: a register's, or that of the lane of a coefficient. -/
def fabWriteDom (a : Nat) : Nat := if a < 2 ^ 32 then regDom a else laneFab ((a - 2 ^ 32) / 128)

/-- The pin of a class is low (R290): some block's pending flag of the class is set; for Grave, LOCK in FLT_GRAVE is. -/
def pinLow (s : State) (cls : Nat) : Bool :=
  if cls = 3 then getB s F.GRAVE_LOCK else EvBlk.all.any fun b => getB s (F.PEND b cls)

/-! ### What a block keeps of a source -/

/-- A source that nothing has happened to. -/
def EvSrc.blank : EvSrc := ⟨.idle, false, none⟩

/-- What a block keeps of a source. -/
def evAt (s : State) (b : EvBlk) (i : Nat) : EvSrc := tget s.ev (b.key i) EvSrc.blank

/-- Set what a block keeps of a source. -/
def setEv (s : State) (b : EvBlk) (i : Nat) (e : EvSrc) : State := { s with ev := tset s.ev (b.key i) e EvSrc.blank }

/-- The `<BLK>_EVT_SRC` fields that describe a detection (step 1 of R282), from its `info`: the domain, carrier, unit,
lane, channel or number the field names; for a memory, the word, with the bit from bit 22 upward. -/
def evtSrcFields (b : EvBlk) (i info : Nat) : List (Fld × Nat) :=
  match b with
  | .aon => if i = 20 ∨ i = 21 ∨ i = 27 then [(F.AON_SRC, info)] else []
  | .cal => [(F.CAL_SRC, info)]
  | .lp => [(F.LP_SRC, info)]
  | .sec => if 19 ≤ i then [(F.SEC_GROUP, info)] else if i ≤ 12 then [(F.SEC_DOM, info)] else []
  | .mem =>
    if i < 11 then [(F.CORR_MEM, i), (F.CORR_WORD, info), (F.CORR_BIT, info / 2 ^ 22)]
    else if i < 22 then [(F.UNC_MEM, i - 11), (F.UNC_WORD, info)]
    else if i = 27 ∨ i = 30 then [(F.CAND_MEM, info)] else []
  | .hpcs => if i = 0 then [(F.HOLD_LANE, info)] else if i = 1 then [(F.UNCORR_LANE, info)] else [(F.LONG_LANE, info)]
  | .rx c =>
    if i = 1 then [(F.ACQ_UNIT c, info)] else if i = 2 then [(F.FALSE_UNIT c, info)]
    else if i = 3 then [(F.UNEXP_UNIT c, info)] else if i = 4 then [(F.LOS_UNIT c, info)]
    else if i = 5 then [(F.INTR_UNIT c, info)] else if i = 6 then [(F.MASK_SC c, info)] else []
  | .fabric => if i < 12 then [(F.SLIP_TOKENS, min info 0x1FF)] else []
  | .fec =>
    if i = 0 then [(F.ERASED_GRP, info)] else if i = 1 then [(F.OUTER_GRP, info)]
    else if i = 2 then [(F.LATE_GRP, info)] else if i = 3 then [(F.HUNT_LANE, info)]
    else if i = 4 then [(F.OVF_FIRKIN, info)] else []
  | .peer => if i = 4 then [(F.REFUSED_ENTRY, info)] else []
  | .bias =>
    if i ≤ 1 then [(F.FAULT_CH, info)] else if i = 2 then [(F.RANGE_CH, info)]
    else if i = 3 then [(F.CLIP_CH, info)] else if i = 4 then [(F.OVR_SLOT, info)] else []
  | .therm | .cfg | .stw | .dma | .ldg | .chn | .hl _ | .tx _ | .fth => []

/-! ### Promotion and escalation -/

/-- The counter of R285 at an enabled detection with threshold `n`: next counter, and whether it promotes. -/
def countDetection (c : EvCount) (n : Nat) : EvCount × Bool :=
  match c with
  | .idle => if n ≤ 1 then (.spent, true) else (.opened 1 n, false)
  | .opened k m => if k + 1 = m then (.spent, true) else (.opened (k + 1) m, false)
  | .spent => (.spent, false)

/-- A class raised by one, never beyond Grave (R287). -/
def raiseClass (cls : Nat) : Nat := if cls < 3 then cls + 1 else 3

/-- A class after promotion is escalated (R287): Minor or Major, with the block's pending flag of that class set. -/
def escalates (s : State) (b : EvBlk) (cls : Nat) : Bool := (cls == 1 || cls == 2) && getB s (F.PEND b cls)

/-- The payload of an EVENT record (13 R329). -/
def eventPayload (b : EvBlk) (i merged eff cfg seq : Nat) : List Nat :=
  [b.code * 2 ^ 16 + i * 2 ^ 8 + min merged 15 * 2 ^ 4 + eff * 4 + cfg, seq]

/-! ### Sending on the Chain port (15 R375, R378) -/

/-- The units of a packet with a payload of `len` bytes (R375, R378): header, padded payload and CRC, at least 64
bytes, in units of 64. -/
def pktUnits (len : Nat) : Nat := (max 64 (16 + (len + 3) / 4 * 4) + 63) / 64

/-- Stream `k` has credit for `u` units (R378). -/
def hasCredit (s : State) (k u : Nat) : Bool :=
  decide ((tget s.chn.limOut k 0 + 2 ^ 33 - (tget s.chn.usedOut k 0 + u)) % 2 ^ 32 < 2 ^ 31)

/-- The Chain port can send: CHAIN on, link up, not stopped by a Grave fault (11 R297). -/
def chnUp (s : State) : Bool := isOn s 10 && getB s F.CHN_LINK && !s.chn.stopped

/-- Send a packet: it takes the next outbound SEQ and, on stream `k`, its credit. -/
def sendPkt (s : State) (k : Option Nat) (typ flags arg : Nat) (payload : List Byte) : State :=
  let u := pktUnits payload.length
  let used := match k with
    | some k => tset s.chn.usedOut k ((tget s.chn.usedOut k 0 + u) % 2 ^ 32) 0
    | none => s.chn.usedOut
  { s with chn := { s.chn with
      sent := some ⟨typ, flags, s.chn.outSeq, arg, payload⟩, outSeq := (s.chn.outSeq + 1) % 65536, usedOut := used } }

/-- The words of a record (13 R327). -/
def recWords (r : LRec) : List Nat :=
  [(16 + 4 * r.payload.length) * 2 ^ 16 + r.typ * 2 ^ 8 + r.flags, r.seq, r.time % 2 ^ 32, r.time / 2 ^ 32] ++ r.payload

/-- The bytes of a record. -/
def recBytes (r : LRec) : List Byte := (recWords r).flatMap (leBytes 4)

/-- The EVENT message of a recorded detection (R380): sent, or dropped and counted; the flag tells whether it was
dropped for want of credit. -/
def eventMsg (s : State) (r : LRec) : State × Bool :=
  if !isOn s 10 || !getB s F.EVT_MSG_EN then (s, false)
  else if !chnUp s then (satF s F.MSG_DROPS 1, false)
  else if hasCredit s 2 1 then (sendPkt s (some 2) 0x03 3 0 (recBytes r), false)
  else (satF s F.MSG_DROPS 1, true)

/-! ### One detection up to its class action -/

/-- What a detection came to: its effective class (none when the source is disabled), whether its message was dropped
for want of credit. -/
structure Detected where
  eff  : Option Nat
  drop : Bool

/-- Record a detection at once: EVT_SEQ, the record, the message (step 6 of R282; R292). -/
def recordEvent (s : State) (b : EvBlk) (i merged eff cfg flags : Nat) : State × Bool :=
  let s := addF s (F.EVT_SEQ b) 1
  let payload := eventPayload b i merged eff cfg (getF s (F.EVT_SEQ b))
  let (s, r) := offerR s 1 flags payload
  eventMsg s r

/-- Keep a detection for the next millisecond (R293). -/
def mergeEvent (e : EvSrc) (eff flags : Nat) : EvSrc :=
  match e.merged with
  | none => { e with merged := some ⟨eff, flags, 1⟩ }
  | some m => { e with merged := some ⟨max m.cls eff, m.flags ||| flags, m.count + 1⟩ }

/-- Steps 1 to 7 of R282 and the pending flag of step 8. -/
def detectCore (s : State) (b : EvBlk) (i info : Nat) (forced : Bool) : State × Detected :=
  if !b.has i then (s, ⟨none, false⟩) else
  let s := setFs s (evtSrcFields b i info)
  if !getB s (F.EN b i) then (setB s (F.EVT b i) true, ⟨none, false⟩) else
  let (cnt, prom) := countDetection (evAt s b i).count (getF s (F.EVT_N b i))
  let e := { evAt s b i with count := cnt }
  let cfg := getF s (F.CLASS b i)
  let c1 := if prom then raiseClass cfg else cfg
  let prom := prom && decide (cfg < 3)
  let esc := escalates s b c1
  let eff := if esc then raiseClass c1 else c1
  let flags := (if forced then 4 else 0) + (if prom then 8 else 0) + (if esc then 16 else 0)
  let rec? := !getB s (F.EVT b i) || eff != cfg
  let (s, drop) :=
    if !rec? then (setEv s b i e, false)
    else if e.marked then (setEv s b i (mergeEvent e eff flags), false)
    else recordEvent (setEv s b i { e with marked := true }) b i 0 eff cfg flags
  let s := setB s (F.EVT b i) true
  (onlyIf (eff != 0) (fun s => setB s (F.PEND b eff) true) s, ⟨some eff, drop⟩)

end Sys2Proof.Machine
end

