-- ==== Sys2Proof/Machine/Stops.lean ====
section
/-! DEFINITION. What stopping a resource means (11 R297) and the parts of leaving service that raise no event of their
own: the transmit side to HELD, bias channels, lasers, acquisition units, lane groups, sections of the loader. -/
namespace Sys2Proof.Machine

/-! ### Lasers (10 R276-R279) -/

/-- A laser nothing was sent to. -/
def LaserSt.blank : LaserSt := ⟨false, 0, [], 0⟩

/-- The key of a laser: 0 transmit, 1 local oscillator. -/
def laserKey (c l : Nat) : Nat := 2 * c + l

/-- A laser. -/
def laserAt (s : State) (c l : Nat) : LaserSt := tget s.lp.laser (laserKey c l) LaserSt.blank

/-- Set a laser. -/
def setLaser (s : State) (c l : Nat) (x : LaserSt) : State :=
  { s with lp := { s.lp with laser := tset s.lp.laser (laserKey c l) x LaserSt.blank } }

/-- A frame (R276): CMD, ARG, CRC-8 over bits [31:8]. -/
def laserFrame (cmd arg : Nat) : Nat :=
  let top := cmd * 65536 + arg % 65536
  top * 256 + crc8 (beBytes 3 top)

/-- Send a frame to a laser: nothing is sent while PORT_EN is 0 (R277). The newest eight frames are kept. -/
def laserSend (s : State) (c l cmd arg : Nat) : State :=
  if !getB s (F.PORT_EN c) then s
  else
    let x := laserAt s c l
    setLaser s c l { x with sent := (laserFrame cmd arg :: x.sent).take 8 }

/-- OUTPUT off to a laser. -/
def laserOff (s : State) (c l : Nat) : State :=
  let s := laserSend s c l 0x04 0
  setLaser s c l { laserAt s c l with on := false }

/-- Both lasers of a port off. -/
def lasersOff (s : State) (c : Nat) : State := laserOff (laserOff s c 0) c 1

/-! ### Transmit side (03 R100) -/

/-- Stop the wait timer. -/
def txTimerOff (s : State) (c : Nat) : State := { s with tx := { s.tx with timer := tdel s.tx.timer c } }

/-- Start or restart the wait timer: TX_ENABLE_TIMEOUT is read here. -/
def txTimerOn (s : State) (c : Nat) : State :=
  { s with tx := { s.tx with timer := tput s.tx.timer c (getF s (F.TX_ENABLE_TIMEOUT c)) } }

/-- The carrier-fault rows of R100. -/
def txHeld (c : Nat) (s : State) : State :=
  let st := getF s (F.TX_STATE c)
  if st = 1 ∨ st = 2 ∨ st = 3 then
    let s := onlyIf (st != 1) (fun s => laserOff s c 0) s
    setF (txTimerOff s c) (F.TX_STATE c) 4
  else s

/-! ### Bias channels (09 R255) -/

/-- A channel at power-up (09 R257). -/
def BiasCh.blank : BiasCh := ⟨0, 0, [], none, 0, 0, [], 0, false⟩

/-- A channel beside its registers. -/
def chanAt (s : State) (n : Nat) : BiasCh := tget s.bias.ch n BiasCh.blank

/-- Set a channel. -/
def setChan (s : State) (n : Nat) (x : BiasCh) : State :=
  { s with bias := { s.bias with ch := tset s.bias.ch n x BiasCh.blank } }

/-- The channels of a carrier (00 R7). -/
def carrierChans (c : Nat) : List Nat := List.range' (12 * c) 12

/-- A carrier fault reaches a channel: it is acted on at the next frame boundary (R255). -/
def chanFault (s : State) (n : Nat) : State := setChan s n { chanAt s n with fault := true }

/-! ### Acquisition units and peers (04 R120-R126; 07 R198) -/

/-- A unit that has not begun. -/
def AcqU.blank : AcqU := ⟨0, none, none, 0, [], 0, false, [], [], [], [], none, none, none, none, [], 0, 0, 0, 0⟩

/-- The key of a unit: its global group number. -/
def unitKey (c u : Nat) : Nat := 16 * c + u

/-- A unit beside its registers. -/
def unitAt (s : State) (c u : Nat) : AcqU := tget s.rx.unit (unitKey c u) AcqU.blank

/-- Set a unit. -/
def setUnit (s : State) (c u : Nat) (x : AcqU) : State :=
  { s with rx := { s.rx with unit := tset s.rx.unit (unitKey c u) x AcqU.blank } }

/-- The subcarriers of a unit's range (R120). -/
def unitScs (s : State) (c u : Nat) : List Nat := List.range' (getF s (F.FIRST_SC c u)) (getF s (F.SC_COUNT c u))

/-- The mode that the units of a carrier give its AGC (R111): 0 FAST, 1 FROZEN, 2 SLOW. -/
def agcModeOf (s : State) (c : Nat) : Nat :=
  let sts := (List.range 16).map fun u => getF s (F.ACQ_STATE c u)
  if sts.any (fun x => decide (4 ≤ x)) then 2 else if sts.contains 3 then 1 else 0

/-- Take the AGC mode from the units' states; a replacement of R113 ends when another mode holds. -/
def agcUpdate (c : Nat) (s : State) : State :=
  let m := agcModeOf s c
  if m = 1 ∧ c ∈ s.rx.agcRep then setF s (F.AGC_MODE c) 0
  else setF { s with rx := { s.rx with agcRep := s.rx.agcRep.filter (· != c) } } (F.AGC_MODE c) m

/-- A peer departs (07 R198): its bit clears in every entry while MGMT is ON, and the PEER record is offered. -/
def depart (c u : Nat) (s : State) : State :=
  let g := unitKey c u
  let s := offerPeer s true g (getF s (F.ACQ_TAG c u)) (getF s (F.D_EST c u))
  if isOn s 1 then
    each (List.range 64) (fun s n =>
      let m := getF s (F.CARRIED_MASK n)
      if bitOf m g then setF s (F.CARRIED_MASK n) (m - 2 ^ g) else s) s
  else s

/-- Clear the mask bits of a unit's range (R126). -/
def unmask (c u : Nat) (s : State) : State :=
  let m := (unitScs s c u).foldl (fun m k => if bitOf m k then m - 2 ^ k else m) (getF s (F.RX_SC_MASK c))
  setF s (F.RX_SC_MASK c) m

/-- The metrics of a unit stop being valid and no codeword of it is delivered any more (04 R125; 05 R155). -/
def unitQuiet (c u : Nat) (s : State) : State :=
  let g := unitKey c u
  let ks := (unitScs s c u).map (32 * c + ·)
  let s := each (unitScs s c u) (fun s k => setB s (F.SC_VALID c k) false) (setB s (F.U_VALID c u) false)
  { s with
    rx := { s.rx with
      qLen := tdel s.rx.qLen g
      slipped := s.rx.slipped.filter fun k => !ks.contains k
      mute := s.rx.mute.filter fun k => !ks.contains k
      early := s.rx.early.filter fun k => !ks.contains k
      dec := tkeep (fun k => !ks.contains k) s.rx.dec
      qAcc := tkeep (fun k => !ks.contains k) s.rx.qAcc
      qDone := tkeep (fun k => !ks.contains k) s.rx.qDone
      known := tkeep (fun k => !ks.contains k) s.rx.known }
    fec := { s.fec with
      pool := s.fec.pool.filter fun w => w.grp != g
      deframe := tkeep (fun k => !ks.contains k) s.fec.deframe
      runMark := s.fec.runMark.filter fun k => !ks.contains k
      runPos := tkeep (fun k => !ks.contains k) s.fec.runPos } }

/-- A unit leaves its state for `st` (0 IDLE, 1 CD_SCAN, 2 SEARCH): out of ALIGN or CARRY its peer departs, delivery
stops, its masks clear, TAG reads 0; what belonged to the candidate or the stay ends. -/
def unitLeave (c u st : Nat) (s : State) : State :=
  let carried := decide (4 ≤ getF s (F.ACQ_STATE c u))
  let s := onlyIf carried (fun s => unitQuiet c u (setF (unmask c u (depart c u s)) (F.ACQ_TAG c u) 0)) s
  let x := unitAt s c u
  let s := setUnit s c u { AcqU.blank with
    trialD := x.trialD, timer := if st = 2 then x.timer else none, unexp := x.unexp, intr := x.intr, foffHz := x.foffHz,
    timing := x.timing }
  agcUpdate c (setF s (F.ACQ_STATE c u) st)

/-- A unit enters IDLE (R120). -/
def unitIdle (c u : Nat) (s : State) : State := if getF s (F.ACQ_STATE c u) = 0 then s else unitLeave c u 0 s

/-! ### Lane groups (08 R229, R232) -/

/-- A block in `mode` adapts in group state `st` (R229): 0 FROZEN, 1 CONTINUOUS, 2 ONE_SHOT; held in HOLD and DOWN. -/
def adapts (mode st : Nat) : Bool := (st == 1 && mode != 0) || (st == 2 && mode == 1)

/-- Set a coefficient in force. -/
def setCoef (s : State) (key v : Nat) : State :=
  { s with host := { s.host with coef := tset s.host.coef key (v % 1024) 0 } }

/-- What adaptation has made of the blocks of a lane by now: every value of a block that adapts is a free value (log 60). -/
def adaptLane (st k : Nat) (s : State) : State :=
  let free (on : Bool) (ix : List Nat) (s : State) :=
    onlyIf on (each ix fun s i => drew (setCoef s (128 * k + i) (draw s 1024))) s
  let s := free (adapts (getF s (F.FFE_MODE k)) st) (List.range 16) s
  let s := free (adapts (getF s (F.DFE_MODE k)) st) [16] s
  let s := free (adapts (getF s (F.ECHO_MODE k)) st) (List.range' 32 48) s
  onlyIf (adapts (getF s (F.CTLE_MODE k)) st) (fun s => drew (setF s (F.LANE_CTLE k) (draw s 25))) s

/-- The same for the lanes of a group. -/
def adaptGroup (l : Nat) (s : State) : State := each (grpLanes s l) (fun s k => adaptLane (getF s (F.GRP_STATE l)) k s) s

/-- The group's hold timer or time in ACQUIRE starts. -/
def holdStart (l : Nat) (s : State) : State :=
  { s with host := { s.host with
      timers := s.host.timers.filter (· != l) ++ [l], alarmed := s.host.alarmed.filter (· != l) } }

/-- The time spent in HOLD counts (R232, HOLD_US); how long it was is a free value (log 60). -/
def holdSpent (l : Nat) (s : State) : State :=
  if getF s (F.GRP_STATE l) = 3 ∨ getF s (F.GRP_STATE l) = 4 then drew (addF s (F.HOLD_US l) (draw s (2 ^ 64))) else s

/-- A group enters DOWN: it is stopped, and client data that waits is discarded, so that no block mixes client data from before
and after a HOLD that ends so (03 R73). -/
def groupDown (l : Nat) (s : State) : State :=
  let s := holdSpent l (adaptGroup l s)
  let s := { s with tx := { s.tx with stream := tdel s.tx.stream l } }
  let s := { s with host := { s.host with
    timers := s.host.timers.filter (· != l), alarmed := s.host.alarmed.filter (· != l)
    rsSeq := tdel s.host.rsSeq l, rsBad := tdel s.host.rsBad l, back := tdel s.host.back l } }
  setF s (F.GRP_STATE l) 0

/-! ### Sections that end without applying (02 R56, R64, R69) -/

/-- The states of a zone. -/
def zIdle : Nat := 0
def zStaging : Nat := 1
def zArmed : Nat := 2
def zSwitching : Nat := 3

/-- A result of a zone: LAST_RESULT of the zone and of the loader (R68). -/
def setResult (s : State) (z code : Nat) : State :=
  setFs s [(F.ZONE_RESULT z, code), (F.LAST_ZONE, z), (F.CFG_LAST_RESULT, code)]

/-- The codes of R68 that a record can meet. -/
def rSig : Nat := 1
def rFormat : Nat := 2
def rResource : Nat := 9
def rAborted : Nat := 0xC

/-- A loader that takes nothing. -/
def LoaderSt.idle : LoaderSt := ⟨0, [], 0, none, none, [], 0, false⟩

/-- The load ends (R447). -/
def loadEnd (s : State) : State := setF { s with ld := LoaderSt.idle } F.LOADER_STATE 0

/-- A section of a store image is skipped: its TARGET_EPOCH is not after its zone's EPOCH (R51). -/
def staleSec (s : State) (bs : List Byte) : Bool :=
  let z := leAt bs 8 1
  zoneOk z && !after (leAt bs 0xC 2) (getF s (F.ZONE_EPOCH z)) 16

/-- A store image goes on to its next section; the load ends once none is left (R51, R447). A stream goes on by itself. -/
def nextSection (s : State) : State :=
  if 2 ≤ s.ld.src then setF s F.LOADER_STATE 1
  else match s.ld.todo.dropWhile fun e => staleSec s e.2 with
    | [] => loadEnd s
    | (off, bs) :: rest =>
      setF { s with ld := { s.ld with sec := none, buf := bs, pos := off, todo := rest, skip := 0 } } F.LOADER_STATE 1

/-- End the section of a zone that is STAGING or ARMED with a result: what was copied is discarded, the section's
remaining bytes are passed over, the record of R69 is offered. -/
def endSection (z code : Nat) (s : State) : State :=
  let armed := getF s (F.ZONE_STATE z) == zArmed
  let cop := (zoneAt s z).copied
  let own := match s.ld.sec with
    | some x => !armed && x.hdr.zone == z
    | none => false
  let (build, left) := match s.ld.sec with
    | some x => if own then (x.hdr.build, x.hdr.len - 128 - x.body.length) else ((cop.map Pending.build).getD 0, 0)
    | none => ((cop.map Pending.build).getD 0, 0)
  let issue := if armed then (cop.map Pending.issue).getD 0 else 0
  let target := getF s (F.PEND_EPOCH z)
  let s := onlyIf own (fun s => nextSection { s with ld := { s.ld with sec := none, skip := left } }) s
  let s := setZone s z { zoneAt s z with copied := none, switched := false, waits := [] }
  let s := setFs (setResult s z code) [(F.ZONE_STATE z, zIdle), (F.PEND_EPOCH z, 0)]
  offerCommit s z code armed (getF s (F.ZONE_EPOCH z)) target issue build

/-- The zones in a state. -/
def zonesIn (s : State) (st : Nat) : List Nat := zonesAll.filter fun z => getF s (F.ZONE_STATE z) == st

/-! ### What a section relies on (07 R207, R208) -/

/-- Two ranges (first, count) share a number. -/
def overlap (a b : Nat × Nat) : Bool := decide (a.1 < b.1 + b.2) && decide (b.1 < a.1 + a.2)

/-- The firkin ranges of content. -/
def firkinRanges (ct : ZContent) : List (Nat × Nat) := ct.firkins.map (·.2)

/-- Some range of one list meets some range of another. -/
def anyOverlap (l m : List (Nat × Nat)) : Bool := l.any fun a => m.any (overlap a)

/-- WIDTH in content of a lane group. -/
def ctWidth (ct : ZContent) (l : Nat) : Nat := contentF ct (F.GRP_WIDTH l)

/-- The peer-group zones. -/
def peerZones : List Nat := List.range' 32 32
/-- The lane-group zones. -/
def laneZones : List Nat := List.range' 16 8

/-- The zones whose copied section takes what the active content of zone `z` holds and its ARMED section releases. -/
def dependents (s : State) (z : Nat) : List Nat :=
  let old := (zoneAt s z).active
  let takes (y : Nat) (ct : ZContent) : Bool :=
    anyOverlap (firkinRanges ct) (firkinRanges old) ||
      (z < 32 && overlap (y - 16, ctWidth ct (y - 16)) (z - 16, ctWidth old (z - 16)))
  let kind := if 32 ≤ z then peerZones else if 16 ≤ z then laneZones else []
  kind.filter fun y => y != z && (getF s (F.ZONE_STATE y) == zStaging || getF s (F.ZONE_STATE y) == zArmed) &&
    (zoneAt s y).copied.any fun p => takes y p.content

end Sys2Proof.Machine
end

