-- ==== Sys2Proof/Machine/Faults.lean ====
section
/-! DEFINITION. Detections with their class action: carrier faults, the Grave state with its stop scopes and the loader
lock (11 R282, R283, R296-R300; 02 R64), and the commands on event blocks. -/
namespace Sys2Proof.Machine

/-- Carrier `c` stopped (R297): HELD from any state, while its LINE domain is on (03 R102). -/
def stopCarrier (s : State) (c : Nat) : State :=
  let s := txHeld c s
  let s := onlyIf (isOn s (lineDom c)) (fun s => setF s (F.TX_STATE c) 4) s
  let s := each (carrierChans c) chanFault s
  let s := lasersOff s c
  let s := each (List.range 16) (fun s u => unitIdle c u s) s
  { s with lp := { s.lp with stopped := if c ∈ s.lp.stopped then s.lp.stopped else s.lp.stopped ++ [c] } }

/-- A lane group stopped (R297): DOWN for good. A lane group that does not exist stops nothing. -/
def stopGroup (s : State) (l : Nat) : State :=
  if grpWidth s l = 0 then s
  else
    let s := groupDown l s
    { s with host := { s.host with grave := if l ∈ s.host.grave then s.host.grave else s.host.grave ++ [l] } }

/-- The first lanes of the groups that have a lane in a set. -/
def groupsOf (s : State) (lanes : List Nat) : List Nat :=
  (List.range 8).filter fun l => lanes.any fun k => (grpLanes s l).contains k

/-- Carriers and lanes of a stop scope. -/
def stopSet (carriers lanes : List Nat) (s : State) : State :=
  each (groupsOf s lanes) stopGroup (each carriers stopCarrier s)

/-- The steward held in reset. -/
def holdSteward (s : State) : State := { s with stw := { s.stw with held := true, running := false, restart := false } }

/-- The memory that a source of MEM concerns (R303, R305): CORR_m, UNCORR_m, POISON_FULL and SCRUB_LATE by their detection,
RESTORED the triplet table, FETCH_TRAP and RELOAD_DONE the instruction memory, REPAIR_CAND and SPARES_LOW CAND_MEM; the
repair record belongs to no one memory. -/
def scopeMem (s : State) (i info : Nat) : Option Nat :=
  if i < 11 then some i
  else if i < 22 then some (i - 11)
  else if i = 23 ∨ i = 31 then some (info % 11)
  else if i = 24 then some 0
  else if i = 25 ∨ i = 26 then some 7
  else if i = 27 ∨ i = 30 then some (getF s F.CAND_MEM)
  else none

/-- The carriers in the stop scope of a Grave detection (R303). -/
def scopeCarriers (s : State) (b : EvBlk) (i info : Nat) : List Nat :=
  match b with
  | .therm | .sec | .fec => [0, 1]
  | .cal => [getF s F.CAL_SRC]
  | .mem => match scopeMem s i info with
    | some m => if m = 4 then [0] else if m = 5 then [1] else if memDom m = 8 ∨ m = 0 then [0, 1] else []
    | none => []
  | .tx c | .rx c => [c.val]
  | .fabric => if i < 6 then [0] else if i < 12 then [1] else [0, 1]
  | .bias => if i = 0 then [getF s F.FAULT_CH / 12] else if i = 2 then [getF s F.RANGE_CH / 12]
    else if i = 3 then [getF s F.CLIP_CH / 12] else if i = 1 then [getF s F.FAULT_CH / 12] else [0, 1]
  | .lp => [getF s F.LP_SRC]
  | .aon | .cfg | .stw | .dma | .ldg | .chn | .hl _ | .hpcs | .fth | .peer => []

/-- The lanes in the stop scope of a Grave detection (R303). -/
def scopeLanes (s : State) (b : EvBlk) (i info : Nat) : List Nat :=
  match b with
  | .therm | .fec => List.range 8
  | .mem => match scopeMem s i info with
    | some m => if m = 4 then [0, 1, 2, 3] else if m = 5 then [4, 5, 6, 7] else if memDom m = 8 then List.range 8 else []
    | none => []
  | .hl l => [l.val]
  | .hpcs => if i = 0 then [getF s F.HOLD_LANE] else if i = 1 then [getF s F.UNCORR_LANE] else [getF s F.LONG_LANE]
  | .fabric => if i < 6 then [0, 1, 2, 3] else if i < 12 then [4, 5, 6, 7] else List.range 8
  | .aon | .cfg | .stw | .dma | .cal | .ldg | .chn | .sec | .tx _ | .rx _ | .fth | .peer | .bias | .lp => []

/-- Apply the stop scope of a Grave detection (R299 step 3, R303). -/
def applyScope (b : EvBlk) (i info : Nat) (s : State) : State :=
  let served := scopeMem s i info
  let s := stopSet (scopeCarriers s b i info) (scopeLanes s b i info) s
  match b with
  | .stw => holdSteward s
  | .mem => if served.any fun m => memDom m == 1 then holdSteward s else s
  | .dma =>
    let s := onlyIf (7 ≤ getF s F.STORE_ACTIVE) (fun s => setF s F.STORE_ACTIVE 0) s
    each (List.range 8) (fun s c => setB s (F.DMA_BUSY c) false) { s with
      stw := { s.stw with dmaStop := true }, st := { s.st with waiting := s.st.waiting.filter (· < 7) } }
  | .chn => { s with chn := { s.chn with stopped := true } }
  | .fth => { s with fth := { s.fth with stopped := true } }
  | _ => s

/-- The carriers that a Major or Grave detection of one of the named sources faults (R296). -/
def faultedCarriers (s : State) (b : EvBlk) (i : Nat) : List Nat :=
  match b with
  | .bias => if i = 0 then [getF s F.FAULT_CH / 12] else []
  | .lp => if i = 1 then [getF s F.LP_SRC] else []
  | .cal => if i = 3 then [0, 1] else []
  | _ => []

/-- A carrier fault of carrier `c` (R296): the transmit side goes HELD, every bias channel of the carrier is faulted. -/
def carrierFault (s : State) (c : Nat) : State := each (carrierChans c) chanFault (txHeld c s)

/-- The code of FLT_GRAVE CAUSE (R304). -/
def graveCause (b : EvBlk) (i : Nat) : Nat :=
  if b = .stw ∧ i = 23 then 1 else if b = .sec ∧ i = 23 then 2 else if b = .therm ∧ i = 4 then 3 else 4

/-- FLT_GRAVE on the first Grave fault (R299 step 1). -/
def graveFirst (b : EvBlk) (i : Nat) (s : State) : State :=
  setFs s [(F.GRAVE_LOCK, 1), (F.GRAVE_CAUSE, graveCause b i), (F.GRAVE_SOURCE, i), (F.GRAVE_BLOCK, b.code)]

/-- A detection with its class action. `fuel` bounds the detections that a detection brings with it: RECORD_LOST,
MSG_DROPPED, and the events of the loader lock. -/
def detectN : Nat → EvBlk → Nat → Nat → Bool → State → State
  | 0, b, i, info, forced, s => (detectCore s b i info forced).1
  | fuel + 1, b, i, info, forced, s =>
    let (s, r) := detectCore s b i info forced
    let cls := r.eff.getD 0
    -- the carrier faults of R296
    let s := onlyIf (decide (2 ≤ cls)) (fun s => each (faultedCarriers s b i) carrierFault s) s
    -- the Grave state of R299
    let first := cls == 3 && !getB s F.GRAVE_LOCK
    let s := onlyIf first (graveFirst b i) s
    let staging := zonesIn s zStaging
    let armed := zonesIn s zArmed
    let s := onlyIf first (each staging fun s z => detectN fuel .cfg 1 0 false (endSection z 0xD s)) s
    let s := onlyIf first (each armed fun s z => detectN fuel .cfg 2 0 false (endSection z 0xD s)) s
    let s := onlyIf (cls == 3) (applyScope b i info) s
    -- what the record and its message met
    let s := onlyIf r.drop (detectN fuel .chn 11 0 false) s
    if s.ldg.unrep = 0 then s
    else detectN fuel .ldg 1 0 false { s with ldg := { s.ldg with unrep := 0 } }

/-- A real detection of source `i` of block `b`; `info` is what its EVT_SRC field takes. -/
def detect (b : EvBlk) (i info : Nat) (s : State) : State := detectN 3 b i info false s

/-- Raise RECORD_LOST for records that a full intake queue lost (13 R341). -/
def settle (s : State) : State :=
  if s.ldg.unrep = 0 then s else detect .ldg 1 0 { s with ldg := { s.ldg with unrep := 0 } }

/-- A histogram sample, while the Ledger works; HIST_SAT where a bin saturates (13 R337, R339). -/
def histSample (h : Nat) (value num den : Int) (s : State) : State :=
  if !mgmtWorks s then s
  else
    let was := (tget s.ldg.hist h Hist.empty).sat
    let s := histAdd s h value num den
    if !was && (tget s.ldg.hist h Hist.empty).sat then detect .ldg 13 0 s else s

/-! ### The commands -/

/-- The counts that the condition of a source moves: RX_OVR is an increment of RX_OVR_CNT (04 R109). -/
def sourceCount (b : EvBlk) (i : Nat) : List Fld :=
  match b, i with
  | .rx c, 0 => [F.RX_OVR_CNT c.val]
  | _, _ => []

/-- What the condition of a source leaves beside its event: its counts, and PERR in the reserve entry whose parity
fails (13 R334; which entry, the low 6 bits of `info`: DESIGN CHOICE, log 137). -/
def sourceMark (b : EvBlk) (i info : Nat) (s : State) : State :=
  let s := each (sourceCount b i) (fun s f => addF s f 1) s
  let bad (l : List LRec) : List LRec := l.modify (info % 64) fun r => { r with flags := r.flags ||| 128 }
  onlyIf (b == .ldg && i == 14) (fun s => { s with ldg := { s.ldg with reserve := bad s.ldg.reserve } }) s

/-- EVENT_DETECTION (R282). -/
def execEventDetection (b : EvBlk) (source : Fin 32) (info : Word) (s : State) : Host.Outcome State Fault Refusal :=
  .next (detect b source.val info.toNat (onlyIf (isOn s (b.srcDom source.val)) (sourceMark b source.val info.toNat) s))

/-- Forced detections of R289, lowest source first. What their EVT_SRC fields take is not stated: a free value (log 72). -/
def forceBits (b : EvBlk) (bits : Nat) (s : State) : State :=
  each (b.sources.filter (bitOf bits)) (fun s i =>
    if b.fixed i && !bitOf (getF s F.OPEN_SCOPE) 0 then s
    else detectN 3 b i (draw s (2 ^ 32)) true (drew s)) s

/-- EVT_FORCE (R289). -/
def execEvtForce (b : EvBlk) (bits : Word) (s : State) : Host.Outcome State Fault Refusal :=
  .next (forceBits b bits.toNat s)

/-- Acknowledge a pending flag (R288). -/
def ackClass (b : EvBlk) (cls : Nat) (s : State) : State := setB s (F.PEND b cls) false

/-- ACK_MINOR (R288). -/
def execAckMinor (b : EvBlk) (s : State) : Host.Outcome State Fault Refusal := .next (ackClass b 1 s)

/-- ACK_MAJOR (R288). -/
def execAckMajor (b : EvBlk) (s : State) : Host.Outcome State Fault Refusal := .next (ackClass b 2 s)

/-- PROMOTION_WINDOW_EXPIRY (R285): OPEN and SPENT return to IDLE. -/
def execPromotionWindowExpiry (b : EvBlk) (source : Fin 32) (s : State) : Host.Outcome State Fault Refusal :=
  .next (setEv s b source.val { evAt s b source.val with count := .idle })

/-- MERGED_RECORD (R293): at the start of a millisecond the merged detection is recorded once, and the source counts as
recorded in the millisecond that begins; with none merged, the mark of the millisecond that ended clears. -/
def mergedRecord (b : EvBlk) (i : Nat) (s : State) : State :=
  let e := evAt s b i
  match e.merged with
  | none => setEv s b i { e with marked := false }
  | some m =>
    let s := setEv s b i { e with marked := true, merged := none }
    let (s, drop) := recordEvent s b i m.count m.cls (getF s (F.CLASS b i)) m.flags
    settle (onlyIf drop (detect .chn 11 0) s)

/-- MERGED_RECORD (R293). -/
def execMergedRecord (b : EvBlk) (source : Fin 32) (s : State) : Host.Outcome State Fault Refusal :=
  .next (mergedRecord b source.val s)

end Sys2Proof.Machine
end

