-- ==== Sys2Proof/Machine/Store.lean ====
section
/-! DEFINITION. The store: flash bytes, the record slots of 15 R371, R372 and R444, the transfer ranks of R373 and the
flash commands of R370. -/
namespace Sys2Proof.Machine

/-! ### Flash bytes -/

/-- What an erased byte reads as (DESIGN CHOICE, log 4). -/
def erased : Byte := 0xFF#8

/-- `n` bytes from `a`, of cells that start at or above `a`. -/
def readGo : Nat → Nat → List Host.Cell → List Byte
  | 0, _, _ => []
  | n + 1, a, [] => erased :: readGo n (a + 1) []
  | n + 1, a, (k, b) :: t => if k = a then b :: readGo n (a + 1) t else erased :: readGo n (a + 1) ((k, b) :: t)

/-- `n` bytes of the flash from address `a`. -/
def flashRead (cells : List Host.Cell) (a n : Nat) : List Byte := readGo n a (cells.dropWhile fun c => decide (c.1 < a))

/-- The byte at an address. -/
def flashByte (cells : List Host.Cell) (a : Nat) : Byte := tget cells a erased

/-- Bytes as cells from an address, erased bytes unlisted. -/
def cellsFrom : Nat → List Byte → List Host.Cell
  | _, [] => []
  | a, b :: bs => if b = erased then cellsFrom (a + 1) bs else (a, b) :: cellsFrom (a + 1) bs

/-- Replace the bytes from `a` on. -/
def flashPut (cells : List Host.Cell) (a : Nat) (bs : List Byte) : List Host.Cell :=
  (cells.filter fun c => decide (c.1 < a)) ++ cellsFrom a bs ++ (cells.filter fun c => decide (a + bs.length ≤ c.1))

/-- Erase `n` bytes from `a`. -/
def flashErase (cells : List Host.Cell) (a n : Nat) : List Host.Cell :=
  cells.filter fun c => decide (c.1 < a) || decide (a + n ≤ c.1)

/-- Program bytes: programming clears bits and sets none (PRESUMED, log 20). -/
def flashProgram (cells : List Host.Cell) (a : Nat) (bs : List Byte) : List Host.Cell :=
  flashPut cells a (List.zipWith (· &&& ·) (flashRead cells a bs.length) bs)

/-- The canonical form: addresses strictly rise and no listed byte is erased. -/
def flashWf (cells : List Host.Cell) : Bool := trising cells && cells.all fun c => c.2 != erased

/-- Change the flash. -/
def setCells (s : State) (cells : List Host.Cell) : State := { s with st := { s.st with cells := cells } }

/-! ### Transfers (R373) -/

/-- A transfer of a rank waits. -/
def storeWant (s : State) (rank : Nat) : State := { s with st := { s.st with waiting := s.st.waiting ++ [rank] } }

/-- A transfer of a rank ends. -/
def storeDone (s : State) (rank : Nat) : State :=
  if getF s F.STORE_ACTIVE = rank then setF s F.STORE_ACTIVE 0
  else { s with st := { s.st with waiting := s.st.waiting.erase rank } }

/-- The highest-ranked waiting transfer. -/
def storeBest (s : State) : Option Nat := s.st.waiting.min?

/-- STORE_TRANSFER_START (R373): with the port free, or as a transfer of lower rank yields. -/
def execStoreTransferStart (s : State) : Host.Outcome State Fault Refusal :=
  let a := getF s F.STORE_ACTIVE
  .next (match storeBest s with
    | none => s
    | some r =>
      if !mgmtWorks s then s
      else if a = 0 then setF { s with st := { s.st with waiting := s.st.waiting.erase r } } F.STORE_ACTIVE r
      else if r < a then setF { s with st := { s.st with waiting := s.st.waiting.erase r ++ [a] } } F.STORE_ACTIVE r
      else s)

/-! ### Record slots (R371, R372, R444) -/

/-- The address of slot `i` of a kind. -/
def slotAddr (k : RecKind) (i : Nat) : Nat :=
  match k with
  | .snapshot => 0x02000000 + 0x02000000 * i
  | .checkpoint => 0x06000000 + 0x10000 * i
  | .calib c => 0x06020000 + 0x20000 * c.val + 0x10000 * i
  | .bias c => 0x06060000 + 0x20000 * c.val + 0x10000 * i
  | .peer => 0x060A0000 + 0x10000 * i
  | .repair => 0x060C0000 + 0x10000 * i

/-- The bytes of a record (R140, R324, R274, R275, R201, R318). -/
def recSize : RecKind → Nat
  | .snapshot => 4096 + 256 * 114688
  | .checkpoint => 0x10000
  | .calib _ => 0x2000
  | .bias _ => 0x30
  | .peer => 0x214
  | .repair => 0x1000

/-- The erase blocks a record takes, in bytes. -/
def recBlocks (k : RecKind) : Nat := (recSize k + 0xFFFF) / 0x10000 * 0x10000

/-- MAGIC of a kind. -/
def recMagic : RecKind → Nat
  | .snapshot => 0x4654484D
  | .checkpoint => 0x434B5054
  | .calib c => 0x43414C30 + c.val
  | .bias c => 0x42494130 + c.val
  | .peer => 0x50454552
  | .repair => 0x52455052

/-- The offset of a record's check word. -/
def crcOff (k : RecKind) : Nat := match k with | .snapshot => 0xFFC | _ => recSize k - 4

/-- Slot `i` holds a valid record of its kind: MAGIC and check word, and FTH_BUILD for a snapshot (R444 item 1). -/
def slotValid (s : State) (k : RecKind) (i : Nat) : Bool :=
  let a := slotAddr k i
  ofLe (flashRead s.st.cells a 4) == recMagic k &&
  (let bs := flashRead s.st.cells a (crcOff k)
   ofLe (flashRead s.st.cells (a + crcOff k) 4) == crc32c bs &&
   (k != .snapshot || leAt bs 0x10 4 == getF s (F.ZONE_BUILD 2)))

/-- The sequence number in slot `i`. -/
def slotSeq (s : State) (k : RecKind) (i : Nat) : Nat := ofLe (flashRead s.st.cells (slotAddr k i + 4) 4)

/-- The slot of the newest valid record (R444 item 1). -/
def newest (s : State) (k : RecKind) : Option Nat :=
  match slotValid s k 0, slotValid s k 1 with
  | true, true => some (if after (slotSeq s k 1) (slotSeq s k 0) 32 then 1 else 0)
  | true, false => some 0
  | false, true => some 1
  | false, false => none

/-- The slot the next write goes to (R444 item 2). -/
def nextSlot (s : State) (k : RecKind) : Nat := match newest s k with | some i => 1 - i | none => 0

/-- The sequence number the next record carries (R444 item 3). -/
def nextSeq (s : State) (k : RecKind) : Nat := match newest s k with | some i => (slotSeq s k i + 1) % 2 ^ 32 | none => 0

/-- `k` bytes of the newest valid record at an offset. -/
def recAt (s : State) (k : RecKind) (i off n : Nat) : List Byte := flashRead s.st.cells (slotAddr k i + off) n

/-- Write `k` little-endian bytes of a number into a byte list. -/
def withLe (bs : List Byte) (off k v : Nat) : List Byte := bs.take off ++ leBytes k v ++ bs.drop (off + k)

/-- A record with its sequence number and check word. -/
def sealRec (k : RecKind) (seq : Nat) (bs : List Byte) : List Byte :=
  let b := withLe bs 4 4 seq
  withLe b (crcOff k) 4 (crc32c (b.take (crcOff k)))

/-- The rank of a kind (R373). -/
def recRank : RecKind → Nat
  | .checkpoint => 4
  | .snapshot => 6
  | _ => 5

/-- Raise the failure event of a kind and clear its busy flag (R444 item 4; 13 R326: a failed periodic checkpoint is
written again). -/
def recFailed (k : RecKind) (cause : Nat) (s : State) : State :=
  match k with
  | .snapshot => detect .fth 2 0 (setB { s with fth := { s.fth with snap := none } } F.SNAP_BUSY false)
  | .checkpoint =>
    detect .ldg 6 0 { s with time := { s.time with ckptRetry := s.time.ckptRetry || cause == 0 } }
  | .calib c | .bias c => detect .cal 4 c.val s
  | .peer => detect .peer 3 0 (setB s F.SAVE_BUSY false)
  | .repair => detect .mem 28 0 s

/-- Raise the done event of a kind, where it has one. -/
def recDone (k : RecKind) (s : State) : State :=
  match k with
  | .snapshot => detect .fth 1 0 (setB { s with fth := { s.fth with snap := none } } F.SNAP_BUSY false)
  | .checkpoint =>
    detect .ldg 5 0 { s with time := { s.time with ckptRetry := false, lastCkpt := s.time.grains } }
  | .peer => detect .peer 2 0 (setB s F.SAVE_BUSY false)
  | .calib _ | .bias _ | .repair => s

/-- Mark a slot invalid: erase its first block (R372). -/
def killSlot (s : State) (k : RecKind) (i : Nat) : State := setCells s (flashErase s.st.cells (slotAddr k i) 0x10000)

/-- Ask for a record write: it fails at once while MGMT does not work or STORE_SMALL holds (R444 items 4, 6). -/
def startRec (k : RecKind) (bytes : List Byte) (cause : Nat) (s : State) : State :=
  if !mgmtWorks s || s.st.small then recFailed k cause s
  else storeWant { s with st := { s.st with writes := s.st.writes ++ [⟨k, bytes, cause⟩] } } (recRank k)

/-- The rows of a repair record, from its COUNT on: memory, cause and row, in entry order (12 R318). -/
def repairRows (bs : List Byte) : List (Nat × Nat × Nat) :=
  (List.range (min (leAt bs 0 2) 509)).map fun k => (leAt bs (4 + 8 * k) 1, leAt bs (5 + 8 * k) 1, leAt bs (8 + 8 * k) 4)

/-- A repair record written and verified takes the candidates it contains out of the AON buffer (16 R394). -/
def bufferDone (k : RecKind) (bytes : List Byte) (s : State) : State :=
  if k = .repair then
    let rows := repairRows (bytes.drop 0x10)
    let b := s.prot.buffer.filter fun e => !rows.any fun r => r.1 == e.1 && r.2.2 == e.2
    setF { s with prot := { s.prot with buffer := b } } F.BIST_CAND b.length
  else s

/-- End the write of a kind that is in progress: its slot is written, or marked invalid. -/
def endRec (k : RecKind) (ok : Bool) (s : State) : State :=
  match s.st.writes.find? fun w => w.kind == k with
  | none => s
  | some w =>
    let s := storeDone { s with st := { s.st with writes := s.st.writes.erase w } } (recRank k)
    let i := nextSlot s k
    if ok && mgmtWorks s && !s.st.small then
      let rec_ := sealRec k (nextSeq s k) w.bytes
      recDone k (bufferDone k w.bytes <| setCells s (flashPut (flashErase s.st.cells (slotAddr k i) (recBlocks k)) (slotAddr k i) rec_))
    else recFailed k w.cause (killSlot s k i)

/-- Cut every write in progress (R444 item 5). -/
def cutRecs (s : State) : State := each (s.st.writes.map (·.kind)) (fun s k => endRec k false s) s

/-- A record write of a kind is in progress. -/
def recBusy (s : State) (k : RecKind) : Bool := s.st.writes.any fun w => w.kind == k

/-! ### Flash commands (R370) -/

/-- The flash address of a command: in 3-byte mode within the bank of the extended address. -/
def flashAddr (s : State) (addr : Nat) : Nat :=
  if getB s F.STORE_ADDR4 then addr else s.st.bank * 2 ^ 24 + addr % 2 ^ 24

/-- A command reaches a flash that is not busy, through a port that works. -/
def toFlash (s : State) (f : State → State) : State := if mgmtWorks s && !s.st.busy then f s else s

/-- STORE_READ (R370). -/
def execStoreRead (addr : Word) (len : BitVec 13) (s : State) : Host.Outcome State Fault Refusal :=
  .next (toFlash s fun s =>
    { s with st := { s.st with lastRead := flashRead s.st.cells (flashAddr s addr.toNat) len.toNat } })

/-- PAGE_PROGRAM (R370): it needs the write enable and takes it. -/
def execPageProgram (addr : Word) (data : List Byte) (s : State) : Host.Outcome State Fault Refusal :=
  .next (toFlash s fun s =>
    if s.st.wel then
      let a := flashAddr s addr.toNat / 256 * 256
      let s := setCells s (flashProgram s.st.cells a (data.take 256))
      { s with st := { s.st with wel := false, busy := true } }
    else s)

/-- BLOCK_ERASE (R370). -/
def execBlockErase (addr : Word) (s : State) : Host.Outcome State Fault Refusal :=
  .next (toFlash s fun s =>
    if s.st.wel then
      let s := setCells s (flashErase s.st.cells (flashAddr s addr.toNat / 0x10000 * 0x10000) 0x10000)
      { s with st := { s.st with wel := false, busy := true } }
    else s)

/-- WRITE_ENABLE (R370). -/
def execWriteEnable (s : State) : Host.Outcome State Fault Refusal :=
  .next (toFlash s fun s => { s with st := { s.st with wel := true } })

/-- STORE_READ_STATUS (R370): a flash that answers not busy has ended its program or erase. -/
def execStoreReadStatus (busy : Bool) (s : State) : Host.Outcome State Fault Refusal :=
  .next (if mgmtWorks s then { s with st := { s.st with busy := s.st.busy && busy } } else s)

/-- READ_ID (R370): below 0x1B the flash is smaller than 128 MiB. -/
def execReadId (capacity : Byte) (s : State) : Host.Outcome State Fault Refusal :=
  .next (toFlash s fun s =>
    let small := decide (capacity.toNat < 0x1B)
    let s := setF { s with st := { s.st with small := small } } F.CAPACITY capacity.toNat
    if small then detect .stw 22 0 s else s)

/-- EXTENDED_ADDRESS (R370). -/
def execExtendedAddress (bank : Byte) (s : State) : Host.Outcome State Fault Refusal :=
  .next (toFlash s fun s => { s with st := { s.st with bank := bank.toNat } })

end Sys2Proof.Machine
end

