-- ==== Sys2Proof/Machine/Bias.lean ====
section
/-! DEFINITION. Control converters (09): decimation chains, dither synthesiser, detector results, integrator, search and
the states of the 24 bias channels, and the HKADC self-calibration. -/
namespace Sys2Proof.Machine

/-! ### Decimation chains (R246, R247) -/

/-- A chain at its restart. -/
def Chain.blank : Chain := ⟨[], [], [], 0, 0, 0, 0, false⟩

/-- A slot's chain. -/
def chainAt (s : State) (i : Nat) : Chain := tget s.bias.chain i Chain.blank

/-- Set a slot's chain. -/
def setChain (s : State) (i : Nat) (x : Chain) : State :=
  { s with bias := { s.bias with chain := tset s.bias.chain i x Chain.blank } }

/-- The taps of the three stages (R246). -/
def taps1 : List Int := [-1, 0, 9, 16, 9, 0, -1]
/-- Stage 2. -/
def taps2 : List Int := [3, 0, -25, 0, 150, 256, 150, 0, -25, 0, 3]
/-- Stage 3. -/
def taps3 : List Int := [-5, 0, 49, 0, -245, 0, 1225, 2048, 1225, 0, -245, 0, 49, 0, -5]

/-- A stage's output from its delay line, newest first: the sum modulo 2^W, rounded and shifted by S, as 16 bits. -/
def stageOut (taps : List Int) (sh w : Nat) (line : List Int) : Int :=
  let acc := toS w (ofS w ((List.zipWith (· * ·) taps line).foldl (· + ·) 0))
  toS 16 (ofS 16 ((acc + 2 ^ (sh - 1)) / 2 ^ sh))

/-- One conversion enters a chain; what comes out at the loop rate, where something does. Every stage keeps its outputs
at even indices counted from the restart. -/
def Chain.push (c : Chain) (x : Int) (ovr : Bool) : Chain × Option Int :=
  let d1 := (x :: c.d1).take 7
  let c1 := { c with d1 := d1, n1 := (c.n1 + 1) % 2, ovr := c.ovr || ovr }
  if c.n1 = 1 then (c1, none)
  else
    let d2 := (stageOut taps1 5 20 d1 :: c.d2).take 11
    let c2 := { c1 with d2 := d2, n2 := (c.n2 + 1) % 2 }
    if c.n2 = 1 then (c2, none)
    else
      let d3 := (stageOut taps2 9 24 d2 :: c.d3).take 15
      let c3 := { c2 with d3 := d3, n3 := (c.n3 + 1) % 2 }
      if c.n3 = 1 then (c3, none) else (c3, some (stageOut taps3 12 27 d3))

/-- Every channel. -/
def allChans : List Nat := List.range 24

/-- The block in progress of a channel is discarded; a search then waits for a block that begins now (R245, R250). -/
def dropBlock (n : Nat) (s : State) : State :=
  let x := chanAt s n
  setChan s n { x with blk := [], search := x.search.map fun q => { q with wait := min q.wait 11 } }

/-- Restart a slot's chain (R247). -/
def restartChain (i : Nat) (s : State) : State :=
  each (allChans.filter fun n => getF s (F.BC_SLOT n) == i) (fun s n => dropBlock n s) (setChain s i Chain.blank)

/-- Conversions run: LINE0 is on and no self-calibration runs (R242, R245). -/
def converting (s : State) : Bool := isOn s 4 && !getB s F.HK_CAL_BUSY

/-- A loop-rate output of a slot: HK_DATA, and it is offered to the detectors where it is settled. -/
def chainOut (i : Nat) (y : Int) (s : State) : State :=
  let c := chainAt s i
  let settled := decide (11 ≤ c.outs)
  let s := setB (setB (setS s (F.HK_DATA i) y) (F.HK_SETTLED i) settled) (F.HK_OVR i) c.ovr
  let s := onlyIf settled (fun s => { s with bias := { s.bias with out := tput s.bias.out i (y, c.ovr) } }) s
  setChain s i { c with outs := min 11 (c.outs + 1), ovr := false }

/-- The ideal code of an input voltage, both voltages in one unit (R245). -/
def hkCode (v vref : Nat) : Int := rdiv ((2 * v - vref : Int) * 8191) vref

/-- The calibration factors applied to a code of the converter (R245): GAIN, then OFFSET (log 132). -/
def hkFactors (s : State) (raw : Int) : Int :=
  rdiv (raw * (getF s F.HK_GAIN : Int) + 4096 * getS s F.HK_OFFSET) 16384

/-- One conversion of a slot, at its input (R244, R245): outside full scale it is limited and over-range. -/
def convertOne (i : Nat) (raw : Int) (s : State) : State :=
  let code := hkFactors s raw
  let ovr := decide (code < -8191) || decide (8191 < code)
  let s := onlyIf ovr (detect .bias 4 i) s
  let (c, y) := (chainAt s i).push (clampI (-8191) 8191 code) ovr
  let s := setChain s i c
  match y with
  | some y => chainOut i y s
  | none => s

/-- The conversions of a frame: at instant 32k + i slot i converts the input that HK_SLOT_i names (R244). -/
def convertAll (codes : List (List Int)) (s : State) : State :=
  each codes.zipIdx (fun s e => let i := e.2 % 32; convertOne i (e.1.getD (getF s (F.HK_INPUT i)) 0) s) s

/-! ### Dither (R248) -/

/-- floor(pi * 2^96). -/
def piFix : Nat := 248902613312231085230521944622

/-- The alternating Taylor terms of the sine, from term `k` on, in 2^-96. -/
def sineGo : Nat → Nat → Nat → Nat → Int
  | 0, _, _, _ => 0
  | fuel + 1, k, x, t =>
    (t : Int) - sineGo fuel (k + 1) x (t * x / 2 ^ 96 * x / 2 ^ 96 / ((2 * k + 2) * (2 * k + 3)))

/-- round(32,767 sin(2 pi i / 4,096)) for the first quarter, 0 to 1,024. -/
def sineQuarter (i : Nat) : Int :=
  let x := piFix * i / 2048
  (2 * 32767 * sineGo 14 0 x x + 2 ^ 96) / 2 ^ 97

/-- The sine table S(i) (R248). -/
def sineS (i : Nat) : Int :=
  let j := i % 4096
  if j ≤ 1024 then sineQuarter j
  else if j ≤ 2048 then sineQuarter (2048 - j)
  else if j ≤ 3072 then -sineQuarter (j - 2048)
  else -sineQuarter (4096 - j)

/-- The dither value of a channel for its phase. -/
def ditherOf (amp phase : Nat) : Int := ((amp : Int) * sineS (phase / 2 ^ 20) + 2 ^ 14) / 2 ^ 15

/-! ### Channel states (R255): 0 OFF, 1 MANUAL, 2 SEARCH, 3 LOOP, 4 SAFE -/

/-- C, T as signed codes. -/
def codeC (s : State) (n : Nat) : Int := getS s (F.BC_CODE n)
/-- T. -/
def codeT (s : State) (n : Nat) : Int := getS s (F.BC_TARGET n)

/-- MANUAL, SEARCH or LOOP. -/
def chanActive (s : State) (n : Nat) : Bool := let st := getF s (F.BC_STATE n); st == 1 || st == 2 || st == 3

/-- The first row of R255: T = 0, dither stops, P holds. -/
def chanSafe (n cause : Nat) (s : State) : State :=
  if chanActive s n then
    let s := setFs s [(F.BC_TARGET n, 0), (F.FAULT_CAUSE n, cause), (F.BC_STATE n, 4)]
    setChan s n { chanAt s n with search := none, rail := 0, ovrRun := 0 }
  else s

/-- A loop fault (R254): the event, then SAFE. -/
def loopFault (n cause : Nat) (s : State) : State := detect .bias 0 n (chanSafe n cause s)

/-- Step `i` of a search begins (R256). -/
def searchT (i : Nat) : Int := -32256 + 1024 * i

/-- Enter SEARCH at step 0. -/
def enterSearch (n : Nat) (s : State) : State :=
  let s := setF (setS s (F.BC_TARGET n) (searchT 0)) (F.BC_STATE n) 2
  setChan s n { chanAt s n with search := some ⟨0, 0, []⟩, rail := 0, ovrRun := 0 }

/-- Enter LOOP with `p` in 2^-16 code and target `t`. -/
def enterLoop (n : Nat) (p t : Int) (s : State) : State :=
  let s := setF (setS s (F.BC_TARGET n) t) (F.BC_STATE n) 3
  setChan s n { chanAt s n with p := p, search := none, rail := 0 }

/-- The start code of R261. -/
def startCode (s : State) (n : Nat) : Option Int :=
  let v := getS s (F.SAVED n)
  if !getB s (F.SAVED_VALID n) then none
  else if getF s (F.SAVED_RANGE n) = getF s (F.BC_RANGE n) then some v
  else if getB s (F.BC_RANGE n) then some (halfZ v)
  else if -16384 ≤ v ∧ v ≤ 16383 then some (2 * v) else none

/-- MODE written MANUAL or LOOP in OFF, or in SAFE without a Grave fault. -/
def modeStart (n mode : Nat) (s : State) : State :=
  if mode = 1 then
    setF (setF s (F.BC_TARGET n) (getF s (F.SETPOINT n))) (F.BC_STATE n) 1
  else
    match startCode s n with
    | some v => enterLoop n (v * 2 ^ 16) v s
    | none => enterSearch n s

/-- A write of MODE is applied (R255). 3 is ignored. The state stays where the first row has been met at this boundary, and in
SAFE after a Grave fault. -/
def writeMode (n mode : Nat) (fault : Bool) (s : State) : State :=
  let st := getF s (F.BC_STATE n)
  if mode = 3 then s
  else
    let s := setF s (F.BC_MODE n) mode
    if fault ∨ (st = 4 ∧ getB s F.GRAVE_LOCK) then s
    else if mode = 0 then
      if chanActive s n then
        let s := setF (setF s (F.BC_TARGET n) (getF s (F.BC_CODE n))) (F.BC_STATE n) 0
        setChan s n { chanAt s n with search := none, rail := 0, ovrRun := 0 }
      else setF s (F.BC_STATE n) 0
    else if st = 0 ∨ st = 4 then modeStart n mode s
    else s

/-- A change of the detector's input or reference discards the block in progress. -/
def setDet (n : Nat) (f : Fld) (v : Nat) (s : State) : State :=
  if getF s f = v then s else dropBlock n (setF s f v)

/-- A register write of a channel takes effect (R260); RANGE is worked off before. -/
def applyWrite (n : Nat) (fault : Bool) (s : State) (w : Nat × Nat) : State :=
  let v := w.2
  if w.1 = 0 then
    let s := setFs s [(F.BC_KI n, bitsOf v 24 4), (F.LOOP_SIGN n, bitsOf v 9 1)]
    let s := setDet n (F.BC_HARM n) (bitsOf v 8 1) (setDet n (F.BC_SLOT n) (bitsOf v 16 5) s)
    writeMode n (bitsOf v 0 2) fault s
  else if w.1 = 4 then setDet n (F.PHASE_INC n) (v % 2 ^ 32) s
  else if w.1 = 8 then
    setDet n (F.TONE_N_LOG2 n) (clampN 6 12 (bitsOf v 16 4)) (setF s (F.DITHER_AMP n) (bitsOf v 0 12))
  else if w.1 = 0xC then setF s (F.BC_SLEW n) (max 1 (bitsOf v 0 16))
  else if w.1 = 0x10 then setFs s [(F.TONE_ROT n, bitsOf v 16 16), (F.TONE_TARGET n, bitsOf v 0 16)]
  else if w.1 = 0x14 then
    let s := setF s (F.SETPOINT n) (bitsOf v 0 16)
    if getF s (F.BC_STATE n) = 1 then setF s (F.BC_TARGET n) (bitsOf v 0 16) else s
  else s

/-- P within its limit (R253). -/
def limitP (p : Int) : Int := clampI (-(32767 * 2 ^ 16)) (32767 * 2 ^ 16) p

/-- A channel of carrier 1 in LOOP or SEARCH raises no event while LINE0 is not on (R242). -/
def mute (s : State) (n : Nat) : Bool := decide (12 ≤ n) && !isOn s 4 && (getF s (F.BC_STATE n) == 2 || getF s (F.BC_STATE n) == 3)

/-- The rescale of R259 for a RANGE write of `r`. -/
def rescale (n r : Nat) (s : State) : State :=
  let x := chanAt s n
  let c := codeC s n
  let t := codeT s n
  if r = getF s (F.BC_RANGE n) then s
  else if r = 1 then
    let s := setF (setS (setS s (F.BC_CODE n) (halfZ c)) (F.BC_TARGET n) (halfZ t)) (F.BC_RANGE n) 1
    setChan s n { x with p := Int.tdiv x.p 2 }
  else if -16384 ≤ c ∧ c ≤ 16383 ∧ -16384 ≤ t ∧ t ≤ 16383 then
    let s := setF (setS (setS s (F.BC_CODE n) (2 * c)) (F.BC_TARGET n) (2 * t)) (F.BC_RANGE n) 0
    setChan s n { x with p := limitP (2 * x.p) }
  else onlyIf (!mute s n) (detect .bias 2 n) s

/-- The RANGE that the writes of a frame ask for: the last one. -/
def rangeAsked (ws : List (Nat × Nat)) : Option Nat :=
  ((ws.filter fun w => w.1 == 0).map fun w => bitsOf w.2 4 1).getLast?

/-- The writes that wait are worked off at a frame boundary: rescale, then the writes in arrival order (R259). -/
def applyPend (n : Nat) (fault : Bool) (s : State) : State :=
  let ws := (chanAt s n).pend
  let s := setChan s n { chanAt s n with pend := [] }
  let s := match rangeAsked ws with
    | some r => rescale n r s
    | none => s
  ws.foldl (applyWrite n fault) s

/-- The slew limiter (R252). -/
def slewStep (n : Nat) (s : State) : State :=
  let sl : Int := getF s (F.BC_SLEW n)
  let c := codeC s n
  setS s (F.BC_CODE n) (c + clampI (-sl) sl (codeT s n - c))

/-- A search counts the frames since C reached its target (R256). -/
def searchFrame (n : Nat) (s : State) : State :=
  let x := chanAt s n
  match x.search with
  | some q =>
    if converting s && codeC s n == codeT s n then setChan s n { x with search := some { q with wait := q.wait + 1 } }
    else s
  | none => s

/-- The code driven in the frame (R249). -/
def driveCode (n : Nat) (s : State) : State :=
  let x := chanAt s n
  let d := if chanActive s n then ditherOf (getF s (F.DITHER_AMP n)) x.phase else 0
  let v := codeC s n + d
  let s := setChan s n { x with code := clampI (-32768) 32767 v }
  if (v < -32768 ∨ 32767 < v) ∧ !mute s n then detect .bias 3 n s else s

/-- The output of a channel, in steps of VREF_EXT / 131,072 (R258). -/
def biasOut (s : State) (n : Nat) : Int :=
  65536 + (if getB s (F.BC_RANGE n) then 2 else 1) * (if domAt s (lineDom (n / 12)) == .off then 0 else (chanAt s n).code)

/-- The detector of a channel takes its slot's output of the frame (R250). -/
def takeOutput (n : Nat) (s : State) : State :=
  match tfind s.bias.out (getF s (F.BC_SLOT n)) with
  | some (y, ovr) => let x := chanAt s n; setChan s n { x with blk := x.blk ++ [(y, x.phase, ovr)] }
  | none => s

/-- A frame boundary of a channel whose LINE domain is on. -/
def chanFrame (s : State) (n : Nat) : State :=
  if !isOn s (lineDom (n / 12)) then s
  else
    let x := chanAt s n
    let fault := x.fault && chanActive s n
    let s := setChan s n { x with phase := (x.phase + getF s (F.PHASE_INC n)) % 2 ^ 32, fault := false }
    let s := onlyIf fault (chanSafe n 4) s
    driveCode n (searchFrame n (slewStep n (takeOutput n (applyPend n fault s))))

/-- The factors of a self-calibration that wait for the frame boundary (10 R271). -/
def hkApply (s : State) : State :=
  match s.cal.hkWait with
  | some (g, o) => setFs { s with cal := { s.cal with hkWait := none } } [(F.HK_GAIN, g), (F.HK_OFFSET, o)]
  | none => s

/-- MODULATOR_FRAME (R252). -/
def execModulatorFrame (codes : List (List Int)) (s : State) : Host.Outcome State Fault Refusal :=
  let s := { s with bias := { s.bias with out := [] } }
  let s := onlyIf (converting s) (convertAll codes) s
  .next (each allChans chanFrame (onlyIf (isOn s 4) hkApply s))

/-! ### Detector blocks (R250, R253, R256) -/

/-- sigma. -/
def sigma (s : State) (n : Nat) : Int := if getB s (F.LOOP_SIGN n) then -1 else 1

/-- The integrator's update (R253), with the blocks that P has stayed at its limit. -/
def integrate (n : Nat) (s : State) : State :=
  let x := chanAt s n
  let e := getS s (F.TONE_I n) - getS s (F.TONE_TARGET n)
  let p := limitP (x.p + sigma s n * e * 2 ^ (16 - getF s (F.BC_KI n)))
  let rail := if p = 32767 * 2 ^ 16 ∨ p = -(32767 * 2 ^ 16) then x.rail + 1 else 0
  let s := setChan (setS s (F.BC_TARGET n) (rdiv p 65536)) n { x with p := p, rail := rail }
  if 64 ≤ rail then loopFault n 1 s else s

/-- The crossings of a search (R256): the code T* of pair i, as numerator over denominator. -/
def crossings (sg : Int) (es : List Int) : List (Int × Nat) :=
  (List.range 63).filterMap fun i =>
    let a := sg * es.getD i 0
    let b := sg * es.getD (i + 1) 0
    if 0 < a ∧ b ≤ 0 then some (searchT i * (a - b) + 1024 * a, (a - b).toNat) else none

/-- Of two crossings the one nearer 0, the lower on a tie. -/
def nearer (x y : Int × Nat) : Int × Nat :=
  let dx := x.1.natAbs * y.2
  let dy := y.1.natAbs * x.2
  if dx < dy then x else if dy < dx then y else if x.1 * y.2 ≤ y.1 * x.2 then x else y

/-- The crossing that a search takes. -/
def bestCrossing (l : List (Int × Nat)) : Option (Int × Nat) :=
  match l with
  | [] => none
  | x :: xs => some (xs.foldl nearer x)

/-- A block ends in a search: E of the step once the step's wait is over; after step 63 a crossing, or a loop fault. -/
def searchBlock (n : Nat) (q : SearchSt) (s : State) : State :=
  if q.wait < 11 + 2 ^ getF s (F.TONE_N_LOG2 n) then s
  else
    let es := q.errs ++ [getS s (F.TONE_I n) - getS s (F.TONE_TARGET n)]
    if q.step < 63 then
      let s := setS s (F.BC_TARGET n) (searchT (q.step + 1))
      setChan s n { chanAt s n with search := some ⟨q.step + 1, 0, es⟩ }
    else
      match bestCrossing (crossings (sigma s n) es) with
      | some (a, b) =>
        detect .bias 1 n (enterLoop n (rdiv (a * 2 ^ 16) b) (rdiv a b) s)
      | none => loopFault n 3 s

/-- The angle of sample `k` of a block in turns: harmonic, accumulator at its first sample and TONE_ROT (R250). -/
def toneTurn (s : State) (n a0 k : Nat) : Int :=
  (((1 + getF s (F.BC_HARM n)) * (a0 + getF s (F.PHASE_INC n) * k) % 2 ^ 32 * 2 ^ 8 + getF s (F.TONE_ROT n) * 2 ^ 24 : Nat) : Int)

/-- Y of a block of N samples, as the pair of its parts (R250): (2/N) j e^(-j(θ0 + ρ)) Σ x[n] e^(-jωn). -/
def toneY (s : State) (n : Nat) (xs : List (Int × Nat × Bool)) : Int × Int :=
  let a0 := (xs.head?.map (·.2.1)).getD 0
  let part (f : Int → Int) : Int := fxRound (rdiv (2 * (xs.zipIdx.map fun e => e.1.1 * f (toneTurn s n a0 e.2)).foldl (· + ·) 0) xs.length)
  (part fxSin, part fxCos)

/-- A detector block of a channel ends, with what rounding adds to its results (R250, R251, R254). -/
def toneBlock (n : Nat) (i q : Int) (s : State) : State :=
  let x := chanAt s n
  let len := 2 ^ getF s (F.TONE_N_LOG2 n)
  if x.blk.length < len then s
  else
    let xs := x.blk.take len
    let ovr := xs.any (·.2.2)
    let y := toneY s n xs
    let run := if ovr then x.ovrRun + 1 else 0
    let s := setS (setS s (F.TONE_I n) (clampI (-32767) 32767 (y.1 + i))) (F.TONE_Q n) (clampI (-32767) 32767 (y.2 + q))
    let s := setChan (addF s (F.TONE_SEQ n) 1) n { x with blk := x.blk.drop len, ovrRun := run }
    if ovr then (if 4 ≤ run ∧ chanActive s n then loopFault n 2 s else s)
    else if getF s (F.BC_STATE n) = 3 then integrate n s
    else match x.search with
      | some q => searchBlock n q s
      | none => s

/-- TONE_BLOCK_END (R250): no block completes while LINE0 is not on (R242) or a self-calibration runs (R245), nor before the
detector has taken N outputs. -/
def execToneBlockEnd (ch : Fin 24) (i q : Int) (s : State) : Host.Outcome State Fault Refusal :=
  .next (if converting s && isOn s (lineDom (ch.val / 12)) then toneBlock ch.val i q s else s)

/-! ### Housekeeping ADC (R245, R247) -/

/-- HK_SLOT_WRITE (R247): slot 31 is read-only. -/
def hkSlotWrite (i v : Nat) (s : State) : State :=
  if !isOn s 4 || i == 31 then s
  else if getF s (F.HK_INPUT i) = v % 32 then s
  else restartChain i (setF s (F.HK_INPUT i) v)

/-- HK_SLOT_WRITE (R247). -/
def execHkSlotWrite (slot : Fin 32) (value : Word) (s : State) : Host.Outcome State Fault Refusal :=
  .next (hkSlotWrite slot.val value.toNat s)

/-- The temperature that a calibration starts at is kept for its record, under its key: 0 and 1 a carrier's run, 2 the
self-calibration, 3 and 4 a carrier's priority pass. -/
def keepTemp (key : Nat) (s : State) : State :=
  { s with cal := { s.cal with temp := tset s.cal.temp key (getS s F.TEMP) 0 } }

/-- A write of 1 to CAL_START (R245): ignored while a run is in progress, and while references are absent (10 R263). -/
def calStart (s : State) : State :=
  if !isOn s 4 || getB s F.HK_CAL_BUSY || !(isOn s 1 && getB s F.REFCLK_OK && getB s F.VREF_OK) then s
  else each allChans (fun s n => dropBlock n s) (keepTemp 2 (setB s F.HK_CAL_BUSY true))

/-- CAL_START (R245). -/
def execCalStart (s : State) : Host.Outcome State Fault Refusal := .next (calStart s)

/-- A CALIB record (13 R329). -/
def offerCalib (kind carrier result : Nat) (temp : Int) (s : State) : State :=
  settle (offer s 4 0 [kind * 2 ^ 24 + carrier * 2 ^ 16 + result * 2 ^ 8, ofS 16 temp * 2 ^ 16])

/-- The end of a self-calibration (R245, 10 R271): every chain restarts. -/
def hkCalDone (gain offset : Nat) (s : State) : State :=
  let s := setB s F.HK_CAL_BUSY false
  let s := if isOn s 4 && isOn s 5 then { s with cal := { s.cal with hkWait := some (gain, offset) } }
    else setFs s [(F.HK_GAIN, gain), (F.HK_OFFSET, offset)]
  let s := each (List.range 32) (fun s i => restartChain i s) (setB s F.HK_CAL_VALID true)
  offerCalib 0 0xFF 0 (tget s.cal.temp 2 0) (detect .bias 5 0 s)

/-! ### Saving and loading (R257; 10 R275) -/

/-- The bias record of a carrier before its sequence number and check word (10 R275). -/
def biasBytes (s : State) (c : Fin 2) : List Byte :=
  let ns := carrierChans c.val
  let valid := fun n => getF s (F.BC_STATE n) == 1 || getF s (F.BC_STATE n) == 3
  let mask := fun (p : Nat → Bool) => (List.range 12).foldl (fun m i => if p (12 * c.val + i) then m + 2 ^ i else m) 0
  leBytes 4 (recMagic (.bias c)) ++ leBytes 4 0 ++ leBytes 8 (mainTime s) ++
    (ns.flatMap fun n => leBytes 2 (getF s (F.BC_CODE n))) ++ leBytes 2 (mask valid) ++
    leBytes 2 (mask fun n => getB s (F.BC_RANGE n)) ++ leBytes 4 0

/-- Load SAVED of a carrier's channels at a wake of its LINE domain from off (R257; 10 R275). -/
def biasLoad (c : Fin 2) (s : State) : State :=
  match if isOn s 1 then newest s (.bias c) else none with
  | none => s
  | some i =>
    let bs := recAt s (.bias c) i 0x10 28
    each (List.range 12) (fun s k =>
      let n := 12 * c.val + k
      setFs s [(F.SAVED n, leAt bs (2 * k) 2), (F.SAVED_VALID n, bitsOf (leAt bs 24 2) k 1),
        (F.SAVED_RANGE n, bitsOf (leAt bs 26 2) k 1)]) s

/-- The LINE domain of a carrier leaves on: its channels keep their state and drive their code without dither in
retention; off, they are as at power-up (R243, R257). -/
def biasLeave (c : Nat) (retention : Bool) (s : State) : State :=
  each (carrierChans c) (fun s n =>
    if retention then setChan s n { chanAt s n with code := codeC s n } else setChan s n BiasCh.blank) s

end Sys2Proof.Machine
end

