-- ==== Sys2Proof/Machine/Fuse.lean ====
section
/-! DEFINITION. The fuse groups in use (16 R400, R401), and the laser commands that the limit fuses bound (10 R276,
R278). -/
namespace Sys2Proof.Machine

/-! ### Fuse groups (16 R400) -/

/-- The shadow of a group. -/
def fuseAt (s : State) (g : Nat) : FuseWord := s.sec.shadow.getD g FuseWord.blank

/-- The check of R401 failed on a group. -/
def fuseBad (s : State) (g : Nat) : Bool := s.sec.failed.contains g

/-- The data bits of a group. -/
def fuseBits (g : Nat) : Nat := [64, 256, 32, 8, 64, 64, 512, 512, 512, 512, 1, 1, 1, 1].getD g 0

/-- The CRC of a group (R400): that of 03 R71 over its data, most significant bit first. -/
def fuseCrc (g data : Nat) : Nat := crc16 (bitsMsb (fuseBits g) data)

/-- The first two checks of R401: a programmed group has a matching CRC, another is all zero. -/
def fuseGood (g : Nat) (f : FuseWord) : Bool :=
  if f.marker then f.crc == fuseCrc g f.data else f.data == 0 && f.crc == 0

/-- The failure of a group (R401): FUSE_INTEGRITY for 2, 4 and 5, FUSE_CHECK for another. -/
def fuseFails (s : State) (g : Nat) : State :=
  let s := { s with sec := { s.sec with failed := if s.sec.failed.contains g then s.sec.failed else s.sec.failed ++ [g] } }
  detect .sec (if g = 2 ∨ g = 4 ∨ g = 5 then 23 else 22) g s

/-- Every group as sensed is checked; the array holds what was sensed (R401). -/
def fuseCheck (sensed : List FuseWord) (s : State) : State :=
  let at' (g : Nat) : FuseWord := sensed.getD g FuseWord.blank
  let bad := (List.range 14).filter fun g => !fuseGood g (at' g) || at' g != fuseAt s g
  let s := setB { s with sec := { s.sec with fuses := (List.range 14).map at' } } F.INTEGRITY_OK bad.isEmpty
  settle (each bad fuseFails s)

/-! ### The challenge (R397, R398) -/

/-- The challenge is discarded. -/
def challengeDrop (s : State) : State :=
  each (List.range 8) (fun s i => setF s (F.CHALLENGE i) 0) { s with sec := { s.sec with challenge := none } }

/-- The challenge expires: what was open before it stays open. -/
def challengeExpires (s : State) : State :=
  setFs (challengeDrop s) [(F.ACC_STATE, if getF s F.OPEN_SCOPE = 0 then 0 else 2), (F.ACC_RESULT, 3)]

/-! ### Limits (R400) -/

/-- A field of a carrier's limit group: 0 N_MIN, 1 N_MAX, 2 PWR_TX_MAX, 3 PWR_LO_MAX. -/
def limitField (s : State) (c i : Nat) : Nat := bitsOf (fuseAt s (4 + c)).data (16 * i) 16

/-- The limits are treated as unprogrammed (R401). -/
def limitsLost (s : State) : Bool := fuseBad s 2 || fuseBad s 4 || fuseBad s 5

/-- A limit as the laser port takes it. -/
def limitOf (s : State) (c i : Nat) : Int := if limitsLost s then 0 else toS 16 (limitField s c i)

/-- The fuse set of a carrier counts as unprogrammed (10 R278). -/
def limitsBlank (s : State) (c : Nat) : Bool := (List.range 4).all fun i => limitOf s c i == 0

/-! ### Checked laser commands (10 R278) -/

/-- The accepted channel of a laser: 0 transmit, 1 local oscillator. -/
def channelF (c l : Nat) : Fld := if l = 0 then F.TX_CHANNEL c else F.LO_CHANNEL c
/-- Its fine offset. -/
def fineF (c l : Nat) : Fld := if l = 0 then F.TX_FINE c else F.LO_FINE c
/-- Its power. -/
def powerF (c l : Nat) : Fld := if l = 0 then F.TX_POWER c else F.LO_POWER c
/-- Its status. -/
def lstatusF (c l : Nat) : Fld := if l = 0 then F.TX_LSTATUS c else F.LO_STATUS c
/-- Its power reading. -/
def readPowerF (c l : Nat) : Fld := if l = 0 then F.TX_READ_POWER c else F.LO_READ_POWER c

/-- A command passes the check of R278: 0x01 SET_CHANNEL, 0x02 SET_FINE, 0x03 SET_POWER, 0x04 OUTPUT; a stopped carrier
refuses every OUTPUT on (11 R297). -/
def laserAllowed (s : State) (c l cmd arg : Nat) : Bool :=
  let a := toS 16 arg
  if cmd = 1 then !limitsBlank s c && decide (limitOf s c 0 ≤ a) && decide (a ≤ limitOf s c 1)
  else if cmd = 2 then
    let f := getS s (channelF c l) * 6250 + a
    decide (limitOf s c 0 * 6250 ≤ f) && decide (f ≤ limitOf s c 1 * 6250)
  else if cmd = 3 then !limitsBlank s c && decide (a ≤ limitOf s c (2 + l))
  else arg == 0 || !(limitsBlank s c || s.lp.stopped.contains c)

/-- A refused command: not sent, REFUSED_CMD and LASER_REFUSED. -/
def laserRefuse (c cmd : Nat) (s : State) : State := detect .lp 0 c (setF s (F.REFUSED_CMD c) cmd)

/-- Command a laser on (R278, R279). -/
def laserOn (s : State) (c l : Nat) : State :=
  if !laserAllowed s c l 4 1 then laserRefuse c 4 s
  else if getB s (F.PORT_EN c) then
    let s := laserSend s c l 4 1
    setLaser s c l { laserAt s c l with on := true }
  else s

end Sys2Proof.Machine
end

