-- ==== Sys2Proof/Machine/LineCode.lean ====
section
/-! DEFINITION. The line codes: the distribution matcher (03 R88, R89), codeword layout (03 R84-R87, R90), the LDPC code
(06 R162-R164), binary BCH codes (06 R165; 08 R220; 12 R308) and the header bits (03 R77). -/
namespace Sys2Proof.Machine

/-! ### Distribution matcher -/

/-- n! -/
def fact : Nat → Nat
  | 0 => 1
  | n + 1 => (n + 1) * fact n

/-- The arrangements of a composition (R88). -/
def multinomial (c : List Nat) : Nat := fact c.sum / (c.map fact).foldl (· * ·) 1

/-- The composition (c0, c1, c2, c3) of R88. -/
def composition (c0 c1 c2 : Nat) : List Nat := [c0, c1, c2, 512 - c0 - c1 - c2]

/-- k of R88: the whole part of log2 of the number of arrangements. -/
def kOf (c0 c1 c2 : Nat) : Nat := Nat.log2 (multinomial (composition c0 c1 c2))

/-- Take one from a count. -/
def decAt (c : List Nat) (a : Nat) : List Nat := c.set a (c.getD a 0 - 1)

/-- The amplitude index at one position, with the rank that is left (R89). -/
def dmPick (c : List Nat) : List Nat → Nat → Nat × Nat
  | [], i => (0, i)
  | a :: as, i =>
    if c.getD a 0 = 0 then dmPick c as i
    else
      let m := multinomial (decAt c a)
      if i < m then (a, i) else dmPick c as (i - m)

/-- The distribution matcher (R89) over `n` positions. -/
def dmEncode : Nat → Nat → List Nat → List Nat
  | 0, _, _ => []
  | n + 1, i, c => let (a, i') := dmPick c [0, 1, 2, 3] i; a :: dmEncode n i' (decAt c a)

/-- The rank of an amplitude list (the inverse of R89), none where the composition is not met. -/
def dmRank : List Nat → List Nat → Option Nat
  | [], c => if c.sum = 0 then some 0 else none
  | a :: as, c =>
    if c.getD a 0 = 0 then none
    else
      let below := ((List.range a).filter (fun b => c.getD b 0 != 0)).map fun b => multinomial (decAt c b)
      (dmRank as (decAt c a)).map (· + below.sum)

/-- The label of an amplitude index (R90). -/
def ampLabel (a : Nat) : List Bool := [[false, false], [false, true], [true, true], [true, false]].getD a [false, false]

/-- The amplitude index of a label (R90). -/
def labelAmp (b1 b0 : Bool) : Nat := if b1 then (if b0 then 2 else 3) else (if b0 then 1 else 0)

/-! ### LDPC -/

/-- Information columns of a RATE code (06 R162, R169). -/
def rateKb (rate : Nat) : Nat := [96, 100, 105].getD rate 96

/-- The non-zero information blocks of R163: row, column, shift. -/
def hInfoBlocks (kb : Nat) : List (Nat × Nat × Nat) :=
  let m := 120 - kb
  (List.range kb).flatMap fun j =>
    (List.range 3).map fun t => ((j + t * (1 + j / m)) % m, j, ((2 * t + 1) * (29 * j + 7) + 67 * t) % 192)

/-- I_s applied to a block: bit a of the product is bit (a + s) mod 192 (R162). -/
def circ (s : Nat) (b : BitVec 192) : BitVec 192 := b.rotateRight (s % 192)

/-- The information part of every check row. -/
def infoSums (u : List (BitVec 192)) (kb : Nat) : List (BitVec 192) :=
  (hInfoBlocks kb).foldl (fun s e => s.modify e.1 (· ^^^ circ e.2.2 (u.getD e.2.1 0#192)))
    (List.replicate (120 - kb) 0#192)

/-- Accumulate down the staircase (R164). -/
def staircase : List (BitVec 192) → BitVec 192 → List (BitVec 192)
  | [], _ => []
  | s :: ss, p => (s ^^^ p) :: staircase ss (s ^^^ p)

/-- The parity column blocks (R164). -/
def ldpcParity (u : List (BitVec 192)) (kb : Nat) : List (BitVec 192) := staircase (infoSums u kb) 0#192

/-- The syndrome of a word is zero: its parity blocks are those of its information blocks. -/
def syndromeZero (w : List (BitVec 192)) (kb : Nat) : Bool := (w.drop kb).take (120 - kb) == ldpcParity (w.take kb) kb

/-- A list of bits as blocks of 192, position x in bit x mod 192 of block x / 192. -/
def bitsToBlocks (bs : List Bool) : List (BitVec 192) :=
  (pieces 192 (bs.length / 192 + 1) bs).map fun p => BitVec.ofNat 192 (ofBitsMsb p.reverse)

/-- The bits of blocks, in position order. -/
def blocksToBits (ws : List (BitVec 192)) : List Bool := ws.flatMap fun w => (bitsMsb 192 w.toNat).reverse

/-! ### Binary BCH codes -/

/-- A field GF(2^m): its degree and its primitive polynomial without the leading term. -/
structure Gf where
  m    : Nat
  poly : Nat

/-- The product in a field, over `n` bits of the second factor. -/
def gfMulGo (f : Gf) : Nat → Nat → Nat → Nat
  | 0, _, _ => 0
  | n + 1, a, b =>
    let a2 := if bitOf a (f.m - 1) then (a * 2 % 2 ^ f.m) ^^^ f.poly else a * 2
    (if b % 2 = 1 then a else 0) ^^^ gfMulGo f n a2 (b / 2)

/-- The product in a field. -/
def gfMul (f : Gf) (a b : Nat) : Nat := gfMulGo f f.m a b

/-- A power, over `n` bits of the exponent. -/
def gfPowGo (f : Gf) : Nat → Nat → Nat → Nat
  | 0, _, _ => 1
  | n + 1, a, e => let r := gfPowGo f n (gfMul f a a) (e / 2); if e % 2 = 1 then gfMul f a r else r

/-- α^e. -/
def gfAlpha (f : Gf) (e : Nat) : Nat := gfPowGo f f.m 2 (e % (2 ^ f.m - 1))

/-- The inverse. -/
def gfInv (f : Gf) (a : Nat) : Nat := gfPowGo f f.m a (2 ^ f.m - 2)

/-- Evaluate a polynomial, coefficients from the constant upward. -/
def gfEval (f : Gf) (p : List Nat) (x : Nat) : Nat := p.foldr (fun c a => gfMul f a x ^^^ c) 0

/-- The exponents conjugate to `e`. -/
def coset (f : Gf) (e : Nat) : List Nat := ((List.range f.m).map fun i => e * 2 ^ i % (2 ^ f.m - 1)).eraseDups

/-- The generator of the code with designed capability `t`: the least common multiple of the minimal polynomials of
α, α^3, …, α^(2t-1); coefficients from the constant upward. -/
def bchGen (f : Gf) (t : Nat) : List Nat :=
  let roots := ((List.range t).flatMap fun i => coset f (2 * i + 1)).eraseDups
  roots.foldl (fun p e =>
    let a := gfAlpha f e
    List.zipWith (· ^^^ ·) (0 :: p) ((p.map (gfMul f a)) ++ [0])) [1]

/-- Division step: the remainder register (highest coefficient first), one message bit at a time. -/
def remStep (g : List Bool) (r : List Bool) (b : Bool) : List Bool :=
  let fb := (r.headD false) != b
  let sh := r.drop 1 ++ [false]
  if fb then List.zipWith (· != ·) sh g else sh

/-- The parity of a message, highest coefficient first (06 R165; 08 R220). -/
def bchParity (f : Gf) (t : Nat) (msg : List Bool) : List Bool :=
  let g := ((bchGen f t).reverse.drop 1).map (· == 1)
  msg.foldl (remStep g) (List.replicate g.length false)

/-- The syndromes S_1 to S_2t of a word, highest coefficient first. -/
def bchSyndromes (f : Gf) (t : Nat) (w : List Bool) : List Nat :=
  (List.range (2 * t)).map fun j =>
    let a := gfAlpha f (j + 1)
    w.foldl (fun acc b => gfMul f acc a ^^^ (if b then 1 else 0)) 0

/-- The state of the Berlekamp-Massey iteration: locator, previous locator, length, shift, previous discrepancy. -/
structure Bm where
  c : List Nat
  b : List Nat
  l : Nat
  s : Nat
  d : Nat

/-- Add polynomials over the field. -/
def polyAdd : List Nat → List Nat → List Nat
  | [], q => q
  | p, [] => p
  | a :: p, b :: q => (a ^^^ b) :: polyAdd p q

/-- One step of Berlekamp-Massey at index `n`. -/
def bmStep (f : Gf) (syn : List Nat) (v : Bm) (n : Nat) : Bm :=
  let dis := (List.range (v.l + 1)).foldl (fun a i => a ^^^ gfMul f (v.c.getD i 0) (syn.getD (n - i) 0)) 0
  if dis = 0 then { v with s := v.s + 1 }
  else
    let k := gfMul f dis (gfInv f v.d)
    let c' := polyAdd v.c (List.replicate v.s 0 ++ v.b.map (gfMul f k))
    if 2 * v.l ≤ n then ⟨c', v.c, n + 1 - v.l, 1, dis⟩ else { v with c := c', s := v.s + 1 }

/-- Bounded-distance decoding of a word (highest coefficient first): the error positions counted from the front, or
none where there is no codeword within `t` errors. -/
def bchErrors (f : Gf) (t : Nat) (w : List Bool) : Option (List Nat) :=
  let syn := bchSyndromes f t w
  if syn.all (· == 0) then some []
  else
    let v := (List.range (2 * t)).foldl (bmStep f syn) ⟨[1], [1], 0, 1, 1⟩
    let n := w.length
    let errs := (List.range n).filter fun i => gfEval f v.c (gfInv f (gfAlpha f (n - 1 - i))) == 0
    if v.l ≤ t ∧ errs.length = v.l then some errs else none

/-- The outer component code (06 R165). -/
def gf12 : Gf := ⟨12, 0x053⟩
/-- The inner code of RATE 5 (08 R220). -/
def gf9 : Gf := ⟨9, 0x011⟩
/-- The code of DEC memories (12 R308). -/
def gf7 : Gf := ⟨7, 0x009⟩

/-- A code extended by even parity (08 R219; 12 R308): the error positions among the word's bits and the parity bit at
its end, or none where the errors exceed the code's capability of two. -/
def extErrors (f : Gf) (w : List Bool) (ext : Bool) : Option (List Nat) :=
  let odd := (w.foldl (· != ·) ext)
  match bchErrors f 2 w with
  | none => none
  | some es =>
    if es.length % 2 = 0 ∧ odd then (if es.length < 2 then some (es ++ [w.length]) else none)
    else if es.length % 2 = 1 ∧ !odd then (if es.length < 2 then some (es ++ [w.length]) else none)
    else some es

/-- Flip the bits at the listed positions. -/
def flipBits (w : List Bool) (es : List Nat) : List Bool := es.foldl (fun w e => w.modify e (!·)) w

/-! ### Outer blocks (06 R166) -/

/-- Bit L·i + c of a vector, for i = 0 to n - 1. -/
def stripe (v : List Bool) (l c n : Nat) : List Bool := (List.range n).map fun i => v.getD (l * i + c) false

/-- The message of component `c`: 720 bits of the data vector before, 48 of the parity vector before. -/
def compMsg (d p : List Bool) (l c : Nat) : List Bool := stripe d l c 720 ++ stripe p l c 48

/-- The parity vector of the next outer block (R166). -/
def outerParity (d p : List Bool) (kb : Nat) : List Bool :=
  let comps := (List.range kb).map fun c => bchParity gf12 4 (compMsg d p kb c)
  (List.range (48 * kb)).map fun t => ((comps.getD (t % kb) []).getD (t / kb) false)

/-- Interleave four lists: element t is element t / 4 of list t mod 4 (03 R86). -/
def weave4 (ls : List (List Bool)) (n : Nat) : List Bool := (List.range n).map fun t => (ls.getD (t % 4) []).getD (t / 4) false

/-- Every fourth element from `q` (03 R86). -/
def unweave4 (v : List Bool) (q : Nat) : List Bool := (List.range (v.length / 4)).map fun i => v.getD (4 * i + q) false

/-! ### Codewords (03 R84, R87, R90) -/

/-- The end of the data positions. -/
def CwCfg.dataEnd (g : CwCfg) : Nat := if g.outer then 180 * g.kb else 192 * g.kb

/-- k of a configuration: 0 outside PAS. -/
def CwCfg.k (g : CwCfg) : Nat := if g.mode = 1 then kOf g.c0 g.c1 g.c2 else 0

/-- The data bits of a codeword (07 R203 step 3). -/
def CwCfg.dataBits (g : CwCfg) : Nat := if g.mode = 1 then 15 * g.k + g.dataEnd - 15360 else g.dataEnd

/-- The positions 0 to dataEnd - 1 of a codeword from its data bits (R87, R89, R90). -/
def CwCfg.place (g : CwCfg) (bits : List Bool) : List Bool :=
  if g.mode = 1 then
    let k := g.k
    let comp := composition g.c0 g.c1 g.c2
    let amps := (List.range 15).flatMap fun b => dmEncode 512 (ofBitsMsb ((bits.drop (k * b)).take k)) comp
    amps.flatMap ampLabel ++ bits.drop (15 * k)
  else bits

/-- The data bits of a codeword from its positions, none where an amplitude block has not the composition (R175,
R177). Of a rank that k bits do not hold, which no transmitter sends, the low k bits are taken (DESIGN CHOICE, log 119). -/
def CwCfg.unplace (g : CwCfg) (w : List Bool) : Option (List Bool) :=
  if g.mode = 1 then
    let comp := composition g.c0 g.c1 g.c2
    let amps := (pieces 2 7680 (w.take 15360)).map fun p => labelAmp (p.getD 0 false) (p.getD 1 false)
    let ranks := (pieces 512 15 amps).map fun b => dmRank b comp
    if ranks.all Option.isSome then
      some ((ranks.flatMap fun r => bitsMsb g.k (r.getD 0)) ++ (w.drop 15360).take (g.dataEnd - 15360))
    else none
  else some (w.take g.dataEnd)

/-- A whole codeword from its data positions and its outer parity. -/
def CwCfg.codeword (g : CwCfg) (data par : List Bool) : List Bool :=
  let info := data ++ par
  info ++ blocksToBits (ldpcParity (bitsToBlocks info) g.kb)

/-! ### Training header (03 R77) -/

/-- The 96 field bits of a header: TAG, FURLONG, EPOCH and their CRC. -/
def headerBits (tag furlong epoch : Nat) : List Bool :=
  let fs := bitsMsb 32 tag ++ bitsMsb 32 furlong ++ bitsMsb 16 epoch
  fs ++ bitsMsb 16 (crc16 fs)

/-- The 128 header points of subcarrier `k` on polarisation `p` (R78, R79), as signs: a set bit is a negative part. -/
def headerPoints (k p : Nat) (fs : List Bool) : List (Bool × Bool) :=
  let bs := prbsBits 160 (prbsSeed k p)
  ((List.range 32).map fun i => (bs.getD (2 * i) false, bs.getD (2 * i + 1) false)) ++
    (List.range 96).map fun i =>
      let x := fs.getD ((i + 48 * p) % 96) false != bs.getD (64 + i) false
      (x, x)

end Sys2Proof.Machine
end

