-- ==== Sys2Proof/Machine/HostSignal.lean ====
section
/-! DEFINITION. The signal path of a host lane (08): levels and precoding (R221), the transmitter's source, filter and drive
(R217, R225, R236-R238), the receiver's equaliser and decisions (R227, R228), the frames and PMA lanes of the 448G lane code
(R218-R220), and the client's Reed-Solomon code (R223). -/
namespace Sys2Proof.Machine

/-! ### Levels (R221) -/

/-- Bits of a symbol at the rate of lane `k`. -/
def laneWidth (s : State) (k : Nat) : Nat := if getF s (F.LANE_RATE k) = 1 then 1 else 2

/-- The place of a bit pair's level, from the lowest, and of a level's bit pair: Gray coding is its own inverse here. -/
def grayPlace (v : Nat) : Nat := [0, 1, 3, 2].getD (v % 4) 0

/-- The level at a place: -3, -1, +1, +3 at PAM4, -1, +1 at NRZ. -/
def levelAt (w place : Nat) : Int := 2 * (place : Int) - (if w = 1 then 1 else 3)

/-- 1/(1+D) precoding is on: at RATE 3 and 4, where PRECODE sets it. -/
def precoded (s : State) (k : Nat) : Bool := (getF s (F.LANE_RATE k) == 3 || getF s (F.LANE_RATE k) == 4) && getB s (F.PRECODE k)

/-- Precoding towards the line: each place less the place sent before, modulo 4 (log 126). -/
def precode (prev : Nat) : List Nat → List Nat
  | [] => []
  | g :: gs => let p := (g + 4 - prev % 4) % 4; p :: precode p gs

/-- Precoding from the line: the place received plus the one before, modulo 4. -/
def unprecode (prev p : Nat) : Nat := (p + prev) % 4

/-- The levels of a lane's bit stream: bits 2n and 2n + 1 form symbol n at PAM4, one bit each at NRZ. -/
def laneLevels (s : State) (k : Nat) (bits : List Bool) : List Int :=
  let w := laneWidth s k
  let vs := (pieces w (bits.length + 1) bits).map ofBitsMsb
  if w = 1 then vs.map (levelAt 1)
  else
    let ps := vs.map grayPlace
    (if precoded s k then precode 0 ps else ps).map (levelAt 2)

/-! ### Transmitter (R217, R225, R236-R238) -/

/-- What a lane transmits. -/
inductive LaneSource where
  | pattern | farEnd | alternate | line | idle
deriving DecidableEq, Repr

/-- The source of a lane: the pattern generator before the far-end loop before line data; alternating symbols in the loop where
the lane is not locked (R237), electrical idle in no group (R217) and in one that a Grave fault stopped (11 R297). A reserved code disables the generator (R238). -/
def laneSource (s : State) (k : Nat) : LaneSource :=
  match laneGroup s k with
  | none => .idle
  | some l =>
    if s.host.grave.contains l then .idle
    else if getB s (F.GEN_EN k) && (patPoly (getF s (F.GEN_PAT k))).isSome then .pattern
    else if getF s (F.GRP_LOOP l) = 3 then (if getB s (F.LOCKED k) then .farEnd else .alternate)
    else .line

/-- The next `n` pattern bits from a register, with the register after them. -/
def patBits (deg : Nat) (taps : List Nat) : Nat → Nat → List Bool × Nat
  | 0, st => ([], st)
  | n + 1, st =>
    let (st', b) := patStep deg taps st
    let (bs, st'') := patBits deg taps n st'
    (b :: bs, st'')

/-- The first `n` bits of a lane's generator, from its seed. -/
def genBits (s : State) (k n : Nat) : List Bool :=
  match patPoly (getF s (F.GEN_PAT k)) with
  | some (deg, taps, seed) => (patBits deg taps n seed).1
  | none => []

/-- The first `n` levels that a lane transmits, where `line` is its line data's bits. -/
def laneSends (s : State) (k n : Nat) (line : List Bool) : List Int :=
  match laneSource s k with
  | .pattern => laneLevels s k (genBits s k (n * laneWidth s k))
  | .farEnd => ((tget s.host.dec k []).take n).reverse
  | .alternate => (List.range n).map fun i => if i % 2 = 0 then -1 else 1
  | .line => (laneLevels s k line).take n
  | .idle => []

/-- The differential output about symbol `cur`, in 1/192 mV: the three-tap filter, SWING and TX_INV (R225). -/
def laneDrive (s : State) (k : Nat) (prev cur next : Int) : Int :=
  let pre : Int := getF s (F.LANE_PRE k)
  let post : Int := getF s (F.LANE_POST k)
  let sum := -pre * next + (64 - pre - post) * cur - post * prev
  let v := (if laneWidth s k = 1 then 3 else 1) * 5 * (getF s (F.LANE_SWING k) : Int) * sum
  if getB s (F.TX_INV k) then -v else v

/-- The differential output of a lane in no group: within 10 mV, a free value. -/
def idleDrive (s : State) : Int := (draw s 3841 : Int) - 1920

/-! ### Receiver (R227, R228) -/

/-- A coefficient in force, in 2^-8 of the cursor (R229). -/
def coefS (s : State) (k i : Nat) : Int := toS 10 (tget s.host.coef (128 * k + i) 0)

/-- What the equaliser makes of a symbol, in 2^-16 of a level: the FFE over the 16 newest samples (in 2^-8 of a level, newest
first, so that tap i stands at cursor offset i - 4), less the DFE's tap on the last decision and less the canceller's 48. -/
def laneEq (s : State) (k : Nat) (win past : List Int) : Int :=
  let ffe := (List.range 16).foldl (fun a i => a + coefS s k i * win.getD i 0) 0
  let echo := (List.range 48).foldl (fun a i => a + coefS s k (32 + i) * past.getD (getF s (F.ECHO_START k) + i - 1) 0) 0
  ffe - 256 * coefS s k 16 * past.headD 0 - 256 * echo

/-- The place of the level nearest to a value in 2^-16 of a level; half way goes up (log 126). -/
def slice (w : Nat) (y : Int) : Nat :=
  if w = 1 then (if y < 0 then 0 else 1)
  else if y < -131072 then 0 else if y < 0 then 1 else if y < 131072 then 2 else 3

/-- One sample of a lane's input: RX_INV, the equaliser, the decision, precoding and Gray mapping. The symbol decided, as its
bits, stands at the sample four before (log 126). -/
def laneSample (k : Nat) (r : Int) (s : State) : State × Nat :=
  let w := laneWidth s k
  let win := ((if getB s (F.RX_INV k) then -r else r) :: tget s.host.smp k []).take 16
  let past := tget s.host.dec k []
  let p := slice w (laneEq s k win past)
  let prev := ((past.headD (levelAt 2 0) + 3) / 2).toNat
  let host := { s.host with smp := tset s.host.smp k win [], dec := tset s.host.dec k ((levelAt w p :: past).take 1070) [] }
  ({ s with host := host }, if w = 1 then p else grayPlace (if precoded s k then unprecode prev p else p))

/-! ### Near-end loops (R236) -/

/-- The group at `l` is in a near-end loop. -/
def nearLoop (s : State) (l : Nat) : Bool := getF s (F.GRP_LOOP l) == 1 || getF s (F.GRP_LOOP l) == 2

/-- Line data of the group at `l` reaches its transmitters: not in the far-end loop (R236), nor where a lane transmits a pattern
in place of its data (R238). -/
def sendsLine (s : State) (l : Nat) : Bool :=
  getF s (F.GRP_LOOP l) != 3 && (grpLanes s l).all fun k => laneSource s k != .pattern

/-! ### The 448G lane code (R218-R220) -/

/-- Interleave two PMA lanes in symbols of 10 bits (R218). -/
def pmaWeave : List (List Bool) → List (List Bool) → List Bool
  | a :: as, b :: bs => a ++ b ++ pmaWeave as bs
  | _, _ => []

/-- PMA lane 2i (`j` 0) or 2i + 1 of the 1,700 message bits of a quad, in symbols of 10 bits (R218). -/
def pmaLane (j : Nat) (quad : List Bool) : List (List Bool) :=
  (((pieces 10 171 quad).zipIdx).filter fun e => e.2 % 2 == j).map (·.1)

/-- The inner frame `q` of a quad that carries a message of 425 bits (R219, R220). -/
def innerBuild (q : Nat) (msg : List Bool) : List Bool :=
  let body := msg ++ bchParity gf9 2 msg
  bitsMsb 4 (if q % 4 = 0 then 9 else 6) ++ body ++ [body.foldl (· != ·) false]

/-- The frames of a quad from the group's outgoing PMA lanes (R218, R222). -/
def quadBuild (a b : List (List Bool)) : List Bool :=
  ((pieces 425 4 (pmaWeave a b)).zipIdx).flatMap fun e => innerBuild e.2 e.1

/-! ### The client's code (R223) -/

/-- The field of RS(544,514) (log 127). -/
def gf10 : Gf := ⟨10, 0x009⟩

/-- The errored symbols of a word of RS(544,514), first symbol of the highest degree, or none where it is uncorrectable. -/
def rsErrors (w : List Nat) : Option Nat :=
  let syn := (List.range 30).map fun j => w.foldl (fun acc x => gfMul gf10 acc (gfAlpha gf10 j) ^^^ x) 0
  if syn.all (· == 0) then some 0
  else
    let v := (List.range 30).foldl (bmStep gf10 syn) ⟨[1], [1], 0, 1, 1⟩
    let roots := (List.range w.length).filter fun i => gfEval gf10 v.c (gfInv gf10 (gfAlpha gf10 i)) == 0
    if v.l ≤ 15 ∧ roots.length = v.l then some v.l else none

/-- A client item as it enters the item stream: a frame carries ERR where it was received with a code error, holds a bit of an
uncorrectable codeword (R223) or, at RATE 1, holds an invalid block (R224). -/
def rxClient (s : State) (l : Nat) (x : HostItem) : ClientItem :=
  match x.item with
  | .frame err content =>
    let code := if getF s (F.LANE_RATE l) = 1 then x.invalid else x.cws.any (tget s.host.rsBad l []).contains
    .frame (err || code) content
  | .orderedSet w => .orderedSet w

/-- What the host PCS sends between items: idle, or the Local Fault ordered set while the client's mapper is in HUNT (06 R188;
log 127). -/
def pcsBetween (s : State) (l : Nat) : Option Word := if getB s (F.CLI_SYNC l) then none else some 0x9C000001

end Sys2Proof.Machine
end

