-- ==== Sys2Proof/Machine/LineTx.lean ====
section
/-! DEFINITION. Line transmit (03): the client demapper's item stream, firkin queues, the block scheduler, codeword
runs, and the transmit enable machine of R100. -/
namespace Sys2Proof.Machine

/-! ### Groups, subcarriers and firkins -/

/-- The acquisition unit, and so the local peer group, whose zone is PRESENT and whose range holds a subcarrier (04
R120). -/
def scGroup (s : State) (c k : Nat) : Option Nat :=
  (List.range 16).find? fun u => present s (32 + unitKey c u) && (unitScs s c u).contains k

/-- The subcarriers of a peer group on the transmit side. -/
def txScs (s : State) (c u : Nat) : List Nat :=
  List.range' (txF s (unitKey c u) (F.FIRST_SC c u)) (txF s (unitKey c u) (F.SC_COUNT c u))

/-- The peer group that sends on a subcarrier. -/
def txGroup (s : State) (c k : Nat) : Option Nat :=
  (List.range 16).find? fun u => present s (32 + unitKey c u) && (txScs s c u).contains k

/-- The key of a subcarrier over both carriers. -/
def scKey (c k : Nat) : Nat := 32 * c + k

/-- The firkins assigned to a subcarrier, ascending (07 R206). -/
def scFirkins (s : State) (g k : Nat) : List Nat :=
  (s.fec.line.filter fun e => e.2 == 1 + (32 * g + k)).map (·.1)

/-- The firkins of the client of a lane group, ascending (06 R184). -/
def clientFirkins (s : State) (l : Nat) : List Nat := (s.fec.client.filter fun e => e.2 == 1 + l).map (·.1)

/-- The codewords that a subcarrier sends (07 R203): SC_SHAPE with the CODE_SELECT of its group. -/
def cwCfg (s : State) (c k g : Nat) : CwCfg :=
  ⟨getF s (F.SHAPE_MODE c k), getF s (F.SHAPE_C0 c k), getF s (F.SHAPE_C1 c k), getF s (F.SHAPE_C2 c k), getF s (F.SHAPE_B c k),
   rateKb (getF s (F.FEC_RATE g)), getB s (F.OUTER_EN g)⟩

/-- The codewords that a subcarrier receives. -/
def rxCwCfg (s : State) (c k g : Nat) : CwCfg :=
  ⟨rxF s g (F.SHAPE_MODE c k), rxF s g (F.SHAPE_C0 c k), rxF s g (F.SHAPE_C1 c k), rxF s g (F.SHAPE_C2 c k), rxF s g (F.SHAPE_B c k),
   rateKb (rxCode s g (F.FEC_RATE g)), rxCode s g (F.OUTER_EN g) != 0⟩

/-! ### Blocks -/

/-- The bits of a block, in sending order (R70, R71). -/
def blkBits (b : Blk) : List Bool :=
  let top := bitsMsb 2 b.typ ++ bitsMsb 13 b.firkin ++ bitsMsb 16 b.fseq ++ bitsMsb 17 0
  top ++ bitsMsb 16 (crc16 top) ++ (List.range 64).flatMap fun i => bitsMsb 32 ((b.words.getD i 0#32).toNat)

/-- An IDLE block. -/
def idleBlk : Blk := ⟨2, 0, 0, []⟩

/-- Queue a DATA or GAP block on a firkin, with the next FSEQ (R72). A firkin without a peer group queues none (07
R209). -/
def queueBlk (s : State) (typ f : Nat) (words : List Word) : State :=
  if tget s.fec.line f 0 = 0 then s
  else
    let n := tget s.tx.fseq f 0
    let s := reuseEntry 3 s
    { s with tx := { s.tx with
        queue := tset s.tx.queue f (tget s.tx.queue f [] ++ [⟨typ, f, n, words⟩]) []
        fseq := tset s.tx.fseq f ((n + 1) % 65536) 0 } }

/-! ### Codeword runs (R81-R87) -/

/-- The furlong at which the run of group `g` in progress ends: the next anchor, or an earlier commit point of its
zone that is ARMED. As a distance from the run's start. -/
def runLen (s : State) (g : Nat) : Nat :=
  let start := tget s.tx.runFur g 0
  let anchor := 256 - start % 256
  let cm := (commitAt s (32 + g) + 2 ^ 32 - start) % 2 ^ 32
  if getF s (F.ZONE_STATE (32 + g)) = zArmed ∧ cm < anchor then cm else anchor

/-- The codewords of a run of `f` furlongs (R83, R94). -/
def runCws (x : CwCfg) (b f : Nat) : Nat :=
  let p := 64260 * f
  let n := if x.mode = 1 then p / 3840 else (2 * p - (p / 64 * b + min (p % 64) b)) / 23040
  if x.outer then n / 4 * 4 else n

/-- The data-bearing codewords of a run (07 R203). -/
def dataCws (x : CwCfg) (n : Nat) : Nat := if x.outer then n - 4 else n

/-- A run that has framed nothing. -/
def TxRun.blank : TxRun := ⟨[], 0, [], [], []⟩

/-- Frame the next codeword of a run from its first bits (R85-R87). -/
def frameOne (x : CwCfg) (r : TxRun) : TxRun :=
  let par := if r.count = 0 then List.replicate (48 * x.kb) false else r.par
  let data := x.place (r.bits.take x.dataBits)
  let q := r.count % 4
  let cw := x.codeword data (if x.outer then unweave4 par q else [])
  let ds := if q = 0 then [data] else r.data ++ [data]
  let par' := if x.outer ∧ q = 3 then outerParity (weave4 ds (720 * x.kb)) par x.kb else par
  ⟨r.bits.drop x.dataBits, r.count + 1, ds, par', r.cws ++ [cw]⟩

/-- Frame codewords while there are bits for one. -/
def frameMore (x : CwCfg) : Nat → TxRun → TxRun
  | 0, r => r
  | n + 1, r => if r.bits.length < x.dataBits then r else frameMore x n (frameOne x r)

/-- Frame the rest of a run of `n` codewords with zero bits: the data capacity that no block fills, and the last outer block
(R86, R87). -/
def closeRun (x : CwCfg) (n : Nat) (r : TxRun) : TxRun :=
  frameMore x n { r with bits := r.bits ++ List.replicate (n * x.dataBits - (r.count * x.dataBits + r.bits.length)) false }

/-- Put a block into a run of `n` codewords with `cap` data bits: its bits, then the rest of the run once less than a
block of capacity is left. -/
def pushBlock (x : CwCfg) (n cap : Nat) (bits : List Bool) (r : TxRun) : TxRun :=
  let r := frameMore x ((r.bits ++ bits).length / max x.dataBits 1) { r with bits := r.bits ++ bits }
  if cap < r.count * x.dataBits + r.bits.length + 2112 then closeRun x n r else r

/-- Start a run of group `g` at the furlong that begins. -/
def startRun (g : Nat) (s : State) : State :=
  let ks := (txScs s (g / 16) (g % 16)).map (scKey (g / 16))
  { s with tx := { s.tx with
      run := tkeep (fun k => !ks.contains k) s.tx.run
      runFur := tset s.tx.runFur g (getF s F.FURLONG_NOW) 0 } }

/-- The next firkin after `last` with a queued block, ascending and cyclic (R74). -/
def nextFirkin (s : State) (fs : List Nat) (last : Option Nat) : Option Nat :=
  let order := match last with
    | none => fs
    | some l => fs.filter (fun f => decide (l < f)) ++ fs.filter (fun f => decide (f ≤ l))
  order.find? fun f => tget s.tx.queue f [] != []

/-- One block slot of subcarrier `k` of group `g` (R74). -/
def fillSlot (s : State) (c k g : Nat) : State :=
  let key := scKey c k
  let x := cwCfg s c k g
  let n := runCws x (getF s (F.SHAPE_B c k)) (runLen s g)
  let cap := dataCws x n * x.dataBits
  let r := tget s.tx.run key TxRun.blank
  if cap < r.count * x.dataBits + r.bits.length + 2112 then
    if r.count < n then { s with tx := { s.tx with run := tset s.tx.run key (closeRun x n r) TxRun.blank } } else s
  else
    let (b, s) := match nextFirkin s (scFirkins s g k) (tfind s.tx.served key) with
      | some f =>
        let q := tget s.tx.queue f []
        (q.headD idleBlk, { s with tx := { s.tx with
          queue := tset s.tx.queue f (q.drop 1) [], served := tput s.tx.served key f } })
      | none => (idleBlk, s)
    { s with tx := { s.tx with
        sent := tput s.tx.sent key b, run := tset s.tx.run key (pushBlock x n cap (blkBits b) r) TxRun.blank } }

/-- BLOCK_SLOT (R74): the framer runs while FEC is on and the group's zone is PRESENT; a subcarrier that is OFF carries
no blocks. -/
def execBlockSlot (c : Fin 2) (sc : Fin 32) (s : State) : Host.Outcome State Fault Refusal :=
  .next (match txGroup s c.val sc.val with
    | some u => if isOn s 8 && getF s (F.SHAPE_MODE c.val sc.val) != 0 then fillSlot s c.val sc.val (unitKey c.val u) else s
    | none => s)

/-! ### Client demapper (06 R185-R187) -/

/-- An item header word (06 R185). -/
def itemHeader (kind len : Nat) (err : Bool) : Word :=
  let top := kind * 2 ^ 22 + len * 2 ^ 8 + if err then 2 ^ 7 else 0
  BitVec.ofNat 32 (top * 256 + crc8 (beBytes 3 top))

/-- Bytes as words, most significant byte first, zero-padded (06 R185). -/
def wordsOfBytes (bs : List Byte) : List Word :=
  (pieces 4 (bs.length / 4 + 1) bs).map fun p => BitVec.ofNat 32 (ofBe (p ++ List.replicate (4 - p.length) 0#8))

/-- The words of a client item. -/
def itemWords : ClientItem → List Word
  | .frame err content => itemHeader 0 content.length err :: wordsOfBytes content
  | .orderedSet w => [itemHeader 1 4 false, w]

/-- A frame that the format cannot carry (06 R185, R187). -/
def oversize : ClientItem → Bool
  | .frame _ content => decide (16383 < content.length)
  | .orderedSet _ => false

/-- An item that is emitted: LENGTH of a FRAME is 1 to 16,383. -/
def emitted : ClientItem → Bool
  | .frame _ content => decide (1 ≤ content.length) && decide (content.length ≤ 16383)
  | .orderedSet _ => true

/-- A FILL item. -/
def fillWord : Word := itemHeader 2 0 false

/-- The group whose first lane is `l` is in HOLD (08 R232). -/
def inHold (s : State) (l : Nat) : Bool := getF s (F.GRP_STATE l) == 3 || getF s (F.GRP_STATE l) == 4

/-- Drop client data from before the end of a HOLD (R73). -/
def demapFresh (l : Nat) (s : State) : State := { s with tx := { s.tx with stream := tdel s.tx.stream l } }

/-- Cut the next chunk of a client, FILL where nothing is pending, for firkin f_(k mod N) (06 R186, R187). -/
def cutChunk (s : State) (l : Nat) (items : List ClientItem) : State :=
  let s := addF s (F.TX_OVERSIZE l) (items.filter oversize).length
  let ws := tget s.tx.stream l [] ++ (items.filter emitted).flatMap itemWords
  let chunk := ws.take 64 ++ List.replicate (64 - ws.length) fillWord
  let fs := clientFirkins s l
  let k := tget s.tx.chunk l 0
  let s := { s with tx := { s.tx with
    stream := tset s.tx.stream l (ws.drop 64) [], chunk := tset s.tx.chunk l ((k + 1) % max fs.length 1) 0 } }
  match fs[k]? with
  | some f => queueBlk s 0 f chunk
  | none => s

/-- The items that the group at `l` receives: those that its own transmitters sent where a near-end loop returns them, and the
external input is ignored (08 R236). -/
def itemsIn (s : State) (l : Nat) (ext : List HostItem) : List ClientItem :=
  if nearLoop s l then tget s.host.back l [] else ext.map (rxClient s l)

/-- DEMAPPER_CHUNK (06 R187): delivery has started with the group's entry to UP and stops when it leaves UP (08 R232); while
the group is in HOLD its firkins take GAP blocks instead (R73). -/
def execDemapperChunk (lane : Fin 8) (items : List HostItem) (s : State) : Host.Outcome State Fault Refusal :=
  .next (if isOn s 8 && present s (16 + lane.val) && getF s (F.GRP_STATE lane.val) == 2 then
      cutChunk { s with host := { s.host with back := tdel s.host.back lane.val } } lane.val (itemsIn s lane.val items)
    else s)

/-- HOLD_GAP_BLOCK (R73). -/
def execHoldGapBlock (lane : Fin 8) (s : State) : Host.Outcome State Fault Refusal :=
  .next (if isOn s 8 && present s (16 + lane.val) && inHold s lane.val then
      each (clientFirkins s lane.val) (fun s f => queueBlk s 1 f []) s
    else s)

/-! ### Training headers (R77-R79) -/

/-- The header points that a furlong begins with, whatever TX_STATE is (R99): on every subcarrier of a PRESENT group whose
MODE is not OFF (R96). -/
def sendHeaders (s : State) : State :=
  let one (t : Tab (List (Bool × Bool))) (c u : Nat) : Tab (List (Bool × Bool)) :=
    let g := unitKey c u
    let fs := headerBits (getF s (F.TXG_TAG c u)) (getF s F.FURLONG_NOW) (tget s.tx.epoch g 0)
    ((txScs s c u).filter fun k => getF s (F.SHAPE_MODE c k) != 0).foldl (fun t k =>
      [0, 1].foldl (fun t p => tput t (2 * scKey c k + p) (headerPoints k p fs)) t) t
  let t := [0, 1].foldl (fun t c =>
    ((List.range 16).filter fun u => present s (32 + unitKey c u)).foldl (fun t u => one t c u) t) []
  { s with tx := { s.tx with header := t } }

/-! ### Transmit enable (R99-R102) -/

/-- Some Grave fault has occurred (11 R299). -/
def graveLocked (s : State) : Bool := getB s F.GRAVE_LOCK

/-- A write of TX_ENABLE; a write of 1 for carrier 0 is ignored while HOT is 1 (14 R362). -/
def writeTxEnable (c : Nat) (on : Bool) (s : State) : State :=
  let st := getF s (F.TX_STATE c)
  if !isOn s (lineDom c) then s
  else if on then
    if st = 0 ∧ !graveLocked s ∧ !(c == 0 && getB s F.HOT) then setF (txTimerOn (setB s (F.TX_ENABLE c) true) c) (F.TX_STATE c) 1 else s
  else
    let s := setB s (F.TX_ENABLE c) false
    if st = 1 then setF (txTimerOff s c) (F.TX_STATE c) 0
    else if st = 2 ∨ st = 3 then setF (txTimerOff (laserOff s c 0) c) (F.TX_STATE c) 0
    else if st = 4 ∧ !graveLocked s then setF s (F.TX_STATE c) 0
    else s

/-- TX_ENABLE (R100, R102). -/
def execTxEnable (c : Fin 2) (on : Bool) (s : State) : Host.Outcome State Fault Refusal := .next (writeTxEnable c.val on s)

/-- TX_LOCKS_PRESENT (R100): the synthesiser locked, the laser's channel lock reported, no foreground calibration. -/
def execTxLocksPresent (c : Fin 2) (s : State) : Host.Outcome State Fault Refusal :=
  .next (if isOn s (lineDom c.val) then
      let s := setB s (F.SYNTH_LOCK c.val) true
      if getF s (F.TX_STATE c.val) = 1 ∧ getB s (F.LASER_LOCK c.val) ∧ !getB s (F.TX_FG_CAL c.val) then
        setF (laserOn s c.val 0) (F.TX_STATE c.val) 2
      else s
    else s)

/-- A lock of the carrier is lost: the rows STARTING and ON of R100. -/
def txUnlock (c : Nat) (s : State) : State :=
  let st := getF s (F.TX_STATE c)
  if st = 2 then setF (laserOff s c 0) (F.TX_STATE c) 1
  else if st = 3 then detect (.tx (if c = 0 then 0 else 1)) 2 0 (setF (txTimerOn (laserOff s c 0) c) (F.TX_STATE c) 1)
  else s

/-- TX_LOCK_LOST (R100). -/
def execTxLockLost (c : Fin 2) (synth : Bool) (s : State) : Host.Outcome State Fault Refusal :=
  .next (if isOn s (lineDom c.val) then
      txUnlock c.val (setB s (if synth then F.SYNTH_LOCK c.val else F.LASER_LOCK c.val) false)
    else s)

/-- TX_TIMEOUT (R100): the wait timer runs in WAITING_LOCK and STARTING. -/
def execTxTimeout (c : Fin 2) (s : State) : Host.Outcome State Fault Refusal :=
  let st := getF s (F.TX_STATE c.val)
  .next (if (st = 1 ∨ st = 2) ∧ (tfind s.tx.timer c.val).isSome then
      let s := onlyIf (st == 2) (fun s => laserOff s c.val 0) s
      let s := setFs (txTimerOff s c.val) [(F.TX_ENABLE c.val, 0), (F.TX_STATE c.val, 0)]
      detect (.tx c) 1 0 s
    else s)

/-- The laser reports its output power settled (10 R276). -/
def pwrSettled (s : State) (c : Nat) : Bool := bitOf (getF s (F.TX_LSTATUS c)) 1

/-- STARTING at a furlong boundary with the power settled: the DACs are released (R100). -/
def txStart (s : State) (c : Fin 2) : State :=
  if getF s (F.TX_STATE c.val) = 2 ∧ pwrSettled s c.val then
    detect (.tx c) 0 0 (setF (txTimerOff s c.val) (F.TX_STATE c.val) 3)
  else s

end Sys2Proof.Machine
end

