-- ==== Sys2Proof/Machine/LineSignal.lean ====
section
/-! DEFINITION. The line signal that a carrier transmits (03 R75, R76, R79, R80, R82, R90-R92, R95-R99): roles of the
symbols of a furlong, constellation points, subcarrier synthesis, pre-emphasis, and the codes of the line DACs. -/
namespace Sys2Proof.Machine

/-! ### Points (R75, R79, R80) -/

/-- The role of a symbol of a furlong (R75): pilots and payload symbols are numbered in ascending symbol index. -/
inductive SymRole where
  | sync | field
  | pilot (q : Nat)
  | payload (i : Nat)
deriving DecidableEq, Repr

/-- The role of symbol `k`. -/
def symRole (k : Nat) : SymRole :=
  if k < 32 then .sync
  else if k < 128 then .field
  else if (k - 128) % 64 = 63 then .pilot ((k - 128) / 64)
  else .payload ((k - 128) - (k - 128) / 64)

/-- The number of payload symbol `i` on polarisation `p` among the payload pol-symbols of its furlong (R76). -/
def polSymbol (i p : Nat) : Nat := 2 * i + p

/-- 1/√2. -/
def rootHalf : Int := fxSqrt (fxOne / 2)

/-- The point of two bits (R79 step 1). -/
def qpsk (b0 b1 : Bool) : Cx := ⟨if b0 then -rootHalf else rootHalf, if b1 then -rootHalf else rootHalf⟩

/-- Pilot `q` of subcarrier `k` on polarisation `p` (R79 step 3). -/
def pilotPoint (k p q : Nat) : Cx :=
  let bs := (prbsBits (162 + 2 * q) (prbsSeed k p)).drop (160 + 2 * q)
  qpsk (bs.getD 0 false) (bs.getD 1 false)

/-- Fill pol-symbol `m` of a run (R82). -/
def fillPoint (m : Nat) : Cx :=
  let bs := (prbsBits (2 * m + 2) 0x7FFF).drop (2 * m)
  qpsk (bs.getD 0 false) (bs.getD 1 false)

/-! ### Payload points of a run (R82, R90-R92) -/

/-- α of a composition (R91). -/
def pasAlpha (x : CwCfg) : Int :=
  let e : Nat := ((composition x.c0 x.c1 x.c2).zipIdx.map fun n => n.1 * ((2 * n.2 + 1) * (2 * n.2 + 1))).sum
  fxDiv fxOne (fxSqrt (fxRat (2 * e) 512))

/-- The dimension value of amplitude `m` of a codeword (R90, R91). -/
def pasValue (x : CwCfg) (cw : List Bool) (m : Nat) : Int :=
  let v := pasAlpha x * (2 * labelAmp (cw.getD (2 * m) false) (cw.getD (2 * m + 1) false) + 1 : Nat)
  if cw.getD (15360 + m) false then -v else v

/-- Pol-symbol `u` of a codeword in PAS mode (R90). -/
def pasPoint (x : CwCfg) (cw : List Bool) (u : Nat) : Cx := ⟨pasValue x cw (2 * u), pasValue x cw (2 * u + 1)⟩

/-- Run pol-symbol `j` is BPSK (R92). -/
def isBpsk (b j : Nat) : Bool := decide (j % 64 < b)

/-- The bits that the run pol-symbols before `j` carry in HYBRID mode (R94). -/
def bitsBefore (b j : Nat) : Nat := 2 * j - (j / 64 * b + min (j % 64) b)

/-- The run pol-symbols that `t` bits take in HYBRID mode: the number of the first one that carries none of them. -/
def hybridEnd (b t : Nat) : Nat :=
  let r := t % (128 - b)
  t / (128 - b) * 64 + if r ≤ b then r else b + (r - b + 1) / 2

/-- A HYBRID point: one bit on BPSK, two on QPSK; a bit past the last codeword is 0 (R92). -/
def hybridPoint (b j : Nat) (bits : List Bool) : Cx :=
  let o := bitsBefore b j
  let b0 := bits.getD o false
  if isBpsk b j then qpsk b0 b0 else qpsk b0 (bits.getD (o + 1) false)

/-- Payload pol-symbol `j` of a run of `n` codewords: codewords without gaps, then fill (R82, R90, R92). -/
def runPoint (x : CwCfg) (b n : Nat) (cws : List (List Bool)) (j : Nat) : Cx :=
  let used := if x.mode = 1 then 3840 * n else hybridEnd b (23040 * n)
  if used ≤ j then fillPoint (j - used)
  else if x.mode = 1 then pasPoint x (cws.getD (j / 3840) []) (j % 3840)
  else hybridPoint b j (cws.flatten)

/-! ### The furlong in progress -/

/-- A subcarrier sends energy: its peer group's zone is PRESENT and its MODE is not OFF (R96). -/
def scSends (s : State) (c k : Nat) : Bool := (txGroup s c k).isSome && getF s (F.SHAPE_MODE c k) != 0

/-- The point of symbol `i` of the furlong in progress on subcarrier `k` and polarisation `p` (R75, R76). -/
def txPoint (s : State) (c k p i : Nat) : Cx :=
  match txGroup s c k with
  | none => cxZero
  | some u =>
    if getF s (F.SHAPE_MODE c k) = 0 then cxZero
    else
      let g := unitKey c u
      let x := cwCfg s c k g
      let b := getF s (F.SHAPE_B c k)
      match symRole i with
      | .pilot q => pilotPoint k p q
      | .payload m =>
        let f := (getF s F.FURLONG_NOW + 2 ^ 32 - tget s.tx.runFur g 0) % 2 ^ 32
        runPoint x b (runCws x b (runLen s g)) (tget s.tx.run (scKey c k) TxRun.blank).cws (64260 * f + polSymbol m p)
      | _ => let h := (tget s.tx.header (2 * scKey c k + p) []).getD i (false, false); qpsk h.1 h.2

/-! ### Synthesis (R95-R97) -/

/-- Samples of a line converter in a symbol: the DACs run at the rate of the ADCs of 04 R107 (PRESUMED, log 113). -/
def lineOs : Nat := 40

/-- The turns by which subcarrier `k` advances in `n` samples: (k − 15.5) × 7.8125 GHz at 300 GS/s (R95). -/
def scTurns (k n : Nat) : Int := fxRat (((2 * (k : Int) - 31) * 5 * (n : Int)) % 384) 384

/-- The amplitude factor of an attenuation in 0.01 dB (R96). -/
def attenFactor (a : Nat) : Int := fxTen (fxRat (-a) 2000)

/-- The signal of one subcarrier at sample `n` of the furlong: its points shaped, at its centre, attenuated. -/
def scSignal (s : State) (c k p n : Nat) : Cx :=
  let lo := n / lineOs - 64
  let base := cxSum ((List.range' lo (n / lineOs + 65 - lo)).map fun (i : Nat) =>
    if i < 32768 then cxScale (rrc lineOs ((n : Int) - (lineOs * i : Nat))) (txPoint s c k p i) else cxZero)
  cxScale (attenFactor (getF s (F.SC_ATTEN c k)))
    (cxMul base (cxTurn (scTurns k (getF s F.FURLONG_NOW * 32768 * lineOs + n))))

/-- The subcarriers of a carrier that send. -/
def sendingScs (s : State) (c : Nat) : List Nat := (List.range 32).filter (scSends s c)

/-- The frequency of laser channel `n`, in Hz (10 R276). -/
def channelHz (n : Nat) : Nat := (193100000000000 + toS 16 n * 6250000000).toNat

/-- The signal of one polarisation over the furlong, pre-emphasised (R96, R97). -/
def carrierSignal (s : State) (c p : Nat) : List Cx :=
  let x := (List.range (32768 * lineOs)).map fun n => cxSum ((sendingScs s c).map fun k => scSignal s c k p n)
  disperse x 300000000000 (channelHz (getF s (F.TX_CHANNEL c))) fun _ => some (getS s (F.D_PRE c))

/-! ### DAC codes (R98, R99) -/

/-- The factor that makes the RMS per component TX_RMS: every point has unit mean energy, so a component's mean square is
half the sum of the squared attenuation factors. -/
def rmsFactor (s : State) (c : Nat) : Int :=
  let e := ((sendingScs s c).map fun k => fxMul (attenFactor (getF s (F.SC_ATTEN c k))) (attenFactor (getF s (F.SC_ATTEN c k)))).sum
  fxDiv (fxOf (getF s (F.TX_RMS c))) (fxSqrt (e / 2))

/-- A native value scaled by DAC_GAIN and rounded, before the limit. -/
def dacValue (gain : Nat) (x : Int) : Int := rdiv (x * gain) (65536 * 1099511627776)

/-- The value is limited: the sample counts in TX_CLIP_CNT. -/
def dacClips (v : Int) : Bool := decide (127 < v.natAbs)

/-- The offset-binary code of a value. -/
def dacCode (v : Int) : Nat := (128 + clampI (-127) 127 v).toNat

/-- The DAC values of a carrier over the furlong in progress, before the limit: XI, XQ, YI, YQ. -/
def dacValues (s : State) (c : Nat) : List (List Int) :=
  if (sendingScs s c).isEmpty then List.replicate 4 (List.replicate (32768 * lineOs) 0)
  else
    let k := rmsFactor s c
    let v (x : Int) : Int := dacValue (getF s (F.DAC_GAIN c)) (fxMul k x)
    [0, 1].flatMap fun p => let x := carrierSignal s c p; [x.map fun z => v z.re, x.map fun z => v z.im]

/-- The four codes that the line DACs of a carrier put out at sample `n` of the furlong in progress: mid-scale outside ON
(R99). -/
def dacOut (s : State) (c n : Nat) : List Nat :=
  if getF s (F.TX_STATE c) = 3 then (dacValues s c).map fun v => dacCode (v.getD n 0) else List.replicate 4 128

/-- The limited samples of the furlong in progress over all four DACs (R98); the chain forms them whatever TX_STATE is. -/
def clipCount (s : State) (c : Nat) : Nat :=
  if (sendingScs s c).isEmpty then 0 else ((dacValues s c).map fun v => (v.filter dacClips).length).sum

/-- At the end of a furlong its limited samples have been counted, while the carrier's LINE domain is on. -/
def countClips (s : State) (c : Nat) : State :=
  if isOn s (lineDom c) && clipCount s c != 0 then addF s (F.TX_CLIP_CNT c) (clipCount s c) else s

end Sys2Proof.Machine
end

