-- ==== Sys2Proof/Machine/Laser.lean ====
section
/-! DEFINITION. The laser ports (10 R276-R279, R443): checked register writes, the stored settings, answers, seeds. -/
namespace Sys2Proof.Machine

/-- A laser's number. -/
def Laser.num : Laser → Nat | .tx => 0 | .lo => 1

/-- The port of a carrier works. -/
def portOn (s : State) (c : Nat) : Bool := isOn s (lineDom c)

/-- The field a command sets: SET_CHANNEL, SET_FINE or SET_POWER. -/
def laserField (c l cmd : Nat) : Fld := if cmd = 1 then channelF c l else if cmd = 2 then fineF c l else powerF c l

/-- CH_LOCK of a transmitting laser is cleared by SET_CHANNEL; the carrier returns to WAITING_LOCK (R279). -/
def chLockClear (c l : Nat) (s : State) : State :=
  let st := getF s (F.TX_STATE c)
  if l = 0 ∧ (st = 2 ∨ st = 3) ∧ getB s (F.PORT_EN c) then
    txUnlock c (setB (setF s (F.TX_LSTATUS c) (getF s (F.TX_LSTATUS c) / 2 * 2)) (F.LASER_LOCK c) false)
  else s

/-- A new value of a settable field: checked, then stored and sent (R278, R279). -/
def laserSet (c l cmd v : Nat) (s : State) : State :=
  if laserAllowed s c l cmd v then
    let s := laserSend (setF s (laserField c l cmd) v) c l cmd v
    onlyIf (cmd == 1) (chLockClear c l) s
  else laserRefuse c cmd s

/-- A register write of a field: only a changed value is checked and sent (R279). -/
def laserWrite (c l cmd v : Nat) (s : State) : State :=
  if getF s (laserField c l cmd) = v then s else laserSet c l cmd v s

/-- A stored setting goes out, checked like every command. -/
def laserResend (c l cmd : Nat) (s : State) : State :=
  let v := getF s (laserField c l cmd)
  if laserAllowed s c l cmd v then laserSend s c l cmd v else laserRefuse c cmd s

/-- OUTPUT off to both lasers, then the stored channel, fine and power settings; OUTPUT on to a local oscillator whose
LO_EN is 1 (R279). -/
def portSettings (c : Nat) (s : State) : State :=
  let s := lasersOff s c
  let s := each [0, 1] (fun s l => each [1, 2, 3] (fun s cmd => laserResend c l cmd s) s) s
  onlyIf (getB s (F.LO_EN c)) (fun s => laserOn s c 1) s

/-- PORT_EN becomes 1. -/
def portEnable (c : Nat) (s : State) : State :=
  if portOn s c && !getB s (F.PORT_EN c) then portSettings c (setB s (F.PORT_EN c) true) else s

/-- PORT_ENABLE (R279). -/
def execPortEnable (c : Fin 2) (s : State) : Host.Outcome State Fault Refusal := .next (portEnable c.val s)

/-- PORT_EN becomes 0: both statuses and LASER_LOCK read 0 (R277). -/
def portDisable (c : Nat) (s : State) : State :=
  let s := setLaser (setLaser s c 0 { laserAt s c 0 with bad := 0 }) c 1 { laserAt s c 1 with bad := 0 }
  setFs s [(F.PORT_EN c, 0), (F.TX_LSTATUS c, 0), (F.LO_STATUS c, 0), (F.LASER_LOCK c, 0)]

/-- A write of LO_EN: OUTPUT of the local oscillator follows it; refused, it keeps its value. -/
def loEnWrite (c : Nat) (on : Bool) (s : State) : State :=
  if getB s (F.LO_EN c) = on then s
  else if !on then laserOff (setB s (F.LO_EN c) false) c 1
  else if laserAllowed s c 1 4 1 then laserOn (setB s (F.LO_EN c) true) c 1
  else laserRefuse c 4 s

/-- A write of a word of the port block (R279). -/
def portBlockWrite (c w v : Nat) (s : State) : State :=
  if !portOn s c then s
  else
    let hi := bitsOf v 16 16
    let lo := bitsOf v 0 16
    match w with
    | 0 => laserWrite c 0 2 lo (laserWrite c 0 1 hi s)
    | 1 => laserWrite c 1 2 lo (laserWrite c 1 1 hi s)
    | 2 => laserWrite c 1 3 lo (laserWrite c 0 3 hi s)
    | _ =>
      let s := loEnWrite c (bitOf v 0) s
      if bitOf v 1 then portEnable c s
      else if getB s (F.PORT_EN c) then portDisable c s else s

/-- PORT_BLOCK_WRITE (R279). -/
def execPortBlockWrite (c : Fin 2) (word : Fin 4) (value : Word) (s : State) : Host.Outcome State Fault Refusal :=
  .next (portBlockWrite c.val word.val value.toNat s)

/-- SET_CHANNEL (R276). -/
def execSetChannel (c : Fin 2) (l : Laser) (n : BitVec 16) (s : State) : Host.Outcome State Fault Refusal :=
  .next (if portOn s c.val then laserSet c.val (Laser.num l) 1 n.toNat s else s)

/-- SET_FINE (R276). -/
def execSetFine (c : Fin 2) (l : Laser) (mhz : BitVec 16) (s : State) : Host.Outcome State Fault Refusal :=
  .next (if portOn s c.val then laserSet c.val (Laser.num l) 2 mhz.toNat s else s)

/-- SET_POWER (R276). -/
def execSetPower (c : Fin 2) (l : Laser) (power : BitVec 16) (s : State) : Host.Outcome State Fault Refusal :=
  .next (if portOn s c.val then laserSet c.val (Laser.num l) 3 power.toNat s else s)

/-- A laser may be commanded on: the transmit laser by the machine of R100 in STARTING or ON, the local oscillator while
LO_EN is 1 (R279). -/
def outputDue (s : State) (c l : Nat) : Bool :=
  if l = 0 then getF s (F.TX_STATE c) == 2 || getF s (F.TX_STATE c) == 3 else getB s (F.LO_EN c)

/-- OUTPUT (R276): the port sends on where the laser is due to be on, and off where it is not (R279). -/
def execOutput (c : Fin 2) (l : Laser) (on : Bool) (s : State) : Host.Outcome State Fault Refusal :=
  .next (if !portOn s c.val || on != outputDue s c.val (Laser.num l) then s
    else if on then laserOn s c.val (Laser.num l)
    else laserOff s c.val (Laser.num l))

/-! ### Answers (R276, R277) -/

/-- An answer frame has a good CRC and echoes the command. -/
def answerGood (cmd : Nat) (w : Word) : Bool :=
  let v := w.toNat
  v / 2 ^ 24 == cmd && v % 256 == crc8 (beBytes 3 (v / 256))

/-- DATA of an answer. -/
def answerData (w : Word) : Nat := bitsOf w.toNat 8 16

/-- The answer to READ_STATUS of laser `l` (R277). -/
def judgeStatus (c l : Nat) (w : Word) (s : State) : State :=
  let x := laserAt s c l
  if answerGood 0x10 w then
    let s := setF (setLaser s c l { x with bad := 0 }) (lstatusF c l) (answerData w % 16)
    if l = 0 then setB s (F.LASER_LOCK c) (bitOf (answerData w) 0) else s
  else
    let s := setLaser s c l { x with bad := min (x.bad + 1) 4 }
    if x.bad + 1 = 3 then
      let s := setF s (lstatusF c l) (getF s (lstatusF c l) / 4 * 4)
      detect .lp 1 c (onlyIf (l == 0) (fun s => setB s (F.LASER_LOCK c) false) s)
    else s

/-- The port sends frames. -/
def portPolls (s : State) (c : Nat) : Bool := portOn s c && getB s (F.PORT_EN c)

/-- LASER_STATUS_POLL (R277). -/
def execLaserStatusPoll (c : Fin 2) (tx lo : Word) (s : State) : Host.Outcome State Fault Refusal :=
  .next (if portPolls s c.val then
      let s := laserSend (laserSend s c.val 0 0x10 0) c.val 1 0x10 0
      judgeStatus c.val 1 lo (judgeStatus c.val 0 tx s)
    else s)

/-- READ_STATUS (R276). -/
def execReadStatus (c : Fin 2) (l : Laser) (answer : Word) (s : State) : Host.Outcome State Fault Refusal :=
  .next (if portPolls s c.val then judgeStatus c.val (Laser.num l) answer (laserSend s c.val (Laser.num l) 0x10 0) else s)

/-- The answer to READ_POWER; a bad answer changes nothing. -/
def takePower (c l : Nat) (w : Word) (s : State) : State :=
  if answerGood 0x11 w then setF s (readPowerF c l) (answerData w) else s

/-- A poll's answer is also a sample of the optical-power histograms (13 R337). -/
def samplePower (c l : Nat) (w : Word) (s : State) : State :=
  if answerGood 0x11 w then
    let v := toS 16 (answerData w)
    histSample (140 + 2 * c + l) v (v + 1000) 50 s
  else s

/-- LASER_POWER_POLL (R277). -/
def execLaserPowerPoll (c : Fin 2) (tx lo : Word) (s : State) : Host.Outcome State Fault Refusal :=
  .next (if portPolls s c.val then
      let s := laserSend (laserSend s c.val 0 0x11 0) c.val 1 0x11 0
      let s := samplePower c.val 0 tx (takePower c.val 0 tx s)
      samplePower c.val 1 lo (takePower c.val 1 lo s)
    else s)

/-- READ_POWER (R276). -/
def execReadPower (c : Fin 2) (l : Laser) (answer : Word) (s : State) : Host.Outcome State Fault Refusal :=
  .next (if portPolls s c.val then takePower c.val (Laser.num l) answer (laserSend s c.val (Laser.num l) 0x11 0) else s)

/-- READ_FREQ_ERR (R276): the answer is kept. -/
def execReadFreqErr (c : Fin 2) (l : Laser) (answer : Word) (s : State) : Host.Outcome State Fault Refusal :=
  .next (if portPolls s c.val then
      let s := laserSend s c.val (Laser.num l) 0x12 0
      if answerGood 0x12 answer then
        setLaser s c.val (Laser.num l) { laserAt s c.val (Laser.num l) with freqErr := toS 16 (answerData answer) }
      else s
    else s)

/-! ### Seeds (R443) -/

/-- Seed the port of a carrier from its zone's content. -/
def portSeed (c : Nat) (ct : ZContent) (s : State) : State :=
  let s := each [0, 1] (fun s l => laserWrite c l 1 (contentF ct (channelF c l)) s) s
  let s := each [0, 1] (fun s l => laserWrite c l 3 (contentF ct (powerF c l)) s) s
  if contentF ct (F.PORT_EN c) = 1 then (if getB s (F.PORT_EN c) then s else portSettings c (setB s (F.PORT_EN c) true))
  else if getB s (F.PORT_EN c) then portDisable c s else s

/-- The seeds at a wake from off are stored with nothing sent: the settings go out when the wake ends (R279, R443). -/
def portSeedWake (c : Nat) (ct : ZContent) (s : State) : State :=
  let put (l cmd : Nat) (s : State) : State :=
    let v := contentF ct (laserField c l cmd)
    if getF s (laserField c l cmd) = v then s
    else if laserAllowed s c l cmd v then setF s (laserField c l cmd) v else laserRefuse c cmd s
  let s := put 1 3 (put 0 3 (put 1 1 (put 0 1 s)))
  setF s (F.PORT_EN c) (contentF ct (F.PORT_EN c))

/-- The end of a wake of a LINE domain (R279). -/
def portWake (c : Nat) (s : State) : State := if getB s (F.PORT_EN c) then portSettings c s else s

end Sys2Proof.Machine
end

