-- ==== Sys2Proof/Machine/Cal.lean ====
section
/-! DEFINITION. Calibration (10 R262-R274): references, requests, foreground runs, passes, results and their records. -/
namespace Sys2Proof.Machine

/-- References are present (R263). -/
def refsOk (s : State) : Bool := isOn s 1 && getB s F.REFCLK_OK && getB s F.VREF_OK

/-- A carrier is transmitting (R265). -/
def transmitting (s : State) (c : Nat) : Bool := getF s (F.TX_STATE c) == 2 || getF s (F.TX_STATE c) == 3

/-- A foreground run of a carrier is in progress. -/
def fgRunning (s : State) (c : Nat) : Bool := s.cal.running.contains c

/-- The result field of a carrier's foreground run. -/
def fgResF (c : Nat) : Fld := if c = 0 then F.CAL_FG0 else F.CAL_FG1
/-- The result field of a carrier's priority pass. -/
def bgResF (c : Nat) : Fld := if c = 0 then F.CAL_BG0 else F.CAL_BG1

/-- A priority pass of a carrier is in progress. -/
def prioRunning (s : State) (c : Nat) : Bool := bitOf (getF s F.BG_PRIO) c

/-- Set or clear the BG_PRIO bit of a carrier. -/
def setPrio (c : Nat) (on : Bool) (s : State) : State :=
  let m := getF s F.BG_PRIO
  setF s F.BG_PRIO (if on then m ||| 2 ^ c else if bitOf m c then m - 2 ^ c else m)

/-! ### Requests (R265, R270) -/

/-- Start a foreground run: FG_CAL of the carrier reads 1 (R264). -/
def fgStart (c : Nat) (s : State) : State :=
  let s := setB (keepTemp c s) (F.TX_FG_CAL c) true
  { s with cal := { s.cal with running := s.cal.running ++ [c] } }

/-- A request is refused with a code. -/
def calRefuse (f : Fld) (c code : Nat) (s : State) : State := detect .cal 1 c (setF s f code)

/-- A request for a foreground run: the state, and whether the run started. -/
def fgRequest (c : Nat) (s : State) : State × Bool :=
  if !refsOk s then (calRefuse (fgResF c) c 3 s, false)
  else if transmitting s c then (calRefuse (fgResF c) c 1 s, false)
  else if fgRunning s c || !isOn s (lineDom c) then (calRefuse (fgResF c) c 2 s, false)
  else (fgStart c s, true)

/-- A request for a priority pass, which needs the carrier's fabric half as well (R264). -/
def prioRequest (c : Nat) (s : State) : State × Bool :=
  if !refsOk s then (calRefuse (bgResF c) c 3 s, false)
  else if prioRunning s c || !isOn s (fabDom c) then (calRefuse (bgResF c) c 2 s, false)
  else (setPrio c true (keepTemp (3 + c) s), true)

/-- A write of FG_REQ: bit c asks for carrier c. -/
def fgReqs (v : Nat) (s : State) : State :=
  if isOn s 1 then each ([0, 1].filter (bitOf v)) (fun s c => (fgRequest c s).1) s else s

/-- FG_REQ (R265). -/
def execFgReq (carriers : BitVec 2) (s : State) : Host.Outcome State Fault Refusal := .next (fgReqs carriers.toNat s)

/-! ### Triggered calibrations (R267, R270) -/

/-- A triggered calibration ends once nothing of it is left. -/
def trigEnd (s : State) : State :=
  if s.cal.trig && !s.cal.trigHk && s.cal.owed.isEmpty then { s with cal := { s.cal with trig := false } } else s

/-- Step 2: of the listed carriers, those whose LINE domain is on. -/
def trigCarriers (cs : List Nat) (s : State) : State :=
  let s := { s with cal := { s.cal with trigHk := false } }
  trigEnd (each cs (fun s c =>
    if !isOn s (lineDom c) then s
    else
      let (s, ok) := if transmitting s c then prioRequest c s else fgRequest c s
      if ok then { s with cal := { s.cal with owed := s.cal.owed ++ [c] } } else s) s)

/-- Start a triggered calibration: T_LAST, then step 1, skipped while LINE0 is not on. -/
def trigStart (s : State) : State :=
  let s := setB (setS s F.T_LAST (getS s F.TEMP)) F.T_LAST_VALID true
  let s := { s with cal := { s.cal with trig := true, owed := [] } }
  if isOn s 4 then calStart { s with cal := { s.cal with trigHk := true } } else trigCarriers [0, 1] s

/-- A trigger of R267 holds: no temperature, no temperature trigger. -/
def calTriggered (s : State) : Bool :=
  refsOk s && (!getB s F.T_LAST_VALID ||
    (getF s F.TEMP_SRC != 0 && decide (getF s F.CAL_DELTA_T < (getS s F.TEMP - getS s F.T_LAST).natAbs)))

/-- CAL_TRIGGER (R267): the scheduler runs on the steward. -/
def execCalTrigger (s : State) : Host.Outcome State Fault Refusal :=
  .next (if s.stw.running && isOn s 1 && !s.cal.trig && calTriggered s then trigStart s else s)

/-- A write of 1 to FULL_REQ. What CAL_EVT_SRC takes for a refusal of both carriers is not stated: a free
value (log 67). -/
def fullReq (s : State) : State :=
  if !isOn s 1 then s
  else
    let code := if !refsOk s then 3 else if s.cal.trig || getB s F.HK_CAL_BUSY then 2 else 0
    if code = 0 then trigStart s
    else calRefuse (fgResF 1) (draw s 2) code (setF (drew s) (fgResF 0) code)

/-- FULL_REQ (R270). -/
def execFullReq (s : State) : Host.Outcome State Fault Refusal := .next (fullReq s)

/-- HK_CAL_COMPLETE (R245). -/
def execHkCalComplete (gain : BitVec 16) (offset : BitVec 16) (s : State) : Host.Outcome State Fault Refusal :=
  .next (if isOn s 4 && getB s F.HK_CAL_BUSY then
      let s := hkCalDone gain.toNat offset.toNat s
      if s.cal.trigHk then trigCarriers [0, 1] s else s
    else s)

/-- WAKE_FG_RUN_START (R268). -/
def execWakeFgRunStart (c : Fin 2) (s : State) : Host.Outcome State Fault Refusal :=
  .next (if s.cal.wakeRun.contains c.val && refsOk s && isOn s (lineDom c.val) && !fgRunning s c.val then fgStart c.val s
    else s)

/-! ### Records (R273, R274) -/

/-- Coefficients not measured: every group at its start values (R274). -/
def CalResult.blank : CalResult := ⟨[], [], []⟩

/-- The coefficients in force. -/
def coefAt (s : State) (c : Nat) : CalResult := tget s.cal.coef c CalResult.blank

/-- A calibration record before its sequence number and check word (R274). -/
def calBytes (s : State) (c : Fin 2) (temp : Int) (r : CalResult) : List Byte :=
  let hk := if c.val = 0 ∧ getB s F.HK_CAL_VALID then 1 else 0
  let hkCal := if c.val = 0 then getF s F.HK_GAIN * 65536 + getF s F.HK_OFFSET else 0
  leBytes 4 (recMagic (.calib c)) ++ leBytes 4 0 ++ leBytes 8 (mainTime s) ++ leBytes 2 (ofS 16 temp) ++
    leBytes 2 (hk + 6) ++ leBytes 4 hkCal ++
    ((List.range 4).flatMap fun i => leBytes 1 (getF s (F.RX_TRIM c.val i))) ++ leBytes 4 0 ++
    ((List.range 256).flatMap fun k =>
      let og := r.og.getD k (0, 0x4000)
      leBytes 2 (ofS 16 og.1) ++ leBytes 2 og.2) ++
    ((List.range 2048).flatMap fun k => leBytes 2 (ofS 16 (r.skew.getD k (if k % 8 = 3 then 0x4000 else 0)))) ++
    ((List.range 128).map fun k => r.dac.getD k 0) ++ List.replicate 2912 0#8

/-- Load a carrier's calibration record at a wake of its LINE domain from off (R273, R274). -/
def calLoad (c : Fin 2) (s : State) : State :=
  if !isOn s 1 then s
  else
    let src := if c.val = 0 then F.REC_SRC0 else F.REC_SRC1
    match newest s (.calib c) with
    | none => detect .cal 5 c.val (setF s src 0)
    | some i =>
      let bs := recAt s (.calib c) i 0 0x2000
      let flags := leAt bs 0x12 2
      let og := if bitOf flags 1 then (List.range 256).map fun k => (toS 16 (leAt bs (0x20 + 4 * k) 2), leAt bs (0x22 + 4 * k) 2)
        else []
      let skew := if bitOf flags 1 then (List.range 2048).map fun k => toS 16 (leAt bs (0x420 + 2 * k) 2) else []
      let dac := if bitOf flags 2 then (bs.drop 0x1420).take 128 else []
      let s := { s with cal := { s.cal with coef := tset s.cal.coef c.val ⟨og, skew, dac⟩ CalResult.blank } }
      let s := each (List.range 4) (fun s k => setF s (F.RX_TRIM c.val k) (leAt bs (0x18 + k) 1)) s
      let s := if c.val = 0 ∧ bitOf flags 0 then
          setFs s [(F.HK_GAIN, leAt bs 0x16 2), (F.HK_OFFSET, leAt bs 0x14 2), (F.HK_CAL_VALID, 1)]
        else s
      setF s src (1 + i)

/-! ### Ends of runs and passes (R264, R266, R271) -/

/-- The coefficients are in range (R266). -/
def calInRange (r : CalResult) : Bool :=
  r.og.all (fun og => decide (og.1.natAbs ≤ 256) && decide (14336 ≤ og.2) && decide (og.2 ≤ 18432)) &&
    r.skew.all fun h => decide (h.natAbs ≤ 0x4000)

/-- Apply a result: at once, or from the next furlong boundary with both LINE domains on (R271). -/
def calApply (c : Nat) (r : CalResult) (s : State) : State :=
  if isOn s 4 && isOn s 5 then { s with cal := { s.cal with waiting := tput s.cal.waiting c r } }
  else { s with cal := { s.cal with coef := tset s.cal.coef c r CalResult.blank, waiting := tdel s.cal.waiting c } }

/-- The results that wait apply at a local furlong boundary. -/
def calBoundary (s : State) : State :=
  { s with cal := { s.cal with
      coef := s.cal.waiting.foldl (fun t e => tset t e.1 e.2 CalResult.blank) s.cal.coef, waiting := [] } }

/-- What belonged to a triggered calibration on carrier `c` has ended. -/
def calOwed (c : Nat) (s : State) : State := trigEnd { s with cal := { s.cal with owed := s.cal.owed.erase c } }

/-- A foreground run ends with a result code: 0 OK, 4 ABORTED, 5 FAILED; FG_CAL stays 1 while the wake's first run has
neither completed nor failed (R269). -/
def fgEnd (c : Fin 2) (code : Nat) (s : State) : State :=
  let k := c.val
  let s := { s with cal := { s.cal with
    running := s.cal.running.erase k, wakeRun := if code = 4 then s.cal.wakeRun else s.cal.wakeRun.erase k } }
  let s := setB (setF s (fgResF k) code) (F.TX_FG_CAL k) (s.cal.wakeRun.contains k)
  offerCalib 1 k code (tget s.cal.temp k 0) s

/-- FG_RUN_COMPLETE (R271). -/
def fgComplete (c : Fin 2) (r : CalResult) (s : State) : State :=
  if !fgRunning s c.val then s
  else if calInRange r then
    let s := fgEnd c 0 (calApply c.val r s)
    let bytes := calBytes s c (tget s.cal.temp c.val 0) r
    calOwed c.val (startRec (.calib c) bytes 0 (detect .cal 0 c.val s))
  else calOwed c.val (detect .cal 2 c.val (fgEnd c 5 s))

/-- FG_RUN_COMPLETE (R271). -/
def execFgRunComplete (c : Fin 2) (res : CalResult) (s : State) : Host.Outcome State Fault Refusal :=
  .next (fgComplete c res s)

/-- A priority pass ends with a result code. -/
def prioEnd (c : Fin 2) (code : Nat) (s : State) : State :=
  let k := c.val
  offerCalib 2 k code (tget s.cal.temp (3 + k) 0) (setF (setPrio k false s) (bgResF k) code)

/-- A background pass never changes the line DACs (R264). -/
def passResult (s : State) (c : Nat) (r : CalResult) : CalResult :=
  { r with dac := ((tfind s.cal.waiting c).getD (coefAt s c)).dac }

/-- A background pass ends (R264). -/
def bgComplete (c : Fin 2) (r : CalResult) (s : State) : State :=
  let k := c.val
  let prio := prioRunning s k
  if !(isOn s (lineDom k) && isOn s (fabDom k)) then s
  else if calInRange r then
    let r := passResult s k r
    let s := calApply k r s
    if prio then
      let s := prioEnd c 0 s
      let bytes := calBytes s c (tget s.cal.temp (3 + k) 0) r
      calOwed k (startRec (.calib c) bytes 0 (detect .cal 0 k s))
    else s
  else
    let s := onlyIf prio (prioEnd c 5) s
    onlyIf prio (calOwed k) (detect .cal 2 k s)

/-- BG_PASS_COMPLETE (R264). -/
def execBgPassComplete (c : Fin 2) (res : CalResult) (s : State) : Host.Outcome State Fault Refusal :=
  .next (bgComplete c res s)

/-! ### Aborts (R263, R266) -/

/-- A foreground run in progress is aborted. -/
def fgAbort (c : Fin 2) (s : State) : State := if fgRunning s c.val then calOwed c.val (fgEnd c 4 s) else s

/-- A priority pass in progress is aborted. -/
def prioAbort (c : Fin 2) (s : State) : State := if prioRunning s c.val then calOwed c.val (prioEnd c 4 s) else s

/-- A self-calibration in progress is aborted: the factors stay, every chain restarts. -/
def hkAbort (s : State) : State :=
  if getB s F.HK_CAL_BUSY then
    let s := each (List.range 32) (fun s i => restartChain i s) (setB s F.HK_CAL_BUSY false)
    offerCalib 0 0xFF 4 (tget s.cal.temp 2 0) s
  else s

/-- A LINE domain leaves on: its runs abort; with LINE0, step 1 of a triggered calibration is over, and step 2 has carrier 1 alone. The
run that a wake from off is owed stays owed (R268, R269). -/
def calLeave (c : Fin 2) (s : State) : State :=
  let s := prioAbort c (fgAbort c s)
  if c.val = 0 then
    let s := hkAbort s
    if s.cal.trigHk then trigCarriers [1] s else s
  else s

/-- A LINE domain wakes from off: coefficients at their start values or from the record, and a run owed (R268, R269). -/
def calWake (c : Fin 2) (s : State) : State :=
  let s := { s with cal := { s.cal with
    coef := tdel s.cal.coef c.val, waiting := tdel s.cal.waiting c.val
    wakeRun := if s.cal.wakeRun.contains c.val then s.cal.wakeRun else s.cal.wakeRun ++ [c.val] } }
  calLoad c (setB s (F.TX_FG_CAL c.val) true)

/-- REF_LOST (R263): what CAL_EVT_SRC takes for both carriers is not stated: a free value (log 67). -/
def refLost (refclk vref : Bool) (s : State) : State :=
  let a := refclk && getB s F.REFCLK_OK
  let b := vref && getB s F.VREF_OK
  if !isOn s 1 || !(a || b) then s
  else
    let s := onlyIf b (fun s => setB s F.VREF_OK false) (onlyIf a (fun s => setB s F.REFCLK_OK false) s)
    let s := setB { s with cal := { s.cal with trig := false, trigHk := false, owed := [] } } F.T_LAST_VALID false
    let s := hkAbort s
    let s := prioAbort 1 (prioAbort 0 (fgAbort 1 (fgAbort 0 s)))
    detect .cal 3 (draw s 2) (drew s)

/-- REF_LOST (R263). -/
def execRefLost (refclk vref : Bool) (s : State) : Host.Outcome State Fault Refusal := .next (refLost refclk vref s)

/-- REF_PRESENT (R263): both flags set. -/
def execRefPresent (s : State) : Host.Outcome State Fault Refusal :=
  .next (if isOn s 1 then setB (setB s F.REFCLK_OK true) F.VREF_OK true else s)

end Sys2Proof.Machine
end

