-- ==== Sys2Proof/Machine/HostLanes.lean ====
section
/-! DEFINITION. Host lanes (08): lane lock and the group machine of R232, initialisation under R229, frame lock of the 448G lane
code, the pattern checker, and the client codewords of R223. -/
namespace Sys2Proof.Machine

/-! ### Groups -/

/-- Every domain the group needs is on, and no Grave fault has stopped it (R215; 11 R297). -/
def groupAble (s : State) (l : Nat) : Bool :=
  present s (16 + l) && (lanesDoms (grpLanes s l)).all (isOn s) && !s.host.grave.contains l

/-- The initial coefficient that the zone gives (R229; 02 R445). -/
def initCoef (s : State) (l key : Nat) : Nat := (((zoneAt s (16 + l)).active.table.find? fun e => e.1 == key).map (·.2)).getD 0

/-- Initialise the blocks of lane `k` of the group at `l` (R229). The CTLE peaks at 24 dB (R226; log 128). -/
def initLane (l k : Nat) (s : State) : State :=
  let s := setFs s [(F.LANE_CTLE k, min (getF s (F.CTLE_INIT k)) 24), (F.ADAPT_DONE k, 0)]
  each (List.range 17 ++ List.range' 32 48) (fun s i => setCoef s (128 * k + i) (initCoef s l (128 * k + i))) s

/-- Initialise every lane of a group. -/
def initGroup (l : Nat) (s : State) : State := each (grpLanes s l) (fun s k => initLane l k s) s

/-- Set the state of a group. -/
def setGroup (s : State) (l st : Nat) : State := setF s (F.GRP_STATE l) st

/-- A group leaves ACQUIRE or HOLD for UP: delivery starts or adaptation resumes; the chunk after a HOLD holds only data
from after it (03 R73). -/
def groupUp (l : Nat) (s : State) : State :=
  let hold := inHold s l
  let s := holdSpent l (adaptGroup l s)
  let s := onlyIf hold (demapFresh l) s
  setGroup { s with host := { s.host with
    timers := s.host.timers.filter (· != l), alarmed := s.host.alarmed.filter (· != l) } } l 2

/-- An UP group enters HOLD_FULL for a commit or a LOOP write (R232, R236). -/
def groupToFull (l : Nat) (s : State) : State :=
  if getF s (F.GRP_STATE l) = 2 then setGroup (holdStart l (adaptGroup l s)) l 4 else s

/-- HOLD_FAST gives way to HOLD_FULL; the hold timer runs on. -/
def fastToFull (l : Nat) (s : State) : State := if getF s (F.GRP_STATE l) = 3 then setGroup s l 4 else s

/-- Every lane of the group is locked. -/
def allLocked (s : State) (l : Nat) : Bool := (grpLanes s l).all fun k => getB s (F.LOCKED k)

/-- The command meets a group whose domains are on. -/
def onGroup (s : State) (l : Nat) (f : State → State) : State := if groupAble s l then f s else s

/-- GROUP_ZONE_STATE_CHANGE (R232). -/
def execGroupZoneStateChange (lane : Fin 8) (s : State) : Host.Outcome State Fault Refusal :=
  let l := lane.val
  .next (if !groupAble s l then (if getF s (F.GRP_STATE l) = 0 then s else groupDown l s)
    else if getF s (F.GRP_STATE l) = 0 then setGroup (holdStart l (initGroup l s)) l 1 else s)

/-- GROUP_ALIGNED (R232). -/
def execGroupAligned (lane : Fin 8) (s : State) : Host.Outcome State Fault Refusal :=
  .next (onGroup s lane.val fun s =>
    let st := getF s (F.GRP_STATE lane.val)
    if (st = 1 ∨ st = 4) ∧ allLocked s lane.val then groupUp lane.val s else s)

/-- HOLD_CONFIRMATION (R232). -/
def execHoldConfirmation (lane : Fin 8) (pass : Bool) (s : State) : Host.Outcome State Fault Refusal :=
  .next (onGroup s lane.val fun s =>
    if getF s (F.GRP_STATE lane.val) != 3 then s
    else if !pass then fastToFull lane.val s
    else if allLocked s lane.val then groupUp lane.val s else s)

/-- HOLD_FAST_TIMEOUT (R232): the 30 µs start when every lane's signal detect has returned. -/
def execHoldFastTimeout (lane : Fin 8) (s : State) : Host.Outcome State Fault Refusal :=
  .next (onGroup s lane.val fun s =>
    if (grpLanes s lane.val).all (fun k => getB s (F.SIG_DET k)) then fastToFull lane.val s else s)

/-- HOLD_LONG (R232). -/
def execHoldLong (lane : Fin 8) (s : State) : Host.Outcome State Fault Refusal :=
  .next (onGroup s lane.val fun s =>
    let st := getF s (F.GRP_STATE lane.val)
    if (st = 1 ∨ st = 3 ∨ st = 4) ∧ lane.val ∈ s.host.timers ∧ lane.val ∉ s.host.alarmed then
      detect .hpcs 2 lane.val { s with host := { s.host with alarmed := s.host.alarmed ++ [lane.val] } }
    else s)

/-- A write of LOOP of the group at `l`; what a near-end loop had still to return goes. -/
def loopWrite (l v : Nat) (s : State) : State :=
  if isOn s (laneFab l) ∧ present s (16 + l) ∧ getF s (F.GRP_LOOP l) ≠ v then
    groupToFull l (setF { s with host := { s.host with back := tdel s.host.back l } } (F.GRP_LOOP l) v)
  else s

/-- LOOP (R236). -/
def execLoop (lane : Fin 8) (value : BitVec 2) (s : State) : Host.Outcome State Fault Refusal :=
  .next (loopWrite lane.val value.toNat s)

/-! ### Lanes -/

/-- The group of a lane whose HOST domain is on; the receiver of a lane in no group is ignored (R217). -/
def laneIn (s : State) (k : Nat) : Option Nat := if isOn s (hostDom k) then laneGroup s k else none

/-- A lane of the group at `l` is no longer locked (R231, R232; 01 R33). -/
def lockLost (lane : Fin 8) (l : Nat) (s : State) : State :=
  let was := getB s (F.LOCKED lane.val)
  let s := setB s (F.LOCKED lane.val) false
  let st := getF s (F.GRP_STATE l)
  if !was ∨ st = 0 then s
  else if st = 2 then
    let s := setGroup (holdStart l (adaptGroup l s)) l 3
    detect .hpcs 0 l (detect (.hl lane) 0 0 (satF s (F.HOLDS l) 1))
  else detect (.hl lane) 0 0 s

/-- Signal detect, CDR lock and, at RATE 5, frame lock all hold (R231). -/
def lockHolds (s : State) (k : Nat) : Bool :=
  getB s (F.SIG_DET k) && getB s (F.CDR_LOCK k) && (getF s (F.LANE_RATE k) != 5 || getB s (F.FRAME_LOCK k))

/-- LOCKED follows what it stands for. -/
def relock (lane : Fin 8) (l : Nat) (s : State) : State :=
  if lockHolds s lane.val then setB s (F.LOCKED lane.val) true else lockLost lane l s

/-- One of the conditions of a lane fails (R231). -/
def laneLost (lane : Fin 8) (cause : LossCause) (l : Nat) (s : State) : State :=
  let bit := match cause with
    | .signal => F.SIG_DET lane.val
    | .cdr => F.CDR_LOCK lane.val
    | .frame => F.FRAME_LOCK lane.val
  relock lane l (setB s bit false)

/-- LANE_LOCK_LOST (R232). -/
def execLaneLockLost (lane : Fin 8) (cause : LossCause) (s : State) : Host.Outcome State Fault Refusal :=
  .next (match laneIn s lane.val with
    | some l => laneLost lane cause l s
    | none => s)

/-- Judge the frequency of a returning lane (R232): FREQ_KEPT, and HOLD_FULL beyond 50 ppm. -/
def judgeFreq (k l : Nat) (ppm : Int) (s : State) : State :=
  let kept := decide (-50 ≤ ppm) && decide (ppm ≤ 50)
  let s := setB s (F.FREQ_KEPT k) kept
  if kept then s else fastToFull l s

/-- LANE_LOCKED (R231, R232). -/
def execLaneLocked (lane : Fin 8) (ppm : Int) (s : State) : Host.Outcome State Fault Refusal :=
  .next (match laneIn s lane.val with
    | some l =>
      let s := setFs s [(F.SIG_DET lane.val, 1), (F.CDR_LOCK lane.val, 1)]
      let s := onlyIf (getF s (F.LANE_RATE lane.val) == 5) (fun s => setB s (F.FRAME_LOCK lane.val) true) s
      judgeFreq lane.val l ppm (relock lane l s)
    | none => s)

/-- SIGNAL_DETECT (R231). -/
def execSignalDetect (lane : Fin 8) (ppm : Int) (s : State) : Host.Outcome State Fault Refusal :=
  .next (match laneIn s lane.val with
    | some l => judgeFreq lane.val l ppm (relock lane l (setB s (F.SIG_DET lane.val) true))
    | none => s)

/-- A write of 1 to RESTART of lane `k`. -/
def laneRestart (k : Nat) (s : State) : State :=
  match laneIn s k with
  | some l => initLane l k s
  | none => s

/-- RESTART (R229). -/
def execRestart (lane : Fin 8) (s : State) : Host.Outcome State Fault Refusal :=
  .next (laneRestart lane.val s)

/-- ADAPT_DONE (R229): some block of the lane is ONE_SHOT. -/
def execAdaptDone (lane : Fin 8) (s : State) : Host.Outcome State Fault Refusal :=
  let k := lane.val
  let oneShot := [F.CTLE_MODE k, F.FFE_MODE k, F.DFE_MODE k, F.ECHO_MODE k].any fun f => getF s f == 2
  .next (if (laneIn s k).isSome && oneShot && !getB s (F.ADAPT_DONE k) then
      detect (.hl lane) 1 0 (setB s (F.ADAPT_DONE k) true)
    else s)

/-! ### The 448G lane code (R219-R222) -/

/-- The SYNC of a frame: 1 the first of a quad, 2 a later one, 0 neither. -/
def syncKind (bs : List Bool) : Nat :=
  let v := ofBitsMsb (bs.take 4)
  if v = 9 then 1 else if v = 6 then 2 else 0

/-- The SYNC that frame `q` of a quad shows. -/
def syncOf (q : Nat) : Nat := if q % 4 = 0 then 1 else 2

/-- The frame of the quad of the newest of eight SYNCs that show the sequence. -/
def syncPhase (seen : List Nat) : Option Nat :=
  if seen.length < 8 then none
  else (List.range 4).find? fun q => (List.range 8).all fun i => seen.getD i 0 == syncOf (q + 8 - i)

/-- A lane that has seen no frame. -/
def InnerSt.blank : InnerSt := ⟨[], 0, 0, 0, []⟩

/-- Set the frame search of a lane. -/
def setInner (s : State) (k : Nat) (x : InnerSt) : State :=
  { s with host := { s.host with inner := tset s.host.inner k x InnerSt.blank } }

/-- The last `n` bits. -/
def lastBits (n : Nat) (bs : List Bool) : List Bool := bs.drop (bs.length - n)

/-- The SYNCs of the eight newest frames that end `e` bits before the end, newest first. -/
def syncsAt (bs : List Bool) (e : Nat) : List Nat :=
  if bs.length < 3584 + e then [] else (List.range 8).map fun j => syncKind (bs.drop (bs.length - e - 448 * (j + 1)))

/-- The search over all 448 offsets: bits after the newest of eight frames that show the sequence, and its place in the quad; of
two such offsets the one that completed first. -/
def innerSearch (bs : List Bool) : Option (Nat × Nat) :=
  (List.range 448).reverse.findSome? fun e => (syncPhase (syncsAt bs e)).map fun q => (e, q)

/-- The MSG bits that a frame passes on, and its corrected bits, none where the errors exceed the code's capability (R220,
R222). -/
def innerMsg (bs : List Bool) : List Bool × Option Nat :=
  let body := (bs.drop 4).take 443
  match extErrors gf9 body (bs.getD 447 false) with
  | some es => ((flipBits body es).take 425, some es.length)
  | none => (body.take 425, none)

/-- Count what decoding a frame in lock found. -/
def innerCount (lane : Fin 8) (fixed : Option Nat) (s : State) : State :=
  match fixed with
  | some n => addF s (F.INNER_CORR lane.val) n
  | none => detect (.hl lane) 2 0 (addF s (F.INNER_UNCORR lane.val) 1)

/-- The next 448 bits of a lane (R222): the search takes them, or in lock the frame that they complete is decoded. -/
def innerFrame (lane : Fin 8) (bs : List Bool) (s : State) : State :=
  let k := lane.val
  let x := tget s.host.inner k InnerSt.blank
  if getB s (F.FRAME_LOCK k) then
    let frame := ((lastBits 448 (List.replicate 448 false ++ x.bits) ++ bs).drop (448 - x.tail)).take 448
    let q := (x.quad + 1) % 4
    let bad := if syncKind frame = syncOf q then 0 else x.bad + 1
    if 4 ≤ bad then setB (setInner s k InnerSt.blank) (F.FRAME_LOCK k) false
    else
      let m := innerMsg frame
      innerCount lane m.2 (setInner s k ⟨bs, x.tail, bad, q, if q = 0 then m.1 else x.msg ++ m.1⟩)
  else
    let seen := lastBits 4032 (x.bits ++ bs)
    match innerSearch seen with
    | some (e, q) => setB (setInner s k ⟨bs, e, 0, q, []⟩) (F.FRAME_LOCK k) true
    | none => setInner s k ⟨seen, 0, 0, 0, []⟩

/-- INNER_FRAME (R222). -/
def execInnerFrame (lane : Fin 8) (bits : BitVec 448) (s : State) : Host.Outcome State Fault Refusal :=
  .next (match laneIn s lane.val with
    | some l =>
      if getF s (F.LANE_RATE lane.val) = 5 then relock lane l (innerFrame lane (bitsMsb 448 bits.toNat) s) else s
    | none => s)

/-! ### Pattern checker (R238, R239) -/

/-- A checker that has seen nothing. -/
def PatSt.blank : PatSt := ⟨0, 0, []⟩

/-- Take one decided symbol of `w` bits. Out of lock the register takes the received bits; in lock it runs free. -/
def patSymbol (lane : Fin 8) (deg : Nat) (taps : List Nat) (w : Nat) (s : State) (sym : Nat) : State :=
  let k := lane.val
  let x := tget s.host.pat k PatSt.blank
  let put (x : PatSt) (s : State) : State := { s with host := { s.host with pat := tset s.host.pat k x PatSt.blank } }
  let got := bitsMsb w sym
  let (want, next) := patBits deg taps w x.lfsr
  let errs := ((got.zip want).filter fun p => p.1 != p.2).length
  if getB s (F.CHK_LOCK k) then
    let win := (decide (0 < errs) :: x.win).take 256
    let s := addF (addF s (F.PAT_ERR k) errs) (F.PAT_BITS k) w
    if 32 ≤ (win.filter id).length then detect (.hl lane) 3 0 (setB (put PatSt.blank s) (F.CHK_LOCK k) false)
    else put ⟨next, x.good, win⟩ s
  else
    let good := if errs = 0 ∧ x.lfsr ≠ 0 then x.good + 1 else 0
    let reg := got.foldl (fun r b => (r * 2 + if b then 1 else 0) % 2 ^ deg) x.lfsr
    if 64 ≤ good then setB (put ⟨reg, 0, []⟩ s) (F.CHK_LOCK k) true else put ⟨reg, good, []⟩ s

/-- A sample of the lane's input is decided, and the checker takes the symbol where it is enabled and its code is not reserved. -/
def laneInput (lane : Fin 8) (s : State) (r : Int) : State :=
  let (s, sym) := laneSample lane.val r s
  match patPoly (getF s (F.CHK_PAT lane.val)) with
  | some (deg, taps, _) => if getB s (F.CHK_EN lane.val) then patSymbol lane deg taps (laneWidth s lane.val) s sym else s
  | none => s

/-- PATTERN_CHECK (R239): samples of the lane's input in their order. -/
def execPatternCheck (lane : Fin 8) (samples : List Int) (s : State) : Host.Outcome State Fault Refusal :=
  .next (if (laneIn s lane.val).isSome then each samples (laneInput lane) s else s)

/-! ### Client codewords (R223) -/

/-- A codeword of the group at `l` is decoded: frames that hold a bit of an uncorrectable one take ERR as they enter the item
stream. -/
def rsTake (l : Nat) (w : List Nat) (s : State) : State :=
  let n := tget s.host.rsSeq l 0
  let s := { s with host := { s.host with rsSeq := tset s.host.rsSeq l (n + 1) 0 } }
  match rsErrors w with
  | some k => addF s (F.RS_CORR l) k
  | none =>
    let bad := tset s.host.rsBad l (tget s.host.rsBad l [] ++ [n]) []
    detect .hpcs 1 l (addF { s with host := { s.host with rsBad := bad } } (F.RS_UNCORR l) 1)

/-- HOST_RS_CODEWORD (R223): at RATE 2 to 5, in a group that is not DOWN. -/
def execHostRsCodeword (lane : Fin 8) (word : List (BitVec 10)) (s : State) : Host.Outcome State Fault Refusal :=
  let l := lane.val
  .next (if groupAble s l && decide (2 ≤ getF s (F.LANE_RATE l)) && getF s (F.GRP_STATE l) != 0 then
      rsTake l (word.map (·.toNat)) s
    else s)

end Sys2Proof.Machine
end

