-- ==== Sys2Proof/Machine/Ldpc.lean ====
section
/-! DEFINITION. The decoder's iteration (06 R167): one layered pass of normalised min-sum over the base rows of 06 R162-R164. -/
namespace Sys2Proof.Machine

/-- The blocks of a base row: column and shift (R163, R164). -/
def rowBlocks (kb i : Nat) : List (Nat × Nat) :=
  ((hInfoBlocks kb).filter fun e => e.1 == i).map (·.2) ++ (if i = 0 then [(kb, 0)] else [(kb + i - 1, 0), (kb + i, 0)])

/-- The codeword positions of check `a` of a base row (R162). -/
def checkBits (blocks : List (Nat × Nat)) (a : Nat) : List Nat := blocks.map fun e => 192 * e.1 + (a + e.2) % 192

/-- 0.75 of a magnitude; one that falls between two values is taken away from zero where `up`. -/
def threeQuarters (up : Bool) (x : Nat) : Nat := (3 * x + if up then 3 else 0) / 4

/-- The message of a check to one of its bits, from what the others send it. -/
def checkMsg (up : Bool) (others : List Int) : Int :=
  let m := (others.map Int.natAbs).foldl min ((others.headD 0).natAbs)
  let neg := others.foldl (fun b v => b != decide (v < 0)) false
  if neg then -(threeQuarters up m : Int) else threeQuarters up m

/-- One check: the bits' sums without its old messages give the new ones, which enter the sums at once. -/
def checkPass (up : Bool) (idx : List Nat) (old : List Int) (post : List Int) : List Int × List Int :=
  let q := idx.zipIdx.map fun e => post.getD e.1 0 - old.getD e.2 0
  let new := (List.range q.length).map fun i => checkMsg up (q.eraseIdx i)
  (new, (List.zip idx (List.zip q new)).foldl (fun p e => p.set e.1 (e.2.1 + e.2.2)) post)

/-- One layered pass: sums and messages after it. `up` goes by base row. -/
def layeredPass (kb : Nat) (up : List Bool) (msgs : List (List Int)) (post : List Int) : List (List Int) × List Int :=
  (List.range (120 - kb)).foldl (fun st i =>
    let blocks := rowBlocks kb i
    (List.range 192).foldl (fun st a =>
      let r := checkPass (up.getD i false) (checkBits blocks a) (msgs.getD (192 * i + a) []) st.2
      (st.1 ++ [r.1], r.2)) st) ([], post)

end Sys2Proof.Machine
end

