-- ==== Sys2Proof/Machine/Peers.lean ====
section
/-! DEFINITION. The peer table (07 R192-R202): expectation, reports, arrivals, writes of an entry, the saved record. -/
namespace Sys2Proof.Machine

/-! ### Entries -/

/-- KIND of an entry as every rule takes it: an entry with a bad word counts as FREE (R192). -/
def peerKind (s : State) (n : Nat) : Nat :=
  if unusable s 10 (2 * n) || unusable s 10 (2 * n + 1) then 0 else getF s (F.PEER_KIND n)

/-- The entries of a kind. -/
def peersOf (s : State) (k : Nat) : List Nat := (List.range 64).filter fun n => peerKind s n == k

/-- FREE_COUNT follows the table. -/
def peerCount (s : State) : State := setF s F.FREE_COUNT (peersOf s 0).length

/-- Global group `g` carries tag `t` (R198). -/
def carries (s : State) (g t : Nat) : Bool :=
  decide (4 ≤ getF s (F.ACQ_STATE (g / 16) (g % 16))) && getF s (F.ACQ_TAG (g / 16) (g % 16)) == t

/-- CARRIED_MASK of an entry from the tags carried now (R198). -/
def peerMask (s : State) (n : Nat) : Nat :=
  if peerKind s n = 0 then 0
  else ((List.range 32).filter fun g => carries s g (getF s (F.PEER_TAG n))).foldl (fun m g => m + 2 ^ g) 0

/-- Recompute CARRIED_MASK of every entry. -/
def peerMasks (s : State) : State := each (List.range 64) (fun s n => setF s (F.CARRIED_MASK n) (peerMask s n)) s

/-- An EXPECTED entry covers a unit's range on its carrier (R193). -/
def covers (s : State) (n c u : Nat) : Bool :=
  peerKind s n == 1 && getF s (F.PEER_CARRIER n) == c && decide (getF s (F.PEER_FIRST n) ≤ getF s (F.FIRST_SC c u)) &&
    decide (getF s (F.FIRST_SC c u) + getF s (F.SC_COUNT c u) ≤ getF s (F.PEER_LAST n) + 1)

/-- A tag is expected on a unit (R193; R199: none while MGMT is not on). -/
def expected (s : State) (c u tag : Nat) : Bool :=
  isOn s 1 && (List.range 64).any fun n => covers s n c u && getF s (F.PEER_TAG n) == tag

/-- Write an entry's words. -/
def peerPut (s : State) (n kind tag carrier first last : Nat) : State :=
  setFs (unpoison 10 [2 * n, 2 * n + 1] s)
    [(F.PEER_TAG n, tag), (F.PEER_KIND n, kind), (F.PEER_CARRIER n, carrier), (F.PEER_FIRST n, first), (F.PEER_LAST n, last)]

/-- Claim an entry as SEEN for a reported tag (R197). -/
def peerClaim (n c u tag : Nat) (intr : Bool) (s : State) : State :=
  let first := getF s (F.FIRST_SC c u)
  let s := peerPut s n 2 tag c first (first + getF s (F.SC_COUNT c u) - 1)
  let s := setFs s [(F.PEER_EVENTS n, 1), (F.PEER_INTR n, if intr then 1 else 0)]
  peerCount (setF s (F.CARRIED_MASK n) (peerMask s n))

/-- Report a tag to the table (R197; R199: no entry while MGMT is not on). -/
def peerReport (c u tag : Nat) (intr : Bool) (s : State) : State :=
  if !isOn s 1 then s
  else
    let holders := (List.range 64).filter fun n => peerKind s n != 0 && getF s (F.PEER_TAG n) == tag
    match holders.find? (fun n => peerKind s n == 2), holders with
    | some n, _ => onlyIf intr (fun s => setB s (F.PEER_INTR n) true) (satF s (F.PEER_EVENTS n) 1)
    | none, _ :: _ => s
    | none, [] =>
      match (peersOf s 0).getLast?, (peersOf s 2).getLast? with
      | some n, _ => peerClaim n c u tag intr s
      | none, some n => peerClaim n c u tag intr s
      | none, none => detect .peer 0 0 s

/-- A peer arrives on a unit (R198). -/
def arrive (c u tag : Nat) (s : State) : State :=
  let g := unitKey c u
  let s := settle (offerPeer s false g tag (getF s (F.D_EST c u)))
  let s := each (List.range 64) (fun s n =>
    let m := getF s (F.CARRIED_MASK n)
    if peerKind s n != 0 && getF s (F.PEER_TAG n) == tag && !bitOf m g then setF s (F.CARRIED_MASK n) (m + 2 ^ g) else s) s
  match (List.range 64).find? fun n => covers s n c u && getF s (F.PEER_TAG n) == tag with
  | some n => satF s (F.PEER_EVENTS n) 1
  | none => s

/-! ### Writing an entry (R196) -/

/-- TAG of an entry as every rule takes it: a FREE entry holds none (R192, R196). -/
def peerTag (s : State) (n : Nat) : Nat := if peerKind s n = 0 then 0 else getF s (F.PEER_TAG n)

/-- A write of PEER_CTRL_n. EVENTS and INTR restart where TAG or KIND changes, from what the entry reads or from the FREE
that an entry with a bad word counts as. -/
def peerCtrlWrite (n v : Nat) (s : State) : State :=
  let kind := bitsOf v 30 2
  let first := bitsOf v 8 5
  let last := bitsOf v 16 5
  if !isOn s 1 then s
  else if 2 ≤ kind ∨ last < first then detect .peer 4 n s
  else
    let tag := if kind = 0 then 0 else getF s F.PEER_STAGE_TAG
    let changed := tag != getF s (F.PEER_TAG n) || kind != getF s (F.PEER_KIND n) || tag != peerTag s n || kind != peerKind s n
    let s := peerPut s n kind tag (bitsOf v 24 1) first last
    let s := onlyIf changed (fun s =>
      setFs s [(F.PEER_EVENTS n, 0), (F.PEER_INTR n, 0), (F.CARRIED_MASK n, peerMask s n)]) s
    peerCount s

/-- PEER_CTRL_WRITE (R196). -/
def execPeerCtrlWrite (n : Fin 64) (value : Word) (s : State) : Host.Outcome State Fault Refusal :=
  .next (peerCtrlWrite n.val value.toNat s)

/-! ### Saved provisioning (R200-R202) -/

/-- The control word of an entry. -/
def peerCtrl (s : State) (n : Nat) : Nat :=
  getF s (F.PEER_KIND n) * 2 ^ 30 + getF s (F.PEER_CARRIER n) * 2 ^ 24 + getF s (F.PEER_LAST n) * 2 ^ 16 +
    getF s (F.PEER_FIRST n) * 2 ^ 8

/-- The peer record before its sequence number and check word (R201). -/
def peerBytes (s : State) : List Byte :=
  leBytes 4 (recMagic .peer) ++ leBytes 4 0 ++ leBytes 8 (mainTime s) ++
    ((List.range 64).flatMap fun n =>
      if peerKind s n = 1 then leBytes 4 (getF s (F.PEER_TAG n)) ++ leBytes 4 (peerCtrl s n) else leBytes 8 0) ++
    leBytes 4 0

/-- A write of 1 to PEER_SAVE. -/
def peerSave (s : State) : State :=
  if !isOn s 1 || getB s F.SAVE_BUSY then s else startRec .peer (peerBytes s) 0 (setB s F.SAVE_BUSY true)

/-- PEER_SAVE (R200). -/
def execPeerSave (s : State) : Host.Outcome State Fault Refusal := .next (peerSave s)

/-- Load the table at a wake of MGMT from off (R202). -/
def peerLoad (s : State) : State :=
  match newest s .peer with
  | none => detect .peer 1 0 (setFs s [(F.PEER_LOAD_SRC, 0)])
  | some i =>
    let bs := recAt s .peer i 0x10 512
    let s := each (List.range 64) (fun s n =>
      let v := leAt bs (8 * n + 4) 4
      if bitsOf v 30 2 = 1 then peerPut s n 1 (leAt bs (8 * n) 4) (bitsOf v 24 1) (bitsOf v 8 5) (bitsOf v 16 5) else s) s
    peerCount (peerMasks (setF s F.PEER_LOAD_SRC (1 + i)))

end Sys2Proof.Machine
end

