-- ==== Sys2Proof/Machine/Fathom.lean ====
section
/-! DEFINITION. The Fathom engine (05 R131-R142): pages and their allocation, learning updates, snapshots. -/
namespace Sys2Proof.Machine

/-! ### Pages -/

/-- The pages of a group (R134). -/
def grpPages (s : State) (g : Nat) : List Nat := List.range' (getF s (F.PAGE_BASE g)) (getF s (F.PAGE_COUNT g))

/-- The group a page serves. -/
def pageGroup (s : State) (p : Nat) : Option Nat := (List.range 32).find? fun g => (grpPages s g).contains p

/-- Clear pages: their entries become zero, what they have gathered goes, and their poison is removed (R135; 12 R314). -/
def clearPages (ps : List Nat) (s : State) : State :=
  let s := { s with fth := { s.fth with
    table := tkeep (fun k => !ps.contains (k / 65536)) s.fth.table, acc := tkeep (fun k => !ps.contains (k / 65536)) s.fth.acc } }
  let x := memAt s 0
  if x.poison.any (fun w => ps.contains (w / 16384)) then
    setMem s 0 { x with poison := x.poison.filter fun w => !ps.contains (w / 16384) }
  else s

/-- An entry of the table. -/
def tableEntry (s : State) (i : Nat) : Nat := tget s.fth.table i 0

/-- A component is never stored as −64 (R133): it is held at −63. -/
def fix7 (v : Nat) : Nat := if v % 128 = 64 then 65 else v % 128

/-- An entry with both components in range. -/
def fixEntry (v : Nat) : Nat := fix7 (v / 128) * 128 + fix7 v

/-- Set an entry. -/
def setEntry (s : State) (i v : Nat) : State := { s with fth := { s.fth with table := tset s.fth.table i (fixEntry v) 0 } }

/-- Increment ADAPT_EPOCH of a group (R138). -/
def bumpEpoch (s : State) (g : Nat) : State := addF s (F.ADAPT_EPOCH g) 1

/-- A unit enters ALIGN with a tag (R139); while TABLE is not on, its next wake takes this up (`fthTags`). -/
def fthAlign (g tag : Nat) (s : State) : State :=
  if !isOn s 9 || getF s (F.LEARN_TAG g) == tag then s
  else
    let ps := grpPages s g
    let s := setF (bumpEpoch (clearPages ps s) g) (F.LEARN_TAG g) tag
    if ps.isEmpty then s else detect .fth 3 0 s

/-- FATHOM_PAGE_CLEAR (R135): pages that a commit of zone 0x02 gave another role. -/
def execFathomPageClear (s : State) : Host.Outcome State Fault Refusal :=
  let ps := s.fth.clear
  .next (if !isOn s 9 || ps.isEmpty then s
    else
      let s := clearPages ps { s with fth := { s.fth with clear := [] } }
      let gs := (List.range 32).filter fun g => (grpPages s g).any ps.contains
      let s := each gs bumpEpoch s
      detect .fth 3 0 (setB s F.FTH_CLEARING s.fth.loading))

/-- A write of 1 to CLEAR_ALL. -/
def clearAll (s : State) : State :=
  if !isOn s 9 then s
  else each (List.range 32) bumpEpoch (clearPages ((List.range 32).flatMap (grpPages s)) s)

/-- CLEAR_ALL (R138). -/
def execClearAll (s : State) : Host.Outcome State Fault Refusal := .next (clearAll s)

/-- The pages that a new allocation gives a group and whose role it changes (R135): a page keeps it where it serves the same
group, relation and SCALE. Each allocation gives PAGE_BASE, PAGE_COUNT and SCALE. -/
def changedPages (old new : Nat × Nat × Nat) : List Nat :=
  (List.range' new.1 new.2.1).filter fun p => old.1 != new.1 || old.2.2 != new.2.2 || decide (old.1 + old.2.1 ≤ p)

/-- The allocation in force. -/
def allocation (s : State) (g : Nat) : Nat × Nat × Nat :=
  (getF s (F.PAGE_BASE g), getF s (F.PAGE_COUNT g), getF s (F.FTH_SCALE g))

/-! ### The allocation switches (02 R60; R134, R135) -/

/-- A field at its value in content. -/
def ctField (ct : ZContent) (f : Fld) : Fld × Nat := (f, contentF ct f)

/-- The fields of the Fathom allocation for a group. -/
def fathomGroup (ct : ZContent) (g : Nat) : List (Fld × Nat) :=
  [F.FTH_SCALE g, F.FTH_REACH g, F.PAGE_COUNT g, F.PAGE_BASE g].map (ctField ct)

/-- The fields of the Fathom allocation. -/
def fathomFields (ct : ZContent) : List (Fld × Nat) := (List.range 32).flatMap (fathomGroup ct)

/-- Set the fields that lie in domains which are on. -/
def putFields (l : List (Fld × Nat)) (s : State) : State := setFs s (l.filter fun p => isOn s (regDom p.1.addr))

/-- The Fathom allocation of the groups of a list switches (02 R60): pages with a new role are cleared (05 R135). -/
def fathomSwitch (gs : List Nat) (ct : ZContent) (s : State) : State :=
  let ps := gs.flatMap fun g =>
    changedPages (allocation s g) (contentF ct (F.PAGE_BASE g), contentF ct (F.PAGE_COUNT g), contentF ct (F.FTH_SCALE g))
  let s := putFields (gs.flatMap (fathomGroup ct)) s
  if ps.isEmpty || !isOn s 9 then s
  else setB { s with fth := { s.fth with clear := s.fth.clear.filter (fun p => !ps.contains p) ++ ps } } F.FTH_CLEARING true

/-! ### Learning (R136, R137) -/

/-- A component after a learning update with a gradient (R137), and whether it would have passed ±63. -/
def learnPart (mu : Nat) (v a : Int) : Int × Bool :=
  let t := v - rdiv a (2 ^ mu * 1099511627776)
  (clampI (-63) 63 t, decide (63 < t.natAbs))

/-- An entry after a learning update; a poisoned word is not updated. -/
def learnEntry (s : State) (e : Nat × Int × Int) : State :=
  if poisoned s 0 (e.1 / 4) then s
  else
    let v := tableEntry s e.1
    let re := learnPart (getF s F.LEARN_MU) (toS 7 (v / 128)) e.2.1
    let im := learnPart (getF s F.LEARN_MU) (toS 7 v) e.2.2
    let s := setEntry s e.1 (ofS 7 re.1 * 128 + ofS 7 im.1)
    if re.2 || im.2 then addF s F.FTH_SAT_CNT 1 else s

/-- A learning update: every entry moves against its gradient, and the accumulators restart. -/
def learnUpdate (s : State) : State :=
  let s := each s.fth.acc learnEntry s
  addF { s with fth := { s.fth with acc := [] } } F.FTH_UPDATE_CNT 1

/-- At a local furlong boundary (R137). With LEARN_EN 0 no update is made and what was gathered before stays: the spec does not
say (DESIGN CHOICE, log 122). -/
def fthBoundary (s : State) : State :=
  if isOn s 9 && getB s F.LEARN_EN && !s.fth.stopped && getF s F.FURLONG_NOW % 2 ^ getF s F.ADAPT_LOG2 == 0 then learnUpdate s
  else s

/-! ### Snapshots (R140, R141) -/

/-- The group record of a snapshot header. -/
def snapGroup (s : State) (g : Nat) : List Byte :=
  leBytes 1 (getF s (F.PAGE_BASE g)) ++ leBytes 1 (getF s (F.PAGE_COUNT g)) ++ leBytes 1 (getF s (F.FTH_SCALE g)) ++
    leBytes 1 0 ++ leBytes 4 (getF s (F.ADAPT_EPOCH g)) ++ leBytes 4 (getF s (F.LEARN_TAG g)) ++ leBytes 4 0

/-- The header bytes before PAGE_CRC, as at the snapshot's start; UPDATE_CNT follows with the last page. -/
def snapHead (s : State) : List Byte :=
  leBytes 4 (recMagic .snapshot) ++ leBytes 4 0 ++ leBytes 8 (mainTime s) ++ leBytes 4 (getF s (F.ZONE_BUILD 2)) ++
    leBytes 4 0 ++ leBytes 8 0 ++ (List.range 32).flatMap (snapGroup s)

/-- Eight entries as 14 bytes. -/
def packEight (s : State) (i : Nat) : List Byte :=
  leBytes 14 ((List.range 8).foldl (fun a k => a + tableEntry s (i + k) * 2 ^ (14 * k)) 0)

/-- The bytes of a page (R140). -/
def pageBytes (s : State) (p : Nat) : List Byte := (List.range 8192).flatMap fun i => packEight s (65536 * p + 8 * i)

/-- Start a snapshot unless one is in progress. -/
def snapStart (s : State) : State :=
  if !isOn s 9 || getB s F.SNAP_BUSY then s
  else
    let s := setB { s with fth := { s.fth with snap := some ⟨0, snapHead s, []⟩ } } F.SNAP_BUSY true
    startRec .snapshot [] 0 s

/-- SNAP_REQ (R141). -/
def execSnapReq (s : State) : Host.Outcome State Fault Refusal := .next (snapStart s)

/-- SNAPSHOT_PERIODIC (R141): SNAP_PERIOD 0 disables it. -/
def execSnapshotPeriodic (s : State) : Host.Outcome State Fault Refusal :=
  .next (if getF s F.SNAP_PERIOD = 0 then s else snapStart s)

/-- The snapshot in progress with its next page copied. -/
def copyPage (x : SnapSt) (s : State) : State :=
  let head := if x.next = 255 then withLe x.head 0x14 4 (getF s F.FTH_UPDATE_CNT) else x.head
  { s with fth := { s.fth with snap := some ⟨x.next + 1, head, x.pages ++ [pageBytes s x.next]⟩ } }

/-- The bytes of a snapshot whose pages are all copied, before sequence number and HDR_CRC. -/
def snapBytes (x : SnapSt) : List Byte :=
  x.head ++ x.pages.flatMap (fun p => leBytes 4 (crc32c p)) ++ List.replicate (2524 + 4) 0#8 ++ x.pages.flatten

/-- End a snapshot write. -/
def endSnap (ok : Bool) (s : State) : State :=
  match s.fth.snap with
  | none => s
  | some x =>
    if !ok then endRec .snapshot false s
    else if x.next < 256 then s
    else
      let ws := s.st.writes.map fun w => if w.kind == .snapshot then { w with bytes := snapBytes x } else w
      endRec .snapshot true { s with st := { s.st with writes := ws } }

/-- SNAPSHOT_DONE (R141): once every page is copied. -/
def execSnapshotDone (ok : Bool) (s : State) : Host.Outcome State Fault Refusal := .next (endSnap ok s)

/-- RECORD_WRITE_COMPLETE (15 R444). -/
def execRecordWriteComplete (kind : RecKind) (ok : Bool) (s : State) : Host.Outcome State Fault Refusal :=
  .next (if kind = .snapshot then endSnap ok s else endRec kind ok s)

/-! ### Start (R142) -/

/-- The entries of a page's bytes. -/
def unpackPage (bs : List Byte) : List Nat :=
  (pieces 14 8192 bs).flatMap fun p => (List.range 8).map fun k => ofLe p / 2 ^ (14 * k) % 2 ^ 14

/-- The bytes of page `p` of the snapshot in a slot. -/
def snapPage (s : State) (slot p : Nat) : List Byte := recAt s .snapshot slot (4096 + 114688 * p) 114688

/-- PAGE_CRC of page `p` matches. -/
def snapPageOk (s : State) (slot p : Nat) : Bool :=
  ofLe (recAt s .snapshot slot (0x220 + 4 * p) 4) == crc32c (snapPage s slot p)

/-- Load page `p`, or clear it where its check fails. -/
def loadPage (slot : Nat) (s : State) (p : Nat) : State :=
  let s := clearPages [p] s
  if snapPageOk s slot p then
    let es := (unpackPage (snapPage s slot p)).zipIdx.filter fun e => e.1 != 0
    let below := s.fth.table.filter fun c => decide (c.1 < 65536 * p)
    let above := s.fth.table.filter fun c => decide (65536 * p < c.1)
    { s with fth := { s.fth with table := below ++ es.map (fun e => (65536 * p + e.2, fixEntry e.1)) ++ above } }
  else s

/-- A group's record in the snapshot of a slot. -/
def snapRec (s : State) (slot g : Nat) : List Byte := recAt s .snapshot slot (0x20 + 16 * g) 16

/-- The record equals the current allocation. -/
def snapAlloc (s : State) (slot g : Nat) : Bool :=
  let r := snapRec s slot g
  leAt r 0 1 == getF s (F.PAGE_BASE g) && leAt r 1 1 == getF s (F.PAGE_COUNT g) && leAt r 2 1 == getF s (F.FTH_SCALE g)

/-- Start a group from a snapshot. -/
def loadGroup (slot : Nat) (s : State) (g : Nat) : State :=
  let r := snapRec s slot g
  if snapAlloc s slot g then
    each (grpPages s g) (loadPage slot) (setFs s [(F.ADAPT_EPOCH g, leAt r 4 4), (F.LEARN_TAG g, leAt r 8 4)])
  else setFs (clearPages (grpPages s g) s) [(F.ADAPT_EPOCH g, leAt r 4 4 + 1), (F.LEARN_TAG g, 0)]

/-- Every unit in ALIGN or CARRY is held against its group's LEARN_TAG (R139): where the tag came while TABLE was not on, or a
load has brought back a record of another route. -/
def fthTags (s : State) : State :=
  each (List.range 32) (fun s g =>
    if 4 ≤ getF s (F.ACQ_STATE (g / 16) (g % 16)) then fthAlign g (getF s (F.ACQ_TAG (g / 16) (g % 16))) s else s) s

/-- SNAPSHOT_LOAD_DONE (R142). The slots are read although MGMT, which holds the store port, may not work then: the spec does not
say what the load takes in that case (DESIGN CHOICE, log 121). -/
def execSnapshotLoadDone (s : State) : Host.Outcome State Fault Refusal :=
  .next (if !isOn s 9 || !s.fth.loading then s
    else
      let s := setB { s with fth := { s.fth with loading := false } } F.FTH_CLEARING (s.fth.clear.length != 0)
      fthTags (match newest s .snapshot with
      | some slot => setF (each (List.range 32) (loadGroup slot) s) F.START_SRC (1 + slot)
      | none =>
        let s := each (List.range 32) (fun s g => setF s (F.ADAPT_EPOCH g) 0) (clearPages (List.range 256) s)
        detect .fth 0 0 (setF s F.START_SRC 0)))

end Sys2Proof.Machine
end

