-- ==== Sys2Proof/Machine/RxSignal.lean ====
section
/-! DEFINITION. The received line signal: interleave correction and gain (04 R108, R110), dispersion compensation (04 R114,
R115), the correlators' metric (04 R120), the Fathom correction (05 R131, R132), demultiplexing (05 R143), the equaliser (05
R144-R149), phase recovery (05 R150), soft demapping (05 R152, R153) and the quality formulas (05 R157). -/
namespace Sys2Proof.Machine

/-! ### Native samples and gain (04 R108, R110) -/

/-- u[m] of converter `conv` in steps of 2^-12: o_k counts 2^-4 LSB and g_k 2^-14. -/
def correctedCode (r : CalResult) (conv m code : Nat) : Int :=
  let og := r.og.getD (64 * conv + m % 64) (0, 0x4000)
  og.2 * (16 * (code : Int) - 2040 - og.1)

/-- Tap `i` (-3 to 4, as 0 to 7) of the skew filter of an output phase, in 2^-14: the identity where none is loaded. -/
def skewTap (r : CalResult) (conv phase i : Nat) : Int := r.skew.getD (512 * conv + 8 * phase + i) (if i = 3 then 0x4000 else 0)

/-- The native sample y[n] (R108), from the codes before, at and after it: `codes` starts with sample `m0`. -/
def nativeSample (r : CalResult) (conv m0 : Nat) (codes : List Nat) (n : Nat) : Int :=
  let sum : Int := ((List.range 8).map fun i =>
    let m := n + 3 - i
    skewTap r conv (n % 64) i * correctedCode r conv m (codes.getD (m - m0) 128)).sum
  clampI (-8191) 8191 (rdiv sum (2 ^ 26))

/-- The gain stage (R110). -/
def gainStage (g : Nat) (y : Int) : Int := clampI (-8191) 8191 (rdiv (y * g) 4096)

/-- The gain stage limits the sample (R109). -/
def gainLimits (g : Nat) (y : Int) : Bool := decide (8191 < (rdiv (y * g) 4096).natAbs)

/-- The samples of a carrier's converter `conv` after the gain stage, from its codes. -/
def rxSamples (s : State) (c conv m0 : Nat) (codes : List Nat) : List Int :=
  (List.range codes.length).map fun i =>
    gainStage (getF s (F.AGC_GAIN c conv)) (nativeSample (coefAt s c) conv m0 codes (m0 + i))

/-! ### Dispersion compensation (04 R114, R115) -/

/-- A unit is enabled (R120); a carrier that a Grave fault stopped keeps its units in IDLE (11 R297). -/
def unitAble (s : State) (c u : Nat) : Bool :=
  present s (32 + unitKey c u) && decide (1 ≤ getF s (F.SC_COUNT c u)) && isOn s (lineDom c) && isOn s (fabDom c) &&
    !s.lp.stopped.contains c

/-- Twice the centre of a unit's band in Hz, shifted by FOFF once a candidate has been declared (R115). -/
def bandCentre2 (s : State) (c u : Nat) : Int :=
  let foff := if 3 ≤ getF s (F.ACQ_STATE c u) then getS s (F.FOFF c u) * 1000000 else 0
  (2 * getF s (F.FIRST_SC c u) + getF s (F.SC_COUNT c u) - 32) * 7812500000 + 2 * foff

/-- A unit claims the bin at `f` Hz. -/
def claims (s : State) (c u : Nat) (f : Int) : Bool :=
  unitAble s c u && decide ((2 * f - bandCentre2 s c u).natAbs ≤ getF s (F.SC_COUNT c u) * 7812500000)

/-- The unit that a bin belongs to: of those that claim it the one whose centre is nearer, the lower at the same distance (DESIGN
CHOICE, log 114). -/
def binOwner (s : State) (c : Nat) (f : Int) : Option Nat :=
  ((List.range 16).filter fun u => claims s c u f).foldl (fun best u =>
    match best with
    | some b => if (2 * f - bandCentre2 s c u).natAbs < (2 * f - bandCentre2 s c b).natAbs then some u else best
    | none => some u) none

/-- The dispersion that a unit's band is compensated for: its trial value in CD_SCAN, else D_EST. -/
def bandD (s : State) (c u : Nat) : Int := if getF s (F.ACQ_STATE c u) = 1 then (unitAt s c u).trialD else getS s (F.D_EST c u)

/-- One overlap-save block of 65,536 samples: 24,576 new ones, with half of the overlap on each side; a bin that no unit claims
is zero (R114, R115). -/
def cdBlock (s : State) (c : Nat) (x : List Cx) : List Cx :=
  let y := disperse x 300000000000 (channelHz (getF s (F.LO_CHANNEL c))) fun f => (binOwner s c f).map (bandD s c)
  (y.drop 20480).take 24576

/-! ### Correlators (04 R120) -/

/-- N of a unit: its header pol-symbols. -/
def corrSize (s : State) (c u : Nat) : Nat := 64 * getF s (F.SC_COUNT c u)

/-- The sums of a correlator over received and expected points. -/
def corrSums (r a : List Cx) : Cx × Int := (cxSum (List.zipWith (fun x y => cxMul x (cxConj y)) r a), (r.map cxAbs2).sum)

/-- Λ of a peak in 2^-16: the expected points have unit energy. -/
def Peak.lam (p : Peak) (n : Nat) : Nat := p.corr2 * 65536 / (p.energy * n)

/-- P of a peak in 0.1 dB, from N and AGC_TARGET. -/
def Peak.power (p : Peak) (n target : Nat) : Int :=
  fxRound (100 * (fxLog10 (fxOf p.corr2) - 2 * fxLog10 (fxOf n) - 2 * fxLog10 (fxOf target)))

/-- Λ of a peak at a unit. -/
def peakLam (s : State) (c u : Nat) (p : Peak) : Nat := Peak.lam p (corrSize s c u)

/-- P of a peak at a unit. -/
def peakPower (s : State) (c u : Nat) (p : Peak) : Int := Peak.power p (corrSize s c u) (getF s (F.AGC_TARGET c))

/-- The distance of two symbol timings within a furlong, the shorter way round. -/
def timingGap (a b : Nat) : Nat :=
  let d := (a % 32768 + 32768 - b % 32768) % 32768
  min d (32768 - d)

/-! ### Demultiplexer (05 R143) -/

/-- Sample `h` of a subcarrier in half symbols: shifted to zero frequency and matched-filtered, from samples at 300 GS/s that
start with `n0`; the timing loop places it by the unit's timing and symbol-rate offset. -/
def demuxSample (s : State) (c u k n0 : Nat) (x : List Cx) (h : Nat) : Cx :=
  let a := unitAt s c u
  let pos := 40 * a.timing + 20 * h
  let at_ := ((pos : Int) + rdiv (pos * a.rate) 1000000).toNat
  let foff := getS s (F.FOFF c u)
  cxScale (fxRat 1 lineOs) (cxSum (x.zipIdx.map fun e =>
    let n := n0 + e.2
    cxMul (cxScale (rrc lineOs ((n : Int) - at_)) e.1) (cxTurn (-(scTurns k n) - fxRat (foff * n % 300000) 300000))))

/-! ### Equaliser (05 R144-R149) -/

/-- A tap of one. -/
def tapOne : Int := fxOne

/-- The identity at t = 0: for each position the taps XX, XY, YX, YY as real and imaginary part. -/
def identTaps (n : Nat) : List Int :=
  (List.range n).flatMap fun t => if t = (n - 1) / 2 then [tapOne, 0, 0, 0, 0, 0, tapOne, 0] else List.replicate 8 0

/-- One of the four taps at a position. -/
def tapAt (ts : List Int) (t path : Nat) : Cx := ⟨ts.getD (8 * t + 2 * path) 0, ts.getD (8 * t + 2 * path + 1) 0⟩

/-- The positions in use: `drop` are dropped at each end (R148). -/
def tapPos (n drop : Nat) : List Nat := List.range' drop (n - 2 * drop)

/-- The input sample that the tap at position `t` weighs for symbol `i`. -/
def tapInput (n i t : Nat) (xs : List Cx) : Cx := xs.getD (2 * i + (n - 1) - t) cxZero

/-- The X and Y outputs for symbol `i` (R144). -/
def eqOut (ts : List Int) (n drop : Nat) (xs ys : List Cx) (i : Nat) : Cx × Cx :=
  let out (p : Nat) : Cx := cxSum ((tapPos n drop).map fun t =>
    cxAdd (cxMul (tapAt ts t p) (tapInput n i t xs)) (cxMul (tapAt ts t (p + 1)) (tapInput n i t ys)))
  (out 0, out 2)

/-- The centre matrix XX, XY, YX, YY. -/
def centre (ts : List Int) (n : Nat) : List Cx := (List.range 4).map (tapAt ts ((n - 1) / 2))

/-- The determinant of a centre matrix. -/
def centreDet (m : List Cx) : Cx :=
  cxSub (cxMul (m.getD 0 cxZero) (m.getD 3 cxZero)) (cxMul (m.getD 1 cxZero) (m.getD 2 cxZero))

/-- The outputs have converged on one polarisation: the determinant is below 0.1 of its value at ALIGN entry, which is 1
(R146). -/
def collapsed (ts : List Int) (n : Nat) : Bool := decide (100 * cxAbs2 (centreDet (centre ts n)) < fxOne)

/-- The quotient of complex numbers. -/
def cxDiv (a b : Cx) : Cx :=
  let d := cxAbs2 b
  let p := cxMul a (cxConj b)
  ⟨fxDiv p.re d, fxDiv p.im d⟩

/-- A pair rotated by the inverse of a centre matrix (R131). -/
def unrotate (m : List Cx) (v : Cx × Cx) : Cx × Cx :=
  let d := centreDet m
  (cxDiv (cxSub (cxMul (m.getD 3 cxZero) v.1) (cxMul (m.getD 1 cxZero) v.2)) d,
   cxDiv (cxSub (cxMul (m.getD 0 cxZero) v.2) (cxMul (m.getD 2 cxZero) v.1)) d)

/-- The sum of |w|² over the four taps at a position. -/
def tapWeight (ts : List Int) (t : Nat) : Int := ((List.range 4).map fun p => cxAbs2 (tapAt ts t p)).sum

/-- The delay centroid in ps (R149): the symbol period is 400/3 ps. -/
def centroid (ts : List Int) (n : Nat) : Int :=
  let w : Nat → Int := tapWeight ts
  let num : Int := ((List.range n).map fun (t : Nat) => ((t : Int) - ((n - 1) / 2 : Nat)) * w t).sum
  fxDiv (200 * num) (3 * ((List.range n).map w).sum)

/-- The least-squares slope dτ/df in ps/GHz over pairs of subcarrier and centroid: centres lie 7.8125 GHz apart. -/
def delaySlope (ps : List (Nat × Int)) : Int :=
  let n : Int := ps.length
  let sf : Int := (ps.map fun p => (p.1 : Int)).sum
  let st : Int := (ps.map (·.2)).sum
  let num : Int := n * (ps.map fun p => (p.1 : Int) * p.2).sum - sf * st
  let den : Int := n * (ps.map fun p => (p.1 : Int) * p.1).sum - sf * sf
  if den = 0 then 0 else rdiv (num * 16 * den.sign) (125 * den.natAbs)

/-- D_RES in ps/nm (R149): -(c/λ²) dτ/df, with c/λ² = ν²/c and ν in Hz. -/
def residual (slope : Int) (nu : Nat) : Int := -fxRound (fxMul slope (fxRat ((nu : Int) * nu) (299792458 * 10 ^ 18)))

/-! ### Reference points (03 R79; 05 R132) -/

/-- The field bits that a unit's header carried at furlong `f` of its far end. -/
def rxFieldBits (s : State) (c u f : Nat) : List Bool :=
  headerBits (getF s (F.ACQ_TAG c u)) f (((unitAt s c u).prevEp).getD 0)

/-- The FURLONG of symbol `k` counted from the last header's furlong. -/
def furAt (s : State) (c u : Nat) (k : Int) : Nat := ((((unitAt s c u).prevFur.getD 0 : Nat) : Int) + k / 32768).toNat % 2 ^ 32

/-- The point of a header or pilot symbol, none for a payload symbol. -/
def knownPoint (s : State) (c u sc p : Nat) (k : Int) : Option Cx :=
  let i := (k % 32768).toNat
  match symRole i with
  | .pilot q => some (pilotPoint sc p q)
  | .payload _ => none
  | _ => let h := (headerPoints sc p (rxFieldBits s c u (furAt s c u k))).getD i (false, false); some (qpsk h.1 h.2)

/-- The number in its run of the payload pol-symbol at symbol `k` on polarisation `p`. -/
def runNumber (s : State) (c u p : Nat) (k : Int) : Nat :=
  match symRole (k % 32768).toNat with
  | .payload i => 64260 * ((furAt s c u k + 2 ^ 32 - (unitAt s c u).runFur) % 2 ^ 32) + polSymbol i p
  | _ => 0

/-- The level of a dimension nearest to a value (03 R90, R91). -/
def nearestLevel (x : CwCfg) (r : Int) : Int :=
  let a := pasAlpha x
  let best := [1, 3, 5].foldl (fun b l => if (r.natAbs : Int) < a * (l + 1) then b else l + 2) 1
  if r < 0 then -(a * best) else a * best

/-- The point of a constellation nearest to `r` (03 R90-R92); `bpsk` for a BPSK pol-symbol. -/
def nearestPoint (x : CwCfg) (bpsk : Bool) (r : Cx) : Cx :=
  if x.mode = 1 then ⟨nearestLevel x r.re, nearestLevel x r.im⟩
  else if bpsk then qpsk (decide (r.re + r.im < 0)) (decide (r.re + r.im < 0))
  else qpsk (decide (r.re < 0)) (decide (r.im < 0))

/-- The decision at symbol `k` on polarisation `p`: its known point, or the nearest one. -/
def decide1 (s : State) (x : CwCfg) (c u sc p : Nat) (k : Int) (r : Cx) : Cx :=
  match knownPoint s c u sc p k with
  | some a => a
  | none => nearestPoint x (isBpsk x.b (runNumber s c u p k)) r

/-! ### Phase recovery (05 R150) -/

/-- Points and their phase estimate Σ r·a* at the known points of a block: symbol index with the sum. -/
def pilotSums (s : State) (c u sc p : Nat) (rs : List (Int × Cx)) : List (Int × Cx) :=
  rs.filterMap fun e => if 32 ≤ (e.1 % 32768) then (knownPoint s c u sc p e.1).map fun a => (e.1, cxMul e.2 (cxConj a)) else none

/-- The phase at each known point, averaged over `n` consecutive ones centred on it, in radians. -/
def pilotPhases (n : Nat) (ps : List (Int × Cx)) : List (Int × Int) :=
  (List.range ps.length).map fun i =>
    ((ps.getD i (0, cxZero)).1, cxArg (cxSum (((ps.drop (i - n / 2)).take (min i (n / 2) + 1 + n / 2)).map (·.2))))

/-- The phase difference taken the shorter way round. -/
def phaseWrap (d : Int) : Int := (d + fxPi) % (2 * fxPi) - fxPi

/-- The phase at symbol `k`: linear between the known points around it. -/
def phaseAt : List (Int × Int) → Int → Int
  | [], _ => 0
  | [(_, a)], _ => a
  | (j, a) :: (m, b) :: t, k =>
    if k ≤ j then a else if k < m then a + phaseWrap (b - a) * (k - j) / (m - j) else phaseAt ((m, b) :: t) k

/-- A point turned back by a phase in radians. -/
def turnBack (r : Cx) (ph : Int) : Cx := cxMul r (cxTurn (-fxDiv ph (2 * fxPi)))

/-- The phase that is left over a block of 16, from decisions on points of the two lowest amplitude levels. -/
def blockPhase (s : State) (x : CwCfg) (c u sc p : Nat) (b : List (Int × Cx)) : Int :=
  let lim := 4 * pasAlpha x
  let low (a : Cx) : Bool := x.mode != 1 || (decide (a.re.natAbs < lim) && decide (a.im.natAbs < lim))
  cxArg (cxSum (b.filterMap fun e =>
    let a := decide1 s x c u sc p e.1 e.2
    if low a then some (cxMul e.2 (cxConj a)) else none))

/-- Phase recovery of one polarisation: pilots, then the decision-directed stage. -/
def recover (s : State) (x : CwCfg) (c u sc p : Nat) (rs : List (Int × Cx)) : List (Int × Cx) :=
  let ph := pilotPhases (getF s (F.PILOT_AVG c u)) (pilotSums s c u sc p rs)
  let turned := rs.map fun e => (e.1, turnBack e.2 (phaseAt ph e.1))
  (pieces 16 turned.length turned).flatMap fun b =>
    let d := blockPhase s x c u sc p b
    b.map fun e => (e.1, turnBack e.2 d)

/-! ### Fathom correction (05 R131, R132, R136) -/

/-- The subcarrier supplies decisions (R132). -/
def contributes (s : State) (c : Nat) (k : Int) : Bool :=
  decide (0 ≤ k) && decide (k < 32) && !bitOf (getF s (F.RX_SC_MASK c)) k.toNat &&
    (match scGroup s c k.toNat with | some u => getF s (F.ACQ_STATE c u) == 5 | none => false)

/-- The tentative decisions of a subcarrier at an arrival time, zero where it supplies none. -/
def decisionAt (s : State) (c : Nat) (k t : Int) : Cx × Cx :=
  if contributes s c k && decide (0 ≤ t) then tget (tget s.rx.dec (scKey c k.toNat) []) t.toNat (cxZero, cxZero) else (cxZero, cxZero)

/-- The relation that page `i` of a group holds (R134). -/
def pageRel (i : Nat) : Int := if i % 2 = 1 then -(((i + 1) / 2 : Nat) : Int) else ((i / 2 : Nat) : Int)

/-- The triplet products for X and for Y (R131). -/
def triplet (s : State) (c sc : Nat) (d m n t : Int) : Cx × Cx :=
  let a := decisionAt s c (sc + d) (t + m)
  let b := decisionAt s c (sc + d) (t + m + n)
  let e := decisionAt s c sc (t + n)
  let pair := cxAdd (cxMul a.1 (cxConj b.1)) (cxMul a.2 (cxConj b.2))
  (cxMul pair e.1, cxMul pair e.2)

/-- The Fathom level of a subcarrier stream. -/
def streamLevel (s : State) (c sc : Nat) : Nat := tget s.rx.level (scKey c sc) 0

/-- The effective reach of a group at the level of one of its subcarrier streams (R136). -/
def scReach (s : State) (g sc : Nat) : Nat := getF s (F.FTH_REACH g) * (4 - streamLevel s (g / 16) sc) / 4

/-- The engine works for a subcarrier of a group (R134, R136; 11 R303). -/
def engineOn (s : State) (g sc : Nat) : Bool :=
  isOn s 9 && !s.fth.stopped && decide (0 < scReach s g sc) && decide (0 < getF s (F.PAGE_COUNT g))

/-- The offsets of a reach. -/
def offsets (l : Nat) : List (Int × Int) :=
  (List.range (2 * l + 1)).flatMap fun (m : Nat) => (List.range (2 * l + 1)).map fun (n : Nat) => ((m : Int) - l, (n : Int) - l)

/-- The index of the entry for page `p` and offsets (R133). -/
def entryIndex (p : Nat) (mn : Int × Int) : Nat := 65536 * p + ((mn.1 + 128) * 256 + (mn.2 + 128)).toNat

/-- The coefficient that an entry contributes: none until its page is loaded or cleared (R135, R142), none from a poisoned word
(R137). -/
def entryCoef (s : State) (i : Nat) : Cx :=
  if s.fth.loading || s.fth.clear.contains (i / 65536) || poisoned s 0 (i / 4) then cxZero
  else let v := tableEntry s i; ⟨fxOf (toS 7 (v / 128)), fxOf (toS 7 v)⟩

/-- The corrections Δx and Δy of subcarrier `sc` of group `g` at arrival time `t` (R131). -/
def fathomDelta (s : State) (g sc : Nat) (t : Int) : Cx × Cx :=
  if !engineOn s g sc then (cxZero, cxZero)
  else
    let ds := (List.range (getF s (F.PAGE_COUNT g))).flatMap fun i => (offsets (scReach s g sc)).map fun mn =>
      let k := entryCoef s (entryIndex (getF s (F.PAGE_BASE g) + i) mn)
      let x := triplet s (g / 16) sc (pageRel i) mn.1 mn.2 t
      (cxMul k x.1, cxMul k x.2)
    let sc2 := fxRat 1 (2 ^ (6 + getF s (F.FTH_SCALE g)))
    (cxScale sc2 (cxSum (ds.map (·.1))), cxScale sc2 (cxSum (ds.map (·.2))))

/-- The pulse that a correction has behind the matched filter, at `h` half symbols: the pulse of 03 R95 with itself. -/
def pulse (h : Int) : Int :=
  (List.range 257).foldl (fun a (j : Nat) => a + fxMul (rrc 2 ((j : Int) - 128)) (rrc 2 (h - ((j : Int) - 128)))) 0 / 2

/-- The samples of a subcarrier with its correction subtracted (R131): shaped, and turned into the received frame. -/
def subtractFathom (s : State) (g sc n : Nat) (y : RxSyms) : RxSyms :=
  if !engineOn s g sc then y
  else
    let m := centre (tget s.rx.taps (scKey (g / 16) sc) (identTaps n)) n
    let len := y.xs.length / 2 + 128
    let ds := (List.range len).map fun (j : Nat) => unrotate m (fathomDelta s g sc ((y.t0 : Int) + j - 64))
    let cor (h : Nat) : Cx × Cx := ds.zipIdx.foldl (fun a e =>
      let w := pulse ((h : Int) - ((n - 1) / 2 : Nat) - 2 * ((e.2 : Int) - 64))
      (cxAdd a.1 (cxScale w e.1.1), cxAdd a.2 (cxScale w e.1.2))) (cxZero, cxZero)
    { y with
      xs := y.xs.zipIdx.map fun e => cxSub e.1 (cor e.2).1
      ys := y.ys.zipIdx.map fun e => cxSub e.1 (cor e.2).2 }

/-! ### The points of a block of symbols -/

/-- The symbols that samples carry: `n - 1` more half symbols are needed around them. -/
def symCount (n : Nat) (y : RxSyms) : Nat := (y.xs.length + 2 - n) / 2

/-- Equalised and phase-recovered X and Y points with their symbol index (R144, R150). -/
def rxPoints (s : State) (g sc : Nat) (y : RxSyms) : List (Int × Cx) × List (Int × Cx) :=
  let c := g / 16
  let u := g % 16
  let n := getF s (F.NTAPS c u)
  let drop := (n - getF s (F.NTAPS_EFF c u)) / 2
  let ts := tget s.rx.taps (scKey c sc) (identTaps n)
  let x := rxCwCfg s c sc g
  let out := (List.range (symCount n y)).map fun (i : Nat) => (y.k0 + (i : Int), eqOut ts n drop y.xs y.ys i)
  (recover s x c u sc 0 (out.map fun e => (e.1, e.2.1)), recover s x c u sc 1 (out.map fun e => (e.1, e.2.2)))

/-- The points after the Fathom correction. -/
def corPoints (s : State) (g sc : Nat) (y : RxSyms) : List (Int × Cx) × List (Int × Cx) :=
  rxPoints s g sc (subtractFathom s g sc (getF s (F.NTAPS (g / 16) (g % 16))) y)

/-- The payload points in the order of their numbers, X before Y (03 R76). -/
def payloadPoints (ps : List (Int × Cx) × List (Int × Cx)) : List Cx :=
  (List.zipWith (fun a b => (a, b)) ps.1 ps.2).flatMap fun e =>
    match symRole (e.1.1 % 32768).toNat with
    | .payload _ => [e.1.2, e.2.2]
    | _ => []

/-! ### Soft demapper (05 R152-R154) -/

/-- The quantised LLR (R152). -/
def llrQ (l : Int) : Int := clampI (-63) 63 (rdiv (4 * l) 1099511627776)

/-- ln Σ exp of a list. -/
def logSum (ts : List Int) : Int :=
  match ts with
  | [] => -(fxOf 1000000)
  | t :: r => let m := r.foldl max t; m + fxLn ((ts.map fun v => fxExp (v - m)).sum)

/-- The three LLRs of a dimension in PAS mode: label MSB, label LSB, sign (R153). Each level has its prior. -/
def pasLlr (x : CwCfg) (var r : Int) : Int × Int × Int :=
  let term (neg : Bool) (a : Nat) : Int :=
    let v := pasAlpha x * (2 * a + 1 : Nat)
    let d := if neg then r + v else r - v
    fxLn (fxOf ((composition x.c0 x.c1 x.c2).getD a 0)) - fxDiv (fxMul d d) var
  let levels := (List.range 4).filter fun a => (composition x.c0 x.c1 x.c2).getD a 0 != 0
  let side (p : Nat → Bool) : Int := logSum ((levels.filter p).flatMap fun a => [term false a, term true a])
  let bit (a i : Nat) : Bool := (ampLabel a).getD i false
  (side (fun a => !bit a 0) - side (fun a => bit a 0), side (fun a => !bit a 1) - side (fun a => bit a 1),
   logSum (levels.map (term false)) - logSum (levels.map (term true)))

/-- The LLRs of a codeword in PAS mode, in position order (03 R90). -/
def pasLlrs (x : CwCfg) (var : Int) (pts : List Cx) : List Int :=
  let ls := (pts.take 3840).flatMap fun r => [pasLlr x var r.re, pasLlr x var r.im]
  ls.flatMap (fun l => [l.1, l.2.1]) ++ ls.map (·.2.2)

/-- The LLRs of a HYBRID pol-symbol: the projection on (1+j)/√2, or each part (R153). -/
def hybridLlr (bpsk : Bool) (var : Int) (r : Cx) : List Int :=
  if bpsk then [fxDiv (4 * fxMul rootHalf (r.re + r.im)) var]
  else [fxDiv (4 * fxMul rootHalf r.re) var, fxDiv (4 * fxMul rootHalf r.im) var]

/-- The run pol-symbol that holds the first bit of codeword `num` in HYBRID mode. -/
def hybridStart (b num : Nat) : Nat :=
  let j := hybridEnd b (23040 * num)
  if bitsBefore b j = 23040 * num then j else j - 1

/-- The LLRs of a codeword in HYBRID mode: its pol-symbols start with the one that holds its first bit (03 R92). -/
def hybridLlrs (b num : Nat) (var : Int) (pts : List Cx) : List Int :=
  let j := hybridStart b num
  let ls := pts.zipIdx.flatMap fun e => hybridLlr (isBpsk b (j + e.2)) var e.1
  (ls.drop (23040 * num - bitsBefore b j)).take 23040

/-- The LLRs of a codeword. -/
def cwLlrs (x : CwCfg) (num : Nat) (var : Int) (pts : List Cx) : List Int :=
  if x.mode = 1 then pasLlrs x var pts else hybridLlrs x.b num var pts

/-- LLRs of the tokens marked POISON count as 0 (12 R312). -/
def dropPoison (poison : List Nat) (ls : List Int) : List Int :=
  ls.zipIdx.map fun e => if poison.contains (e.2 / 32) then 0 else e.1

/-! ### Quality formulas (05 R157) -/

/-- No reference point. -/
def RefSum.zero : RefSum := ⟨cxZero, 0, 0⟩

/-- Take in a reference point and the point received for it. -/
def RefSum.add (a : RefSum) (x r : Cx) : RefSum := ⟨cxAdd a.corr (cxMul r (cxConj x)), a.e + cxAbs2 x, a.r + cxAbs2 r⟩

/-- The sums of two sets. -/
def RefSum.join (a b : RefSum) : RefSum := ⟨cxAdd a.corr b.corr, a.e + b.e, a.r + b.r⟩

/-- Σ|x|² / Σ|r/a − x|² with a = Σr·x*/Σ|x|²: 1 / (Σ|r|²·Σ|x|²/|Σr·x*|² − 1), and the largest value where nothing is left. -/
def RefSum.ratio (a : RefSum) : Int :=
  let q := fxDiv (fxMul a.r a.e) (cxAbs2 a.corr) - fxOne
  if q ≤ 0 then fxOf (2 ^ 40) else fxDiv fxOne q

/-- SNR in 0.01 dB. -/
def RefSum.snr (a : RefSum) : Int := fxRound (1000 * fxLog10 (RefSum.ratio a))

/-- EVM in 0.01 %, from an SNR in 0.01 dB. -/
def evmOf (snr : Int) : Nat := (fxRound (10000 * fxTen (fxRat (-snr) 2000))).toNat

/-- H of R157: 2 (1 + H_A) or 2 − B/64, in bit per pol-symbol. -/
def infoMax (x : CwCfg) : Int :=
  if x.mode = 1 then
    let h : Int := ((composition x.c0 x.c1 x.c2).map fun (n : Nat) =>
      if n = 0 then 0 else fxMul (fxRat n 512) (fxDiv (fxLn (fxRat 512 n)) fxLn2)).sum
    2 * (fxOne + h)
  else fxOf 2 - fxRat x.b 64

/-- log2(1 + exp(−(1 − 2b)·L)). -/
def infoLoss (b : Bool) (l : Int) : Int :=
  let v := if b then l else -l
  fxDiv (if v ≤ 0 then fxLn (fxOne + fxExp v) else v + fxLn (fxOne + fxExp (-v))) fxLn2

/-- A gathering that is empty. -/
def QAcc.zero : QAcc := ⟨.zero, .zero, 0, 0, 0, 0, 0, 0, 0, 0⟩

/-! ### Learning (05 R137) -/

/-- Take a gradient into an entry's accumulator. -/
def gather (a : Tab (Int × Int)) (i : Nat) (v : Cx) : Tab (Int × Int) :=
  let o := tget a i (0, 0)
  tput a i (o.1 + v.re, o.2 + v.im)

/-- The gradient of one symbol at arrival time `t` with errors `ex` and `ey`, over every page and offset within reach. -/
def learnSymbol (s : State) (g sc : Nat) (a : Tab (Int × Int)) (e : Nat × Cx × Cx) : Tab (Int × Int) :=
  (List.range (getF s (F.PAGE_COUNT g))).foldl (fun a i =>
    (offsets (scReach s g sc)).foldl (fun a mn =>
      let x := triplet s (g / 16) sc (pageRel i) mn.1 mn.2 (e.1 : Int)
      gather a (entryIndex (getF s (F.PAGE_BASE g) + i) mn) (cxAdd (cxMul e.2.1 (cxConj x.1)) (cxMul e.2.2 (cxConj x.2)))) a) a

/-- Learn from a codeword: its arrival times with the errors of its X and Y points against the regenerated ones. -/
def learnFrom (g sc : Nat) (es : List (Nat × Cx × Cx)) (s : State) : State :=
  if getB s F.LEARN_EN && engineOn s g sc then
    { s with fth := { s.fth with acc := es.foldl (learnSymbol s g sc) s.fth.acc } }
  else s

end Sys2Proof.Machine
end

