-- ==== Sys2Proof/Machine/LineRx.lean ====
section
/-! DEFINITION. Line receive (04, 05 R143-R161): offset loop, gain control, the acquisition machine of R121, header
checks, masks, the equaliser's taps and the quality intervals. -/
namespace Sys2Proof.Machine

/-! ### Offset cancellation and gain (R105, R111) -/

/-- OFFSET_UPDATE (R105): a mean beyond 0.125 LSB moves the trim one step towards zero mean; held during a foreground
run. -/
def execOffsetUpdate (c : Fin 2) (conv : Fin 4) (sum2 : Int) (s : State) : Host.Outcome State Fault Refusal :=
  let f := F.RX_TRIM c.val conv.val
  .next (if !isOn s (lineDom c.val) || s.cal.running.contains c.val then s
    else if 262144 < sum2 then setS s f (clampI (-128) 127 (getS s f - 1))
    else if sum2 < -262144 then setS s f (clampI (-128) 127 (getS s f + 1))
    else s)

/-- The whole part of the eighth root, from `n` bits down. -/
def root8 : Nat → Nat → Nat → Nat
  | 0, _, r => r
  | n + 1, x, r => root8 n x (if (r + 2 ^ n) ^ 8 ≤ x then r + 2 ^ n else r)

/-- A gain within its range (R110). -/
def gainLimit (g : Nat) : Nat := clampN 0x0100 0xFFFF g

/-- A gain after a FAST update (R111): 1/8 of the error in dB is removed; how the result is rounded is a free value (log
48). -/
def fastGain (g target rms d : Nat) : Nat :=
  if rms = 0 then 0xFFFF else gainLimit (root8 17 (g ^ 8 * target / rms) 0 + d)

/-- A gain after a SLOW update (R111): towards the target by at most 0.01 dB; how far is a free value (log 48). -/
def slowGain (g target rms d : Nat) : Nat :=
  if rms < target then gainLimit (g + d) else if target < rms then gainLimit (g - d) else g

/-- `a` is at most 0.01 dB above `b`: their ratio to the power 2000 is at most 10. -/
def within001 (a b : Nat) : Bool := decide (a ^ 2000 ≤ 10 * b ^ 2000)

/-- The steps that 0.01 dB lets a gain rise or fall. -/
def slowBound (g target rms : Nat) : Nat :=
  ((List.range 78).filter fun d => if rms < target then within001 (g + d) g else decide (d ≤ g) && within001 g (g - d)).length - 1

/-- AGC_SLOW_UPDATE (R111). -/
def execAgcSlowUpdate (c : Fin 2) (rms : List Nat) (s : State) : Host.Outcome State Fault Refusal :=
  .next (if isOn s (lineDom c.val) && getF s (F.AGC_MODE c.val) == 2 then
      each (List.range 4) (fun s i =>
        let g := getF s (F.AGC_GAIN c.val i)
        let t := getF s (F.AGC_TARGET c.val)
        drew (setF s (F.AGC_GAIN c.val i) (slowGain g t (rms.getD i 0) (draw s (slowBound g t (rms.getD i 0) + 1))))) s
    else s)

/-- AGC_FAST_UPDATE (R111). -/
def execAgcFastUpdate (c : Fin 2) (rms : List Nat) (s : State) : Host.Outcome State Fault Refusal :=
  .next (if isOn s (lineDom c.val) && getF s (F.AGC_MODE c.val) == 0 then
      each (List.range 4) (fun s i =>
        let g := getF s (F.AGC_GAIN c.val i)
        drew (setF s (F.AGC_GAIN c.val i)
          (fastGain g (getF s (F.AGC_TARGET c.val)) (rms.getD i 0) (draw s 2)))) s
    else s)

/-- AGC_REPLACEMENT_END (R113). -/
def execAgcReplacementEnd (c : Fin 2) (s : State) : Host.Outcome State Fault Refusal :=
  .next (if s.rx.agcRep.contains c.val then
      agcUpdate c.val { s with rx := { s.rx with agcRep := s.rx.agcRep.filter (· != c.val) } }
    else s)

/-! ### Header checks (R118, R119) -/

/-- A header's fields. -/
structure Hdr where
  sc  : Nat
  tag : Nat
  fur : Nat
  ep  : Nat
  crc : Bool
deriving DecidableEq, Repr

/-- The fields of decided header bits (03 R77). -/
def hdrOf (h : HdrSc) : Hdr :=
  let x := h.bits.toNat
  ⟨h.sc, bitsOf x 64 32, bitsOf x 32 32, bitsOf x 16 16, crc16 (bitsMsb 80 (x / 65536)) == x % 65536⟩

/-- The headers of a unit's range. -/
def unitHdrs (s : State) (c u : Nat) (hdr : List HdrSc) : List Hdr :=
  (unitScs s c u).filterMap fun k => (hdr.map hdrOf).find? fun h => h.sc == k

/-- Condition 2 of R118: waived where `free`, or where the subcarrier has no previous passing FURLONG (DEDUCED, log
45). -/
def furOk (x : AcqU) (free : Bool) (h : Hdr) : Bool :=
  free || match tfind x.lastFur h.sc with
    | some f => h.fur == (f + 1) % 2 ^ 32
    | none => true

/-- The FURLONG and TAG that most of the headers share, the lowest subcarrier's on a tie. -/
def hdrClass (hs : List Hdr) : Option (Nat × Nat) :=
  (hs.foldl (fun best h =>
    let n := (hs.filter fun k => k.fur == h.fur && k.tag == h.tag).length
    match best with
    | some (m, _) => if m < n then some (n, (h.fur, h.tag)) else best
    | none => some (n, (h.fur, h.tag))) (none : Option (Nat × (Nat × Nat)))).map (·.2)

/-- Condition 4 of R118: the headers that agree (DEDUCED: the largest set that does, log 45). -/
def agree (hs : List Hdr) : List Hdr :=
  match hdrClass hs with
  | some (f, t) => hs.filter fun h => h.fur == f && h.tag == t
  | none => []

/-- The subcarriers' headers that pass R118. -/
def passing (x : AcqU) (free : Bool) (tagOk : Nat → Bool) (hs : List Hdr) : List Hdr :=
  agree (hs.filter fun h => h.crc && furOk x free h && tagOk h.tag)

/-- At least ceil(S/2) (R119). -/
def enough (n size : Nat) : Bool := decide ((size + 1) / 2 ≤ n)

/-- The group check (R119): masked subcarriers count as failing. -/
def groupPass (s : State) (c u : Nat) (ps : List Hdr) : Bool :=
  enough (ps.filter fun h => !bitOf (getF s (F.RX_SC_MASK c)) h.sc).length (getF s (F.SC_COUNT c u))

/-- The FURLONG each subcarrier is taken to have had at this header (missed headers count). -/
def advanceFur (t : Tab Nat) (ps : List Hdr) : Tab Nat :=
  ps.foldl (fun t h => tput t h.sc h.fur) (t.map fun e => (e.1, (e.2 + 1) % 2 ^ 32))

/-! ### Equaliser taps (05 R144-R149) -/

/-- Set the taps of a subcarrier to the identity. -/
def resetTaps (s : State) (c u k : Nat) : State :=
  { s with rx := { s.rx with taps := tset s.rx.taps (scKey c k) (identTaps (getF s (F.NTAPS c u))) [] } }

/-- A subcarrier's equaliser is re-initialised: its LLRs are zero until its next header (R146; 12 R313). -/
def tapRestart (c u : Nat) (s : State) (k : Nat) : State :=
  let s := satF (resetTaps s c u k) (F.EQ_REINIT_CNT c u) 1
  { s with rx := { s.rx with mute := s.rx.mute.filter (· != scKey c k) ++ [scKey c k] } }

/-- The effective tap count at the level in force (R148). -/
def effTaps (s : State) (c u : Nat) : Nat :=
  let n := getF s (F.NTAPS c u)
  let e := getF s F.THR_E
  if e = 0 then n else if e = 1 then min n 11 else min n 7

/-- Taps for `n` positions from those for `o`, the centre kept: positions that are new are zero (DEDUCED, log 115). -/
def refit (o n : Nat) (ts : List Int) : List Int :=
  (List.range n).flatMap fun t =>
    let j := t + (o - 1) / 2
    (List.range 8).map fun i => if (n - 1) / 2 ≤ j ∧ j - (n - 1) / 2 < o then ts.getD (8 * (j - (n - 1) / 2) + i) 0 else 0

/-- A commit has changed NTAPS of a unit from `o`: the taps of its subcarriers take the new length. -/
def refitTaps (c u o : Nat) (s : State) : State :=
  let n := getF s (F.NTAPS c u)
  if n = o then s
  else
    let ks := ((unitScs s c u).map (32 * c + ·)).filter fun k => (tfind s.rx.taps k).isSome
    { s with rx := { s.rx with taps := ks.foldl (fun t k => tset t k (refit o n (tget t k [])) []) s.rx.taps } }

/-- The unmasked subcarriers of a unit. -/
def openScs (s : State) (c u : Nat) : List Nat := (unitScs s c u).filter fun k => !bitOf (getF s (F.RX_SC_MASK c)) k

/-- The nearest of a list of subcarriers, the lower on a tie (R147). -/
def nearest (ks : List Nat) (k : Nat) : Option Nat :=
  ks.foldl (fun best j =>
    let d := (j - k) + (k - j)
    match best with
    | some b => if d < (b - k) + (k - b) then some j else best
    | none => some j) none

/-- The unit and state whose range holds a subcarrier. -/
def stayUnit (s : State) (c k : Nat) : Option Nat :=
  (scGroup s c k).bind fun u => if 4 ≤ getF s (F.ACQ_STATE c u) then some u else none

/-- A subcarrier adapts on known symbols only: its unit is in ALIGN, or it was unmasked since its last header (R145, R147). -/
def adaptsOnKnown (s : State) (c u k : Nat) : Bool :=
  getF s (F.ACQ_STATE c u) == 4 || s.rx.early.contains (scKey c k)

/-- The error of one polarisation's output: against the known point or, where payload counts too, the decision taken after phase
recovery, turned to the phase that the output has before it. -/
def eqError (s : State) (x : CwCfg) (c u k p : Nat) (y : Cx) (r : Int × Cx) : Cx :=
  let ref := match knownPoint s c u k p r.1 with
    | some a => some a
    | none => if adaptsOnKnown s c u k then none else some (decide1 s x c u k p r.1 r.2)
  match ref with
  | some a => cxMul (cxSub a r.2) (cxDiv y r.2)
  | none => cxZero

/-- The taps of a subcarrier. -/
def scTaps (s : State) (c u k : Nat) : List Int := tget s.rx.taps (scKey c k) (identTaps (getF s (F.NTAPS c u)))

/-- Tap positions dropped at each end (R148). -/
def dropped (s : State) (c u : Nat) : Nat := (getF s (F.NTAPS c u) - getF s (F.NTAPS_EFF c u)) / 2

/-- The errors of both outputs over a block of up to 64 symbols, from samples after the Fathom subtraction. -/
def lmsErrors (s : State) (c u k : Nat) (y : RxSyms) : List (Cx × Cx) :=
  let g := unitKey c u
  let n := getF s (F.NTAPS c u)
  let ps := rxPoints s g k y
  (List.range (min 64 (symCount n y))).map fun i =>
    let o := eqOut (scTaps s c u k) n (dropped s c u) y.xs y.ys i
    (eqError s (rxCwCfg s c k g) c u k 0 o.1 (ps.1.getD i (0, cxZero)), eqError s (rxCwCfg s c k g) c u k 1 o.2 (ps.2.getD i (0, cxZero)))

/-- The sum of the output's errors times the conjugates of the input, for one tap position of one path. -/
def lmsStep (n : Nat) (errs : List (Cx × Cx)) (y : RxSyms) (t path : Nat) : Cx :=
  cxSum (errs.zipIdx.map fun e =>
    cxMul (if path / 2 = 0 then e.1.1 else e.1.2) (cxConj (tapInput n e.2 t (if path % 2 = 0 then y.xs else y.ys))))

/-- Least mean squares (R145): every tap in use takes 2^-EQ_MU of its step; dropped taps hold (R148). -/
def lmsTaps (s : State) (c u k : Nat) (y : RxSyms) : List Int :=
  let n := getF s (F.NTAPS c u)
  let y := subtractFathom s (unitKey c u) k n y
  let errs := lmsErrors s c u k y
  (scTaps s c u k).zipIdx.map fun e =>
    let t := e.2 / 8
    if dropped s c u ≤ t ∧ t < n - dropped s c u then
      let v := lmsStep n errs y t (e.2 % 8 / 2)
      e.1 + rdiv (if e.2 % 2 = 0 then v.re else v.im) (2 ^ getF s (F.EQ_MU c u))
    else e.1

/-- EQ_TAP_UPDATE (R145). -/
def execEqTapUpdate (c : Fin 2) (sc : Fin 32) (syms : RxSyms) (s : State) : Host.Outcome State Fault Refusal :=
  .next (match stayUnit s c.val sc.val with
    | none => s
    | some u => { s with rx := { s.rx with taps := tset s.rx.taps (scKey c.val sc.val) (lmsTaps s c.val u sc.val syms) [] } })

/-! ### Acquisition -/

/-- A limit of the scan, in ps/nm. -/
def cdMin (s : State) (c u : Nat) : Int := 4 * getS s (F.CD_MIN c u)
/-- A limit of the scan, in ps/nm. -/
def cdMax (s : State) (c u : Nat) : Int := 4 * getS s (F.CD_MAX c u)

/-- Enter CD_SCAN: the trial D is CD_MIN (R121). -/
def enterScan (c u : Nat) (s : State) : State :=
  let s := unitLeave c u 1 s
  setUnit s c u { unitAt s c u with trialD := cdMin s c u }

/-- UNIT_ENABLED (R120). -/
def execUnitEnabled (c : Fin 2) (u : Fin 16) (s : State) : Host.Outcome State Fault Refusal :=
  .next (if unitAble s c.val u.val && getF s (F.ACQ_STATE c.val u.val) == 0 then enterScan c.val u.val s else s)

/-- UNIT_DISABLED (R120). -/
def execUnitDisabled (c : Fin 2) (u : Fin 16) (s : State) : Host.Outcome State Fault Refusal :=
  .next (if unitAble s c.val u.val then s else settle (unitIdle c.val u.val s))

/-- Start the search timer: SEARCH_TIMEOUT is read here. -/
def searchStart (c u : Nat) (s : State) : State :=
  setUnit s c u { unitAt s c u with timer := some (getF s (F.SEARCH_TIMEOUT c)) }

/-- CD_SCAN_STEP (R121). -/
def execCdScanStep (c : Fin 2) (u : Fin 16) (peakD : Int) (s : State) : Host.Outcome State Fault Refusal :=
  let x := unitAt s c.val u.val
  .next (if getF s (F.ACQ_STATE c.val u.val) != 1 then s
    else if x.trialD < cdMax s c.val u.val then
      setUnit s c.val u.val { x with trialD := min (x.trialD + 500) (cdMax s c.val u.val) }
    else
      let s := setS s (F.D_EST c.val u.val) (clampI (-51000) 51000 peakD)
      searchStart c.val u.val (unitLeave c.val u.val 2 s))

/-- A peak becomes the candidate: FOFF and POWER are recorded; `later` are the peaks reported after it. -/
def setCand (c u : Nat) (p : Peak) (later : List (Peak × List HdrSc)) (s : State) : State :=
  let s := setS (setS s (F.FOFF c u) p.foff) (F.ACQ_POWER c u) (peakPower s c u p)
  setUnit s c u { unitAt s c u with
    cand := some p, passes := 0, retained := later, first := true, lastFur := [], prevEp := none, prevFur := none,
    passFur := none, foffHz := p.foff * 1000000, timing := p.timing, rate := 0 }

/-- CANDIDATE_DECLARED (R121). -/
def execCandidateDeclared (c : Fin 2) (u : Fin 16) (peak : Peak) (s : State) : Host.Outcome State Fault Refusal :=
  .next (if getF s (F.ACQ_STATE c.val u.val) == 2 && decide (getF s (F.ACQ_THR c.val) ≤ peakLam s c.val u.val peak) then
      agcUpdate c.val (setF (setCand c.val u.val peak [] s) (F.ACQ_STATE c.val u.val) 3)
    else s)

/-- A new candidate's own header counts as its first check if it passed R119. -/
def firstCheck (c u : Nat) (hdr : List HdrSc) (s : State) : State :=
  let x := unitAt s c u
  let ps := passing x true (expected s c u) (unitHdrs s c u hdr)
  match ps with
  | h :: _ =>
    if groupPass s c u ps then
      setUnit s c u { x with
        passes := 1, first := false, lastFur := advanceFur [] ps, prevEp := some h.ep, prevFur := some h.fur }
    else s
  | [] => s

/-- Another unit of the carrier is in VERIFY, ALIGN or CARRY. -/
def othersBusy (s : State) (c u : Nat) : Bool :=
  (List.range 16).any fun v => v != u && decide (3 ≤ getF s (F.ACQ_STATE c v))

/-- A replacement in VERIFY: R113 lets the AGC run in FAST. -/
def replaceCand (c u : Nat) (p : Peak) (hdr : List HdrSc) (s : State) : State :=
  let s := firstCheck c u hdr (setCand c u p [] s)
  if othersBusy s c u then s
  else setF { s with rx := { s.rx with agcRep := s.rx.agcRep.filter (· != c) ++ [c] } } (F.AGC_MODE c) 0

/-- An intruder (R123), and its report (07 R197). -/
def intruder (c : Fin 2) (u : Fin 16) (tag : Nat) (power : Int) (s : State) : State :=
  let x := unitAt s c.val u.val
  let known := (tfind x.intr tag).isSome
  let s := setUnit s c.val u.val { x with intr := tput x.intr tag 0 }
  if known then s
  else
    let s := setS (setF s (F.INTR_TAG c.val u.val) tag) (F.INTR_POWER c.val u.val) power
    peerReport c.val u.val tag true (detect (.rx c) 5 u.val s)

/-- A peak of the second correlator in VERIFY (R121): it replaces the candidate, or is kept in the order of report. -/
def verifyPeak (c u : Nat) (peak : Peak) (hdr : List HdrSc) (s : State) : State :=
  let x := unitAt s c u
  match x.cand with
  | none => s
  | some cand =>
    if peakPower s c u cand + 30 ≤ peakPower s c u peak then replaceCand c u peak hdr s
    else if peakLam s c u peak < getF s (F.ACQ_THR c) then s
    else setUnit s c u { x with retained := x.retained ++ [(peak, hdr)] }

/-- SECOND_CORRELATOR_PEAK (R120, R121, R123): it reports peaks whose timing lies more than 64 symbols from that of the candidate
or of the carried signal. -/
def execSecondCorrelatorPeak (c : Fin 2) (u : Fin 16) (peak : Peak) (hdr : List HdrSc) (s : State) :
    Host.Outcome State Fault Refusal :=
  let st := getF s (F.ACQ_STATE c.val u.val)
  .next (if timingGap peak.timing (unitAt s c.val u.val).timing ≤ 64 then s
    else if st = 3 then verifyPeak c.val u.val peak hdr s
    else if 4 ≤ st then
      let ps := agree ((unitHdrs s c.val u.val hdr).filter (·.crc))
      match ps with
      | h :: _ =>
        if enough ps.length (getF s (F.SC_COUNT c.val u.val)) ∧ h.tag ≠ getF s (F.ACQ_TAG c.val u.val) ∧
            getS s (F.ACQ_POWER c.val u.val) + 5 ≤ peakPower s c.val u.val peak then
          intruder c u h.tag (peakPower s c.val u.val peak) s
        else s
      | [] => s
    else s)

/-- SEARCH_TIMEOUT (R121). -/
def execSearchTimeout (c : Fin 2) (u : Fin 16) (s : State) : Host.Outcome State Fault Refusal :=
  let st := getF s (F.ACQ_STATE c.val u.val)
  .next (if (st = 2 ∨ st = 3) ∧ (unitAt s c.val u.val).timer.isSome then enterScan c.val u.val s else s)

/-! ### A header (R119-R126) -/

/-- Reset the bank of a group (06 R171), while FEC is on. -/
def resetBank (g : Nat) (s : State) : State := if isOn s 8 then setF s (F.FEC_BANK g) 0 else s

/-- Entry into ALIGN: three headers verified (R121), with what other chapters tie to it (05 R139, R145; 06 R171; 07
R198). -/
def enterAlign (c : Fin 2) (u : Fin 16) (tag : Nat) (s : State) : State :=
  let g := unitKey c.val u.val
  let x := unitAt s c.val u.val
  let s := setFs s [(F.ACQ_TAG c.val u.val, tag), (F.ACQ_STATE c.val u.val, 4), (F.NTAPS_EFF c.val u.val, effTaps s c.val u.val)]
  let s := setUnit s c.val u.val { x with timer := none, retained := [], fails := 0, unexp := none }
  let s := each (unitScs s c.val u.val) (fun s k => resetTaps s c.val u.val k) (agcUpdate c.val s)
  let s := fthAlign g tag (resetBank g s)
  arrive c.val u.val tag (detect (.rx c) 1 u.val s)

/-- A codeword run begins on every subcarrier of a unit with the furlong of its last header (03 R81): no codeword is in progress. -/
def runBegins (c u : Nat) (s : State) : State :=
  let ks := (unitScs s c u).map (scKey c)
  let x := unitAt s c u
  let s := setUnit s c u { x with runFur := x.prevFur.getD 0 }
  { s with
    rx := { s.rx with slipped := s.rx.slipped.filter fun k => !ks.contains k }
    fec := { s.fec with
      runMark := s.fec.runMark.filter (fun k => !ks.contains k) ++ ks, runPos := tkeep (fun k => !ks.contains k) s.fec.runPos } }

/-- The firkins that a group's subcarriers carry. -/
def grpFirkins (s : State) (g : Nat) : List Nat :=
  (s.fec.rxLine.filter fun e => e.2 != 0 && (e.2 - 1) / 32 == g).map (·.1)

/-- Entry into CARRY: delivery starts; E of the group's firkins is undefined (06 R179). -/
def enterCarry (c u : Nat) (s : State) : State :=
  let fs := grpFirkins s (unitKey c u)
  let s := { s with fec := { s.fec with expect := tkeep (fun f => !fs.contains f) s.fec.expect } }
  runBegins c u (setF s (F.ACQ_STATE c u) 5)

/-- A failure in VERIFY (R122, R124). Where its subcarriers carry different unexpected tags the lowest one's counts: the spec does
not say which (DESIGN CHOICE, log 125). -/
def verifyFail (c : Fin 2) (u : Fin 16) (hs : List Hdr) (s : State) : State :=
  let x := unitAt s c.val u.val
  match hs.find? fun h => h.crc && furOk x x.first h && !expected s c.val u.val h.tag with
  | some h =>
    let s := setF (setUnit s c.val u.val { x with unexp := some h.tag }) (F.UNEXP_TAG c.val u.val) h.tag
    peerReport c.val u.val h.tag false (if x.unexp = some h.tag then s else detect (.rx c) 3 u.val s)
  | none => detect (.rx c) 2 u.val (addF s (F.RX_FALSE_CNT c.val) 1)

/-- The strongest of the retained peaks, the first of equals, with the peaks reported after it. -/
def strongest (s : State) (c u : Nat) : List (Peak × List HdrSc) → Option ((Peak × List HdrSc) × List (Peak × List HdrSc))
  | [] => none
  | p :: ps =>
    match strongest s c u ps with
    | some (q, later) => if peakPower s c u p.1 < peakPower s c u q.1 then some (q, later) else some (p, ps)
    | none => some (p, [])

/-- A header in VERIFY. Where the passing subcarriers differ in EPOCH, the lowest one's counts as the group's: the spec does not say
which (DESIGN CHOICE, log 125). -/
def verifyHeader (c : Fin 2) (u : Fin 16) (hdr : List HdrSc) (s : State) : State :=
  let x := unitAt s c.val u.val
  let hs := unitHdrs s c.val u.val hdr
  let ps := passing x x.first (expected s c.val u.val) hs
  match groupPass s c.val u.val ps, ps with
  | true, h :: _ =>
    let carry := h.fur % 256 == 0 || (x.prevEp.isSome && x.prevEp != some h.ep)
    let s := setUnit s c.val u.val { x with
      passes := x.passes + 1, first := false, retained := [], lastFur := advanceFur x.lastFur ps,
      prevEp := some h.ep, prevFur := some h.fur, passFur := some h.fur }
    if x.passes + 1 < 3 then s
    else onlyIf carry (enterCarry c.val u.val) (enterAlign c u h.tag s)
  | _, _ =>
    let s := verifyFail c u hs s
    match strongest s c.val u.val x.retained with
    | some (p, later) => firstCheck c.val u.val p.2 (setCand c.val u.val p.1 later s)
    | none => unitLeave c.val u.val 2 s

/-- Mask and unmask one subcarrier by whether it passed (R126; 05 R147): one unmasked delivers again with the next codeword
that begins, and adapts on known symbols until its next header. With no other subcarrier of the unit unmasked it starts from the
identity: the spec names no other taps (DESIGN CHOICE, log 123). -/
def maskStep (c : Fin 2) (u : Fin 16) (pass : List Nat) (s : State) (k : Nat) : State :=
  let x := unitAt s c.val u.val
  let ok := pass.contains k
  let fr := if ok then 0 else tget x.failRun k 0 + 1
  let pr := if ok then tget x.passRun k 0 + 1 else 0
  let m := getF s (F.RX_SC_MASK c.val)
  let x := { x with failRun := tset x.failRun k fr 0, passRun := tset x.passRun k pr 0 }
  if !bitOf m k ∧ 4 ≤ fr then
    let s := setF s (F.RX_SC_MASK c.val) (m + 2 ^ k)
    if x.staySeen.contains k then setUnit s c.val u.val x
    else detect (.rx c) 6 k (setUnit s c.val u.val { x with staySeen := x.staySeen ++ [k] })
  else if bitOf m k ∧ 2 ≤ pr then
    let from_ := nearest (openScs s c.val u.val) k
    let s := setF (setUnit s c.val u.val x) (F.RX_SC_MASK c.val) (m - 2 ^ k)
    let key := scKey c.val k
    let s := { s with rx := { s.rx with
      slipped := s.rx.slipped.filter (· != key) ++ [key], early := s.rx.early.filter (· != key) ++ [key] } }
    match from_ with
    | some j => { s with rx := { s.rx with taps := tset s.rx.taps key (tget s.rx.taps (scKey c.val j) []) [] } }
    | none => resetTaps s c.val u.val k
  else setUnit s c.val u.val x

/-- The largest drift that a header takes into FOFF: 50 MHz/ms over the 4.369 µs of a furlong, in Hz (R151). -/
def driftLimit : Int := 218453

/-- FOFF follows the mean drift of the unit's subcarriers (R151). -/
def foffStep (c u : Nat) (meas : HdrMeas) (s : State) : State :=
  let ds := (meas.drift.filter fun d => (unitScs s c u).contains d.1).map (·.2)
  let x := unitAt s c u
  let hz := x.foffHz + (if ds.isEmpty then 0 else clampI (-driftLimit) driftLimit (rdiv ds.sum ds.length))
  setS (setUnit s c u { x with foffHz := hz }) (F.FOFF c u) (rdiv hz 1000000)

/-- EQ_DELAY of each subcarrier and D_RES of the unit from the taps (R149). -/
def delayStep (c u : Nat) (s : State) : State :=
  let n := getF s (F.NTAPS c u)
  let s := each (unitScs s c u) (fun s k => setS s (F.EQ_DELAY c k) (fxRound (20 * centroid (scTaps s c u k) n))) s
  let ks := openScs s c u
  let slope := delaySlope (ks.map fun k => (k, centroid (scTaps s c u k) n))
  setS s (F.D_RES c u) (if 2 ≤ ks.length then residual slope (channelHz (getF s (F.LO_CHANNEL c))) else 0)

/-- A subcarrier whose centre matrix has collapsed starts again, and its LLRs are zero until its next header (R146). -/
def collapseStep (c u : Nat) (s : State) (k : Nat) : State :=
  if collapsed (scTaps s c u k) (getF s (F.NTAPS c u)) then tapRestart c u s k else s

/-- The per-header measurements (R146, R148, R149, R151). -/
def measStep (c u : Nat) (meas : HdrMeas) (s : State) : State :=
  let s := delayStep c u (foffStep c u meas s)
  setF (each (unitScs s c u) (collapseStep c u) s) (F.NTAPS_EFF c u) (effTaps s c u)

/-! ### What a quality interval gathers (05 R154-R159) -/

/-- Change what a subcarrier has gathered. -/
def setAcc (s : State) (key : Nat) (a : QAcc) : State := { s with rx := { s.rx with qAcc := tset s.rx.qAcc key a .zero } }

/-- Σ|r − x|² over pairs of reference and received points. -/
def errorSum (l : List (Cx × Cx)) : Int := (l.map fun e => cxAbs2 (cxSub e.2 e.1)).sum

/-- The header and pilot points among received ones, each with its known point. -/
def knownPairs (s : State) (c u k : Nat) (ps : List (Int × Cx) × List (Int × Cx)) : List (Cx × Cx) :=
  [0, 1].flatMap fun p => (if p = 0 then ps.1 else ps.2).filterMap fun e => (knownPoint s c u k p e.1).map fun a => (a, e.2)

/-- The header and pilot points of the symbols of one subcarrier: reference points of the interval, and of the estimate before the
first one. -/
def takeKnown (c u : Nat) (s : State) (e : Nat × RxSyms) : State :=
  let g := unitKey c u
  let key := scKey c e.1
  if !(unitScs s c u).contains e.1 then s
  else
    let cor := knownPairs s c u e.1 (corPoints s g e.1 e.2)
    let raw := knownPairs s c u e.1 (rxPoints s g e.1 e.2)
    let add (a : RefSum) : RefSum := cor.foldl (fun a p => RefSum.add a p.1 p.2) a
    let a := tget s.rx.qAcc key .zero
    let s := setAcc s key { a with known := add a.known, without := a.without + errorSum raw, withCor := a.withCor + errorSum cor }
    { s with rx := { s.rx with known := tset s.rx.known key (add (tget s.rx.known key .zero)) .zero } }

/-- Quality intervals start at multiples of their length; a new Q_AVG_LOG2 applies from the next boundary (R155,
R160). At a boundary the interval in progress is complete. -/
def intervalStep (c u fur : Nat) (s : State) : State :=
  let g := unitKey c u
  let len := tget s.rx.qLen g (getF s (F.Q_AVG_LOG2 c))
  if fur % 2 ^ len = 0 then
    let ks := (unitScs s c u).map (scKey c)
    let done := if (tfind s.rx.qLen g).isSome then
        ks.foldl (fun t k => tput t k (tget s.rx.qAcc k .zero)) s.rx.qDone
      else s.rx.qDone
    { s with rx := { s.rx with
      qLen := tput s.rx.qLen g (getF s (F.Q_AVG_LOG2 c)), qDone := done, qAcc := tkeep (fun k => !ks.contains k) s.rx.qAcc } }
  else s

/-- An intruder's tag that has gone undetected for 256 furlongs is forgotten (R123). -/
def ageIntruders (t : Tab Nat) : Tab Nat := (t.map fun e => (e.1, e.2 + 1)).filter fun e => decide (e.2 < 256)

/-- What ends at a header of a unit: LLRs held at zero (05 R146), adaptation on known symbols only (05 R147), the symbol timing that
a slip took (01 R32); the Fathom level in force takes effect (05 R136). -/
def headerFresh (c u : Nat) (meas : HdrMeas) (s : State) : State :=
  let ks := (unitScs s c u).map (scKey c)
  let x := unitAt s c u
  let s := setUnit s c u { x with timing := meas.timing, rate := clampI (-200) 200 meas.rate }
  let s := { s with rx := { s.rx with
    mute := s.rx.mute.filter (fun k => !ks.contains k), early := s.rx.early.filter (fun k => !ks.contains k),
    retime := s.rx.retime.filter (· != c), level := ks.foldl (fun t k => tset t k (getF s F.THR_F) 0) s.rx.level } }
  if isOn s 9 then setF s F.FTH_LEVEL (getF s F.THR_F) else s

/-- A furlong has passed for the intruders of a carrier's units that are outside ALIGN and CARRY (R123). -/
def ageAway (s : State) : State :=
  let away (k : Nat) : Bool := decide (getF s (F.ACQ_STATE (k / 16) (k % 16)) < 4)
  let age (e : Nat × AcqU) : Nat × AcqU := if away e.1 then (e.1, { e.2 with intr := ageIntruders e.2.intr }) else e
  { s with rx := { s.rx with unit := s.rx.unit.map age } }

/-- LOS (R121). -/
def loseSignal (c : Fin 2) (u : Fin 16) (s : State) : State :=
  searchStart c.val u.val (settle (unitLeave c.val u.val 2 (detect (.rx c) 4 u.val s)))

/-- A header in ALIGN or CARRY. At an anchor D_EST moves by the D_RES that the header before showed, and D_RES is updated at the same
header: the spec does not order the two (DESIGN CHOICE, log 124). -/
def stayHeader (c : Fin 2) (u : Fin 16) (hdr : List HdrSc) (meas : HdrMeas) (s : State) : State :=
  let x := unitAt s c.val u.val
  let tag := getF s (F.ACQ_TAG c.val u.val)
  let ps := passing x false (· == tag) (unitHdrs s c.val u.val hdr)
  let ok := groupPass s c.val u.val ps
  let ep := if ok then (ps.head?.map (·.ep)).orElse fun _ => x.prevEp else x.prevEp
  let fur := match ok, ps with
    | true, h :: _ => h.fur
    | _, _ => ((x.prevFur.getD 0) + 1) % 2 ^ 32
  let newEp := ok && x.prevEp.isSome && x.prevEp != ep
  let dres := getS s (F.D_RES c.val u.val)
  let s := each meas.syms (takeKnown c.val u.val) s
  let s := setUnit s c.val u.val { x with
    fails := if ok then 0 else x.fails + 1, lastFur := advanceFur x.lastFur ps, prevEp := ep, prevFur := some fur,
    passFur := if ok then some fur else x.passFur,
    intr := ageIntruders x.intr }
  let s := each (unitScs s c.val u.val) (maskStep c u (ps.map (·.sc))) (headerFresh c.val u.val meas s)
  let s := intervalStep c.val u.val fur (measStep c.val u.val meas s)
  let begins := fur % 256 == 0 || newEp
  if 8 ≤ x.fails + 1 ∧ !ok then loseSignal c u s
  else if getF s (F.ACQ_STATE c.val u.val) = 4 then onlyIf (ok && begins) (enterCarry c.val u.val) s
  else
    let d := F.D_EST c.val u.val
    let s := onlyIf (fur % 256 == 0) (fun s => setS s d (clampI (-51000) 51000 (getS s d + clampI (-50) 50 dres))) s
    onlyIf begins (runBegins c.val u.val) s

/-- The receive-side perches of the zone that serve the groups of a list switch. -/
def groupsSwitch (z : Nat) (gs : List Nat) (ct : ZContent) (s : State) : State := if z = 2 then fathomSwitch gs ct s else s

/-- A header of unit `u` of carrier `c` arrives: its stream's perches switch in every zone that waits for it (R60). -/
def headerSwitch (c u : Nat) (s : State) : State :=
  let g := unitKey c u
  each [0, 1, 2] (fun s z =>
    match (zoneAt s z).copied with
    | some p =>
      if (zoneAt s z).waits.contains g then
        let s := groupsSwitch z [g] p.content s
        setZone s z { zoneAt s z with waits := (zoneAt s z).waits.filter (· != g) }
      else s
    | none => s) s

/-- A unit whose carrier a Grave fault stopped while its header was worked on ends in IDLE (11 R297). -/
def headerEnd (c u : Nat) (was s : State) : State :=
  if s.lp.stopped.contains c && !was.lp.stopped.contains c then unitLeave c u 0 (unitQuiet c u s) else s

/-- RX_HEADER (R119). -/
def execRxHeader (c : Fin 2) (u : Fin 16) (hdr : List HdrSc) (meas : HdrMeas) (s : State) :
    Host.Outcome State Fault Refusal :=
  let st := getF s (F.ACQ_STATE c.val u.val)
  .next (headerEnd c.val u.val s
    (let s := headerSwitch c.val u.val s
     if st = 3 then verifyHeader c u hdr s else if 4 ≤ st then stayHeader c u hdr meas s else s))

/-! ### Quality intervals (05 R155-R159) -/

/-- More than 1/16 of the codewords failed (R156). -/
def QAcc.pilotOnly (a : QAcc) : Bool := decide (a.cws < 16 * a.fails)

/-- The reference points of an interval (R156). -/
def QAcc.refs (a : QAcc) : RefSum := if QAcc.pilotOnly a then a.known else RefSum.join a.known a.data

/-- An estimator's error within what R158 allows it, with Q_AVG_LOG2 at 8 or more; where R158 states no bound it is as it is. -/
def snrError (long po : Bool) (snr e : Int) : Int :=
  if !long ∨ snr < 300 then e
  else if po then (if snr ≤ 1800 then clampI (-30) 30 e else e)
  else if snr ≤ 2200 then clampI (-10) 10 e
  else if snr ≤ 2800 then clampI (-30) 30 e
  else e

/-- SNR of a subcarrier in 0.01 dB. -/
def scSnr (long : Bool) (a : QAcc) (q : QSample) : Int :=
  let snr := RefSum.snr (QAcc.refs a)
  snr + snrError long (QAcc.pilotOnly a) snr q.snrErr

/-- GMI of a subcarrier in 2^-12 bit per pol-symbol. -/
def scGmi (long : Bool) (x : CwCfg) (a : QAcc) (q : QSample) : Nat :=
  if QAcc.pilotOnly a then 0
  else
    let v := fxRound (4096 * (infoMax x - (if a.pols = 0 then 0 else a.info / (a.pols : Int))))
    let snr := RefSum.snr (QAcc.refs a)
    (v + (if long && decide (300 ≤ snr) && decide (snr ≤ 2200) then clampI (-81) 81 q.gmiErr else q.gmiErr)).toNat

/-- What the estimators bring for a subcarrier. -/
def sampleOf (qs : List QSample) (k : Nat) : QSample := (qs.find? fun q => q.sc == k).getD ⟨k, 1, 0, 0⟩

/-- One subcarrier's interval (R156, R157). -/
def scInterval (c u : Nat) (long : Bool) (qs : List QSample) (s : State) (k : Nat) : State :=
  let a := tget s.rx.qDone (scKey c k) .zero
  let q := sampleOf qs k
  let snr := scSnr long a q
  let s := setS s (F.SC_SNR c k) snr
  let s := setFs s [(F.SC_GMI c k, scGmi long (rxCwCfg s c k (unitKey c u)) a q), (F.SC_EVM c k, evmOf snr),
    (F.SC_PILOT_ONLY c k, if QAcc.pilotOnly a then 1 else 0), (F.SC_VALID c k, 1)]
  let s := addF s (F.SC_Q_SEQ c k) 1
  if QAcc.pilotOnly a then s else addF (addF s (F.BER_ERR c u) a.errs) (F.BER_BITS c u) a.bits

/-- A mean weighted by power. -/
def weighted (l : List (Nat × Int)) : Int := rdiv ((l.map fun e => (e.1 : Int) * e.2).sum) ((l.map (·.1)).sum)

/-- GAIN in 0.01 dB (R159). -/
def gainOf (without withCor : Int) : Int :=
  if without ≤ 0 ∨ withCor ≤ 0 then 0 else fxRound (1000 * fxLog10 (fxDiv without withCor))

/-- The logarithm of an interval's BER in 2^-8 decade, −8 decades for none (13 R337). -/
def logBer (errs bits : Nat) : Int :=
  if errs = 0 ∨ bits = 0 then -2048 else max (fxRound (256 * fxLog10 (fxRat errs bits))) (-2048)

/-- The samples of a unit's interval to the histograms (13 R337). -/
def unitHist (g : Nat) (snr : Int) (gmi : Nat) (ber : Int) (s : State) : State :=
  let (i0, w0) := tget s.rx.qPrev g (0, 0)
  let i1 := getF s (F.FEC_ITER g)
  let w1 := getF s (F.FEC_CW g)
  let s := histSample g snr snr 50 s
  let s := histSample (32 + g) gmi (10 * gmi) 4096 s
  let s := histSample (64 + g) ber (ber + 2048) 32 s
  let it := ((i1 - i0) * 256 / (w1 - w0) : Nat)
  let s := if w0 < w1 then histSample (96 + g) it it 128 s else s
  { s with rx := { s.rx with qPrev := tset s.rx.qPrev g (i1, w1) (0, 0) } }

/-- A unit has an interval that is complete and not yet shown. -/
def intervalDone (s : State) (c u : Nat) : Bool := (unitScs s c u).any fun k => (tfind s.rx.qDone (scKey c k)).isSome

/-- What the subcarriers of a unit gathered over its complete interval. -/
def unitAccs (s : State) (c u : Nat) : List (Nat × QAcc) := (unitScs s c u).map fun k => (k, tget s.rx.qDone (scKey c k) .zero)

/-- The unit's interval is 2^8 furlongs or more (R158). -/
def longInterval (s : State) (c u : Nat) : Bool := decide (8 ≤ tget s.rx.qLen (unitKey c u) 0)

/-- SNR of the unit: the mean over its subcarriers weighted by their power (R157). -/
def unitSnr (s : State) (c u : Nat) (scs : List QSample) : Int :=
  weighted ((unitAccs s c u).map fun e =>
    ((sampleOf scs e.1).power, scSnr (longInterval s c u) e.2 (sampleOf scs e.1)))

/-- GMI of the unit. -/
def unitGmi (s : State) (c u : Nat) (scs : List QSample) : Nat :=
  (weighted ((unitAccs s c u).map fun e => ((sampleOf scs e.1).power,
    (scGmi (longInterval s c u) (rxCwCfg s c e.1 (unitKey c u)) e.2 (sampleOf scs e.1) : Int)))).toNat

/-- GAIN of the unit's group (R159), with the estimate's error. -/
def unitGain (s : State) (c u : Nat) (q : QUnit) : Int :=
  gainOf ((unitAccs s c u).map (·.2.without)).sum ((unitAccs s c u).map (·.2.withCor)).sum +
    (if longInterval s c u then clampI (-10) 10 q.gainErr else q.gainErr)

/-- Bit errors and bits of the unit's interval: subcarriers with PILOT_ONLY 1 count none (R156). -/
def unitBits (s : State) (c u : Nat) : Nat × Nat :=
  let l := (unitAccs s c u).filter fun e => !QAcc.pilotOnly e.2
  ((l.map (·.2.errs)).sum, (l.map (·.2.bits)).sum)

/-- QUALITY_INTERVAL_END (R155): a complete interval of a unit in ALIGN or CARRY becomes visible. -/
def execQualityIntervalEnd (c : Fin 2) (u : Fin 16) (q : QUnit) (scs : List QSample) (s : State) :
    Host.Outcome State Fault Refusal :=
  let g := unitKey c.val u.val
  let ks := unitScs s c.val u.val
  let snr := unitSnr s c.val u.val scs
  let gmi := unitGmi s c.val u.val scs
  let gain := unitGain s c.val u.val q
  let ber := unitBits s c.val u.val
  let pilotOnly := if (unitAccs s c.val u.val).any (fun e => QAcc.pilotOnly e.2) then 1 else 0
  .next (if getF s (F.ACQ_STATE c.val u.val) < 4 ∨ !intervalDone s c.val u.val then s
    else
      let s := each ks (scInterval c.val u.val (longInterval s c.val u.val) scs) s
      let s := setS s (F.U_SNR c.val u.val) snr
      let s := setFs s [(F.U_GMI c.val u.val, gmi), (F.U_PILOT_ONLY c.val u.val, pilotOnly), (F.U_VALID c.val u.val, 1)]
      let s := addF s (F.U_Q_SEQ c.val u.val) 1
      let s := if isOn s 9 then setS s (F.FTH_GAIN g) gain else s
      let s := unitHist g snr gmi (logBer ber.1 ber.2) s
      { s with rx := { s.rx with qDone := tkeep (fun k => !(ks.map (scKey c.val)).contains k) s.rx.qDone } })

end Sys2Proof.Machine
end

