-- ==== Sys2Proof/Machine/Fec.lean ====
section
/-! DEFINITION. The decoder pool, the outer code, the deframer, the firkins' receive queues and the client mappers (06). -/
namespace Sys2Proof.Machine

/-! ### Pool (R167-R172) -/

/-- AVG_EFF of a group, in 0.25 iterations (R170); 0 for a group with no code. -/
def avgEff (s : State) (g : Nat) : Nat :=
  let a := getF s (F.AVG_ITER g)
  if a = 0 then 0 else max 8 (a * (4 - getF s F.THR_V) / 4)

/-- BANK of a group. -/
def bank (s : State) (g : Nat) : Int := getS s (F.FEC_BANK g)

/-- Start an iteration on a codeword of a group (R171 item 3). -/
def debit (s : State) (g : Nat) : State := setS s (F.FEC_BANK g) (bank s g - 4)

/-- Replace a pool. -/
def setPool (s : State) (p : List Cw) : State := { s with fec := { s.fec with pool := p } }

/-- The codeword with an identity. -/
def cwAt (s : State) (id : Nat) : Option Cw := s.fec.pool.find? fun w => w.id == id

/-- Change the codeword with an identity. -/
def cwSet (s : State) (w : Cw) : State := setPool s (s.fec.pool.map fun v => if v.id = w.id then w else v)

/-- Engines at work. -/
def engines (s : State) : Nat := (s.fec.pool.filter fun w => w.phase == 1).length

/-- A deframer before its first run. -/
def Deframe.blank : Deframe := ⟨none, [], [], []⟩

/-- Count `n` draws. -/
def drewN (s : State) (n : Nat) : State := { s with freeCnt := s.freeCnt + n }

/-- Hard decisions: a positive value favours 0 (05 R152); what an exact zero decides is a free value (log 116). -/
def hardBits (s : State) (ls : List Int) : List (BitVec 192) :=
  bitsToBlocks (ls.zipIdx.map fun e => if e.1 = 0 then Config.freeValue (s.freeCnt + e.2) % 2 == 1 else decide (e.1 < 0))

/-- The tentative decisions of the symbols of a subcarrier (05 R132): one sample a symbol, the centre matrix, the phase estimate. -/
def tentative (s : State) (g k : Nat) (y : RxSyms) : List (Nat × Cx × Cx) :=
  let c := g / 16
  let u := g % 16
  let n := getF s (F.NTAPS c u)
  let m := centre (scTaps s c u k) n
  let x := rxCwCfg s c k g
  let raw (p : Nat) : List (Int × Cx) := (List.range (symCount n y)).map fun (i : Nat) =>
    (y.k0 + (i : Int), cxAdd (cxMul (m.getD p cxZero) (tapInput n i ((n - 1) / 2) y.xs)) (cxMul (m.getD (p + 1) cxZero) (tapInput n i ((n - 1) / 2) y.ys)))
  let one (p : Nat) : List Cx := (recover s x c u k p (raw (2 * p))).map fun e => decide1 s x c u k p e.1 e.2
  (List.zip (one 0) (one 1)).zipIdx.map fun e => (y.t0 + e.2, e.1)

/-- Hold decisions; those of more than 65,536 symbols ago are of no more use. -/
def holdDecisions (key t0 : Nat) (ds : List (Nat × Cx × Cx)) (s : State) : State :=
  let t := tkeep (fun t => decide (t0 ≤ t + 65536)) (tget s.rx.dec key [])
  { s with rx := { s.rx with dec := tset s.rx.dec key (ds.foldl (fun t d => tput t d.1 d.2) t) [] } }

/-- σ² of a subcarrier (05 R154): from its last complete interval, or from the headers and pilots since ALIGN entry. -/
def noiseVar (s : State) (c k : Nat) : Int :=
  if getB s (F.SC_VALID c k) then fxTen (fxRat (-(getS s (F.SC_SNR c k))) 1000)
  else fxDiv fxOne (RefSum.ratio (tget s.rx.known (scKey c k) .zero))

/-- The arrival times of the payload points of symbols. -/
def payloadTimes (n : Nat) (y : RxSyms) : List Nat :=
  (List.range (symCount n y)).flatMap fun (i : Nat) =>
    match symRole ((y.k0 + (i : Int)) % 32768).toNat with
    | .payload _ => [y.t0 + i, y.t0 + i]
    | _ => []

/-- The LLRs of the codeword that symbols carry (05 R146, R152-R154; 12 R312). -/
def demap (s : State) (g k num : Nat) (pts : List Cx) (poison : List Nat) : List Int :=
  let c := g / 16
  if s.rx.mute.contains (scKey c k) || bitOf (getF s (F.RX_SC_MASK c)) k then List.replicate 23040 0
  else dropPoison poison (cwLlrs (rxCwCfg s c k g) num (noiseVar s c k) pts)

/-- A codeword enters the pool (R167, R171 item 2); one of a masked subcarrier, or begun before its unmasking, and one in
progress at a slip are erased (01 R32; 04 R126; R175). -/
def enterPool (g k : Nat) (y : RxSyms) (poison : List Nat) (s : State) : State :=
  let c := g / 16
  let key := scKey c k
  let s := holdDecisions key y.t0 (tentative s g k y) s
  let first := s.fec.runMark.contains key
  let num := if first then 0 else tget s.fec.runPos key 0
  let er := s.rx.slipped.contains key || bitOf (getF s (F.RX_SC_MASK c)) k
  let pts := payloadPoints (corPoints s g k y)
  let llr := demap s g k num pts poison
  let post := llr.map llrQ
  let w : Cw := {
    id := s.fec.nextId, grp := g, sc := key, cfg := rxCwCfg s c k g, num := num, phase := 0, iter := 0, hard := hardBits s post,
    zero := false, erased := er, first := first, llr := llr, post := post, msgs := [], pts := pts,
    raw := payloadPoints (rxPoints s g k y), times := payloadTimes (getF s (F.NTAPS c (g % 16))) y }
  let s := drewN s 23040
  let s := { s with
    rx := { s.rx with slipped := if (tfind s.fab.bushel (6 * c)).any (·.slipping) then s.rx.slipped else s.rx.slipped.filter (· != key) }
    fec := { s.fec with
      nextId := s.fec.nextId + 1, pool := s.fec.pool ++ [w], runMark := s.fec.runMark.filter (· != key)
      runPos := tset s.fec.runPos key (num + 1) 0 } }
  let s := setS s (F.FEC_BANK g) (min (bank s g + avgEff s g) 1024)
  addF s (F.FEC_CW g) 1

/-- CODEWORD_ENTERS_POOL (R167): of a unit in CARRY. -/
def execCodewordEntersPool (g : Fin 32) (sc : Fin 32) (syms : RxSyms) (poison : List Nat) (s : State) :
    Host.Outcome State Fault Refusal :=
  let c := g.val / 16
  let u := g.val % 16
  .next (if isOn s 8 && getF s (F.ACQ_STATE c u) == 5 && (unitScs s c u).contains sc.val then
      enterPool g.val sc.val syms poison s
    else s)

/-- ENGINE_ASSIGN (R167): 48 engines; the oldest waiting codeword starts its first iteration. -/
def execEngineAssign (s : State) : Host.Outcome State Fault Refusal :=
  .next (match s.fec.pool.find? fun w => w.phase == 0 with
    | some w => if isOn s 8 && decide (engines s < 48) then debit (cwSet s { w with phase := 1 }) w.grp else s
    | none => s)

/-! ### Gap marks and queues (R178-R182) -/

/-- Per-firkin counter `c` (R191). -/
def firkinCount (s : State) (f c n : Nat) : State :=
  { s with fec := { s.fec with cnt := tset s.fec.cnt (4 * f + c) ((tget s.fec.cnt (4 * f + c) 0 + n) % 2 ^ 64) 0 } }

/-- The receive queue of a firkin. -/
def rxq (s : State) (f : Nat) : List QEnt := tget s.fec.rxq f []

/-- Set the receive queue of a firkin. -/
def setRxq (s : State) (f : Nat) (q : List QEnt) : State := { s with fec := { s.fec with rxq := tset s.fec.rxq f q [] } }

/-- Entries in use over all firkins. -/
def rxUsed (s : State) : Nat := s.fec.rxq.foldl (fun a e => a + e.2.length) 0

/-- Entries a firkin may still take (R182). -/
def rxFree (s : State) (f : Nat) : Nat := min (8 - (rxq s f).length) (32768 - rxUsed s)

/-- Set E of a firkin. -/
def setE (s : State) (f e : Nat) : State := { s with fec := { s.fec with expect := tput s.fec.expect f (e % 65536) } }

/-- How many of `n` LOST marks at position `e` the LOST run at the tail takes in (R182): a run holds 32,767 at most, and a
COMMIT mark directly behind it parts them. -/
def tailTakes (s : State) (f e n : Nat) : Nat :=
  match (rxq s f).reverse with
  | .gaps 1 g k :: _ =>
    let parted := (tfind s.fec.commit f).any fun m => m.1 == (rxq s f).length
    if (g + k) % 65536 = e ∧ !parted then min n (32767 - k) else 0
  | _ => 0

/-- The tail run longer by `m`. -/
def extendTail (q : List QEnt) (m : Nat) : List QEnt :=
  match q.reverse with
  | .gaps c g k :: rest => (QEnt.gaps c g (k + m) :: rest).reverse
  | _ => q

/-- Queue `n` LOST marks at `e`: in the tail run as far as it takes them, the rest in an entry of their own. -/
def pushLost (s : State) (f e n : Nat) : State :=
  let m := tailTakes s f e n
  let q := if m = 0 then rxq s f else extendTail (rxq s f) m
  let s := onlyIf (decide (m < n)) (reuseEntry 2) (firkinCount s f 1 n)
  setRxq s f (if m < n then q ++ [.gaps 1 ((e + m) % 65536) (n - m)] else q)

/-- Queue a DATA block, or the REMOTE mark of a GAP block. -/
def pushBlk (s : State) (b : Blk) : State :=
  let s := reuseEntry 2 s
  if b.typ = 0 then firkinCount (setRxq s b.firkin (rxq s b.firkin ++ [.block b])) b.firkin 0 1
  else firkinCount (setRxq s b.firkin (rxq s b.firkin ++ [.gaps 0 b.fseq 1])) b.firkin 1 1

/-- A block that finds no entry (R182). -/
def overflow (s : State) (f : Nat) : State := detect .fec 4 f (firkinCount s f 2 1)

/-- A DATA or GAP block arrives at its firkin (R179, R182); an undefined E is taken from it, whether it finds room or not. -/
def arriveBlk (b : Blk) (s : State) : State :=
  let f := b.firkin
  let e := tget s.fec.expect f b.fseq
  let free := rxFree s f
  if tget s.fec.client f 0 = 0 then firkinCount s f 2 1
  else if b.fseq = e then
    if free = 0 then overflow (setE s f e) f else setE (pushBlk s b) f (b.fseq + 1)
  else if after b.fseq e 16 then
    let n := (b.fseq + 65536 - e) % 65536
    let need := if tailTakes s f e n = n then 0 else 1
    if need + 1 ≤ free then setE (pushBlk (pushLost s f e n) b) f (b.fseq + 1)
    else if free = 0 then overflow s f
    else overflow (setE (pushLost s f e n) f b.fseq) f
  else firkinCount s f 2 1

/-- FIRKIN_WAIT_EXPIRY (R180): one LOST mark at E, where it finds room. -/
def execFirkinWaitExpiry (f : Fin 8192) (s : State) : Host.Outcome State Fault Refusal :=
  .next (match tfind s.fec.expect f.val with
    | some e =>
      if isOn s 8 && (tailTakes s f.val e 1 == 1 || rxFree s f.val != 0) then setE (pushLost s f.val e 1) f.val (e + 1)
      else s
    | none => s)

/-- A COMMIT mark of a firkin (R181): at most one pending, after the entry at the tail; E is undefined. -/
def commitMark (s : State) (f : Nat) : State :=
  let e := tget s.fec.expect f 0
  let n := (rxq s f).length
  let s := if (tfind s.fec.commit f).isSome then s
    else firkinCount { s with fec := { s.fec with commit := tput s.fec.commit f (n, e) } } f 1 1
  { s with fec := { s.fec with expect := tdel s.fec.expect f } }

/-! ### Deframer (R175-R177) -/

/-- A block as its bits spell it: header, whether HCRC holds, payload. -/
def parseBlk (bs : List Bool) : Blk × Bool :=
  let hd := bs.take 48
  let n := ofBitsMsb hd
  let ok := crc16 hd == ofBitsMsb ((bs.drop 48).take 16)
  (⟨bitsOf n 46 2, bitsOf n 33 13, bitsOf n 17 16,
    (pieces 32 64 (bs.drop 64)).map fun w => BitVec.ofNat 32 (ofBitsMsb w)⟩, ok)

/-- One block of a subcarrier's stream (R177). A lost block's TYPE cannot be known: it is counted (DESIGN CHOICE, log 117); a sound
block of the reserved TYPE is discarded as an IDLE block is (DESIGN CHOICE, log 117). -/
def takeBlk (g key : Nat) (bs : List Bool) (lost : Bool) (s : State) : State :=
  let (b, ok) := parseBlk bs
  if lost ∨ !ok then addF s (F.BLK_LOST g) 1
  else if 2 ≤ b.typ then s
  else if tget s.fec.rxLine b.firkin 0 != 1 + (32 * g + key % 32) then addF s (F.BLK_LOST g) 1
  else arriveBlk b s

/-- Cut the bits of a subcarrier into blocks, `n` at most. -/
def cutBlks (g key : Nat) : Nat → State → State
  | 0, s => s
  | n + 1, s =>
    let d := tget s.fec.deframe key Deframe.blank
    if d.bits.length < 2112 then s
    else
      let d' := { d with bits := d.bits.drop 2112, lost := d.lost.drop 2112 }
      let s := { s with fec := { s.fec with deframe := tset s.fec.deframe key d' Deframe.blank } }
      cutBlks g key n (takeBlk g key (d.bits.take 2112) ((d.lost.take 2112).any id) s)

/-- The points of a codeword as its bits give them (05 R137, R156), each with its place among the codeword's points: pol-symbols
that it shares with another codeword are left out. -/
def regenerated (w : Cw) : List (Nat × Cx) :=
  let bits := blocksToBits w.hard
  if w.cfg.mode = 1 then (List.range 3840).map fun u => (u, pasPoint w.cfg bits u)
  else
    let j0 := hybridStart w.cfg.b w.num
    let o := 23040 * w.num
    ((List.range (hybridEnd w.cfg.b (o + 23040) - j0)).filter fun i =>
      decide (o ≤ bitsBefore w.cfg.b (j0 + i)) && decide (bitsBefore w.cfg.b (j0 + i + 1) ≤ o + 23040)).map fun i =>
        let at_ := bitsBefore w.cfg.b (j0 + i) - o
        let b0 := bits.getD at_ false
        (i, if isBpsk w.cfg.b (j0 + i) then qpsk b0 b0 else qpsk b0 (bits.getD (at_ + 1) false))

/-- What a codeword that passes adds to its subcarrier's interval (05 R156, R157, R159). -/
def QAcc.passed (a : QAcc) (w : Cw) : QAcc :=
  let ref := regenerated w
  let bits := (blocksToBits w.hard).zip w.llr
  { a with
    data := ref.foldl (fun d e => RefSum.add d e.2 (w.pts.getD e.1 cxZero)) a.data
    errs := a.errs + (bits.filter fun b => if b.1 then decide (0 ≤ llrQ b.2) else decide (llrQ b.2 ≤ 0)).length
    bits := a.bits + bits.length
    info := a.info + (bits.map fun b => infoLoss b.1 b.2).sum
    pols := a.pols + ref.length
    without := a.without + errorSum (ref.map fun e => (e.2, w.raw.getD e.1 cxZero))
    withCor := a.withCor + errorSum (ref.map fun e => (e.2, w.pts.getD e.1 cxZero)) }

/-- The errors of a codeword's points by arrival time, X and Y (05 R137). -/
def pointErrors (w : Cw) : List (Nat × Cx × Cx) :=
  let es := (regenerated w).map fun e => (e.1, cxSub (w.pts.getD e.1 cxZero) e.2)
  let at_ (i : Nat) : Cx := ((es.find? fun e => e.1 == i).map (·.2)).getD cxZero
  (List.range (w.pts.length / 2)).map fun i => (w.times.getD (2 * i) 0, at_ (2 * i), at_ (2 * i + 1))

/-- Learning and quality take a codeword in as it is released: `ok` says that it passed its outer check. -/
def takeCodeword (w : Cw) (ok : Bool) (s : State) : State :=
  let a := tget s.rx.qAcc w.sc .zero
  let a := { a with cws := a.cws + 1, fails := a.fails + if ok then 0 else 1 }
  if ok then learnFrom w.grp (w.sc % 32) (pointErrors w) (setAcc s w.sc (QAcc.passed a w)) else setAcc s w.sc a

/-- Release the data of a codeword to the deframer, or its erasure (R175, R176). -/
def releaseCw (w : Cw) (pass : Bool) (s : State) : State :=
  let ok := pass && !w.erased
  let data := if ok then w.cfg.unplace (blocksToBits w.hard) else none
  let s := takeCodeword w ok s
  let s := if data.isSome then s else detect .fec 0 w.grp (addF s (F.FEC_ERASED w.grp) 1)
  let bits := data.getD (List.replicate w.cfg.dataBits false)
  let d := tget s.fec.deframe w.sc Deframe.blank
  let d := if w.first then { d with bits := [], lost := [] } else d
  let d := { d with bits := d.bits ++ bits, lost := d.lost ++ List.replicate bits.length data.isNone }
  let s := { s with fec := { s.fec with deframe := tset s.fec.deframe w.sc d Deframe.blank } }
  cutBlks w.grp w.sc (d.bits.length / 2112) s

/-- Release the codewords of a subcarrier that are done and stand without an outer code, in order, `n` at most. -/
def releaseDone (key : Nat) : Nat → State → State
  | 0, s => s
  | n + 1, s =>
    match s.fec.pool.find? fun w => w.sc == key with
    | some w =>
      if w.phase = 2 ∧ !w.cfg.outer then releaseDone key n (releaseCw w w.zero (setPool s (s.fec.pool.erase w))) else s
    | none => s

/-- Decoding of a codeword ends: its syndrome is judged on its current hard decisions. -/
def cwDone (w : Cw) (s : State) : State :=
  let s := cwSet s { w with phase := 2, zero := syndromeZero w.hard w.cfg.kb }
  if w.cfg.outer then s else releaseDone w.sc s.fec.pool.length s

/-- DECODER_ITERATION (R167, R171 item 4): one pass; stop on a zero syndrome, at 32, or for want of credit after the second. -/
def execDecoderIteration (id : Nat) (up : List Bool) (s : State) : Host.Outcome State Fault Refusal :=
  .next (match cwAt s id with
    | none => s
    | some w =>
      if !isOn s 8 ∨ w.phase ≠ 1 then s
      else
        let r := layeredPass w.cfg.kb up w.msgs w.post
        let w := { w with iter := w.iter + 1, msgs := r.1, post := r.2, hard := hardBits s r.2 }
        let s := addF (drewN s 23040) (F.FEC_ITER w.grp) 1
        if !syndromeZero w.hard w.cfg.kb ∧ w.iter < 32 ∧ (w.iter < 2 ∨ 4 ≤ bank s w.grp) then debit (cwSet s w) w.grp
        else cwDone w s)

/-- CODEWORD_DEADLINE (R172): without an engine, the signs of its LLRs stand. -/
def execCodewordDeadline (id : Nat) (s : State) : Host.Outcome State Fault Refusal :=
  .next (match cwAt s id with
    | none => s
    | some w =>
      if !isOn s 8 ∨ w.phase = 2 then s
      else cwDone w (detect .fec 2 w.grp (addF s (F.FEC_LATE w.grp) 1)))

/-! ### Outer decoder (R166, R173, R174) -/

/-- The data vector of four codewords (R86). -/
def dataVec (ws : List Cw) (kb : Nat) : List Bool :=
  weave4 (ws.map fun w => (blocksToBits w.hard).take (180 * kb)) (720 * kb)

/-- The parity vector of four codewords (R86). -/
def parVec (ws : List Cw) (kb : Nat) : List Bool :=
  weave4 (ws.map fun w => ((blocksToBits w.hard).drop (180 * kb)).take (12 * kb)) (48 * kb)

/-- The place of bit `i` of component `c`: whether it lies in the block before, which codeword, which position. -/
def compPlace (kb c i : Nat) : Bool × Nat × Nat :=
  let t := if i < 720 then kb * i + c else if i < 768 then kb * (i - 720) + c else kb * (i - 768) + c
  (decide (i < 768), t % 4, if i < 720 then t / 4 else 180 * kb + t / 4)

/-- The corrections of component `c`, none where it fails or would change a codeword whose syndrome is zero. One in the all-zero
block before the run's first fails it: nothing there is wrong (DESIGN CHOICE, log 118). -/
def compFix (prev : Option (List Cw)) (cur : List Cw) (d p q : List Bool) (kb c : Nat) : Option (List (Bool × Nat × Nat)) :=
  match bchErrors gf12 4 (compMsg d p kb c ++ stripe q kb c 48) with
  | none => none
  | some es =>
    let ps := es.map (compPlace kb c)
    let fixedCw (x : Bool × Nat × Nat) : Bool :=
      if x.1 then (match prev with | some ws => (ws.map (·.zero)).getD x.2.1 true | none => true)
      else (cur.map (·.zero)).getD x.2.1 true
    if ps.any fixedCw then none else some ps

/-- Flip listed positions of a codeword. -/
def flipCw (w : Cw) (ps : List Nat) : Cw :=
  if ps.isEmpty then w else { w with hard := bitsToBlocks (flipBits (blocksToBits w.hard) ps) }

/-- Apply corrections to one of the two blocks. -/
def applyFix (ws : List Cw) (before : Bool) (fs : List (Bool × Nat × Nat)) : List Cw :=
  ws.zipIdx.map fun e => flipCw e.1 ((fs.filter fun x => x.1 == before && x.2.1 == e.2).map (·.2.2))

/-- Component `c` covers positions of codeword `q` of the four (R166): stripes of 96 or 100 stay within one codeword. -/
def touches (kb q c : Nat) : Bool := kb % 4 != 0 || c % 4 == q

/-- A codeword passes its outer check (R174), by the components that failed in its own block and in the next. -/
def outerPass (kb : Nat) (bad : List Nat) (w : Cw) (q : Nat) : Bool := w.zero || !bad.any (touches kb q)

/-- Decode the outer block of four done codewords and release the block before it. -/
def outerDecode (g key : Nat) (cur : List Cw) (s : State) : State :=
  let kb := ((cur.head?.map fun w => w.cfg.kb)).getD 96
  let dfr := tget s.fec.deframe key Deframe.blank
  let first := (cur.map (·.first)).any id
  let prev := if first then none else dfr.last
  let d := match prev with | some ws => dataVec ws kb | none => List.replicate (720 * kb) false
  let p := match prev with | some ws => parVec ws kb | none => List.replicate (48 * kb) false
  let fixes := (List.range kb).map (compFix prev cur d p (parVec cur kb) kb)
  let fs := (fixes.filterMap id).flatten
  let bad := (List.range kb).filter fun c => (fixes.getD c none).isNone
  let s := addF s (F.OUTER_CORR g) fs.length
  let s := each bad (fun s _ => detect .fec 1 g s) s
  let cur' := applyFix cur false fs
  let d1 := { dfr with
    last := some cur', lastBad := bad, bits := if first then [] else dfr.bits, lost := if first then [] else dfr.lost }
  let s := { s with fec := { s.fec with deframe := tset s.fec.deframe key d1 Deframe.blank } }
  match prev with
  | some ws =>
    each (applyFix ws true fs).zipIdx (fun s e =>
      releaseCw { e.1 with first := false } (outerPass kb (dfr.lastBad ++ bad) e.1 e.2) s) s
  | none => s

/-- OUTER_BLOCK_DECODE (R173): once the next four codewords of the subcarrier's run are done. -/
def execOuterBlockDecode (c : Fin 2) (sc : Fin 32) (s : State) : Host.Outcome State Fault Refusal :=
  let key := scKey c.val sc.val
  let cur := (s.fec.pool.filter fun w => w.sc == key).take 4
  .next (match cur with
    | w :: ws =>
      if isOn s 8 && w.cfg.outer && decide (ws.length = 3) && cur.all (fun v => v.phase == 2) && ws.all (fun v => !v.first) then
        outerDecode w.grp key cur (setPool s (s.fec.pool.filter fun v => !cur.contains v))
      else s
    | [] => s)

/-! ### Client mapper (R185, R188) -/

/-- A header word: KIND, LENGTH, ERR where it is valid (R188). -/
def readHeader (w : Word) : Option (Nat × Nat × Bool) :=
  let n := w.toNat
  let kind := bitsOf n 30 2
  let len := bitsOf n 16 14
  let lenOk := if kind = 0 then decide (1 ≤ len) else if kind = 1 then len == 4 else len == 0
  if crc8 (beBytes 3 (n / 256)) == n % 256 && kind != 3 && lenOk then some (kind, len, bitOf n 15) else none

/-- The words of an item with its header. -/
def itemLen (len : Nat) : Nat := 1 + (len + 3) / 4

/-- The bytes of words, most significant first. -/
def bytesOfWords (ws : List Word) : List Byte := ws.flatMap fun w => beBytes 4 w.toNat

/-- A valid header starts here and another one follows its item; none where that lies beyond the words. -/
def huntAt (ws : List Word) : Option Bool :=
  match ws with
  | [] => some false
  | w :: _ =>
    match readHeader w with
    | none => some false
    | some (_, len, _) => (ws[itemLen len]?).map fun v => (readHeader v).isSome

/-- The words from the first place where reading can start: a header already confirmed is taken while an earlier valid one still
waits for its follower (DESIGN CHOICE, log 120). -/
def huntStart : List Word → Option (List Word)
  | [] => none
  | w :: ws => if huntAt (w :: ws) = some true then some (w :: ws) else huntStart ws

/-- The words from the first place that is still undecided. -/
def huntKeep : List Word → List Word
  | [] => []
  | w :: ws => if huntAt (w :: ws) = none then w :: ws else huntKeep ws

/-- The mapper of a client before its first chunk. -/
def MapSt.blank : MapSt := ⟨[], 0⟩

/-- A mapper. -/
def mapAt (s : State) (l : Nat) : MapSt := tget s.fec.mapper l MapSt.blank

/-- Set a mapper. -/
def setMap (s : State) (l : Nat) (x : MapSt) : State := { s with fec := { s.fec with mapper := tset s.fec.mapper l x MapSt.blank } }

/-- Deliver an item to the host PCS: it is one of those of the chunk in progress where line data reaches the group's transmitters,
and a near-end loop then returns it (08 R236, R238). -/
def itemOut (l : Nat) (i : ClientItem) (s : State) : State :=
  if !sendsLine s l then s
  else
    let back := if nearLoop s l then tset s.host.back l (tget s.host.back l [] ++ [i]) [] else s.host.back
    { s with fec := { s.fec with itemsOut := tset s.fec.itemsOut l (tget s.fec.itemsOut l [] ++ [i]) [] }, host := { s.host with back := back } }

/-- Deliver a complete item (R188): a FRAME, which counts, or an ORDERED_SET; FILL is discarded. -/
def deliver (l kind len : Nat) (err : Bool) (content : List Byte) (s : State) : State :=
  if kind = 0 then addF (itemOut l (.frame err (content.take len)) s) (F.CLI_FRAMES l) 1
  else if kind = 1 then itemOut l (.orderedSet (BitVec.ofNat 32 (ofBe (content.take 4)))) s
  else s

/-- Out of SYNC: HUNTS and CLIENT_HUNT. -/
def toHunt (l : Nat) (s : State) : State :=
  let s := setMap (satF (setB s (F.CLI_SYNC l) false) (F.CLI_HUNTS l) 1) l { mapAt s l with words := [] }
  detect .fec 3 l s

/-- Read items in SYNC; `n` bounds them. -/
def readItems (l : Nat) : Nat → State → State
  | 0, s => s
  | n + 1, s =>
    match (mapAt s l).words with
    | [] => s
    | w :: ws =>
      match readHeader w with
      | none => toHunt l s
      | some (kind, len, err) =>
        if ws.length + 1 < itemLen len then s
        else
          let s := setMap s l { mapAt s l with words := ws.drop (itemLen len - 1) }
          readItems l n (deliver l kind len err (bytesOfWords ws) s)

/-- A DATA chunk reaches the mapper. -/
def mapData (l : Nat) (ws : List Word) (s : State) : State :=
  let all := (mapAt s l).words ++ ws
  if getB s (F.CLI_SYNC l) then readItems l (all.length + 1) (setMap s l { mapAt s l with words := all })
  else
    match huntStart all with
    | some r => readItems l (r.length + 1) (setB (setMap s l { mapAt s l with words := r }) (F.CLI_SYNC l) true)
    | none => setMap s l { mapAt s l with words := huntKeep all }

/-- A gap mark reaches the mapper: the item in progress goes, counted where it is a FRAME. -/
def mapGap (l : Nat) (s : State) : State :=
  if getB s (F.CLI_SYNC l) then
    let frame : Bool := match (mapAt s l).words with
      | w :: _ => (readHeader w).any fun h => h.1 == 0
      | [] => false
    toHunt l (if frame then addF s (F.CLI_DROP l) 1 else s)
  else setMap s l { mapAt s l with words := [] }

/-- The 64-bit form of a gap mark (R178). -/
def gapBytes (f fseq cause : Nat) : List Byte :=
  let top := bitsMsb 2 1 ++ bitsMsb 13 f ++ bitsMsb 16 fseq ++ bitsMsb 14 0 ++ bitsMsb 3 cause
  beBytes 8 (ofBitsMsb (top ++ bitsMsb 16 (crc16 top)))

/-- The bytes of a DATA block. -/
def blkBytes (b : Blk) : List Byte := (pieces 8 264 (blkBits b)).map fun p => BitVec.ofNat 8 (ofBitsMsb p)

/-- A firkin capture of a delivered entry (15 R383): dropped without credit, or while the link is down (R379). -/
def firkinCapture (f fseq : Nat) (bytes : List Byte) (s : State) : State :=
  if !isOn s 10 || !getB s F.FKC_EN || getF s F.FKC_FIRKIN != f then s
  else if chnUp s && hasCredit s 4 (pktUnits bytes.length) then
    let s := sendPkt s (some 4) 0x05 (3 + if s.chn.fkDropped then 8 else 0) fseq bytes
    { s with chn := { s.chn with fkDropped := false } }
  else detect .chn 13 0 { s with chn := { s.chn with fkDropped := true } }

/-- A queue entry ahead of a pending COMMIT mark has gone. -/
def commitAhead (s : State) (f : Nat) : State :=
  match tfind s.fec.commit f with
  | some (n, e) => { s with fec := { s.fec with commit := tput s.fec.commit f (n - 1, e) } }
  | none => s

/-- Take what firkin `f` has next for its mapper (R181, R188). -/
def takeEntry (l f n : Nat) (s : State) : State :=
  let adv (s : State) : State := setMap s l { mapAt s l with next := ((mapAt s l).next + 1) % max n 1 }
  match tfind s.fec.commit f, rxq s f with
  | some (0, e), _ =>
    let s := { s with fec := { s.fec with commit := tdel s.fec.commit f } }
    mapGap l (firkinCapture f e (gapBytes f e 2) s)
  | _, .block b :: q =>
    mapData l b.words (adv (firkinCapture f b.fseq (blkBytes b) (commitAhead (setRxq s f q) f)))
  | _, .gaps cause e k :: q =>
    let s := if k ≤ 1 then commitAhead (setRxq s f q) f else setRxq s f (.gaps cause ((e + 1) % 65536) (k - 1) :: q)
    mapGap l (adv (firkinCapture f e (gapBytes f e cause) s))
  | _, [] => s

/-- MAPPER_CHUNK (R188). -/
def execMapperChunk (lane : Fin 8) (s : State) : Host.Outcome State Fault Refusal :=
  let l := lane.val
  let fs := clientFirkins s l
  .next (if !isOn s 8 || !present s (16 + l) then s
    else match fs[(mapAt s l).next]? with
      | some f => takeEntry l f fs.length { s with fec := { s.fec with itemsOut := tdel s.fec.itemsOut l } }
      | none => s)

end Sys2Proof.Machine
end

