-- ==== Sys2Proof/Machine/Ledger.lean ====
section
/-! DEFINITION. The Ledger (13): operating time, checkpoints, the record region and its writer, LOSS records, the
reserve, histograms. -/
namespace Sys2Proof.Machine

/-! ### Operating time (R320-R323) -/

/-- One grain counts, with the correction of R322: at most one grain at once, a larger one 5 ticks a grain. -/
def grainTick (s : State) : State :=
  let e := s.time.err
  let slew := getB s F.SLEWING
  let n := if !slew ∧ e < 0 then 2 else 1
  let e' : Int := if !slew then 0 else if 5 < e then e - 5 else if e < -5 then e + 5 else 0
  let s := setB s F.SLEWING (slew && e' != 0)
  let s := { s with time := { s.time with
    grains := (s.time.grains + n) % 2 ^ 40, sinceRst := s.time.sinceRst + n, err := e' } }
  let v := getS s F.TEMP
  onlyIf (getF s F.TEMP_SRC != 0) (histSample 144 v (v + 100) 20) s

/-- GRAIN_TICK (R321); each grain samples the temperature in use (R337): none where TEMP_SRC is 0 (14 R357). -/
def execGrainTick (s : State) : Host.Outcome State Fault Refusal := .next (grainTick s)

/-- A trim measurement (R321, R322): E in ticks, positive where main time is ahead. -/
def trimMeasurement (len : Nat) (e : Int) (s : State) : State :=
  let s := setFs { s with time := { s.time with err := e } } [(F.GRAIN_LEN, len), (F.TIME_UNTRIMMED, 0)]
  let big := decide (512 < e.natAbs)
  let began := big && !getB s F.SLEWING
  onlyIf began (detect .ldg 10 0) (setB s F.SLEWING big)

/-- TRIM_MEASUREMENT (R321). -/
def execTrimMeasurement (grainLen : BitVec 16) (err : Int) (s : State) : Host.Outcome State Fault Refusal :=
  .next (trimMeasurement grainLen.toNat err s)

/-- REFCLK_LINE is found absent (R323). -/
def timeUntrimmed (s : State) : State :=
  let was := getB s F.TIME_UNTRIMMED
  let s := setFs { s with time := { s.time with err := 0 } } [(F.TIME_UNTRIMMED, 1), (F.SLEWING, 0)]
  onlyIf (!was) (detect .ldg 9 0) s

/-- TIME_UNTRIMMED (R323). -/
def execTimeUntrimmed (s : State) : Host.Outcome State Fault Refusal := .next (timeUntrimmed s)

/-! ### Checkpoints (R324-R326) -/

/-- A histogram. -/
def histAt (s : State) (h : Nat) : Hist := tget s.ldg.hist h Hist.empty

/-- Set a histogram. -/
def setHist (s : State) (h : Nat) (x : Hist) : State :=
  { s with ldg := { s.ldg with hist := tset s.ldg.hist h x Hist.empty } }

/-- A checkpoint before its sequence number and check word. -/
def ckptBytes (s : State) (cause d : Nat) : List Byte :=
  leBytes 4 (recMagic .checkpoint) ++ leBytes 4 0 ++ leBytes 8 (mainTime s) ++ leBytes 1 cause ++ leBytes 1 d ++
    List.replicate 14 0#8 ++
    ((List.range 145).flatMap fun h => (List.range 64).flatMap fun b => leBytes 6 (tget (histAt s h).life b 0)) ++
    ((List.range 145).flatMap fun h =>
      leBytes 4 (ofS 32 (histAt s h).lifeX.1) ++ leBytes 4 (ofS 32 (histAt s h).lifeX.2)) ++
    List.replicate 8664 0#8

/-- Write a checkpoint: it needs MGMT powered and clocked (R324). -/
def checkpoint (cause d : Nat) (s : State) : State :=
  if mgmtWorks s then startRec .checkpoint (ckptBytes s cause d) cause s else s

/-- CHECKPOINT_PERIODIC (R324). -/
def execCheckpointPeriodic (s : State) : Host.Outcome State Fault Refusal := .next (checkpoint 0 0 s)

/-- A write of 1 to CKPT_REQ. -/
def ckptReq (s : State) : State := if isOn s 1 then checkpoint 2 0 s else s

/-- CKPT_REQ (R324). -/
def execCkptReq (s : State) : Host.Outcome State Fault Refusal := .next (ckptReq s)

/-- CHECKPOINT_RETRY (R326). -/
def execCheckpointRetry (s : State) : Host.Outcome State Fault Refusal :=
  .next (if s.time.ckptRetry then checkpoint 0 0 s else s)

/-- Restore the lifetime sets from the checkpoint in a slot (R325 step 4, R338). -/
def lifeLoad (i : Nat) (s : State) : State :=
  let bs := recAt s .checkpoint i 0x20 (55680 + 1160)
  let bins := pieces 384 145 (bs.take 55680)
  let exts := pieces 8 145 (bs.drop 55680)
  each (List.range 145) (fun s h =>
    let ns := (pieces 6 64 (bins.getD h [])).map ofLe
    let life := (ns.zipIdx.filter fun e => e.1 != 0).map fun e => (e.2, e.1)
    let x := exts.getD h []
    let lifeX := (toS 32 (leAt x 0 4), toS 32 (leAt x 4 4))
    setHist s h { histAt s h with life := life, lifeX := lifeX, lifeValid := true }) s

/-- Main time is restored when MGMT first comes up (R325). Of a TIME_GAP record with NONE the other words are not
stated: free values (log 80). -/
def timeRestore (s : State) : State :=
  match newest s .checkpoint with
  | some i =>
    let t := leAt (recAt s .checkpoint i 8 8) 0 8
    let s := { s with time := { s.time with
      grains := (t % 2 ^ 40 + s.time.sinceRst) % 2 ^ 40, cycles := min (t / 2 ^ 40 + 1) 0xFFFFFF
      lastCkpt := t % 2 ^ 40 } }
    offer (setB s F.TIME_VALID true) 7 0 [slotSeq s .checkpoint i, t % 2 ^ 32, t / 2 ^ 32, 0]
  | none =>
    let w0 := draw s (2 ^ 32)
    let s := drew s
    let w1 := draw s (2 ^ 32)
    let s := drew s
    let w2 := draw s (2 ^ 32)
    let s := setB (drew s) F.TIME_VALID true
    detect .ldg 7 0 (offer { s with time := { s.time with cycles := 0 } } 7 0 [w0, w1, w2, 1])

/-- What the Ledger does at a wake of MGMT from off (R325, R326, R332, R338): the region and the interval sets start
empty, LOSS records go first. -/
def ldgWake (first : Bool) (s : State) : State :=
  let s := { s with ldg := { s.ldg with intake := [], region := [], hist := [] } }
  let s := match newest s .checkpoint with
    | some i => lifeLoad i s
    | none => s
  let s := if first then timeRestore (flushLoss s) else flushLoss s
  settle (if s.time.lastCkpt / 245760 < s.time.grains / 245760 then checkpoint 0 0 s else s)

/-- MGMT goes off: records in its intake queue and region are gone; those not stored count as lost (R328). -/
def ldgLeave (s : State) : State :=
  s.ldg.intake.foldl (fun s r => loseRec s r.seq 2) { s with ldg := { s.ldg with intake := [], region := [] } }

/-! ### The record region (R330, R331) -/

/-- The bytes of a record in the ring; a PAD record (type 0) keeps its length in `seq`. -/
def ringLen (r : LRec) : Nat := if r.typ = 0 then r.seq else 16 + 4 * r.payload.length

/-- The words of a record in the ring. -/
def ringWords (r : LRec) : List Nat :=
  if r.typ = 0 then r.seq * 2 ^ 16 :: List.replicate (r.seq / 4 - 1) 0 else recWords r

/-- The bytes in use. -/
def ringUsed (s : State) : Nat := s.ldg.region.foldl (fun a e => a + ringLen e.2) 0

/-- Put a run back or lose a record: a LOSS record that is not stored gives its own run back (R333 item 3). -/
def loseAny (cause : Nat) (s : State) (r : LRec) : State :=
  if r.typ = 0 then s
  else
    let s := if r.typ = 8 then
        let run : LossRun := ⟨r.payload.getD 0 0, r.payload.getD 1 0, r.payload.getD 2 0⟩
        let runs := if s.ldg.runs.length < 8 then s.ldg.runs ++ [run]
          else s.ldg.runs.dropLast ++ (s.ldg.runs.getLast?.map fun l =>
            ({ l with count := (run.first + 2 ^ 32 - l.first) % 2 ^ 32 + run.count } : LossRun)).toList
        { s with ldg := { s.ldg with runs := runs } }
      else s
    loseRec s r.seq cause

/-- Store a record that fits, with the PAD record before it where it would cross the end of the ring. -/
def ringStore (r : LRec) (s : State) : State :=
  let wr := getF s F.LDG_WR
  let len := ringLen r
  let pad := if 2 ^ 22 < wr + len then [(wr, (⟨0, 0, 2 ^ 22 - wr, 0, []⟩ : LRec))] else []
  let at_ := if pad = [] then wr else 0
  let s := setF { s with ldg := { s.ldg with region := s.ldg.region ++ pad ++ [(at_, r)] } } F.LDG_WR ((at_ + len) % 2 ^ 22)
  if r.typ = 8 then detect .ldg 15 0 s else if r.typ = 7 then detect .ldg 8 0 s else s

/-- The record fits: 28 bytes stay free except after a LOSS record (R330). -/
def ringFits (s : State) (r : LRec) : Bool :=
  let wr := getF s F.LDG_WR
  let tail := if 2 ^ 22 < wr + ringLen r then 2 ^ 22 - wr else 0
  decide (ringUsed s + tail + ringLen r + (if r.typ = 8 then 0 else 28) ≤ 2 ^ 22)

/-- The region stops: the record, and what stands behind it in the queue, are lost for lack of room. -/
def ringStop (r : LRec) (s : State) : State :=
  let rest := s.ldg.intake
  let s := (r :: rest).foldl (loseAny 0) { s with ldg := { s.ldg with intake := [] } }
  detect .ldg 0 0 (setB s F.LDG_STOPPED true)

/-! ### The reserve (R334-R336) -/

/-- A record as a reserve entry: words 0 and 1 and six payload words, NO_MAIN_TIME set. -/
def reserveEntry (r : LRec) : LRec := ⟨r.typ, r.flags ||| 2, r.seq, 0, r.payload.take 6⟩

/-- Write a record to the reserve. -/
def reserveStore (r : LRec) (s : State) : State :=
  let n := s.ldg.reserve.length
  if n < 63 then
    let s := { s with ldg := { s.ldg with reserve := s.ldg.reserve ++ [reserveEntry r] } }
    if r.typ = 8 then detect .ldg 15 0 s else if r.typ = 7 then detect .ldg 8 0 s else s
  else if n = 63 then
    let l := reserveEntry (newRec s 8 0 [r.seq, 1, 4])
    let s := seqNext { s with ldg := { s.ldg with reserve := s.ldg.reserve ++ [l] } }
    detect .ldg 3 0 (setB s F.LEDGER_EXHAUSTED true)
  else
    let grow (l : LRec) : LRec :=
      { l with payload := [l.payload.getD 0 0, (r.seq + 2 ^ 32 - l.payload.getD 0 0) % 2 ^ 32 + 1, 4] }
    { s with ldg := { s.ldg with reserve := s.ldg.reserve.take 63 ++ (s.ldg.reserve.drop 63).map grow } }

/-- RECORD_STORE (R330): the writer takes the next queued record; with none queued it queues pending LOSS records. -/
def recordStore (s : State) : State :=
  if !mgmtWorks s then s
  else
    let s := if s.ldg.intake.isEmpty then flushLoss s else s
    match s.ldg.intake with
    | [] => s
    | r :: rest =>
      let s := { s with ldg := { s.ldg with intake := rest } }
      settle (if getB s F.LDG_CLOSED then reserveStore r s
        else if ringFits s r then ringStore r s
        else ringStop r s)

/-- RECORD_STORE (R330). -/
def execRecordStore (s : State) : Host.Outcome State Fault Refusal := .next (recordStore s)

/-- A write of LDG_FREE (R331). -/
def ldgFree (v : Nat) (s : State) : State :=
  if !isOn s 1 then s
  else
    let keep := s.ldg.region.dropWhile fun e => e.1 != v
    let all := v == getF s F.LDG_WR
    if !all && keep.isEmpty then detect .ldg 11 0 s
    else
      let s := { s with ldg := { s.ldg with region := if all then [] else keep } }
      flushLoss (setFs s [(F.LDG_RD, v), (F.LDG_STOPPED, 0)])

/-- LDG_FREE (R331). -/
def execLdgFree (value : Word) (s : State) : Host.Outcome State Fault Refusal :=
  .next (ldgFree (bitsOf value.toNat 0 22) s)

/-- A write of 1 to RES_CLEAR: ignored while the region is closed. -/
def resClear (s : State) : State :=
  if isOn s 1 && !getB s F.LDG_CLOSED then { s with ldg := { s.ldg with reserve := [] } } else s

/-- RES_CLEAR (R336): ignored while the region is closed. -/
def execResClear (s : State) : Host.Outcome State Fault Refusal := .next (resClear s)

/-! ### Failures of Ledger SRAM (R335, R340; 12 R313) -/

/-- An EVENT record of UNCORR_6 (12 R312). -/
def isUncorr6 (r : LRec) : Bool := r.typ == 1 && r.payload.headD 0 / 2 ^ 8 == EvBlk.mem.code * 2 ^ 8 + 17

/-- The region closes (R335): `good` stays, `lost` is lost, `first` stays in the queue, LAST_GOOD is `last`. -/
def regionClose (good : List (Nat × LRec)) (lost first : List LRec) (last : Nat) (s : State) : State :=
  let runs := s.ldg.runs
  let s := { s with ldg := { s.ldg with region := good, intake := first, runs := [] } }
  let s := lost.foldl (loseAny 3) s
  let s := { s with ldg := { s.ldg with runs := s.ldg.runs ++ runs } }
  let s := setFs s [(F.LDG_CLOSED, 1), (F.LDG_STOPPED, 0), (F.LDG_LAST_GOOD, last)]
  detect .ldg 2 0 (flushLoss s)

/-- The record region fails at the 64 bytes from offset `a` (R335). LAST_GOOD with no record before is not stated: a free
value. -/
def regionFail (a : Nat) (s : State) : State :=
  if getB s F.LDG_CLOSED then s
  else
    let good := s.ldg.region.takeWhile fun e => !(decide (e.1 < a + 64) && decide (a < e.1 + ringLen e.2))
    let bad := (s.ldg.region.drop good.length).map (·.2)
    let first := (s.ldg.intake.getLast?.filter isUncorr6).toList
    let queued := s.ldg.intake.take (s.ldg.intake.length - first.length)
    match good.reverse.find? fun e => e.2.typ != 0 with
    | some e => regionClose good (bad ++ queued) first e.1 s
    | none => regionClose good (bad ++ queued) first (draw s (2 ^ 22)) (drew s)

/-- A row of the histogram region fails: every histogram with a word in it is cleared (R340). -/
def histFail (h : Nat) (s : State) : State :=
  if h < 145 then
    let s := setHist s h Hist.empty
    detect .ldg 4 0 { s with ldg := { s.ldg with damaged := if h ∈ s.ldg.damaged then s.ldg.damaged else s.ldg.damaged ++ [h] } }
  else s

/-- An uncorrectable row of Ledger SRAM: 64 bytes a row, the record region first, then the histogram region with the
2,048 bytes of each histogram in turn. -/
def ledgerRowFail (row : Nat) (s : State) : State :=
  if row < 65536 then regionFail (64 * row) s else histFail ((row - 65536) / 32) s

/-! ### Histograms (R338) -/

/-- The end of an interval. -/
def intervalEnd (s : State) : State :=
  let next (e : Nat × Hist) : Nat × Hist :=
    (e.1, { e.2 with prev := e.2.cur, prevX := e.2.curX, cur := [], curX := Hist.empty.curX, sat := false })
  let hist := (s.ldg.hist.map next).filter fun e => e.2 != Hist.empty
  detect .ldg 12 0 (addF { s with ldg := { s.ldg with hist := hist } } F.HIST_SEQ 1)

/-- HISTOGRAM_INTERVAL_END (R338). -/
def execHistogramIntervalEnd (s : State) : Host.Outcome State Fault Refusal :=
  .next (if mgmtWorks s then intervalEnd s else s)

/-! ### Windows (R332, R339) -/

/-- The word of the record region at a word index; what it holds where no record is stored is not stated: a free
value (log 80). -/
def regionWord (s : State) (i : Nat) : Nat :=
  match s.ldg.region.find? fun e => decide (e.1 ≤ 4 * i) && decide (4 * i < e.1 + ringLen e.2) with
  | some e => (ringWords e.2).getD (i - e.1 / 4) 0
  | none => draw s (2 ^ 32)

/-- The word of the histogram window at an index (R339). -/
def histWord (s : State) (k : Nat) : Nat :=
  let h := k / 512
  let i := k % 512
  let x := histAt s h
  if 145 ≤ h then 0
  else if i < 256 then
    let b := i / 4
    [tget x.cur b 0, tget x.prev b 0, tget x.life b 0 % 2 ^ 32, tget x.life b 0 / 2 ^ 32].getD (i % 4) 0
  else
    ([x.curX.1, x.curX.2, x.prevX.1, x.prevX.2, x.lifeX.1, x.lifeX.2].map (ofS 32) ++
      [(if x.lifeValid then 4 else 0) + (if x.sat then 2 else 0) + (if h ∈ s.ldg.damaged then 1 else 0)]).getD (i - 256) 0

/-- A record is stored at a word of the region. -/
def regionStored (s : State) (i : Nat) : Bool :=
  s.ldg.region.any fun e => decide (e.1 ≤ 4 * i) && decide (4 * i < e.1 + ringLen e.2)

end Sys2Proof.Machine
end

