-- ==== Sys2Proof/Machine/Memory.lean ====
section
/-! DEFINITION. Memory protection (12): the parity and DEC checks of a row, the actions on uncorrectable words, poison,
restoration, repair candidates and spare rows. -/
namespace Sys2Proof.Machine

/-! ### Row checks (R306-R308) -/

/-- The rows of a memory (R305), 64 bytes a row; a firkin queue has 38 words an entry, the peer table 128 words. -/
def memRows (m : Nat) : Nat :=
  [524288, 524288, 155648, 155648, 98304, 98304, 98304, 8192, 4096, 32768, 16].getD m 1

/-- A memory protected by the double-error-correcting code. -/
def memDec (m : Nat) : Bool := decide (7 ≤ m) && decide (m ≤ 10)

/-- What a check of a row finds: corrected bits (word, bit), uncorrectable words, whether these are the whole row. -/
structure RowCheck where
  fixed : List (Nat × List Nat)
  bad   : List Nat
  whole : Bool

/-- Parity of the low `n` bits of a number. -/
def oddBits : Nat → Nat → Bool
  | 0, _ => false
  | n + 1, x => (x % 2 = 1) != oddBits n (x / 2)

/-- The words whose bit 63 fails. -/
def rowR (row : List Nat) : List Nat := (List.range 8).filter fun j => oddBits 56 (row.getD j 0) != bitOf (row.getD j 0) 63

/-- The columns whose parity fails. -/
def rowC (row : List Nat) : List Nat :=
  (List.range 56).filter fun c =>
    ((List.range 8).foldl (fun p j => p != bitOf (row.getD j 0) c) false) != bitOf (row.getD (c / 7) 0) (56 + c % 7)

/-- The outcome table of R307. -/
def parityCheck (row : List Nat) : RowCheck :=
  match rowR row, rowC row with
  | [], [] => ⟨[], [], false⟩
  | [j], [c] => ⟨[(j, [c])], [], false⟩
  | [j], [] => ⟨[(j, [63])], [], false⟩
  | [], [c] => ⟨[(c / 7, [56 + c % 7])], [], false⟩
  | [], _ => ⟨[], List.range 8, true⟩
  | r, _ => ⟨[], r, false⟩

/-- The bit of a stored DEC word that stands at a place of the codeword: data bits from bit 63 down, the fourteen check
bits from bit 77 down, the even parity in bit 78. -/
def decBit (p : Nat) : Nat := if p < 64 then 63 - p else if p < 78 then 141 - p else 78

/-- The errors of a DEC word (R308), none where it is uncorrectable. -/
def decErrors (w : Nat) : Option (List Nat) :=
  let code := (List.range 78).map fun p => bitOf w (decBit p)
  (extErrors gf7 code (bitOf w 78)).map fun es => es.map decBit

/-- Each word of a DEC row is checked by itself. -/
def decCheck (row : List Nat) : RowCheck :=
  let rs := (List.range 8).map fun j => (j, decErrors (row.getD j 0))
  ⟨rs.filterMap (fun r => match r.2 with | some (e :: es) => some (r.1, e :: es) | _ => none),
   rs.filterMap (fun r => if r.2.isNone then some r.1 else none), false⟩

/-- The check of a row of memory `m`. -/
def rowCheck (m : Nat) (row : List Nat) : RowCheck := if memDec m then decCheck row else parityCheck row

/-! ### Repair candidates (R317, R318) -/

/-- The repair record before its sequence number and check word (R318). -/
def repairBytes (s : State) : List Byte :=
  let cs := s.prot.cands.take 509
  let es := cs.flatMap fun e => leBytes 1 e.1 ++ leBytes 1 e.2.1 ++ leBytes 2 0 ++ leBytes 4 e.2.2
  leBytes 4 (recMagic .repair) ++ leBytes 4 0 ++ leBytes 8 (mainTime s) ++ leBytes 2 cs.length ++ leBytes 2 0 ++
    es ++ List.replicate (4072 - 8 * cs.length) 0#8 ++ leBytes 4 0

/-- A row becomes a candidate: REPAIR_CAND, and a repair record at once while MGMT works. -/
def addCand (m cause row : Nat) (s : State) : State :=
  if s.prot.cands.any (fun e => e.1 == m && e.2.2 == row) then s
  else if 509 ≤ s.prot.cands.length then detect .mem 30 m s
  else
    let s := detect .mem 27 m { s with prot := { s.prot with cands := s.prot.cands ++ [(m, cause, row)] } }
    if mgmtWorks s then startRec .repair (repairBytes s) 0 s else s

/-- A candidate of self-test is also buffered in AON, 32 at most (16 R394). -/
def bufferCand (m row : Nat) (s : State) : State :=
  if s.prot.buffer.contains (m, row) || 32 ≤ s.prot.buffer.length then s
  else
    let b := s.prot.buffer ++ [(m, row)]
    setF { s with prot := { s.prot with buffer := b } } F.BIST_CAND b.length

/-! ### Uncorrectable words (R312-R315) -/

/-- Poison a word: POISON_FULL where the list is full, and the word stays uncorrected, but for the triplet table's, which is
then zero (R313); a word of the triplet table raises POISONED (05 R160). -/
def poisonWord (m w : Nat) (s : State) : State :=
  let x := memAt s m
  if x.poison.contains w then s
  else if 64 ≤ x.poison.length then
    detect .mem 23 m (if m = 0 ∨ x.bad.contains w then s else setMem s m { x with bad := x.bad ++ [w] })
  else onlyIf (m == 0) (detect .fth 4 0) (setMem s m { x with poison := x.poison ++ [w] })

/-- The receive-queue entry at place `k` over all firkins becomes a LOST mark (R313). -/
def rxqLost (k : Nat) (s : State) : State :=
  let (q, _) := s.fec.rxq.foldl (fun (acc : Tab (List QEnt) × Nat) e =>
    let n := e.2.length
    let q' := if acc.2 ≤ k ∧ k < acc.2 + n then
        e.2.modify (k - acc.2) (fun x => match x with | .block b => .gaps 1 b.fseq 1 | .gaps c f j => .gaps c f j)
      else e.2
    (acc.1 ++ [(e.1, q')], acc.2 + n)) ([], 0)
  { s with fec := { s.fec with rxq := q } }

/-- The transmit-queue entry at place `k` over all firkins is discarded and counted in TX_DROP (R313). -/
def txqDrop (k : Nat) (s : State) : State :=
  let go := s.tx.queue.foldl (fun (acc : Option Nat × Nat) e =>
    if acc.2 ≤ k ∧ k < acc.2 + e.2.length then (some e.1, acc.2 + e.2.length) else (acc.1, acc.2 + e.2.length)) (none, 0)
  match go.1 with
  | none => s
  | some f =>
    let before := s.tx.queue.foldl (fun n e => if e.1 < f then n + e.2.length else n) 0
    let q := (tget s.tx.queue f []).eraseIdx (k - before)
    detect .fec 5 0 (firkinCount { s with tx := { s.tx with queue := tset s.tx.queue f q [] } } f 3 1)

/-- A tap word re-initialises its subcarrier as 05 R146 does. -/
def tapReinit (c k : Nat) (s : State) : State :=
  match scGroup s c k with
  | some u => tapRestart c u s k
  | none => s

/-- End the STAGING or ARMED section of a zone with a result; sections that rely on an ARMED one's release are aborted.
`fuel` bounds the chain of sections. -/
def cancelZone : Nat → Nat → Nat → State → State
  | 0, _, _, s => s
  | fuel + 1, z, code, s =>
    if getF s (F.ZONE_STATE z) = zStaging then detect .cfg 1 0 (endSection z code s)
    else if getF s (F.ZONE_STATE z) = zArmed then
      let ds := dependents s z
      let s := detect .cfg 2 0 (endSection z code s)
      each ds (fun s y => cancelZone fuel y rAborted s) s
    else s

/-- End the STAGING or ARMED section of a zone. -/
def cancel (z code : Nat) (s : State) : State := cancelZone 64 z code s

/-- A shadow word: the section it belongs to fails or is cancelled with CHECK; a word in unreserved space is poisoned.
Which section holds a word is not stated: a free value (R313; log 77). -/
def shadowWord (w : Nat) (s : State) : State :=
  let zs := zonesIn s zStaging ++ zonesIn s zArmed
  let k := draw s (zs.length + 1)
  let s := drew s
  match zs[k]? with
  | some z => cancel z 0xB s
  | none => poisonWord 9 w s

/-- The action on an uncorrectable word of memory `m` (R313). Which queue entry, tap or coefficient a word of memories 2
to 5 holds is not stated: a free value (log 77). Memory 6 is acted on by row. -/
def memAction (m w : Nat) (s : State) : State :=
  match m with
  | 0 => poisonWord 0 w (each (List.range 4) (fun s i => setEntry s (4 * w + i) 0) s)
  | 2 => poisonWord 2 w (rxqLost (draw s 32768) (drew s))
  | 3 => poisonWord 3 w (txqDrop (draw s 32768) (drew s))
  | 4 | 5 =>
    let k := draw s 33
    let s := drew s
    if k < 32 then tapReinit (m - 4) k s else s
  | 6 => s
  | 7 => each (List.range' (w / 4 * 4) 4) (fun s v => poisonWord 7 v s) s
  | 9 => shadowWord w s
  | 10 => peerCount (setF (poisonWord 10 w s) (F.CARRIED_MASK (w / 2)) 0)
  | _ => poisonWord m w s

/-- Uncorrectable words of a row are counted, raised and acted on (R312, R313); the row becomes a candidate (R317). -/
def memUncorr (m row : Nat) (bad : List Nat) (whole : Bool) (s : State) : State :=
  let ws := bad.map (8 * row + ·)
  let s := addF s (F.MEM_UNCORR m) ws.length
  let s := each (if whole then ws.take 1 else ws) (fun s w => detect .mem (11 + m) w s) s
  let s := each ws (fun s w => memAction m w s) s
  let s := onlyIf (m == 6) (ledgerRowFail row) s
  let s := if m = 7 then storeWant s 1 else if m = 0 then storeWant s 2 else s
  addCand m 0 row s

/-! ### Scrubbing (R311) -/

/-- The key of a bit of a row. -/
def bitKey (row j b : Nat) : Nat := (row * 8 + j) * 128 + b

/-- A correction of the scrubber: the same bit on 3 consecutive passes makes the row a candidate (R317). -/
def noteFix (m row j : Nat) (s : State) (b : Nat) : State :=
  let x := memAt s m
  let pass := getF s (F.PASSES m)
  let k := bitKey row j b
  let (n, last) := tget x.runs k (0, 0)
  let n' := if n ≠ 0 ∧ (last + 1) % 65536 = pass then n + 1 else 1
  let s := setMem s m { x with runs := tput x.runs k (n', pass) }
  if n' = 3 then addCand m 1 row s else s

/-- A corrected word: counted and raised. Which of two corrected bits CORR_BIT takes is not stated: a
free value (log 77). -/
def memFixed (m row : Nat) (s : State) (f : Nat × List Nat) : State :=
  let s := addF s (F.MEM_CORR m) 1
  let b := f.2.getD (draw s f.2.length) 0
  detect .mem m (8 * row + f.1 + b * 2 ^ 22) (onlyIf (f.2.length != 1) drew s)

/-- One scrubber visit. -/
def scrubVisit (m : Nat) (row : List Nat) (s : State) : State :=
  if !isOn s (memDom m) || getF s (F.SCRUB_PERIOD m) == 0 then s
  else
    let r := (memAt s m).row
    let c := rowCheck m row
    let s := c.fixed.foldl (memFixed m r) s
    let s := c.fixed.foldl (fun s f => f.2.foldl (noteFix m r f.1) s) s
    let s := onlyIf (!c.bad.isEmpty) (memUncorr m r c.bad c.whole) s
    let x := memAt s m
    if r + 1 < memRows m then setMem s m { x with row := r + 1 }
    else
      let pass := getF s (F.PASSES m)
      addF (setMem s m { x with row := 0, runs := x.runs.filter fun e => e.2.2 == pass }) (F.PASSES m) 1

/-- SCRUB_VISIT (R311). -/
def execScrubVisit (m : Fin 11) (row : List Nat) (s : State) : Host.Outcome State Fault Refusal :=
  .next (scrubVisit m.val row s)

/-- SCRUB_LATE (R311). -/
def execScrubLate (m : Fin 11) (s : State) : Host.Outcome State Fault Refusal :=
  .next (if isOn s (memDom m.val) && getF s (F.SCRUB_PERIOD m.val) != 0 then detect .mem 31 m.val s else s)

/-! ### Restoration (R314) -/

/-- The snapshot in a slot may restore page `p`: allocation and ADAPT_EPOCH of its group, and PAGE_CRC. -/
def restorable (s : State) (slot p : Nat) : Bool :=
  match pageGroup s p with
  | some g => snapAlloc s slot g && leAt (snapRec s slot g) 4 4 == getF s (F.ADAPT_EPOCH g) && snapPageOk s slot p
  | none => false

/-- The poisoned words of page `p` are restored, or written as zero. -/
def tripletRestore (p : Nat) (ok : Bool) (s : State) : State :=
  let ws := (memAt s 0).poison.filter fun w => w / 16384 == p
  if !isOn s 9 then s
  else
    let es := match if ok && mgmtWorks s then newest s .snapshot else none with
      | some slot => if restorable s slot p then unpackPage (snapPage s slot p) else []
      | none => []
    let s := each ws (fun s w => each (List.range 4) (fun s i =>
      let k := 4 * w + i
      setEntry s k (es.getD (k % 65536) 0)) s) s
    each ws (fun s _ => detect .mem 24 0 s) (unpoison 0 ws (storeDone s 2))

/-- TRIPLET_RESTORE_DONE (R314). -/
def execTripletRestoreDone (page : Byte) (ok : Bool) (s : State) : Host.Outcome State Fault Refusal :=
  .next (tripletRestore page.toNat ok s)

/-! ### The steward's memories (R313, R315) -/

/-- The steward runs. -/
def stwRuns (s : State) : Bool := isOn s 1 && s.stw.running

/-- The steward restarts, unless a Grave fault holds it in reset; a pending mailbox command ends RESTARTED (15 R387). -/
def stwRestart (s : State) : State :=
  let s := if getB s F.MBOX_BUSY then setFs s [(F.MBOX_BUSY, 0), (F.MBOX_RESULT, 0xFF)] else s
  { s with stw := { s.stw with running := false, restart := !s.stw.held, halted := none } }

/-- The steward restarts with its data memory re-initialised (R313). -/
def stwReinit (s : State) : State := setMem (stwRestart s) 8 (memAt s 8).clean

/-- FETCH_TRAP (R315): the steward stays halted until the reload of the line completes. -/
def execFetchTrap (line : BitVec 14) (s : State) : Host.Outcome State Fault Refusal :=
  .next (if stwRuns s && unusable s 7 (4 * line.toNat) then
      detect .stw 19 0 (detect .mem 25 0 { s with stw := { s.stw with running := false, halted := some line.toNat } })
    else s)

/-- STEWARD_LOAD_TRAP (R313): the steward restarts with its data memory re-initialised. -/
def execStewardLoadTrap (word : BitVec 15) (s : State) : Host.Outcome State Fault Refusal :=
  .next (if stwRuns s && unusable s 8 word.toNat then
      stwReinit (detect .stw 19 0 s)
    else s)

/-! ### Wakes (R311, R313, R319; 16 R394) -/

/-- The memories of a domain. -/
def domMems (d : Nat) : List Nat := (List.range 11).filter fun m => memDom m == d

/-- The rows of the repair record in a slot. -/
def recordRows (s : State) (i : Nat) : List (Nat × Nat × Nat) := repairRows (recAt s .repair i 0x10 (4 + 4072))

/-- Map a row of memory `m` to a spare. -/
def mapRow (m : Nat) (s : State) (row : Nat) : State :=
  let x := memAt s m
  if x.mapped.contains row then s
  else if spareRows m ≤ x.mapped.length then detect .mem 30 m s
  else setF (setMem s m { x with mapped := x.mapped ++ [row] }) (F.SPARES_FREE m) (spareRows m - x.mapped.length - 1)

/-- Step 4 of a wake from off for the memories of a domain: buffered candidates, then the rows of the newest record, are
mapped; poison lists and scrubbers start afresh. -/
def memWake (d : Nat) (s : State) : State :=
  if domMems d = [] then s
  else
    let slot := if mgmtWorks s || d == 1 then newest s .repair else none
    let s := each (domMems d) (fun s m => setMem s m MemSt.blank) s
    let s := match slot with
      | some _ => s
      | none => detect .mem 29 0 s
    let rows := match slot with
      | some i => recordRows s i
      | none => []
    let s := onlyIf (d == 1) (fun s =>
      let old := rows ++ (s.prot.buffer.map fun b => (b.1, 2, b.2)).filter fun b => !rows.any fun r => r.1 == b.1 && r.2.2 == b.2.2
      { s with prot := { s.prot with cands := old.take 509 } }) s
    each (domMems d) (fun s m =>
      let mine := (s.prot.buffer.filter fun b => b.1 == m).map (·.2) ++ (rows.filter fun r => r.1 == m).map fun r => r.2.2
      mine.foldl (mapRow m) s) s

/-- A new pass from row 0 at a wake from retention (R311). -/
def memResume (d : Nat) (s : State) : State := each (domMems d) (fun s m => setMem s m { memAt s m with row := 0 }) s

end Sys2Proof.Machine
end

