-- ==== Sys2Proof/Machine/Zones.lean ====
section
/-! DEFINITION. Zone content: what a section's records may name, the content it completes with its checks (02 R46-R48,
R445, and the content rules of 03 to 08), and what switching to it does (02 R56-R60, R66). -/
namespace Sys2Proof.Machine

/-! ### Ownership (01 R40; 02 R48; 18 R433) -/

/-- Carrier and unit of a peer-group zone. -/
def zoneC (z : Nat) : Nat := (z - 32) / 16
/-- Unit of a peer-group zone. -/
def zoneU (z : Nat) : Nat := (z - 32) % 16

/-- The register words that a zone's records may name, each with the bits the zone owns or seeds. -/
def ownedWords (z : Nat) : List (Nat × Nat) :=
  if z < 2 then
    let p := 0x00410200 + 0x40 * z
    [(0x0020000C + 0x10000 * z, 0xFFFF), (0x00200010 + 0x10000 * z, 0xFFFFFFFF), (p, 0xFFFF0000), (p + 4, 0xFFFF0000),
     (p + 8, 0xFFFFFFFF), (p + 0xC, 2)]
  else if z = 2 then (List.range 32).map fun g => (0x00240400 + 0x10 * g, 0xF07F7FFF)
  else if z = 3 then []
  else if z < 32 then
    [(0x00110400 + 0x40 * (z - 16), 0x000F0007), (0x00300C00 + 0x40 * (z - 16), 0x1FFF0000)] ++
      (List.range 8).flatMap fun j => [(0x00100000 + 0x1000 * j, 0x071F1F7F), (0x00100004 + 0x1000 * j, 0x3FF07C07)]
  else
    let o := 0x10000 * zoneC z
    let u := zoneU z
    [(0x00200200 + o + 4 * u, 0xFFFFFFFF), (0x00220400 + o + 0x20 * u, 0x3F1F0000), (0x00220404 + o + 0x20 * u, 0xFFFFFFFF),
     (0x00220600 + o + 0x40 * u, 0xFF1F), (0x00300400 + 0x40 * (z - 32), 0x7F13)] ++
      (List.range 32).flatMap fun k =>
        [(0x00200400 + o + 0x10 * k, 0x3F03), (0x00200404 + o + 0x10 * k, 0x3FFFFFFF), (0x00200408 + o + 0x10 * k, 0x07FF0000)]

/-! ### Records (02 R46-R48) -/

/-- Bits of a register word taken from a value. -/
def setWord (a m v : Nat) (ct : ZContent) : ZContent :=
  let old := ct.word a
  { ct with regs := tput ct.regs a (old - (old &&& m) + (v &&& m)) }

/-- One address of a REG_WRITE or REG_MASK record. A CODE_SELECT word changes only where a CODE_SELECT record gave one
(06 R169); the number of firkins follows FIRKIN_MAP (06 R184). -/
def regRec (z a m v : Nat) (ct : ZContent) : Except Nat ZContent :=
  match (ownedWords z).lookup a with
  | none => .error rResource
  | some own =>
    let m := m &&& own
    if 32 ≤ z ∧ a = 0x00300400 + 0x40 * (z - 32) then
      .ok { ct with code := ct.code.map fun w => w - (w &&& m) + (v &&& m) }
    else .ok (setWord a m v ct)

/-- A CODE_SELECT word is well formed (06 R169). -/
def codeOk (w : Nat) : Bool :=
  w &&& 0x7F13 == w && bitsOf w 0 2 != 3 && decide (8 ≤ bitsOf w 8 7) && decide (bitsOf w 8 7 ≤ 64)

/-- One pair of a FIRKIN_MAP record (07 R205). -/
def firkinRec (z : Nat) (ct : ZContent) (p : List Nat) : Except Nat ZContent :=
  let w0 := p.getD 0 0
  let w1 := p.getD 1 0
  let first := bitsOf w0 0 13
  let count := bitsOf w1 0 14
  let sc := bitsOf w0 24 5
  if w0 &&& 0x1F001FFF ≠ w0 ∨ w1 &&& 0x3FFF ≠ w1 ∨ count = 0 ∨ 8192 < first + count ∨ (z < 32 ∧ sc ≠ 0) then .error rFormat
  else .ok { ct with firkins := ct.firkins ++ [(sc, first, count)] }

/-- An index of the coefficient table that 08 R229 lists. -/
def coefIndex (i : Nat) : Bool := let k := i % 128; decide (i < 1024) && (decide (k ≤ 16) || (decide (32 ≤ k) && decide (k < 80)))

/-- A TABLE_FILL record (R48). -/
def tableRec (z : Nat) (ws : List Nat) (ct : ZContent) : Except Nat ZContent :=
  let es := (ws.drop 2).zipIdx.map fun e => (ws.getD 1 0 + e.2, e.1 % 1024)
  if ws.length < 2 then .error rFormat
  else if z < 16 ∨ 32 ≤ z ∨ ws.getD 0 0 ≠ 0x30 ∨ !es.all (fun e => coefIndex e.1) then .error rResource
  else .ok { ct with table := es.foldl (fun t e => tput t e.1 e.2) ct.table }

/-- A PERCH_ALLOC record: the perches are 0 to 1,535 (00 R7). -/
def perchRec (ws : List Nat) (ct : ZContent) : Except Nat ZContent :=
  let first := ws.getD 0 0
  let count := ws.getD 1 0
  if ws.length < 2 then .error rFormat
  else if count = 0 ∨ 1536 < first + count then .error rResource
  else .ok { ct with perches := ct.perches ++ [(first, count)] }

/-- An FW_BLOCK record: it lies in the instruction image of 512 KiB (12 R305). -/
def fwRec (ws : List Nat) (ct : ZContent) : Except Nat ZContent :=
  let off := ws.getD 0 0
  let bs := (ws.drop 1).flatMap (leBytes 4)
  if ws.isEmpty then .error rFormat
  else if 0x80000 < off + bs.length then .error rResource
  else .ok { ct with fw := ct.fw ++ [(off, bs)] }

/-- A record other than END of a section for zone `z` (R46-R48). A payload whose words do not make up its list is refused
with FORMAT. -/
def applyRec (z typ : Nat) (ws : List Nat) (ct : ZContent) : Except Nat ZContent :=
  let listed := (decide (1 ≤ typ) && decide (typ ≤ 8)) || typ == 0x7FFF
  if !listed then (if 2 ^ 15 ≤ typ then .ok ct else .error rFormat)
  else if (z == 3) != (typ == 8) then .error rResource
  else match typ with
    | 1 => if ws.length % 2 = 0 then
        (pieces 2 ws.length ws).foldlM (fun ct p => regRec z (p.getD 0 0) (2 ^ 32 - 1) (p.getD 1 0) ct) ct
      else .error rFormat
    | 2 => if ws.length % 3 = 0 then
        (pieces 3 ws.length ws).foldlM (fun ct p => regRec z (p.getD 0 0) (p.getD 1 0) (p.getD 2 0) ct) ct
      else .error rFormat
    | 3 => tableRec z ws ct
    | 4 => perchRec ws ct
    | 5 => .ok { ct with routes := ct.routes ++ [ws.flatMap (leBytes 4)] }
    | 6 => if z < 32 then .error rResource
      else if ws.length = 1 ∧ codeOk (ws.getD 0 0) then .ok { ct with code := some (ws.getD 0 0) } else .error rFormat
    | 7 => if z < 16 then .error rResource
      else if ws.length % 2 = 0 then (pieces 2 ws.length ws).foldlM (firkinRec z) ct else .error rFormat
    | 8 => fwRec ws ct
    | _ => .error rFormat

/-! ### Completed content (02 R445; 07 R207; 08 R215) -/

/-- No two ranges of a list meet. -/
def disjoint : List (Nat × Nat) → Bool
  | [] => true
  | a :: l => !l.any (overlap a) && disjoint l

/-- The subcarriers in content of a peer group. -/
def ctScs (ct : ZContent) (c u : Nat) : List Nat := List.range' (contentF ct (F.FIRST_SC c u)) (contentF ct (F.SC_COUNT c u))

/-- The fabric halves that hold the perches of content (01 R38). -/
def perchDoms (ct : ZContent) : List Nat :=
  [6, 7].filter fun d => ct.perches.any fun p => overlap p (768 * (d - 6), 768)

/-- The domains that a zone needs for the resources of content by its kind (01 R40; 14 R350). -/
def kindDoms (z : Nat) (ct : ZContent) : List Nat :=
  if z < 2 then [lineDom z, fabDom z]
  else if z = 2 then [8, 9]
  else if z = 3 then [1]
  else if z < 32 then lanesDoms (List.range' (z - 16) (ctWidth ct (z - 16))) ++ [8]
  else [lineDom (zoneC z), fabDom (zoneC z), 8]

/-- The domains that hold resources of content: those of its kind and the halves of its perches. -/
def contentDoms (z : Nat) (ct : ZContent) : List Nat := kindDoms z ct ++ (perchDoms ct).filter fun d => !(kindDoms z ct).contains d

/-- What another zone holds against a section under way (07 R207): its active content, unless an ARMED section of its own
replaces it, and its STAGING, ARMED or SWITCHING content. -/
def heldBy (s : State) (z : Nat) : List ZContent :=
  let x := zoneAt s z
  let st := getF s (F.ZONE_STATE z)
  let pend := match x.copied with
    | some p => [p.content]
    | none => match s.ld.sec with
      | some sec => if st = zStaging ∧ sec.hdr.zone = z then [sec.content] else []
      | none => []
  (if st = zArmed then [] else [x.active]) ++ pend

/-- What the other zones of a list hold. -/
def heldByOthers (s : State) (z : Nat) (zs : List Nat) : List (Nat × ZContent) :=
  (zs.filter (· != z)).flatMap fun y => (heldBy s y).map fun ct => (y, ct)

/-- The capacity of a subcarrier for codewords `x` and B (07 R203). -/
def capOf (x : CwCfg) (b : Nat) : Nat :=
  if x.mode = 0 ∨ 3 ≤ x.mode then 0 else 3 * (dataCws x (runCws x b 256) * x.dataBits / 2112) / 640

/-- The codewords of a subcarrier in content. -/
def ctCw (ct : ZContent) (c k : Nat) : CwCfg :=
  let w := ct.code.getD 0
  ⟨contentF ct (F.SHAPE_MODE c k), contentF ct (F.SHAPE_C0 c k), contentF ct (F.SHAPE_C1 c k), contentF ct (F.SHAPE_C2 c k), contentF ct (F.SHAPE_B c k),
   rateKb (bitsOf w 0 2), bitOf w 4⟩

/-- The shaping of a subcarrier is admissible (03 R88, R103). -/
def shapeOk (ct : ZContent) (c k : Nat) : Bool :=
  let x := ctCw ct c k
  decide (x.c0 + x.c1 + x.c2 ≤ 512) && decide (x.k ≤ 921) && decide (contentF ct (F.SHAPE_B c k) ≤ 32) && x.mode != 3 &&
    decide (contentF ct (F.SC_ATTEN c k) ≤ 1200)

/-- The firkins that content gives a subcarrier. -/
def ctAssigned (ct : ZContent) (k : Nat) : Nat :=
  ((ct.firkins.filter fun f => f.1 == k).map fun f => f.2.2).sum

/-- The values of a peer group's content (04 R129; 05 R160; 06 R169; 07 R204, R205). -/
def peerOk (z : Nat) (ct : ZContent) : Bool :=
  let c := zoneC z
  let u := zoneU z
  let ks := ctScs ct c u
  let lo := contentS ct (F.CD_MIN c u)
  let hi := contentS ct (F.CD_MAX c u)
  let n := contentF ct (F.NTAPS c u)
  let mu := contentF ct (F.EQ_MU c u)
  let pa := contentF ct (F.PILOT_AVG c u)
  decide (contentF ct (F.FIRST_SC c u) + contentF ct (F.SC_COUNT c u) ≤ 32) && decide (lo ≤ hi) &&
    decide (-12750 ≤ lo) && decide (hi ≤ 12750) && ks.all (shapeOk ct c) && decide (7 ≤ n) && decide (n ≤ 31) && n % 2 == 1 &&
    decide (6 ≤ mu) && decide (pa ≤ 7) && pa % 2 == 1 && ct.code.any codeOk && disjoint (firkinRanges ct) &&
    ct.firkins.all (fun f => ks.contains f.1) &&
    ks.all fun k => decide (ctAssigned ct k ≤ capOf (ctCw ct c k) (contentF ct (F.SHAPE_B c k)))

/-- A peer group's records name only its own subcarriers and firkins (02 R48; 07 R207). -/
def peerOwn (s : State) (z : Nat) (ct : ZContent) : Bool :=
  let c := zoneC z
  let base := 0x00200400 + 0x10000 * c
  let ks := ctScs ct c (zoneU z)
  (ct.regs.all fun e => !(decide (base ≤ e.1) && decide (e.1 < base + 0x200)) || ks.contains ((e.1 - base) / 16)) &&
    !(heldByOthers s z peerZones).any fun h => anyOverlap (firkinRanges ct) (firkinRanges h.2)

/-- The client, width and rate combinations of 08 R216. -/
def clientOk (client width rate : Nat) : Bool :=
  (match client with
   | 1 => [(4, 1), (2, 2), (1, 3)]
   | 2 => [(4, 2), (2, 3), (1, 4)]
   | 3 => [(4, 3), (2, 4), (1, 5)]
   | 4 => [(8, 3), (4, 4), (2, 5)]
   | 5 => [(8, 4), (4, 5)]
   | _ => []).contains (width, rate)

/-- The firkins that a client needs (06 Client mapping). -/
def clientCount (client : Nat) : Nat := if client = 0 then 0 else 256 * 2 ^ (client - 1)

/-- The values of a lane's settings (08 R225, R240, R241). -/
def laneOk (ct : ZContent) (j rate : Nat) : Bool :=
  let pre := contentF ct (F.LANE_PRE j)
  let post := contentF ct (F.LANE_POST j)
  let swing := contentF ct (F.LANE_SWING j)
  contentF ct (F.LANE_RATE j) == rate && decide (pre ≤ 20) && decide (post ≤ 16) && decide (pre + post ≤ 32) &&
    decide (40 ≤ swing) && decide (swing ≤ if rate = 5 then 80 else 100) && decide (12 ≤ contentF ct (F.ECHO_START j))

/-- The values of a lane group's content (06 R184; 08 R215, R216, R225, R241). -/
def groupOk (z : Nat) (ct : ZContent) : Bool :=
  let l := z - 16
  let w := ctWidth ct l
  let rate := contentF ct (F.LANE_RATE l)
  let client := contentF ct (F.GRP_CLIENT l)
  [1, 2, 4, 8].contains w && l % w == 0 && clientOk client w rate && (List.range' l w).all (fun j => laneOk ct j rate) &&
    disjoint (firkinRanges ct) && ((firkinRanges ct).map (·.2)).sum == clientCount client

/-- The rate family of a RATE code (08 R217). -/
def rateFamily (r : Nat) : Nat := if r = 1 then 2 else if r = 5 then 3 else 1

/-- The families that content uses in a half. -/
def halfFamilies (h : Nat) (y : Nat) (ct : ZContent) : List Nat :=
  ((List.range' (y - 16) (ctWidth ct (y - 16))).filter fun j => j / 4 == h).map fun j => rateFamily (contentF ct (F.LANE_RATE j))

/-- A lane group's records name only its own lanes and firkins, and no half needs a third family (02 R48; 07 R207; 08
R215, R217). -/
def groupOwn (s : State) (z : Nat) (ct : ZContent) : Bool :=
  let l := z - 16
  let mine := (l, ctWidth ct l)
  let others := heldByOthers s z laneZones
  (ct.regs.all fun e => !decide (e.1 < 0x00108000) || overlap mine ((e.1 - 0x00100000) / 0x1000, 1)) &&
    (ct.table.all fun e => overlap mine (e.1 / 128, 1)) &&
    !(others.any fun h => overlap mine (h.1 - 16, ctWidth h.2 (h.1 - 16)) || anyOverlap (firkinRanges ct) (firkinRanges h.2)) &&
    [0, 1].all fun h =>
      decide ((halfFamilies h z ct ++ others.flatMap fun o => halfFamilies h o.1 o.2).eraseDups.length ≤ 2)

/-- The values of the Fathom allocation (05 R134). -/
def fathomOk (ct : ZContent) : Bool :=
  let run (g : Nat) : Nat × Nat := (contentF ct (F.PAGE_BASE g), contentF ct (F.PAGE_COUNT g))
  let used := (List.range 32).filter fun g => (run g).2 != 0
  disjoint (used.map run) &&
    used.all fun g => decide ((run g).1 + (run g).2 ≤ 256) && (run g).2 % 2 == 1 && contentF ct (F.FTH_REACH g) != 0

/-- The values of a carrier's content (03 R103). -/
def carrierOk (c : Nat) (ct : ZContent) : Bool :=
  let d := contentS ct (F.D_PRE c)
  let r := contentF ct (F.TX_RMS c)
  decide (-20000 ≤ d) && decide (d ≤ 20000) && decide (512 ≤ r) && decide (r ≤ 4096)

/-- The values of completed content. -/
def valuesOk (z : Nat) (ct : ZContent) : Bool :=
  if z < 2 then carrierOk z ct else if z = 2 then fathomOk ct else if z = 3 then true
  else if z < 32 then groupOk z ct else peerOk z ct

/-- Every resource that content names is the zone's: no perch of another zone (01 R40), and the rest by kind. -/
def ownedOk (s : State) (z : Nat) (ct : ZContent) : Bool :=
  !((heldByOthers s z zonesAll).any fun h => anyOverlap ct.perches h.2.perches) &&
    (if z < 16 then true else if z < 32 then groupOwn s z ct else peerOwn s z ct)

/-- The checks of step 10 of R50 on completed content: the code of a failure. -/
def contentBad (s : State) (z : Nat) (ct : ZContent) : Option Nat :=
  if !valuesOk z ct then some rFormat else if !ownedOk s z ct then some rResource else none

/-! ### Fields of content -/

/-- The transmit-side and local fields of a peer group's content (02 R57; 03 R93, R103). -/
def peerTxFields (z : Nat) (ct : ZContent) : List (Fld × Nat) :=
  let c := zoneC z
  let w := ct.code.getD 0
  ctField ct (F.TXG_TAG c (zoneU z)) :: (F.FEC_RATE (z - 32), bitsOf w 0 2) :: (F.OUTER_EN (z - 32), bitsOf w 4 1) ::
    (ctScs ct c (zoneU z)).flatMap fun k =>
      let x := ctCw ct c k
      let b := contentF ct (F.SHAPE_B c k)
      [F.SHAPE_B c k, F.SHAPE_MODE c k, F.SHAPE_C0 c k, F.SHAPE_C1 c k, F.SHAPE_C2 c k, F.SC_ATTEN c k].map (ctField ct) ++
        [(F.SHAPE_K c k, x.k), (F.SHAPE_ENTROPY c k, if x.mode = 0 then 0 else if x.mode = 1 then 512 + x.k else 512 - 4 * b),
         (F.SC_CAP (32 * c + k), capOf x b), (F.SC_ASSIGNED (32 * c + k), ctAssigned ct k)]

/-- The receive-side fields of a peer group's content (04 R129; 05 R160; 06 R169). -/
def peerRxFields (z : Nat) (ct : ZContent) : List (Fld × Nat) :=
  let c := zoneC z
  let u := zoneU z
  (F.AVG_ITER (z - 32), bitsOf (ct.code.getD 0) 8 7) ::
    [F.FIRST_SC c u, F.SC_COUNT c u, F.CD_MIN c u, F.CD_MAX c u, F.NTAPS c u, F.EQ_MU c u, F.PILOT_AVG c u].map (ctField ct)

/-- The fields of a lane's settings (08 R241). -/
def laneSettings (j : Nat) : List Fld :=
  [F.LANE_RATE j, F.LANE_PRE j, F.LANE_POST j, F.LANE_SWING j, F.ECHO_START j, F.CTLE_INIT j, F.PRECODE j, F.RX_INV j, F.TX_INV j]

/-- The fields of a lane group's content (08 R241; 06 R184). -/
def groupFields (z : Nat) (ct : ZContent) : List (Fld × Nat) :=
  let l := z - 16
  (F.N_FIRKIN l, clientCount (contentF ct (F.GRP_CLIENT l))) :: ctField ct (F.GRP_WIDTH l) :: ctField ct (F.GRP_CLIENT l) ::
    (List.range' l (ctWidth ct l)).flatMap fun j =>
      (laneSettings j).map (ctField ct)

/-- The fields of a carrier's content but its seeds. -/
def carrierFields (c : Nat) (ct : ZContent) : List (Fld × Nat) := [F.D_PRE c, F.TX_RMS c, F.DAC_GAIN c].map (ctField ct)

/-- Every field of a zone's content but a carrier's seeds. -/
def zoneFields (z : Nat) (ct : ZContent) : List (Fld × Nat) :=
  if z < 2 then carrierFields z ct else if z = 2 then fathomFields ct else if z = 3 then []
  else if z < 32 then groupFields z ct else peerTxFields z ct ++ peerRxFields z ct

/-! ### Firkin maps -/

/-- The firkins of a range. -/
def rangeOf (r : Nat × Nat) : List Nat := List.range' r.1 r.2

/-- A firkin map with the firkins of group `g` replaced by those of content. -/
def mapLine (m : Tab Nat) (g : Nat) (ct : ZContent) : Tab Nat :=
  let kept := m.filter fun e => (e.2 - 1) / 32 != g
  ct.firkins.foldl (fun m f => (rangeOf f.2).foldl (fun m x => tput m x (1 + (32 * g + f.1))) m) kept

/-- The client map with the firkins of the lane group at `l` replaced. -/
def mapClient (m : Tab Nat) (l : Nat) (ct : ZContent) : Tab Nat :=
  let kept := m.filter fun e => e.2 != 1 + l
  ct.firkins.foldl (fun m f => (rangeOf f.2).foldl (fun m x => tput m x (1 + l)) m) kept

/-- The firkins whose assignment differs between two maps. -/
def reassigned (old new : Tab Nat) : List Nat :=
  ((old.map (·.1)) ++ (new.map (·.1)).filter fun f => (tfind old f).isNone).filter fun f => tget old f 0 != tget new f 0

/-- A firkin takes another place on the transmit side (02 R59; 03 R72): of one removed from peer group `g` the queued blocks
are dropped and counted; FSEQ restarts at 0 with the first block that is still queued. -/
def txReassign (g : Nat) (s : State) (f : Nat) : State :=
  let q := tget s.tx.queue f []
  let gone := (tget s.fec.line f 0 - 1) / 32 != g || tget s.fec.line f 0 == 0
  let s := { s with tx := { s.tx with fseq := tdel s.tx.fseq f } }
  if q.isEmpty then s
  else if gone then detect .fec 5 0 (firkinCount { s with tx := { s.tx with queue := tdel s.tx.queue f } } f 3 q.length)
  else
    { s with tx := { s.tx with
        fseq := tset s.tx.fseq f (q.length % 65536) 0
        queue := tset s.tx.queue f (q.zipIdx.map fun e => { e.1 with fseq := e.2 % 65536 }) [] } }

/-- The transmit map of group `g` becomes that of content. -/
def lineTo (g : Nat) (ct : ZContent) (s : State) : State :=
  if !isOn s 8 then s
  else
    let new := mapLine s.fec.line g ct
    let fs := reassigned s.fec.line new
    each fs (txReassign g) { s with fec := { s.fec with line := new } }

/-- The receive map of group `g` becomes that of content: one COMMIT mark on each firkin reassigned (02 R59; 06 R181). -/
def rxLineTo (g : Nat) (ct : ZContent) (s : State) : State :=
  if !isOn s 8 then s
  else
    let new := mapLine s.fec.rxLine g ct
    let fs := reassigned s.fec.rxLine new
    each fs commitMark { s with fec := { s.fec with rxLine := new } }

/-! ### Switching -/

/-- The subcarriers that peer group `u` gives up, and that no other group sends on, have no capacity and no firkins. -/
def releaseScs (c u : Nat) (old new : List Nat) (s : State) : State :=
  let taken (k : Nat) : Bool :=
    (List.range 16).any fun v => v != u && present s (32 + unitKey c v) && (txScs s c v).contains k
  setFs s ((old.filter fun k => !new.contains k && !taken k).flatMap fun k =>
    [(F.SC_CAP (32 * c + k), 0), (F.SC_ASSIGNED (32 * c + k), 0)])

/-- The transmit side of a peer group switches (02 R57-R59; 03 R77, R81). -/
def peerTx (z epoch : Nat) (ct : ZContent) (s : State) : State :=
  let g := z - 32
  let s := releaseScs (zoneC z) (zoneU z) (ctScs (zoneAt s z).active (zoneC z) (zoneU z)) (ctScs ct (zoneC z) (zoneU z)) s
  let s := lineTo g ct (putFields (peerTxFields z ct) s)
  startRun g { s with tx := { s.tx with epoch := tset s.tx.epoch g epoch 0 } }

/-- The receive side of a peer group switches (04 R127; 06 R171, R181). -/
def peerRx (z : Nat) (ct : ZContent) (s : State) : State :=
  let c := zoneC z
  let u := zoneU z
  let g := z - 32
  let range := (getF s (F.FIRST_SC c u), getF s (F.SC_COUNT c u))
  let moved := range != (contentF ct (F.FIRST_SC c u), contentF ct (F.SC_COUNT c u))
  let cd := getF s (F.CD_MIN c u) != contentF ct (F.CD_MIN c u) || getF s (F.CD_MAX c u) != contentF ct (F.CD_MAX c u)
  let avg := getF s (F.AVG_ITER g) != bitsOf (ct.code.getD 0) 8 7
  let s := onlyIf moved (unitIdle c u) s
  let n := getF s (F.NTAPS c u)
  let s := refitTaps c u n (onlyIf avg (resetBank g) (putFields (peerRxFields z ct) s))
  let d := getS s (F.D_EST c u)
  let out := decide (d < cdMin s c u) || decide (cdMax s c u < d)
  let s := onlyIf (cd && out && getF s (F.ACQ_STATE c u) != 0) (enterScan c u) s
  settle (rxLineTo g ct s)

/-- The client mapper enters HUNT (06 R188). -/
def mapperHunt (l : Nat) (s : State) : State :=
  if getB s (F.CLI_SYNC l) then toHunt l s else setMap s l { mapAt s l with words := [] }

/-- At a commit the mapper enters HUNT and starts again at the client's first firkin. -/
def mapperReset (l : Nat) (s : State) : State :=
  if !isOn s 8 then s
  else
    let s := mapperHunt l s
    setMap s l { mapAt s l with next := 0 }

/-- The lanes that a group gives up, and that no other group holds, are unused: RATE code 0 and no settings (08 R212). -/
def releaseLanes (l : Nat) (old new : List Nat) (s : State) : State :=
  let taken (k : Nat) : Bool := (List.range 8).any fun m => m != l && present s (16 + m) && (grpLanes s m).contains k
  putFields ((old.filter fun k => !new.contains k && !taken k).flatMap fun k => (laneSettings k).map fun f => (f, 0)) s

/-- LOCKED of a group's lanes follows the rate now in force (08 R231). -/
def relockGroup (l : Nat) (s : State) : State :=
  each ((List.finRange 8).filter fun k => (grpLanes s l).contains k.val && getB s (F.LOCKED k.val)) (fun s k => relock k l s) s

/-- A lane group switches (02 R57; 06 R188; 08 R229, R232). -/
def groupSwitch (z : Nat) (ct : ZContent) (s : State) : State :=
  let l := z - 16
  let key (s : State) := (getF s (F.LANE_RATE l), getF s (F.GRP_WIDTH l), getF s (F.GRP_CLIENT l))
  let was := key s
  let s := releaseLanes l (grpLanes s l) (List.range' l (ctWidth ct l)) (adaptGroup l s)
  let s := putFields (groupFields z ct) s
  let changed := was != key s
  let s := if isOn s 8 then
      { s with
        fec := { s.fec with client := mapClient s.fec.client l ct }
        tx := { s.tx with chunk := tdel s.tx.chunk l } }
    else s
  let s := setZone s z { zoneAt s z with active := ct }
  let s := initGroup l (onlyIf changed (groupToFull l) s)
  mapperReset l (relockGroup l s)

/-- The transmit side, or what is local, of a zone switches to content with an epoch. -/
def zoneTx (z epoch : Nat) (ct : ZContent) (s : State) : State :=
  if z < 2 then
    let s := putFields (carrierFields z ct) s
    onlyIf (portOn s z) (portSeed z ct) s
  else if 32 ≤ z then peerTx z epoch ct s
  else s

/-- The receive side of a zone switches, and what is switched with it: a lane group and the Fathom allocation whole. -/
def zoneRx (z : Nat) (ct : ZContent) (s : State) : State :=
  let s := if z = 2 then fathomSwitch (List.range 32) ct s else if 16 ≤ z ∧ z < 32 then groupSwitch z ct s
    else if 32 ≤ z then peerRx z ct s else s
  setZone s z { zoneAt s z with active := ct }

end Sys2Proof.Machine
end

