-- ==== Sys2Proof/Machine/Loader.lean ====
section
/-! DEFINITION. The loader (02 R43-R56, R446, R447): the stream, image and section headers, records, arming, and the
ends of loads and sections. -/
namespace Sys2Proof.Machine

/-! ### Keys and digests (R43, R49) -/

/-- The public key of a slot that is programmed and not revoked (R49; 16 R401). -/
def keyOf (s : State) (slot : Nat) : Option (Nat × Nat) :=
  if slot < 4 && (fuseAt s (6 + slot)).marker && !fuseBad s (6 + slot) && !(fuseAt s (10 + slot)).marker &&
      !fuseBad s (10 + slot) then
    some (bitsOf (fuseAt s (6 + slot)).data 0 256, bitsOf (fuseAt s (6 + slot)).data 256 256)
  else none

/-- The signature of a header of 128 bytes verifies against a key: over the SHA-256 of its first 64 bytes. -/
def headSigned (k : Nat × Nat) (h : List Byte) : Bool := ecdsaOk k.1 k.2 (sha256 (h.take 64)) ((h.drop 64).take 64)

/-- KEY and SIG of a header whose KEY_SLOT stands at an offset: 0 when it passes. -/
def keyCheck (s : State) (h : List Byte) (slotOff : Nat) : Nat :=
  match keyOf s (leAt h slotOff 1) with
  | none => 0xE
  | some k => if headSigned k h then 0 else rSig

/-! ### Images (R44, R446) -/

/-- The magic numbers. -/
def imgMagic : Nat := 0x424D534E
def secMagic : Nat := 0x53454354

/-- IMAGE_SEQ, IMAGE_LEN, SECTION_COUNT and DIGEST of an image header. -/
def imgOf (h : List Byte) : ImgSt := ⟨leAt h 0x10 4, leAt h 0x14 4, leAt h 0x18 2, (h.drop 0x20).take 32, [], []⟩

/-- Steps 1 to 5 of R446: 0 when the header passes. -/
def imgHeadCheck (s : State) (h : List Byte) : Nat :=
  let len := leAt h 0x14 4
  let n := leAt h 0x18 2
  if leAt h 0 4 ≠ imgMagic ∨ leAt h 4 2 ≠ 1 ∨ leAt h 7 1 ≠ 0 ∨ leAt h 0x1A 6 ≠ 0 ∨ n = 0 ∨ 64 < n ∨ len % 4 ≠ 0 ∨ len < 256 ∨
      2 ^ 24 < len then rFormat
  else if leAt h 8 4 ≠ 0x3208 ∨ leAt h 0xC 4 ≠ 0xA1 then 3
  else if keyCheck s h 6 ≠ 0 then keyCheck s h 6
  else if graveLocked s then 0xD
  else 0

/-- The offsets and lengths of the sections that lie back to back in image bytes from 0x80 on, none where they do not
make up the layout of step 6. -/
def imgLayout : Nat → Nat → List Byte → Option (List (Nat × Nat))
  | 0, _, bs => if bs.isEmpty then some [] else none
  | n + 1, off, bs =>
    let len := leAt bs 4 4
    if len % 4 ≠ 0 ∨ len < 128 ∨ bs.length < len then none
    else (imgLayout n (off + len) (bs.drop len)).map fun l => (off, len) :: l

/-- Steps 6 and 7 of R446 on a whole image: its sections with their offsets, or a code. -/
def imgBodyCheck (i : ImgSt) (body : List Byte) : Except Nat (List (Nat × List Byte)) :=
  match imgLayout i.count 0x80 body with
  | none => .error rFormat
  | some l =>
    let secs := l.map fun e => (e.1, (body.drop (e.1 - 0x80)).take e.2)
    let zones := secs.map fun e => leAt e.2 8 1
    if zones.eraseDups.length ≠ zones.length then .error rFormat
    else if sha256 body ≠ i.digest then .error rSig
    else .ok secs

/-- An image is refused as a whole (R446). -/
def imageFail (seq code : Nat) (s : State) : State :=
  let s := setFs s [(F.LAST_ZONE, 0xFF), (F.CFG_LAST_RESULT, code)]
  detect .cfg 1 0 (offerCommit s 0xFF code false 0 0 0 seq)

/-! ### Sections (R45, R50) -/

/-- The fields of a section header. -/
def secOf (h : List Byte) : SecHdr :=
  ⟨leAt h 4 4, leAt h 8 1, leAt h 9 1, leAt h 0xA 1, leAt h 0xC 2, leAt h 0xE 2, leAt h 0x10 4, leAt h 0x14 4, leAt h 0x18 4⟩

/-- The DIGEST of a section header. -/
def secDigest (h : List Byte) : List Byte := (h.drop 0x20).take 32

/-- SEC_LEN is one that a section can have. -/
def secLenOk (len : Nat) : Bool := len % 4 == 0 && decide (128 < len) && decide (len ≤ 2 ^ 21)

/-- Steps 1 to 4 of R50; at start-up COMMIT_MODE is ignored (R62). -/
def secHeadCheck (s : State) (startup : Bool) (h : List Byte) : Nat :=
  let x := secOf h
  if leAt h 0 4 ≠ secMagic ∨ !secLenOk x.len ∨ !zoneOk x.zone ∨ (1 < x.mode ∧ !startup) ∨ leAt h 0xB 1 ≠ 0 then rFormat
  else if leAt h 0x1C 4 ≠ 0x3208 then 3
  else keyCheck s h 0xA

/-- Shadow space in use: the section being staged (R56). -/
def shadowUsed (s : State) : Nat := (s.ld.sec.map fun x => x.hdr.len).getD 0

/-- Steps 5 to 9 of R50. -/
def secZoneCheck (s : State) (x : SecHdr) : Nat :=
  if graveLocked s then 0xD
  else if getF s (F.ZONE_STATE x.zone) ≠ zIdle then 8
  else if !after x.epoch (getF s (F.ZONE_EPOCH x.zone)) 16 then 4
  else if x.build < getF s (F.ZONE_BUILD x.zone) then 5
  else if 2 ^ 21 < shadowUsed s + x.len then 0xA
  else 0

/-- A section is refused at its header (R69). -/
def secRefuse (x : SecHdr) (code : Nat) (s : State) : State :=
  let s := onlyIf (zoneOk x.zone) (fun s => setF s (F.ZONE_RESULT x.zone) code) s
  let old := if zoneOk x.zone then getF s (F.ZONE_EPOCH x.zone) else 0
  let s := setFs s [(F.LAST_ZONE, x.zone), (F.CFG_LAST_RESULT, code)]
  detect .cfg 1 0 (offerCommit s x.zone code false old x.epoch 0 x.build)

/-! ### Cancelling (R56, R447; 07 R208) -/

/-- A section of a streamed image that is STAGING or ARMED (R447). -/
def ofImage (s : State) (z : Nat) : Bool :=
  match (zoneAt s z).copied with
  | some p => p.inImage
  | none => s.ld.sec.any fun x => x.hdr.zone == z && x.inImage

/-- More than a stream can hold: the rest of the stream is passed over. -/
def skipAll : Nat := 2 ^ 32

/-- A streamed image is found unacceptable: its pending sections are cancelled, the rest is passed over (R447). -/
def imageCancel (code : Nat) (s : State) : State :=
  match s.ld.img with
  | none => s
  | some i =>
    let s := each (i.zones.filter (ofImage s)) (fun s z => cancel z code s) s
    let s := imageFail i.seq code s
    { s with ld := { s.ld with img := none, buf := [], skip := skipAll } }

/-! ### The stream (R51, R447) -/

/-- Pass over what is to be skipped. -/
def ldTrim (s : State) : State :=
  let n := min s.ld.skip s.ld.buf.length
  { s with ld := { s.ld with buf := s.ld.buf.drop n, skip := s.ld.skip - n, pos := s.ld.pos + n } }

/-- A load from a source is in progress. -/
def loading (s : State) (src : Nat) : Bool := isOn s 1 && getF s F.LOADER_STATE != 0 && s.ld.src == src

/-- Stream bytes arrive; beyond IMAGE_LEN a whole image has none. -/
def feed (bs : List Byte) (s : State) : State :=
  match s.ld.img with
  | none => ldTrim { s with ld := { s.ld with buf := s.ld.buf ++ bs } }
  | some i =>
    let bs := bs.take (i.len - 128 - i.body.length)
    ldTrim { s with ld := { s.ld with buf := s.ld.buf ++ bs, img := some { i with body := i.body ++ bs } } }

/-- A write of CFG_LOAD_DATA. -/
def cfgLoadData (v : Nat) (s : State) : State :=
  if loading s 3 && getF s F.LOAD_SRC == 3 then feed (leBytes 4 v) s else s

/-- CFG_LOAD_DATA (R51). -/
def execCfgLoadData (data : Word) (s : State) : Host.Outcome State Fault Refusal := .next (cfgLoadData data.toNat s)

/-- START with a source: ignored with a reserved source and while the loader is not IDLE. -/
def loadStart (src : Nat) (s : State) : State :=
  if !isOn s 1 then s
  else
    let s := setF s F.LOAD_SRC src
    if 4 ≤ src ∨ getF s F.LOADER_STATE ≠ 0 then s
    else
      let s := setF { s with ld := { LoaderSt.idle with src := src } } F.LOADER_STATE 1
      if src < 2 then storeWant s 3 else s

/-- LOAD_START (R51). -/
def execLoadStart (src : BitVec 3) (s : State) : Host.Outcome State Fault Refusal := .next (loadStart src.toNat s)

/-- ABORT with a zone: an ABORT in any other state than STAGING or ARMED is ignored. -/
def abortZone (z : Nat) (s : State) : State :=
  if !isOn s 1 then s
  else
    let s := setF s F.ABORT_ZONE z
    if zoneOk z then cancel z rAborted s else s

/-- ABORT (R56). -/
def execAbort (zone : Byte) (s : State) : Host.Outcome State Fault Refusal := .next (abortZone zone.toNat s)

/-- The address of an image in the store (15 R371). -/
def imageAddr (slot : Nat) : Nat := 0x01000000 * slot

/-- The header of an image in the store. -/
def storeHead (s : State) (slot : Nat) : List Byte := flashRead s.st.cells (imageAddr slot) 128

/-- The bytes of an image in the store after its header. -/
def storeBody (s : State) (slot len : Nat) : List Byte := flashRead s.st.cells (imageAddr slot + 128) (len - 128)

/-- The checks of R446 on an image of the store: its sections with their offsets, or a code. -/
def storeImage (s : State) (slot : Nat) : Except Nat (List (Nat × List Byte)) :=
  let h := storeHead s slot
  if imgHeadCheck s h ≠ 0 then .error (imgHeadCheck s h)
  else imgBodyCheck (imgOf h) (storeBody s slot (imgOf h).len)

/-- The check of R49 on a whole section: 0 when it is accepted. -/
def secVerify (s : State) (bs : List Byte) : Nat :=
  if keyCheck s bs 0xA ≠ 0 then keyCheck s bs 0xA
  else if sha256 ((bs.drop 0x80).take (leAt bs 4 4 - 0x80)) ≠ secDigest bs then rSig
  else 0

/-- STORE_IMAGE_READ_DONE (R51): the whole image is checked under R446 and every section under R49 before any is taken. The
first section that R49 does not accept is refused with its code, as at start-up (R62 step 5), and nothing is loaded. -/
def storeRead (s : State) : State :=
  let slot := s.ld.src
  if !(isOn s 1 && getF s F.LOADER_STATE == 1 && decide (slot < 2) && s.ld.sec.isNone && s.ld.buf.isEmpty) then s
  else
    let s := storeDone s 3
    let seq := (imgOf (storeHead s slot)).seq
    match storeImage s slot with
    | .error code => loadEnd (imageFail seq code s)
    | .ok secs =>
      match secs.find? fun e => secVerify s e.2 != 0 with
      | some e => loadEnd (secRefuse (secOf e.2) (secVerify s e.2) s)
      | none => nextSection { s with ld := { s.ld with todo := secs } }

/-- STORE_IMAGE_READ_DONE (R51). -/
def execStoreImageReadDone (s : State) : Host.Outcome State Fault Refusal := .next (storeRead s)

/-- The loader waits for a header of a stream with its 128 bytes there. -/
def headReady (s : State) : Bool :=
  isOn s 1 && getF s F.LOADER_STATE == 1 && s.ld.sec.isNone && s.ld.skip == 0 && decide (128 ≤ s.ld.buf.length)

/-- The stream's first word stands at the front and is MAGIC. -/
def atImage (s : State) : Bool :=
  decide (2 ≤ s.ld.src) && s.ld.pos == 0 && s.ld.img.isNone && leAt s.ld.buf 0 4 == imgMagic

/-- What earlier streamed images have armed no longer belongs to the image in progress (R447). -/
def forgetImages (s : State) : State :=
  { s with zones := s.zones.map fun e => (e.1, { e.2 with copied := e.2.copied.map fun p => { p with inImage := false } }) }

/-- Take `n` bytes from the front. -/
def takeBytes (n : Nat) (s : State) : State := { s with ld := { s.ld with buf := s.ld.buf.drop n, pos := s.ld.pos + n } }

/-- IMAGE_HEADER (R446): steps 1 to 5 on the header of a stream. -/
def imageHeader (s : State) : State :=
  let s := ldTrim s
  if !headReady s || !atImage s then s
  else
    let h := s.ld.buf.take 128
    let i := imgOf h
    let s := takeBytes 128 s
    if imgHeadCheck s h ≠ 0 then
      let s := imageFail i.seq (imgHeadCheck s h) s
      { s with ld := { s.ld with buf := [], skip := skipAll } }
    else
      let body := s.ld.buf.take (i.len - 128)
      forgetImages { s with ld := { s.ld with buf := body, img := some { i with body := body } } }

/-- IMAGE_HEADER (R446). -/
def execImageHeader (s : State) : Host.Outcome State Fault Refusal := .next (imageHeader s)

/-- Step 6 of R446 at a section header of a streamed image: `left` bytes of the image stand from the header on. -/
def layoutStep (i : ImgSt) (x : SecHdr) (left : Nat) : Bool :=
  x.len % 4 == 0 && decide (128 ≤ x.len) && decide (x.len ≤ left) && decide (i.zones.length < i.count) && !i.zones.contains x.zone

/-- A section header at the front of the stream (R50 steps 1 to 9, R56). -/
def sectionHeader (s : State) : State :=
  let s := ldTrim s
  if !headReady s || atImage s then s
  else
    let h := s.ld.buf.take 128
    let x := secOf h
    let off := s.ld.pos
    let lay := s.ld.img.all fun i => layoutStep i x (i.len - off)
    if !lay then imageCancel rFormat s
    else
      let s := { s with ld := { s.ld with img := s.ld.img.map fun i => { i with zones := i.zones ++ [x.zone] } } }
      let s := takeBytes 128 s
      let code := if secHeadCheck s false h ≠ 0 then secHeadCheck s false h else secZoneCheck s x
      if code ≠ 0 then
        let s := secRefuse x code s
        let sane := leAt h 0 4 == secMagic && secLenOk x.len
        nextSection { s with ld := { s.ld with skip := if sane then x.len - 128 else skipAll } }
      else
        let src := if s.ld.src < 2 then 1 + s.ld.src else 3
        let sec : SecSt := ⟨x, secDigest h, [], ZContent.empty, src, if src = 3 then 0 else off, s.ld.img.isSome⟩
        setFs { s with ld := { s.ld with sec := some sec } }
          [(F.ZONE_STATE x.zone, zStaging), (F.PEND_EPOCH x.zone, x.epoch), (F.SWITCHED_TX x.zone, 0),
           (F.SWITCHED_RX x.zone, 0), (F.LOADER_STATE, 2)]

/-- SECTION_HEADER (R50). -/
def execSectionHeader (s : State) : Host.Outcome State Fault Refusal := .next (sectionHeader s)

/-! ### Records (R46, R48, R50 step 10) -/

/-- TYPE and the payload words of the record at the front of bytes, none where it is not there whole or longer than a record can
be (R46). -/
def recordAt (bs : List Byte) : Option (Nat × List Nat × Nat) :=
  let n := 4 + 4 * leAt bs 2 2
  if bs.length < 4 ∨ bs.length < n ∨ 16383 < leAt bs 2 2 then none
  else some (leAt bs 0 2, (pieces 4 (leAt bs 2 2) ((bs.take n).drop 4)).map ofLe, n)

/-- The section that is being staged, with bytes of it still to take. -/
def stagingSec (s : State) : Option SecSt := if isOn s 1 && getF s F.LOADER_STATE == 2 then s.ld.sec else none

/-- The record at the front runs past the section's end, or is longer than a record can be. -/
def overruns (x : SecSt) (bs : List Byte) : Bool :=
  decide (4 ≤ bs.length) && (decide (16383 < leAt bs 2 2) || decide (x.hdr.len < 128 + x.body.length + 4 + 4 * leAt bs 2 2))

/-- Take the record of `n` bytes at the front into the section. -/
def takeRecord (x : SecSt) (ct : ZContent) (n : Nat) (s : State) : State :=
  let x := { x with body := x.body ++ s.ld.buf.take n, content := ct }
  takeBytes n { s with ld := { s.ld with sec := some x } }

/-- A record other than END is staged. A steward firmware section comes only from the store (R52). A section whose records fill
SEC_LEN without an END is refused with FORMAT (R46). -/
def recordStaged (s : State) : State :=
  match stagingSec s with
  | none => s
  | some x =>
    if overruns x s.ld.buf then cancel x.hdr.zone rFormat s
    else match recordAt s.ld.buf with
      | none => s
      | some (typ, ws, n) =>
        if typ = 0x7FFF then s
        else if x.hdr.zone = 3 ∧ x.src = 3 then cancel 3 rResource s
        else match applyRec x.hdr.zone typ ws x.content with
          | .error code => cancel x.hdr.zone code s
          | .ok ct =>
            let s := takeRecord x ct n s
            if x.hdr.len ≤ 128 + x.body.length + n then cancel x.hdr.zone rFormat s else s

/-- RECORD_STAGED (R48). -/
def execRecordStaged (s : State) : Host.Outcome State Fault Refusal := .next (recordStaged s)

/-- The number of records in a section's bytes. -/
def countRecs : Nat → List Byte → Nat
  | 0, _ => 0
  | n + 1, bs => if bs.length < 4 then 0 else 1 + countRecs n (bs.drop (4 + 4 * leAt bs 2 2))

/-- What END of a whole section body finds wrong: RECORD_COUNT, the end of the section, DIGEST. -/
def bodyBad (x : SecSt) (body : List Byte) : Option Nat :=
  if body.length + 128 ≠ x.hdr.len ∨ countRecs body.length body ≠ x.hdr.recs then some rFormat
  else if sha256 body ≠ x.digest then some rSig
  else none

/-- FEC and every domain that holds resources of the zone, before and after, are ON (R56). -/
def zoneOn (s : State) (z : Nat) (ct : ZContent) : Bool := (8 :: contentDoms z (zoneAt s z).active ++ contentDoms z ct).all (isOn s)

/-- END arrives (R56): DIGEST and completed content are checked, and the copy to the inactive banks starts. -/
def sectionEnd (s : State) : State :=
  match stagingSec s with
  | none => s
  | some x =>
    if overruns x s.ld.buf then cancel x.hdr.zone rFormat s
    else match recordAt s.ld.buf with
      | none => s
      | some (typ, ws, n) =>
        let z := x.hdr.zone
        let body := x.body ++ s.ld.buf.take n
        if typ ≠ 0x7FFF then s
        else if ws ≠ [] then cancel z rFormat s
        else if z = 3 ∧ x.src = 3 then cancel z rResource s
        else match (bodyBad x body).orElse fun _ => contentBad s z x.content with
          | some code => cancel z code s
          | none =>
            if !zoneOn s z x.content then cancel z rAborted s
            else
              let p : Pending := ⟨x.content, x.hdr.epoch, x.hdr.build, x.src, x.off, x.inImage, x.hdr.tx, x.hdr.rx, x.hdr.mode, 0, 0⟩
              let s := takeRecord x x.content n s
              setF (setZone s z { zoneAt s z with copied := some p }) F.LOADER_STATE 3

/-- SECTION_END (R56). -/
def execSectionEnd (s : State) : Host.Outcome State Fault Refusal := .next (sectionEnd s)

/-! ### Arming (R54-R56, R61) -/

/-- The TX_COMMIT of every ARMED section. -/
def armedTx (s : State) : List Nat := (zonesIn s zArmed).map (commitAt s)

/-- The later of furlong numbers. -/
def laterFur (a b : Nat) : Nat := if after b a 32 then b else a

/-- The commit point of a section at arming: in NEXT mode the later of FURLONG_NOW + 16 and every ARMED one (R54). -/
def commitPoint (s : State) (p : Pending) : Nat :=
  if p.mode = 1 then (armedTx s).foldl laterFur ((getF s F.FURLONG_NOW + 16) % 2 ^ 32) else p.tx

/-- Step 11 of R50 for a commit point: LATE, ORDER, or 0. -/
def commitCheck (s : State) (tx : Nat) : Nat :=
  let lead := (tx + 2 ^ 32 - getF s F.FURLONG_NOW) % 2 ^ 32
  if lead < 16 ∨ 2 ^ 31 ≤ lead then 6
  else if (armedTx s).any fun t => after t tx 32 then 7
  else 0

/-- The place after every section that is ARMED or SWITCHING: CFG_ISSUE_SEQ, which lies in MGMT, may have been reset since. -/
def nextOrder (s : State) : Nat := 1 + (s.zones.map fun e => (e.2.copied.map Pending.order).getD 0).foldl max 0

/-- COPY_COMPLETE (R56): arming with an ISSUE_SEQ. -/
def copyComplete (z : Nat) (s : State) : State :=
  match s.ld.sec, (zoneAt s z).copied with
  | some x, some p =>
    if !isOn s 1 ∨ getF s F.LOADER_STATE ≠ 3 ∨ x.hdr.zone ≠ z then s
    else
      let tx := commitPoint s p
      if commitCheck s tx ≠ 0 then cancel z (commitCheck s tx) s
      else
        let s := addF s F.CFG_ISSUE_SEQ 1
        let s := setZone s z { zoneAt s z with copied := some { p with tx := tx, issue := getF s F.CFG_ISSUE_SEQ, order := nextOrder s } }
        let s := setFs s [(F.COMMIT_TX z, tx), (F.COMMIT_RX z, p.rx), (F.ZONE_STATE z, zArmed)]
        nextSection { s with ld := { s.ld with sec := none } }
  | _, _ => s

/-- COPY_COMPLETE (R56). -/
def execCopyComplete (zone : Byte) (s : State) : Host.Outcome State Fault Refusal := .next (copyComplete zone.toNat s)

/-! ### Ends of loads (R446, R447) -/

/-- IMAGE_END (R447): byte IMAGE_LEN - 1 has arrived; steps 6 and 7 of R446. -/
def imageEnd (s : State) : State :=
  let s := ldTrim s
  match s.ld.img with
  | none => s
  | some i =>
    if !isOn s 1 ∨ getF s F.LOADER_STATE ≠ 1 ∨ i.body.length + 128 ≠ i.len ∨ (s.ld.buf ≠ [] ∧ 128 ≤ s.ld.buf.length) then s
    else if i.zones.length ≠ i.count ∨ s.ld.buf ≠ [] ∨ s.ld.skip ≠ 0 then loadEnd (imageCancel rFormat s)
    else if sha256 i.body ≠ i.digest then loadEnd (imageCancel rSig s)
    else loadEnd s

/-- IMAGE_END (R447). -/
def execImageEnd (s : State) : Host.Outcome State Fault Refusal := .next (imageEnd s)

/-- LOAD_TIMEOUT (R56, R447): while the loader waits for stream words, not while it copies. A store image's section in STAGING fails
too; between its sections the loader waits for no stream word. -/
def loadTimeout (s : State) : State :=
  let st := getF s F.LOADER_STATE
  if !isOn s 1 ∨ st = 0 ∨ st = 3 ∨ (s.ld.src < 2 ∧ st = 1) then s
  else if s.ld.img.isSome then loadEnd (imageCancel rAborted s)
  else match s.ld.sec with
    | some x => cancel x.hdr.zone rAborted s
    | none => loadEnd s

/-- LOAD_TIMEOUT (R447). -/
def execLoadTimeout (s : State) : Host.Outcome State Fault Refusal := .next (loadTimeout s)

/-! ### Zone content read from the store (R62, R66; 12 R315) -/

/-- The content of a section body, record by record. -/
def parseRecs (z : Nat) : Nat → List Byte → ZContent → Except Nat ZContent
  | 0, _, _ => .error rFormat
  | n + 1, bs, ct =>
    match recordAt bs with
    | none => .error rFormat
    | some (typ, ws, k) =>
      if typ = 0x7FFF then (if ws = [] ∧ bs.length = k then .ok ct else .error rFormat)
      else match applyRec z typ ws ct with
        | .error c => .error c
        | .ok ct => parseRecs z n (bs.drop k) ct

/-- Steps 1 to 4, 5 and 10 of R50 on a whole section read from the store. -/
def wholeSection (s : State) (bs : List Byte) : Except Nat ZContent :=
  let x := secOf bs
  let body := bs.drop 0x80
  if secHeadCheck s true bs ≠ 0 then .error (secHeadCheck s true bs)
  else if graveLocked s then .error 0xD
  else match parseRecs x.zone body.length body ZContent.empty with
    | .error c => .error c
    | .ok ct =>
      match (bodyBad ⟨x, secDigest bs, [], ct, 0, 0, false⟩ body).orElse fun _ => contentBad s x.zone ct with
      | some c => .error c
      | none => .ok ct

/-- The section at an offset of an image of the store. -/
def storeSection (s : State) (slot off : Nat) : List Byte :=
  let len := ofLe (flashRead s.st.cells (imageAddr slot + off + 4) 4)
  flashRead s.st.cells (imageAddr slot + off) (min len (2 ^ 21))

/-- A section of the store with its header, and its content where it is accepted under R49. -/
def storeContent (s : State) (slot off : Nat) : Option (SecHdr × ZContent) :=
  let bs := storeSection s slot off
  let x := secOf bs
  if leAt bs 0 4 = secMagic ∧ secVerify s bs = 0 then
    match parseRecs x.zone bs.length (bs.drop 0x80) ZContent.empty with
    | .ok ct => some (x, ct)
    | .error _ => none
  else none

/-- The offset of a zone's section in an image of the store, where the slot holds one. -/
def findSection (s : State) (slot z : Nat) : Option Nat :=
  let i := imgOf (storeHead s slot)
  if leAt (storeHead s slot) 0 4 ≠ imgMagic then none
  else
    match imgLayout i.count 0x80 (storeBody s slot (min i.len (2 ^ 24))) with
    | none => none
    | some l => (l.find? fun e => leAt (storeSection s slot e.1) 8 1 == z).map (·.1)

end Sys2Proof.Machine
end

