-- ==== Sys2Proof/Machine/Commit.lean ====
section
/-! DEFINITION. Commits (02 R53-R61), the local furlong boundary, reverts and withdrawals at their switch (02 R66), the
steward's restart (02 R57) and the reload of its instruction lines (12 R315). -/
namespace Sys2Proof.Machine

/-! ### Ends of a commit (R56, R61, R69) -/

/-- Identity of the content a zone has applied (R65). -/
def applied (z : Nat) (p : Pending) : List (Fld × Nat) :=
  [(F.ZONE_EPOCH z, p.epoch), (F.ZONE_PRESENT z, 1), (F.ZONE_BUILD z, p.build), (F.ZONE_SRC z, p.src),
   (F.ZONE_OFFSET z, if p.src = 3 then 0 else p.off)]

/-- Every resource of the zone is on the new bank: the zone leaves SWITCHING. -/
def zoneDone (z : Nat) (s : State) : State :=
  match (zoneAt s z).copied with
  | none => s
  | some p =>
    let old := getF s (F.ZONE_EPOCH z)
    let s := setZone s z { zoneAt s z with copied := none, active := p.content, switched := false, waits := [] }
    let s := setFs (setResult s z 0) (applied z p ++
      [(F.SWITCHED_TX z, 1), (F.SWITCHED_RX z, 1), (F.ZONE_STATE z, zIdle), (F.PEND_EPOCH z, 0)])
    let s := onlyIf (z == 3) (fun s => setF s F.BOOTED p.src) s
    detect .cfg 0 0 (offerCommit s z 0 true old p.epoch p.issue p.build)

/-- The receive side of a SWITCHING zone switches, and the commit is done. -/
def rxDone (z : Nat) (s : State) : State :=
  match (zoneAt s z).copied with
  | none => s
  | some p => zoneDone z (zoneRx z p.content s)

/-- The unit of a peer-group zone is in ALIGN or CARRY. -/
def unitCarries (s : State) (z : Nat) : Bool := decide (4 ≤ getF s (F.ACQ_STATE (zoneC z) (zoneU z)))

/-- The groups whose received stream the perches of a carrier zone or of the Fathom allocation serve (R60). -/
def servedGroups (z : Nat) : List Nat := if z = 2 then List.range 32 else if z < 2 then List.range' (16 * z) 16 else []

/-- The groups of those that are in ALIGN or CARRY: each stream switches at its own first header. -/
def waitingGroups (s : State) (z : Nat) : List Nat := (servedGroups z).filter fun g => unitCarries s (32 + g)

/-- The steward restarts into a new image: its instruction memory is written whole. -/
def firmwareSwitch (s : State) : State :=
  let s := stwRestart s
  setMem { s with stw := { s.stw with commit := true } } 7 (memAt s 7).clean

/-- FURLONG_NOW reaches COMMIT_TX of an ARMED zone (R56, R57, R60; 08 R235). -/
def commitTx (z : Nat) (s : State) : State :=
  match (zoneAt s z).copied with
  | none => s
  | some p =>
    let s := setF s (F.ZONE_STATE z) zSwitching
    let tx (s : State) : State := setB (setZone s z { zoneAt s z with switched := true }) (F.SWITCHED_TX z) true
    if z = 3 then firmwareSwitch (tx s)
    else if 16 ≤ z ∧ z < 32 then
      if getF s (F.GRP_STATE (z - 16)) = 2 then s else rxDone z (tx s)
    else
      let s := zoneTx z p.epoch p.content (tx s)
      let ws := waitingGroups s z
      let s := groupsSwitch z ((servedGroups z).filter fun g => !ws.contains g) p.content s
      let s := setZone s z { zoneAt s z with waits := ws }
      if 32 ≤ z then
        if unitCarries s z then setUnit s (zoneC z) (zoneU z) { unitAt s (zoneC z) (zoneU z) with passFur := none } else rxDone z s
      else if ws.isEmpty then rxDone z s else s

/-- Put a zone among zones in ISSUE_SEQ order. -/
def insertIssue (s : State) (z : Nat) : List Nat → List Nat
  | [] => [z]
  | y :: ys =>
    let n (x : Nat) : Nat := ((zoneAt s x).copied.map Pending.order).getD 0
    if n y < n z then y :: insertIssue s z ys else z :: y :: ys

/-- The ARMED zones whose commit point is now, in ISSUE_SEQ order. -/
def dueZones (s : State) : List Nat :=
  ((zonesIn s zArmed).filter fun z => commitAt s z == getF s F.FURLONG_NOW).foldr (insertIssue s) []

/-- The peer groups whose zone is PRESENT. -/
def presentGroups (s : State) : List Nat := (List.range 32).filter fun g => present s (32 + g)

/-- A local furlong boundary, while FEC is on (R53; 03 R77, R81, R100; 05 R137; 10 R271). -/
def furlongBoundary (s : State) : State :=
  if !isOn s 8 then s
  else
    let s := ageAway (addF (countClips (countClips s 0) 1) F.FURLONG_NOW 1)
    let s := each (dueZones s) (fun s z => commitTx z s) s
    let s := onlyIf (getF s F.FURLONG_NOW % 256 == 0) (fun s => each (presentGroups s) (fun s g => startRun g s) s) s
    sendHeaders (txStart (txStart (fthBoundary (calBoundary s)) 0) 1)

/-- LOCAL_FURLONG_BOUNDARY (R53). -/
def execLocalFurlongBoundary (s : State) : Host.Outcome State Fault Refusal := .next (furlongBoundary s)

/-- A passing header at COMMIT_RX or after it has come since the transmit switch, or the unit is not in ALIGN or CARRY; every
stream of a carrier zone or of the Fathom allocation that is in ALIGN or CARRY has carried its header. -/
def rxQualifies (s : State) (z : Nat) : Bool :=
  if z < 32 then (zoneAt s z).waits.all fun g => !unitCarries s (32 + g)
  else
    let rx := ((zoneAt s z).copied.map Pending.rx).getD 0
    !unitCarries s z || (match (unitAt s (zoneC z) (zoneU z)).passFur with
      | some f => f == rx || after f rx 32
      | none => false)

/-- A zone whose receive side is still to switch. -/
def rxPending (s : State) (z : Nat) : Bool := zoneOk z && rxBehind s z && z != 3 && !(decide (16 ≤ z) && decide (z < 32))

/-- RX_COMMIT_SWITCH (R56). -/
def execRxCommitSwitch (zone : Byte) (s : State) : Host.Outcome State Fault Refusal :=
  .next (if rxPending s zone.toNat && rxQualifies s zone.toNat then rxDone zone.toNat s else s)

/-- COMMIT_TIMEOUT (R56): the local boundary after the timeout. -/
def execCommitTimeout (zone : Byte) (s : State) : Host.Outcome State Fault Refusal :=
  .next (if rxPending s zone.toNat then rxDone zone.toNat (detect .cfg 3 0 s) else s)

/-- LANE_GROUP_COMMIT (R57). -/
def execLaneGroupCommit (zone : Byte) (s : State) : Host.Outcome State Fault Refusal :=
  let z := zone.toNat
  .next (if 16 ≤ z ∧ z < 24 ∧ getF s (F.ZONE_STATE z) = zSwitching then rxDone z (setB s (F.SWITCHED_TX z) true) else s)

/-- The steward's restart completes; a firmware commit ends with it. -/
def restartDone (s : State) : State :=
  if !s.stw.restart || !isOn s 1 then s
  else
    let commit := s.stw.commit
    let s := { s with stw := { s.stw with restart := false, running := true, commit := false } }
    let s := detect .stw 18 0 s
    if commit then rxDone 3 s else s

/-- STEWARD_RESTART_COMPLETE (R57). -/
def execStewardRestartComplete (s : State) : Host.Outcome State Fault Refusal := .next (restartDone s)

/-! ### Reverts and withdrawals (R66) -/

/-- A zone's resources stop: its content becomes that of no section. -/
def zoneStop (z : Nat) (s : State) : State :=
  let e := ZContent.empty
  let s := if z < 2 then putFields (carrierFields z e) s
    else if 16 ≤ z ∧ z < 32 then groupDown (z - 16) s
    else if 32 ≤ z then peerTx z 0 e (settle (unitIdle (zoneC z) (zoneU z) s))
    else s
  zoneRx z e s

/-- The record and the event of a revert or a withdrawal. -/
def revertEnd (z old new build : Nat) (s : State) : State :=
  detect .cfg 6 0 (offerCommit (setResult s z 0xF) z 0xF false old new 0 build)

/-- The switch of a revert, or the stop of a withdrawal, once the waking domain is ON. -/
def revertSwitch (z : Nat) (s : State) : State :=
  match (zoneAt s z).revert with
  | none => s
  | some r =>
    if !isOn s (zoneAt s z).waking then s
    else
      let old := getF s (F.ZONE_EPOCH z)
      let s := setZone s z { zoneAt s z with revert := none }
      match r with
      | some p =>
        let s := zoneRx z p.content (zoneTx z p.epoch p.content s)
        let s := onlyIf (decide (32 ≤ z)) (startRun (z - 32)) s
        revertEnd z old p.epoch p.build (setFs s (applied z p))
      | none =>
        let s := setFs (zoneStop z s) [(F.ZONE_PRESENT z, 0), (F.ZONE_EPOCH z, 0), (F.ZONE_SRC z, 0), (F.ZONE_OFFSET z, 0)]
        revertEnd z old 0 (getF s (F.ZONE_BUILD z)) s

/-- REVERT_SWITCH (R66). -/
def execRevertSwitch (zone : Byte) (s : State) : Host.Outcome State Fault Refusal :=
  .next (if zoneOk zone.toNat then revertSwitch zone.toNat s else s)

/-! ### Reload of an instruction line (12 R315) -/

/-- A verified firmware section in an image slot, with the BUILD_SEQ of the applied one where it must match. -/
def firmwareIn (s : State) (slot : Nat) (same : Bool) : Bool :=
  match findSection s slot 3 with
  | none => false
  | some off =>
    match storeContent s slot off with
    | some (x, _) => x.zone == 3 && (!same || x.build == getF s (F.ZONE_BUILD 3))
    | none => false

/-- The slot that BOOTED names, else the other with the same BUILD_SEQ, yields a verified section. -/
def imageFound (s : State) : Bool :=
  let b := getF s F.BOOTED
  (1 ≤ b && b ≤ 2) && (firmwareIn s (b - 1) false || firmwareIn s (2 - b) true)

/-- The reload engine has taken a marked line to its end. -/
def reloadDone (line : Nat) (s : State) : State :=
  if !isOn s 1 || !unusable s 7 (4 * line) then s
  else
    let s := storeDone s 1
    if imageFound s then
      let s := detect .mem 26 0 (unpoison 7 (List.range' (4 * line) 4) s)
      if s.stw.halted = some line then stwRestart s else s
    else detect .stw 23 0 s

/-- RELOAD_DONE (R315). -/
def execReloadDone (line : BitVec 14) (s : State) : Host.Outcome State Fault Refusal := .next (reloadDone line.toNat s)

end Sys2Proof.Machine
end

