-- ==== Sys2Proof/Machine/Power.lean ====
section
/-! DEFINITION. The power controller (14 R342-R350): targets, wakes and entries of domains, what a wake from off resets
(00 R12; 18 R430) and loads (02 R66), and losses of supplies (17 R407, R409). -/
namespace Sys2Proof.Machine

/-- A domain's sequence. -/
def stateCode : DomSt → Nat
  | .off => 0 | .waking .. => 1 | .on => 2 | .entering .. => 3 | .retention => 4

/-- All domains but AON. -/
def domsAll : List Nat := List.range' 1 10

/-! ### Resets at a wake from off (00 R12; 18 R430) -/

/-- A register that a wake of its domain leaves as it is: FURLONG_NOW, which shows a count that FEC keeps (02 R53). -/
def resetKept (a : Nat) : Bool := a == F.FURLONG_NOW.addr

/-- The fields of a domain take their reset values. -/
def regReset (d : Nat) (s : State) : State :=
  { s with regs := s.regs.filter fun e => regDom (e.1 / 32) != d || resetKept (e.1 / 32) }

/-- The sources of a domain in a block: status bit and counter reset; the pending flags where every source lies there. -/
def evtReset (d : Nat) (s : State) (b : EvBlk) : State :=
  let mine := b.sources.filter fun i => b.srcDom i == d
  let s := each mine (fun s i => setEv (setB s (F.EVT b i) false) b i { evAt s b i with count := .idle }) s
  if b.sources.all fun i => b.srcDom i == d then setB (setB s (F.PEND b 1) false) (F.PEND b 2) false else s

/-- The lanes of a HOST domain. -/
def domLanes (d : Nat) : List Nat := if d = 2 then [0, 1, 2, 3] else [4, 5, 6, 7]

/-- The steward and what else MGMT holds beside registers. -/
def mgmtReset (s : State) : State :=
  let stw : StwSt := { s.stw with running := false, restart := false, halted := none, commit := false, dma := [] }
  { s with ld := LoaderSt.idle, stw := stw, avs := ⟨none, 0, 0, false, true, s.avs.vout⟩, cal := { s.cal with trig := false, trigHk := false, owed := [] }
           fab := { s.fab with good := 0 }, chn := { s.chn with capMem := [] }, sec := { s.sec with keyCopy := 0, respBuf := 0, keyRegs := 0 } }

/-- What HOSTA or HOSTB holds beside registers. -/
def hostReset (d : Nat) (s : State) : State :=
  let out (k : Nat) : Bool := !(domLanes d).contains k
  { s with host := { s.host with
    inner := tkeep out s.host.inner, pat := tkeep out s.host.pat, smp := tkeep out s.host.smp, dec := tkeep out s.host.dec } }

/-- What the perches of a fabric half hold beside registers (01 R38; 12 R305; 18 R435): coefficients of its lanes, frame search of its
lanes' PCS, equaliser taps of its carrier. -/
def fabReset (d : Nat) (s : State) : State :=
  let out (k : Nat) : Bool := !(domLanes (d - 4)).contains k
  { s with
    host := { s.host with coef := tkeep (fun k => out (k / 128)) s.host.coef, inner := tkeep out s.host.inner }
    rx := { s.rx with taps := tkeep (fun k => k / 32 != d - 6) s.rx.taps } }

/-- What LINE c holds beside registers. -/
def lineReset (c : Nat) (s : State) : State :=
  let s := { s with
    tx := { s.tx with timer := tdel s.tx.timer c }
    rx := { s.rx with
      unit := tkeep (fun k => k / 16 != c) s.rx.unit, agcRep := s.rx.agcRep.filter (· != c)
      qPrev := tkeep (fun k => k / 16 != c) s.rx.qPrev
      qLen := tkeep (fun k => k / 16 != c) s.rx.qLen
      slipped := s.rx.slipped.filter (· / 32 != c), retime := s.rx.retime.filter (· != c)
      mute := s.rx.mute.filter (· / 32 != c), early := s.rx.early.filter (· / 32 != c)
      level := tkeep (fun k => k / 32 != c) s.rx.level, dec := tkeep (fun k => k / 32 != c) s.rx.dec
      qAcc := tkeep (fun k => k / 32 != c) s.rx.qAcc, qDone := tkeep (fun k => k / 32 != c) s.rx.qDone
      known := tkeep (fun k => k / 32 != c) s.rx.known }
    bias := { s.bias with ch := tkeep (fun n => n / 12 != c) s.bias.ch } }
  if c = 0 then
    let s := { s with cal := { s.cal with hkWait := none } }
    each (List.range 32) (fun s i => restartChain i s) { s with bias := { s.bias with chain := [], out := [] } }
  else s

/-- What FEC holds beside registers. -/
def fecReset (s : State) : State :=
  setF { s with fec := ⟨0, [], [], [], [], [], [], [], [], [], [], [], [], []⟩
                tx := { s.tx with queue := [], fseq := [], served := [], sent := [], run := [], epoch := [], stream := []
                                  chunk := [], runFur := [], header := [] } } F.FURLONG_NOW 0

/-- What TABLE holds beside registers: its pages are to be loaded or cleared (05 R142). -/
def tableReset (s : State) : State :=
  setB { s with fth := { s.fth with table := [], acc := [], clear := [], loading := true, snap := none } } F.FTH_CLEARING true

/-- What CHAIN holds beside registers, at every wake (15 R377, R378). -/
def chainReset (s : State) : State :=
  { s with chn := { s.chn with
      blockLock := false, inSeq := none, outSeq := 0, limOut := [], usedOut := [], limIn := [], usedIn := [], drain := none
      fkDropped := false, capArmed := false, capTrig := false, snapNext := none, snapBad := false, snapBuf := [] } }

/-- A domain's content at a wake from off: every block of it as at its reset. -/
def domReset (d : Nat) (s : State) : State :=
  let s := EvBlk.all.foldl (evtReset d) (regReset d s)
  if d = 1 then mgmtReset s
  else if d = 2 ∨ d = 3 then hostReset d s
  else if d = 4 ∨ d = 5 then lineReset (d - 4) s
  else if d = 6 ∨ d = 7 then fabReset d s
  else if d = 8 then fecReset s
  else if d = 9 then tableReset s
  else if d = 10 then { s with chn := { (chainReset s).chn with capHead := [], capWords := 0, capPos := 0, capSeq := 0, tlm := [] } }
  else s

/-! ### Content of zones at a wake from off (02 R66) -/

/-- The PRESENT zones that hold resources of a domain, in ascending order. -/
def zonesOf (s : State) (d : Nat) : List Nat :=
  zonesAll.filter fun z => present s z && (contentDoms z (zoneAt s z).active).contains d

/-- Content of a zone into the active banks of the waking domain. -/
def loadBanks (d z : Nat) (ct : ZContent) (s : State) : State :=
  let s := setFs s ((zoneFields z ct).filter fun p => regDom p.1.addr == d)
  if d = 8 ∧ 32 ≤ z then
    { s with
      fec := { s.fec with line := mapLine s.fec.line (z - 32) ct, rxLine := mapLine s.fec.rxLine (z - 32) ct }
      tx := { s.tx with epoch := tset s.tx.epoch (z - 32) (getF s (F.ZONE_EPOCH z)) 0 } }
  else if d = 8 ∧ 16 ≤ z then { s with fec := { s.fec with client := mapClient s.fec.client (z - 16) ct } }
  else if z < 2 ∧ d = lineDom z then portSeedWake z ct s
  else s

/-- The section a zone's ZONE_SRC names, where every check of step 1 passes. -/
def srcContent (s : State) (z : Nat) : Option ZContent :=
  let src := getF s (F.ZONE_SRC z)
  if src = 1 ∨ src = 2 then
    match storeContent s (src - 1) (getF s (F.ZONE_OFFSET z)) with
    | some (x, ct) => if x.zone = z ∧ x.build = getF s (F.ZONE_BUILD z) then some ct else none
    | none => none
  else none

/-- The zone's section in the image that BOOTED names, as what a revert brings. -/
def bootContent (s : State) (z : Nat) : Option Pending :=
  let b := getF s F.BOOTED
  if b = 1 ∨ b = 2 then
    match findSection s (b - 1) z with
    | none => none
    | some off =>
      match storeContent s (b - 1) off with
      | some (x, ct) => if x.zone = z then some ⟨ct, x.epoch, x.build, b, off, false, 0, 0, 0, 0, 0⟩ else none
      | none => none
  else none

/-- Load a zone at a wake of domain `d`: its own content, its revert, or its withdrawal. -/
def loadZone (d : Nat) (s : State) (z : Nat) : State :=
  match srcContent s z with
  | some ct =>
    let s := loadBanks d z ct s
    setZone s z { zoneAt s z with active := ct }
  | none =>
    match bootContent s z with
    | some p =>
      let s := loadBanks d z p.content s
      setZone s z { zoneAt s z with revert := some (some p), waking := d }
    | none => setZone s z { zoneAt s z with revert := some none, waking := d }

/-- A wake from off waits in step 4 while MGMT, from which zone content is loaded, is not ON. -/
def loadWaits (s : State) (d : Nat) : Bool := d != 1 && zonesOf s d != [] && !isOn s 1

/-- Carrier of a LINE domain or fabric half. -/
def domCarrier (d : Nat) : Fin 2 := if d % 2 = 0 then 0 else 1

/-- The values that the records of the store give a domain: the calibration and bias records of a LINE domain (04 R106; 09 R257; 10
R273, R274). -/
def recordLoad (d : Nat) (s : State) : State :=
  if d = 4 ∨ d = 5 then biasLoad (domCarrier d) (calWake (domCarrier d) s) else s

/-- The loads of step 4, once they can be made: records and zone content. -/
def loadStep (d : Nat) (retry : Bool) (s : State) : State :=
  if loadWaits s d then setDom s d (.waking 4 true retry)
  else setDom ((zonesOf s d).foldl (loadZone d) (recordLoad d s)) d (.waking 5 true retry)

/-! ### Wakes (R344, R345) -/

/-- STORE_CFG from its fuse group (15 R370, R388; 16 R401). -/
def storeFuses (s : State) : State :=
  let f := fuseAt s 3
  let v := if f.marker && !fuseBad s 3 then f.data else 0x8B
  setFs s [(F.STORE_DUMMY, bitsOf v 4 4), (F.STORE_ADDR4, bitsOf v 3 1), (F.STORE_QUAD, bitsOf v 2 1), (F.SCK_DIV, bitsOf v 0 2)]

/-- Step 4 of a wake from off: reset is released, rows are mapped, memories initialised. -/
def wakeInit (d : Nat) (s : State) : State :=
  let s := memWake d (domReset d s)
  if d = 1 then storeFuses s else s

/-- A wake from retention: scrubbers start a pass, and with LINE0 every slot's chain restarts (09 R247). -/
def retentionWake (d : Nat) (s : State) : State :=
  onlyIf (d == 4) (each (List.range 32) fun s i => restartChain i s) (memResume d s)

/-- The steps after power-good, clock and PLL. -/
def wakeAfter (d : Nat) (fromOff retry : Bool) (s : State) : State :=
  let s := if fromOff then wakeInit d s else retentionWake d s
  let s := onlyIf (d == 4 || d == 5) (fun s => setB s (F.SYNTH_LOCK (d - 4)) true) s
  if fromOff then loadStep d retry s else setDom s d (.waking 5 false retry)

/-- The domain has a clock to wait for (R343). -/
def hasClock (d : Nat) : Bool := d != 6 && d != 7
/-- The domain has a PLL to wait for (R343). -/
def hasPll (d : Nat) : Bool := hasClock d && d != 9

/-- Step `n` of a wake is over: the next step that R343 names. -/
def wakeNext (d n : Nat) (s : State) : State :=
  match domAt s d with
  | .waking k fromOff retry =>
    if k ≠ n then s
    else if n = 1 ∧ hasClock d then setDom s d (.waking 2 fromOff retry)
    else if n < 3 ∧ hasPll d then setDom s d (.waking 3 fromOff retry)
    else wakeAfter d fromOff retry s
  | _ => s

/-- WAKE_POWER_GOOD (R344). -/
def execWakePowerGood (d : Dom) (s : State) : Host.Outcome State Fault Refusal := .next (wakeNext d.num 1 s)

/-- WAKE_CLOCK_PRESENT (R344). -/
def execWakeClockPresent (d : Dom) (s : State) : Host.Outcome State Fault Refusal := .next (wakeNext d.num 2 s)

/-- WAKE_PLL_LOCK (R344). -/
def execWakePllLock (d : Dom) (s : State) : Host.Outcome State Fault Refusal := .next (wakeNext d.num 3 s)

/-- A wake that Grave (11 R299) or HOT (R362) refuses. -/
def graveBars (s : State) (d : Nat) : Bool := graveLocked s && [2, 3, 6, 7, 8, 9].contains d && domAt s d == .off
/-- A wake that HOT refuses. -/
def hotBars (s : State) (d : Nat) : Bool := getB s F.HOT && [5, 6, 7, 8, 9].contains d

/-- Start a wake, which Grave or HOT may refuse. -/
def wakeStart (d : Nat) (fromOff retry : Bool) (s : State) : State :=
  if graveBars s d then s
  else if hotBars s d then detect .therm 8 0 s
  else setDom s d (.waking 1 fromOff retry)

/-- A domain in retention goes off: what it held that is seen while it is off (09 R243; 03 R72). -/
def retentionLost (d : Nat) (s : State) : State :=
  if d = 1 then ldgLeave s
  else if d = 8 then setF s F.FURLONG_NOW 0
  else if d = 4 ∨ d = 5 then biasLeave (d - 4) false s
  else s

/-- A failed wake at a step (R345). -/
def wakeFail (d step : Nat) (s : State) : State :=
  match domAt s d with
  | .waking _ fromOff retry =>
    let s := setF (setDom (onlyIf (!fromOff) (retentionLost d) s) d .off) (F.WAKE_STEP d) step
    if retry then offerDomain (detect .aon (d - 1) 0 { s with pw := { s.pw with gaveUp := s.pw.gaveUp ++ [d] } }) d 5 step
    else
      let s := { s with pw := { s.pw with retryPend := s.pw.retryPend ++ [d] } }
      detect .aon (9 + d) 0 s
  | _ => s

/-- WAKE_STEP_TIMEOUT (R345): the timeouts do not run during step 4. -/
def execWakeStepTimeout (d : Dom) (s : State) : Host.Outcome State Fault Refusal :=
  .next (match domAt s d.num with
    | .waking k _ _ => if k ≤ 3 then settle (wakeFail d.num k s) else s
    | _ => s)

/-- The retry of a failed wake, which starts from off. -/
def wakeRetry (d : Nat) (s : State) : State :=
  if s.pw.retryPend.contains d && domAt s d == .off then
    wakeStart d true true { s with pw := { s.pw with retryPend := s.pw.retryPend.filter (· != d) } }
  else s

/-- WAKE_RETRY (R345). -/
def execWakeRetry (d : Dom) (s : State) : Host.Outcome State Fault Refusal := .next (wakeRetry d.num s)

/-! ### Leaving ON (R346) -/

/-- Sections under way of the zones that a domain holds, and with FEC of every zone, end with ABORTED (02 R56); with MGMT
the load in progress ends. -/
def zonesLeave (d : Nat) (s : State) : State :=
  let hit (s : State) (z : Nat) : Bool :=
    d == 8 || (contentDoms z (zoneAt s z).active).contains d || (match (zoneAt s z).copied with
      | some p => (contentDoms z p.content).contains d
      | none => match s.ld.sec with
        | some x => (d == 1 || (contentDoms z x.content).contains d) && x.hdr.zone == z
        | none => false)
  let s := each (zonesAll.filter fun z => (getF s (F.ZONE_STATE z) == zStaging || getF s (F.ZONE_STATE z) == zArmed) && hit s z)
    (fun s z => cancel z rAborted s) s
  if d = 1 then loadEnd s else s

/-- The domain of the clocked side of bushel `n` (01 R21). -/
def clockDom (n : Nat) : Nat := [4, 4, 2, 2, 8, 8, 5, 5, 3, 3, 8, 8].getD n 8

/-- The bushels of a fabric half or of a clocked domain that is not on hold nothing (01 R39). -/
def bushelsLeave (d : Nat) (s : State) : State :=
  { s with fab := { s.fab with bushel := tkeep (fun n => 6 + n / 6 != d && clockDom n != d) s.fab.bushel } }

/-- Every block acts as its chapter states for its domain leaving ON. -/
def blocksLeave (d : Nat) (s : State) : State :=
  let s := bushelsLeave d (zonesLeave d s)
  if d = 1 then
    let s := onlyIf (s.sec.challenge.isSome) challengeExpires s
    { s with avs := { s.avs with request := none, stage := 0 } }
  else if d = 2 ∨ d = 3 then each (groupsOf s (domLanes d)) (fun s l => groupDown l s) s
  else if d = 4 ∨ d = 5 then
    let c := domCarrier d
    settle (each (List.range 16) (fun s u => unitIdle c.val u s) (calLeave c s))
  else if d = 6 ∨ d = 7 then
    let c := domCarrier d
    let s := settle (each (List.range 16) (fun s u => unitIdle c.val u s) (prioAbort c s))
    each (groupsOf s (domLanes (d - 4))) (fun s l => groupDown l s) { s with fab := { s.fab with writes := s.fab.writes.filter fun w => fabWriteDom w.1 != d } }
  else if d = 8 then setPool { s with fec := { s.fec with deframe := [] } } []
  else if d = 9 then endSnap false s
  else if d = 10 then
    let busy := s.chn.snapNext.isSome
    let s := setFs (chainReset s) [(F.CHN_LINK, 0), (F.STREAMING, 0), (F.CAP_BUSY, 0)]
    onlyIf busy (detect .chn 15 0) s
  else s

/-- Step 1: quiesce. -/
def quiesce (d : Nat) (s : State) : State :=
  if d = 4 ∨ d = 5 then blocksLeave d (lasersOff (writeTxEnable (d - 4) false s) (d - 4)) else blocksLeave d s

/-- Steps 4 and 5: isolation and the power switch. -/
def isolate (d : Nat) (retention : Bool) (s : State) : State :=
  let s := if d = 1 then
      let s := cutRecs s
      if retention then s else ldgLeave s
    else if d = 4 ∨ d = 5 then
      let s := setFs (txTimerOff (biasLeave (d - 4) retention s) (d - 4)) [(F.TX_ENABLE (d - 4), 0), (F.TX_STATE (d - 4), 0)]
      setB s (F.SYNTH_LOCK (d - 4)) false
    else if d = 8 then
      let s := { s with tx := { s.tx with queue := [] }, fec := { s.fec with rxq := [], commit := [] } }
      if retention then s else setF s F.FURLONG_NOW 0
    else s
  setDom s d (if retention then .retention else .off)

/-- A forced off (R346, R361; 17 R409): from ON or from an entry its blocks leave and step 5 offers transition 4. -/
def forceOff (d : Nat) (s : State) : State :=
  match domAt s d with
  | .on => settle (offerDomain (isolate d false (blocksLeave d s)) d 4 0)
  | .entering k _ =>
    settle (offerDomain (isolate d false (onlyIf (decide (k ≤ 1)) (blocksLeave d) s)) d 4 0)
  | _ => s

/-- A domain goes from retention to off by its power switch alone (R346). -/
def offFromRetention (d : Nat) (s : State) : State :=
  settle (offerDomain (setDom (retentionLost d s) d .off) d 6 0)

/-- A wake from retention, or an entry that is abandoned, has the domain ON again. -/
def resume (d : Nat) (s : State) : State :=
  if d = 1 then settle (flushLoss (peerMasks s))
  else if d = 4 ∨ d = 5 then portWake (d - 4) (setB s (F.TX_ENABLE (d - 4)) false)
  else if d = 9 then fthTags s
  else s

/-- An entry is abandoned (R347). -/
def abandon (d : Nat) (s : State) : State :=
  let s := memResume d (setDom s d .on)
  detect .aon 21 d (resume d (onlyIf (d == 4 || d == 5) (fun s => setB s (F.SYNTH_LOCK (d - 4)) true) s))

/-! ### Targets (R348) -/

/-- The target of a domain is set again: a failed retry no longer bars its wake (R345). -/
def tryAgain (d : Nat) (s : State) : State := { s with pw := { s.pw with gaveUp := s.pw.gaveUp.filter (· != d) } }

/-- Drive a domain towards its target, where no sequence of it is at a point that must end first. -/
def control (d : Nat) (s : State) : State :=
  let t := getF s (F.TARGET d)
  let ready := d != 9 || isOn s 8
  match domAt s d with
  | .off =>
    if t = 2 then
      (if ready && !s.pw.retryPend.contains d && !s.pw.gaveUp.contains d then wakeStart d true false s else s)
    else { s with pw := { s.pw with retryPend := s.pw.retryPend.filter (· != d) } }
  | .retention => if t = 2 then (if ready then wakeStart d false false s else s) else if t = 0 then offFromRetention d s else s
  | .on => if t = 2 then s else setDom s d (.entering 1 (if t = 1 then .retention else .orderly))
  | .entering k _ =>
    if t ≠ 2 then s
    else if k ≤ 2 then abandon d s
    else setF s F.WAKE_PEND (getF s F.WAKE_PEND ||| 2 ^ (d - 1))
  | .waking k fromOff _ => if k = 4 ∧ fromOff ∧ t = 0 ∧ loadWaits s d then setDom s d .off else s

/-- The target that a write of PWR_TARGET gives a domain: 3 leaves it. -/
def newTarget (s : State) (v d : Nat) : Nat := if bitsOf v (2 * d - 2) 2 = 3 then getF s (F.TARGET d) else bitsOf v (2 * d - 2) 2

/-- A write gives a domain that does not work the target ON: its wake is asked for. -/
def asksWake (s : State) (v d : Nat) : Bool :=
  newTarget s v d == 2 && bitsOf v (2 * d - 2) 2 == 2 && (domAt s d == .off || domAt s d == .retention)

/-- A write takes a domain's target away from ON. -/
def asksLeave (s : State) (v d : Nat) : Bool := newTarget s v d != 2 && getF s (F.TARGET d) == 2

/-- The refusals of R348 for a domain. -/
def targetRefused (s : State) (v d : Nat) : Bool :=
  (d == 9 && asksWake s v 9 && getF s (F.TARGET 9) != 2 && !isOn s 8) ||
    (d == 8 && asksLeave s v 8 && (isOn s 9 || isOn s 6 || isOn s 7)) ||
    (d != 1 && asksWake s v d && domAt s d == .off && zonesOf s d != [] && newTarget s v 1 != 2) ||
    (bitOf (getF s F.WAKE_SET) (d - 1) && asksLeave s v d && getB s F.WAKE_N_LOW) ||
    (d == 1 && asksLeave s v 1 && domsAll.any fun e => e != 1 && zonesOf s e != [] && (match domAt s e with
      | .waking _ fromOff _ => fromOff
      | _ => false)) ||
    (asksWake s v d && (graveBars s d || hotBars s d))

/-- A write of PWR_TARGET. -/
def pwrTargetWrite (v : Nat) (s : State) : State :=
  match domsAll.find? (targetRefused s v) with
  | some d =>
    let hot := domsAll.any fun e => asksWake s v e && hotBars s e
    detect .aon 20 d (onlyIf hot (detect .therm 8 0) s)
  | none =>
    let s := setFs s (domsAll.map fun d => (F.TARGET d, newTarget s v d))
    settle (each (domsAll.filter fun d => bitsOf v (2 * d - 2) 2 != 3) (fun s d => control d (tryAgain d s)) s)

/-- PWR_TARGET_WRITE (R348). -/
def execPwrTargetWrite (value : Word) (s : State) : Host.Outcome State Fault Refusal := .next (pwrTargetWrite value.toNat s)

/-- Set the target of a domain to ON for a wake source or the start-up, unless Grave or HOT refuses its wake. -/
def wakeTarget (d : Nat) (s : State) : State :=
  if graveBars s d then s
  else if hotBars s d then detect .therm 8 0 s
  else control d (tryAgain d (setF s (F.TARGET d) 2))

/-- The WAKE_SET domains. -/
def wakeSet (s : State) : List Nat := domsAll.filter fun d => bitOf (getF s F.WAKE_SET) (d - 1)

/-- ADDRESS_MATCH_WAKE (R349): WAKE_MATCH only when a target changes. -/
def addressMatch (s : State) : State :=
  let ds := (wakeSet s).filter fun d => getF s (F.TARGET d) != 2
  let s' := each ds (fun s d => wakeTarget d s) s
  if ds.any fun d => getF s' (F.TARGET d) == 2 then detect .aon 22 0 s' else s'

/-- ADDRESS_MATCH_WAKE (R349). -/
def execAddressMatchWake (s : State) : Host.Outcome State Fault Refusal := .next (settle (addressMatch s))

/-- WAKE_PIN (R349): a falling edge; WAKE_N_LOW holds the level the pin is then left at. -/
def execWakePin (heldLow : Bool) (s : State) : Host.Outcome State Fault Refusal :=
  .next (settle (detect .aon 23 0 (each (wakeSet s) (fun s d => wakeTarget d s) (setB s F.WAKE_N_LOW heldLow))))

/-! ### Wakes complete (R344 step 5) -/

/-- What a wake from off of MGMT does once ON: operating time, lifetime sets, peers; the steward runs again (R350). -/
def mgmtUp (s : State) : State :=
  let first := !s.pw.firstUp
  let s := { s with pw := { s.pw with firstUp := true } }
  let s := peerLoad (ldgWake first s)
  { s with stw := { s.stw with running := present s 3 && !s.stw.held } }

/-- VALID of FABRIC_HEADROOM clears at a wake of a fabric half or of a bushel's clocked domain (01 R25; 18 R440). -/
def headroomInvalid (d : Nat) (s : State) : State :=
  if d < 2 ∨ 8 < d then s
  else
    let was := getB s F.HR_VALID
    let s := setB { s with fab := { s.fab with bushel := s.fab.bushel.map fun e => (e.1, { e.2 with since := false }) } } F.HR_VALID false
    if was && isOn s 6 && isOn s 7 then detect .fabric 14 0 s else s

/-- A domain is ON at the end of its wake. -/
def domainUp (d : Nat) (fromOff : Bool) (s : State) : State :=
  let s := setDom s d .on
  let s := offerDomain (setF s (F.WAKE_STEP d) 0) d (if fromOff then 0 else 1) 0
  let s := if d = 1 ∧ fromOff then mgmtUp s
    else if d = 10 then chainReset s
    else if d = 8 then
      if fromOff then each (presentGroups s) (fun s g => startRun g s) s else each (List.range 8) (fun s l => mapperHunt l s) s
    else resume d s
  let s := onlyIf ((d == 4 || d == 5) && graveLocked s) (fun s => stopCarrier s (d - 4)) s
  settle (onlyIf (d == 8) (control 9) (control d (headroomInvalid d s)))

/-- A wake whose steps are over removes isolation; one that waits for MGMT makes its loads first. -/
def wakeComplete (d : Nat) (s : State) : State :=
  match domAt s d with
  | .waking k fromOff retry =>
    let s := if k = 4 then loadStep d retry s else s
    if k < 4 ∨ (k = 4 ∧ loadWaits s d) then s else domainUp d fromOff s
  | _ => s

/-- WAKE_COMPLETE (R344). -/
def execWakeComplete (d : Dom) (s : State) : Host.Outcome State Fault Refusal := .next (wakeComplete d.num s)

/-! ### Entries, step by step (R346, R347) -/

/-- The saves of step 2. -/
def saves (d : Nat) (s : State) : State :=
  let s := onlyIf (d == 4 || d == 5) (fun s => startRec (.bias (domCarrier d)) (biasBytes s (domCarrier d)) 0 s) s
  onlyIf (isOn s 1 || d == 1) (checkpoint 1 d) s

/-- Steps 1 and 2: quiesce, while the domain's registers can still be written, and start the saves. -/
def domainEntry (d : Nat) (s : State) : State :=
  match domAt s d with
  | .entering 1 kind =>
    let s := quiesce d (setDom s d .on)
    if kind = .orderly then settle (saves d (setDom s d (.entering 2 .orderly))) else setDom s d (.entering 4 kind)
  | _ => s

/-- DOMAIN_ENTRY (R346). -/
def execDomainEntry (d : Dom) (s : State) : Host.Outcome State Fault Refusal := .next (domainEntry d.num s)

/-- Step 3 where the domain's bit of BIST_EN is set, else step 4 (16 R389). -/
def afterSaves (d : Nat) (s : State) : State :=
  if bitOf (getF s F.BIST_EN) (d - 1) then setDom s d (.entering 3 .orderly)
  else setDom s d (.entering 4 .orderly)

/-- The kinds of the saves of a domain. -/
def saveKinds (d : Nat) : List RecKind := if d = 4 ∨ d = 5 then [.bias (domCarrier d), .checkpoint] else [.checkpoint]

/-- ENTRY_SAVES_DONE (R346): no save of step 2 is in progress any more. -/
def execEntrySavesDone (d : Dom) (s : State) : Host.Outcome State Fault Refusal :=
  .next (match domAt s d.num with
    | .entering 2 _ => if (saveKinds d.num).any (recBusy s) then s else afterSaves d.num s
    | _ => s)

/-- SAVE_TIMEOUT (R346): unfinished saves are abandoned. -/
def saveTimeout (d : Nat) (s : State) : State :=
  match domAt s d with
  | .entering 2 _ =>
    let open' := (saveKinds d).filter (recBusy s)
    let s := each open' (fun s k => endRec k false s) s
    afterSaves d (detect .aon 27 d s)
  | _ => s

/-- SAVE_TIMEOUT (R346). -/
def execSaveTimeout (d : Dom) (s : State) : Host.Outcome State Fault Refusal := .next (saveTimeout d.num s)

/-- Steps 4 and 5, and then a latched wake or the last target written. -/
def entryEnd (d : Nat) (s : State) : State :=
  match domAt s d with
  | .entering 4 kind =>
    let s := isolate d (kind == .retention) s
    let s := settle (offerDomain s d (if kind = .retention then 2 else 3) 0)
    let s := setF s F.WAKE_PEND (getF s F.WAKE_PEND &&& (2 ^ 10 - 1 - 2 ^ (d - 1)))
    control d s
  | _ => s

/-- ENTRY_ISOLATE_AND_SWITCH (R346). -/
def execEntryIsolateAndSwitch (d : Dom) (s : State) : Host.Outcome State Fault Refusal := .next (entryEnd d.num s)

/-! ### Supplies (17 R407, R409) -/

/-- The domains whose power-good monitors a supply. -/
def supplyDoms : Supply → List Nat
  | .vcore => domsAll
  | .vana => [4, 5]
  | .vhs => [2, 3, 4, 5, 10]
  | .vio => [1, 4, 5]
  | .vaon => []

/-- The machine after AON power-on reset: everything but what lies outside the device's volatile state, the flash and the
fuses, and the level of the WAKE_N pin, is as at reset. -/
def powerOn (s : State) : State :=
  let r : State := { State.reset with
    pending := s.pending, freeCnt := s.freeCnt
    st := { State.reset.st with cells := s.st.cells }
    sec := { State.reset.sec with fuses := s.sec.fuses, shadow := s.sec.fuses } }
  setF r F.WAKE_N_LOW (getF s F.WAKE_N_LOW)

/-- A supply fails for a domain. -/
def supplyFails (s : State) (d : Nat) : State :=
  match domAt s d with
  | .on | .entering .. => forceOff d (setF s (F.TARGET d) 0)
  | .waking .. => settle (wakeFail d 1 s)
  | _ => s

/-- SUPPLY_LOSS (R409). Without VAON nothing of AON is kept, and every domain is off until AON's power-on reset. -/
def execSupplyLoss (supply : Supply) (s : State) : Host.Outcome State Fault Refusal :=
  .next (if supply = .vaon then
      let s := powerOn s
      { s with pw := { s.pw with dom := [] } }
    else (supplyDoms supply).foldl supplyFails s)

/-- AON_POWER_ON_RESET (R408): the straps give MPORT's address; the fuse shadow is read and every group checked (16 R401). -/
def execAonPowerOnReset (addr1 addr0 : Bool) (s : State) : Host.Outcome State Fault Refusal :=
  let s := powerOn s
  .next (fuseCheck s.sec.fuses
    { s with mp := { s.mp with addr := 0x58 + (if addr1 then 2 else 0) + (if addr0 then 1 else 0) } })

end Sys2Proof.Machine
end

