-- ==== Sys2Proof/Machine/Boot.lean ====
section
/-! DEFINITION. The selection of the image at start-up (02 R62) and the domains that the start-up wakes for it (14 R350). -/
namespace Sys2Proof.Machine

/-- A section of an image with its offset, header and content. -/
structure Accepted where
  off : Nat
  hdr : SecHdr
  content : ZContent

/-- The slots in the order they are taken: slots with MAGIC first, then the higher IMAGE_SEQ, then A. R62 orders two slots without
MAGIC only where their IMAGE_SEQ values are equal; that the higher goes first there too is the model's choice (log 33). -/
def bootOrder (s : State) : List Nat :=
  let magic (i : Nat) : Bool := leAt (storeHead s i) 0 4 == imgMagic
  let seq (i : Nat) : Nat := (imgOf (storeHead s i)).seq
  let second := if magic 0 = magic 1 then decide (seq 0 < seq 1) else magic 1
  if second then [1, 0] else [0, 1]

/-- Every section of an image passes through the shadow in turn; the content of those accepted counts as held by their
zones. The header of a section that fails, with its code. -/
def bootSections : List (Nat × List Byte) → State → Except (SecHdr × Nat) (List Accepted)
  | [], _ => .ok []
  | (off, bs) :: rest, s =>
    match wholeSection s bs with
    | .error code => .error (secOf bs, code)
    | .ok ct =>
      let z := (secOf bs).zone
      match bootSections rest (setZone s z { zoneAt s z with active := ct }) with
      | .error e => .error e
      | .ok l => .ok (⟨off, secOf bs, ct⟩ :: l)

/-- Check an image: its sections, or the state with the record of what failed. -/
def bootCheck (s : State) (slot : Nat) : Except State (List Accepted) :=
  match storeImage s slot with
  | .error code => .error (imageFail (imgOf (storeHead s slot)).seq code s)
  | .ok secs =>
    match bootSections secs s with
    | .error (x, code) => .error (secRefuse x code s)
    | .ok l => .ok l

/-- Commit a zone of the image (R62 step 4). -/
def bootZone (slot : Nat) (s : State) (a : Accepted) : State :=
  let z := a.hdr.zone
  let p : Pending := ⟨a.content, a.hdr.epoch, a.hdr.build, 1 + slot, a.off, false, 0, 0, 0, 0, 0⟩
  let s := setZone s z { zoneAt s z with active := a.content }
  let s := setFs (setResult s z 0) (applied z p)
  detect .cfg 0 0 (offerCommit s z 0 false 0 p.epoch 0 p.build)

/-- The domains that the PRESENT zones need (R350 step 2). -/
def neededDoms (s : State) : List Nat :=
  (zonesAll.filter (present s)).flatMap fun z =>
    let ct := (zoneAt s z).active
    if z < 2 then [lineDom z, fabDom z]
    else if z = 2 then (if (List.range 32).any fun g => contentF ct (F.PAGE_COUNT g) != 0 then [8, 9] else [])
    else if z = 3 then []
    else if z < 32 then lanesDoms (grpLanes s (z - 16))
    else [8, lineDom (zoneC z), fabDom (zoneC z)]

/-- Apply an image, start the steward, and wake the domains its zones need. -/
def bootApply (slot : Nat) (l : List Accepted) (s : State) : State :=
  let s := setF (l.foldl (bootZone slot) s) F.BOOTED (1 + slot)
  let s := { s with stw := { s.stw with running := present s 3 && !s.stw.held } }
  each (domsAll.filter fun d => (neededDoms s).contains d) (fun s d => wakeTarget d s) s

/-- Take the slots in their order: the first that passes is applied. -/
def bootTry : List Nat → Bool → State → State
  | [], _, s => detect .cfg 5 0 (setB s F.NO_IMAGE true)
  | slot :: rest, first, s =>
    match bootCheck s slot with
    | .ok l => bootApply slot l s
    | .error s => bootTry rest false (if first then detect .cfg 4 0 (setB s F.FALLBACK true) else s)

/-- The selection takes place once, when MGMT first comes up after a power-on reset. -/
def imageSelection (s : State) : State :=
  if !isOn s 1 || s.pw.booted then s
  else settle (bootTry (bootOrder s) true { s with pw := { s.pw with booted := true } })

/-- IMAGE_SELECTION (R62). -/
def execImageSelection (s : State) : Host.Outcome State Fault Refusal := .next (imageSelection s)

end Sys2Proof.Machine
end

