-- ==== Sys2Proof/Machine/Throttle.lean ====
section
/-! DEFINITION. The throttle (14 R354, R355), the core voltage (14 R351-R353; 17 R422), temperature, its throttle and the
thermal shutdown (14 R356-R363). -/
namespace Sys2Proof.Machine

/-! ### The step in force (R354, R355) -/

/-- The iteration level v of a step. -/
def levelV (n : Nat) : Nat := if n ≤ 4 then 0 else min (n - 4) 2
/-- The equaliser level e of a step. -/
def levelE (n : Nat) : Nat := if n ≤ 6 then 0 else min (n - 6) 2

/-- The highest of the three requests. -/
def stepWanted (s : State) : Nat := max (max (getF s F.HR_REQ) (getF s F.TH_REQ)) (getF s F.FLOOR)

/-- The cause of a change to step `n`. -/
def stepCause (s : State) (n : Nat) : Nat := if getF s F.TH_REQ = n then (if s.therm.stale then 2 else 1) else 0

/-- Take the step in force from the requests. -/
def throttle (s : State) : State :=
  let n := stepWanted s
  if n = getF s F.THR_STEP then s
  else
    let f := min n 4
    let s := setFs s [(F.THR_STEP, n), (F.THR_F, f), (F.THR_V, levelV n), (F.THR_E, levelE n)]
    let w := n * 2 ^ 24 + stepCause s n * 2 ^ 16 + f * 2 ^ 8 + levelV n * 2 ^ 4 + levelE n
    let s := offer s 5 0 [w, getF s F.HEADROOM]
    settle (onlyIf (n == 8) (detect .therm 2 0) s)

/-- A write of FLOOR: above 8 it is stored as 8. -/
def floorWrite (v : Nat) (s : State) : State := throttle (setF s F.FLOOR (min v 8))

/-! ### Core voltage (R351-R353) -/

/-- A request of a voltage in mV. -/
def avsAsk (v : Nat) (s : State) : State := setF { s with avs := { s.avs with request := some v, stage := 0 } } F.VCORE_REQ v

/-- A raise: above VMAX it is limited; at VMAX it is AVS_CEILING once for the period. -/
def avsRaise (s : State) : State :=
  let req := getF s F.VCORE_REQ
  let vmax := getF s F.VMAX
  if getF s F.TH_REQ ≠ 0 then s
  else if vmax ≤ req then
    (if s.avs.ceiling then s else detect .aon 25 0 { s with avs := { s.avs with ceiling := true } })
  else if s.avs.request.isSome then s
  else avsAsk (min (req + getF s F.AVS_STEP) vmax) s

/-- An update at or above LOWER: after the sixteenth in a row, and with no request outstanding, it asks for less, down to
VMIN. -/
def avsLower (s : State) : State :=
  let req := getF s F.VCORE_REQ
  let v := max (req - getF s F.AVS_STEP) (getF s F.VMIN)
  if s.avs.low + 1 < 16 ∨ s.avs.request.isSome then { s with avs := { s.avs with low := min (s.avs.low + 1) 15 } }
  else
    let s := { s with avs := { s.avs with low := 0 } }
    if req ≤ v then s else avsAsk v s

/-- The steward acts at an update of FABRIC_HEADROOM (R352). -/
def avsRequest (s : State) : State :=
  if !stwRuns s || !getB s F.AVS_EN || getB s F.AVS_FAILED || !getB s F.HR_VALID then s
  else
    let h := getF s F.HEADROOM
    if h < getF s F.HR_RAISE then avsRaise { s with avs := { s.avs with low := 0 } }
    else
      let s := { s with avs := { s.avs with ceiling := false } }
      if getF s F.HR_LOWER ≤ h then avsLower s else { s with avs := { s.avs with low := 0 } }

/-- AVS_REQUEST (R352). -/
def execAvsRequest (s : State) : Host.Outcome State Fault Refusal := .next (avsRequest s)

/-- A request fails (R353). -/
def avsFail (s : State) : State :=
  if s.avs.request.isSome then
    detect .aon 24 0 (setB { s with avs := { s.avs with request := none, stage := 0 } } F.AVS_FAILED true)
  else s

/-- A voltage in mV in the regulator's linear format (R351). -/
def voutWord (s : State) (mv : Nat) : Nat :=
  let e := getS s F.AVS_EXP
  if e < 0 then (rdiv (mv * 2 ^ e.natAbs : Nat) 1000).toNat else (rdiv (mv : Nat) (1000 * 2 ^ e.natAbs)).toNat

/-- A word in linear format in mV. -/
def voutMv (s : State) (raw : Nat) : Nat :=
  let e := getS s F.AVS_EXP
  min 65535 (if e < 0 then (rdiv (raw * 1000 : Nat) (2 ^ e.natAbs)).toNat else raw * 1000 * 2 ^ e.natAbs)

/-- VOUT_COMMAND (R351). -/
def execVoutCommand (ack : Bool) (s : State) : Host.Outcome State Fault Refusal :=
  .next (match s.avs.request with
    | some v =>
      if !isOn s 1 ∨ s.avs.stage ≠ 0 then s
      else
        let s := { s with avs := { s.avs with vout := voutWord s v } }
        if ack then { s with avs := { s.avs with stage := 1 } } else avsFail s
    | none => s)

/-- STATUS_WORD has a fault bit of R353. -/
def statusBad (w : Nat) : Bool := [15, 6, 5, 4, 3, 2].any (bitOf w)

/-- STATUS_WORD (R351), read after every VOUT_COMMAND. -/
def execStatusWord (ack : Bool) (status : BitVec 16) (s : State) : Host.Outcome State Fault Refusal :=
  .next (if !isOn s 1 ∨ s.avs.request = none ∨ s.avs.stage ≠ 1 then s
    else if !ack then avsFail s
    else
      let s := setF s F.AVS_STATUS_WORD status.toNat
      if statusBad status.toNat then avsFail s else { s with avs := { s.avs with stage := 2 } })

/-- A reading of the voltage: the first after a wake sets VCORE_REQ; one within 10 mV of the request completes it. -/
def readVout (raw : Nat) (s : State) : State :=
  let mv := voutMv s raw
  let s := setF s F.VCORE_READ mv
  let s := if s.avs.first then setF { s with avs := { s.avs with first := false } } F.VCORE_REQ mv else s
  match s.avs.request with
  | some v =>
    if s.avs.stage = 2 ∧ v ≤ mv + 10 ∧ mv ≤ v + 10 then
      detect .aon 26 0 { s with avs := { s.avs with request := none, stage := 0 } }
    else s
  | none => s

/-- READ_VOUT (R351). -/
def execReadVout (ack : Bool) (raw : BitVec 16) (s : State) : Host.Outcome State Fault Refusal :=
  .next (if !isOn s 1 then s else if ack then readVout raw.toNat s else avsFail s)

/-- AVS_REQUEST_TIMEOUT (R353). -/
def execAvsRequestTimeout (s : State) : Host.Outcome State Fault Refusal := .next (if isOn s 1 then avsFail s else s)

/-- AVS_STRETCH_TIMEOUT (17 R422). -/
def execAvsStretchTimeout (s : State) : Host.Outcome State Fault Refusal := .next (if isOn s 1 then avsFail s else s)

/-- A write of AVS_EN: 0 clears FAILED. -/
def avsEnWrite (en : Bool) (s : State) : State :=
  let s := setB s F.AVS_EN en
  if en then s else setB s F.AVS_FAILED false

/-- AVS_EN_WRITE (R353). -/
def execAvsEnWrite (en : Bool) (s : State) : Host.Outcome State Fault Refusal := .next (avsEnWrite en s)

/-! ### Thermal path (R358-R360) -/

/-- Set TH_REQ; a rise from 0 raises THROTTLE_THERMAL. -/
def thReq (n : Nat) (s : State) : State :=
  let was := getF s F.TH_REQ
  let s := setF s F.TH_REQ n
  throttle (onlyIf (was == 0 && n != 0) (detect .therm 1 0) s)

/-- TH_REQ rises by one, up to 8. -/
def thRise (s : State) : State := thReq (min (getF s F.TH_REQ + 1) 8) s

/-- A write of a threshold register: values at the nearest limit, stored only in order (R359). -/
def thermThreshold (thr1 : Bool) (v : Nat) (s : State) : State :=
  let hi := bitsOf v 16 16
  let lo := bitsOf v 0 16
  let warn := if thr1 then getF s F.WARN else clampN 600 1250 hi
  let thr := if thr1 then getF s F.THROTTLE else clampN 600 1250 lo
  let shut := if thr1 then clampN 1000 1250 hi else getF s F.SHUTDOWN
  let hyst := if thr1 then clampN 5 100 lo else getF s F.HYST
  if warn ≤ thr ∧ thr < shut then setFs s [(F.WARN, warn), (F.THROTTLE, thr), (F.SHUTDOWN, shut), (F.HYST, hyst)]
  else detect .therm 7 0 s

/-- THERM_THRESHOLD_WRITE (R359). -/
def execThermThresholdWrite (thr1 : Bool) (value : Word) (s : State) : Host.Outcome State Fault Refusal :=
  .next (thermThreshold thr1 value.toNat s)

/-- THERMAL_THROTTLE_RISE (R360): 50 ms more with every value at or above THROTTLE. -/
def execThermalThrottleRise (s : State) : Host.Outcome State Fault Refusal :=
  .next (if s.therm.rising && !s.therm.stale then thRise s else s)

/-- THERMAL_THROTTLE_FALL (R360): a full second with every value below THROTTLE - HYST. -/
def execThermalThrottleFall (s : State) : Host.Outcome State Fault Refusal :=
  .next (if getS s F.TEMP < (getF s F.THROTTLE : Int) - getF s F.HYST ∧ !s.therm.stale then thReq (getF s F.TH_REQ - 1) s else s)

/-! ### Shutdown (R361-R363) -/

/-- A domain of R361 goes off, whatever its state; its target is OFF. -/
def shutDomain (s : State) (d : Nat) : State :=
  let s := setFs { s with pw := { s.pw with retryPend := s.pw.retryPend.filter (· != d) } }
    [(F.TARGET d, 0), (F.WAKE_PEND, getF s F.WAKE_PEND &&& (2 ^ 10 - 1 - 2 ^ (d - 1)))]
  match domAt s d with
  | .on => forceOff d (onlyIf (d == 4 || d == 5) (fun s => lasersOff (writeTxEnable (d - 4) false s) (d - 4)) s)
  | .entering .. => forceOff d s
  | .waking .. => settle (offerDomain (setDom s d .off) d 4 0)
  | .retention => offFromRetention d s
  | .off => s

/-- TABLE goes to retention; a TABLE that has not been ON has nothing to keep. -/
def shutTable (s : State) : State :=
  let s := setF { s with pw := { s.pw with retryPend := s.pw.retryPend.filter (· != 9) } } (F.TARGET 9) 1
  match domAt s 9 with
  | .on => settle (offerDomain (isolate 9 true (quiesce 9 s)) 9 2 0)
  | .entering k _ => settle (offerDomain (isolate 9 true (onlyIf (decide (k ≤ 1)) (blocksLeave 9) s)) 9 2 0)
  | .waking _ true _ => settle (offerDomain (setDom s 9 .off) 9 4 0)
  | .waking .. => setDom s 9 .retention
  | _ => s

/-- A thermal shutdown (R361); one that makes SHUT_COUNT 3 is SHUTDOWN_REPEAT (R363). -/
def shutdown (s : State) : State :=
  let s := lasersOff (lasersOff s 0) 1
  let s := [4, 5, 6, 7, 8].foldl shutDomain (shutTable s)
  let n := getF s F.SHUT_COUNT
  let s := detect .therm 3 0 (setF (setB s F.HOT true) F.SHUT_COUNT (min (n + 1) 3))
  if n = 2 then detect .therm 4 0 s else s

/-- SHUTDOWN_COUNT_EXPIRY (R363). -/
def execShutdownCountExpiry (s : State) : Host.Outcome State Fault Refusal :=
  .next (setF s F.SHUT_COUNT (getF s F.SHUT_COUNT - 1))

/-! ### Values of TEMP (R356-R362) -/

/-- The warning at a new value. -/
def tempWarn (t : Int) (s : State) : State :=
  let warn : Int := getF s F.WARN
  if warn ≤ t ∧ !s.therm.warned then detect .therm 0 0 { s with therm := { s.therm with warned := true } }
  else if t < warn - getF s F.HYST then { s with therm := { s.therm with warned := false } }
  else s

/-- The thermal path at a new value: it follows TEMP again once TEMP has a source. -/
def tempThrottle (t : Int) (s : State) : State :=
  let s := { s with therm := { s.therm with stale := false } }
  if t < getF s F.THROTTLE then { s with therm := { s.therm with rising := false } }
  else if s.therm.rising then s
  else thRise { s with therm := { s.therm with rising := true } }

/-- Shutdown and HOT at a new value. -/
def tempShut (t : Int) (s : State) : State :=
  let shut : Int := getF s F.SHUTDOWN
  if shut ≤ t then (if getB s F.HOT then shutDomain s 4 else shutdown s)
  else if t < shut - getF s F.HYST then setB s F.HOT false
  else s

/-- A new value of TEMP from a source. -/
def newTemp (t : Int) (src : Nat) (s : State) : State :=
  let s := setF (setS s F.TEMP t) F.TEMP_SRC src
  tempShut t (tempThrottle t (tempWarn t s))

/-- The source that applies: the sensor, HOST_TEMP or none. -/
def tempSource (s : State) : Nat :=
  if !getB s F.SENSOR_BROKEN && s.therm.fresh then 1 else if !getB s F.HOST_STALE then 2 else 0

/-- A source fell away: TEMP goes to the next one, or keeps its value without source. -/
def tempFall (s : State) : State :=
  let src := tempSource s
  if src = getF s F.TEMP_SRC then s
  else if src = 2 then newTemp (getS s F.HOST_TEMP) 2 s
  else setF s F.TEMP_SRC src

/-- A reading of the sensor: the factory conversion is not stated, a free value (log 21). -/
def tempReading (code : Int) (s : State) : State :=
  if !isOn s 4 || getB s F.HK_CAL_BUSY then s
  else
    let t := toS 16 (ofS 16 (Config.tempOfCode code))
    let s := setS s F.SENSOR t
    if getB s F.SENSOR_BROKEN then s
    else
      let bad := decide (8000 < code) || decide (code < -8000) || decide (t < -400) || decide (1500 < t)
      let run := if bad then s.therm.badRun + 1 else 0
      let s := { s with therm := { s.therm with badRun := run, fresh := true } }
      if run = 4 then tempFall (detect .therm 5 0 (setB s F.SENSOR_BROKEN true)) else newTemp t 1 s

/-- TEMP_READING (R356). -/
def execTempReading (meanCode : Int) (s : State) : Host.Outcome State Fault Refusal := .next (tempReading meanCode s)

/-- A write of HOST_TEMP (R358). -/
def hostTempWrite (v : Nat) (s : State) : State :=
  let s := setFs s [(F.HOST_TEMP, v), (F.HOST_AGE, 0), (F.HOST_STALE, 0)]
  if tempSource s = 2 then newTemp (getS s F.HOST_TEMP) 2 s else s

/-- HOST_TEMP_WRITE (R358). -/
def execHostTempWrite (value : Word) (s : State) : Host.Outcome State Fault Refusal := .next (hostTempWrite value.toNat s)

/-- HOST_STALE (R358). -/
def execHostStale (s : State) : Host.Outcome State Fault Refusal :=
  .next (if getB s F.HOST_STALE then s else tempFall (setB s F.HOST_STALE true))

/-- SENSOR_READING_OLD (R356). -/
def execSensorReadingOld (s : State) : Host.Outcome State Fault Refusal :=
  .next (tempFall { s with therm := { s.therm with fresh := false } })

/-- HOST_TEMP_STALE (R358): no source for 10 s while a domain that carries traffic is ON. -/
def execHostTempStale (s : State) : Host.Outcome State Fault Refusal :=
  .next (if getF s F.TEMP_SRC = 0 ∧ !s.therm.stale ∧ (List.range' 2 8).any (isOn s) then
      let s := setF { s with therm := { s.therm with stale := true } } F.TH_REQ 8
      throttle (detect .therm 6 0 s)
    else s)

end Sys2Proof.Machine
end

