-- ==== Sys2Proof/Machine/Token.lean ====
section
/-! DEFINITION. Tokens of the fabric channels (01 R17): the sideband's layout, and payloads of sixteen native samples of
14 bits or of thirty-two quantised LLRs of 7 bits (05 R152). -/
namespace Sys2Proof.Machine

/-- The sideband of a token as its 32 bits (01 R17). -/
def Token.sideband (t : Token) : Nat :=
  t.stream.toNat * 2 ^ 24 + t.index.toNat * 2 ^ 8 + (if t.slip then 2 ^ 7 else 0) + (if t.poison then 2 ^ 6 else 0) +
    (if t.hdr then 2 ^ 5 else 0)

/-- The token that 256 bits on a channel spell: the payload below the sideband. -/
def tokenOf (w : BitVec 256) : Token :=
  let sb := w.toNat / 2 ^ 224
  ⟨BitVec.ofNat 224 w.toNat, BitVec.ofNat 8 (bitsOf sb 24 8), BitVec.ofNat 16 (bitsOf sb 8 16), bitOf sb 7, bitOf sb 6,
    bitOf sb 5⟩

/-- The 256 bits of a token. -/
def Token.bits (t : Token) : BitVec 256 := BitVec.ofNat 256 (Token.sideband t * 2 ^ 224 + t.payload.toNat)

/-- Signed values of `w` bits side by side, the first in the lowest bits. -/
def packS (w : Nat) : List Int → Nat
  | [] => 0
  | x :: xs => ofS w x + 2 ^ w * packS w xs

/-- `n` signed values of `w` bits out of a number, the first from the lowest bits. -/
def unpackS (w : Nat) : Nat → Nat → List Int
  | 0, _ => []
  | n + 1, x => toS w x :: unpackS w n (x / 2 ^ w)

/-- The sixteen native samples of a token. -/
def Token.samples (t : Token) : List Int := unpackS 14 16 t.payload.toNat

/-- The thirty-two LLRs of a token (05 R152); a POISON token's count as 0 (12 R312). -/
def Token.llrs (t : Token) : List Int :=
  if t.poison then List.replicate 32 0 else unpackS 7 32 t.payload.toNat

/-- The token that carries sixteen samples. -/
def sampleToken (stream index : Nat) (slip hdr : Bool) (xs : List Int) : Token :=
  ⟨BitVec.ofNat 224 (packS 14 (xs.take 16)), BitVec.ofNat 8 stream, BitVec.ofNat 16 index, slip, false, hdr⟩

/-- The token that carries thirty-two LLRs. -/
def llrToken (stream index : Nat) (slip hdr : Bool) (ls : List Int) : Token :=
  ⟨BitVec.ofNat 224 (packS 7 (ls.take 32)), BitVec.ofNat 8 stream, BitVec.ofNat 16 index, slip, false, hdr⟩

/-- What a fill token holds (01 R31): at a line DAC sixteen mid-scale samples; at a host transmitter sixteen symbols that
alternate between the levels -1 and +1, starting with -1, or bits that alternate, starting with 0, at NRZ. -/
def fillContent (dac nrz : Bool) : List Int :=
  (List.range 16).map fun i => if dac then 0 else if i % 2 = 0 then (if nrz then 0 else -1) else 1

end Sys2Proof.Machine
end

