-- ==== Sys2Proof/Machine/Fabric.lean ====
section
/-! DEFINITION. The perch fabric's bushels: windows and headroom (01 R23-R28), slips (01 R30-R33), and the moment at which
writes of fabric-resident registers act (01 R36). -/
namespace Sys2Proof.Machine

/-- A bushel that nothing has happened to. -/
def Bushel.blank : Bushel := ⟨false, 0, false, false, 0, 0, 0, none, 0, []⟩

/-- A bushel. -/
def bushelAt (s : State) (n : Nat) : Bushel := tget s.fab.bushel n Bushel.blank

/-- Set a bushel. -/
def setBushel (s : State) (n : Nat) (x : Bushel) : State :=
  { s with fab := { s.fab with bushel := tset s.fab.bushel n x Bushel.blank } }

/-- A bushel passes tokens: its half and its clocked domain are on (R39). -/
def bushelOn (s : State) (n : Nat) : Bool := isOn s (6 + n / 6) && isOn s (clockDom n)

/-- The bushels that pass tokens. -/
def bushelsOn (s : State) : List Nat := (List.range 12).filter (bushelOn s)

/-- An into-fabric bushel with a free-running clocked side (R21). -/
def slipsIn (n : Nat) : Bool := [0, 2, 6, 8].contains n
/-- An out-of-fabric bushel with a free-running clocked side (R21). -/
def slipsOut (n : Nat) : Bool := [1, 3, 7, 9].contains n

/-! ### Headroom (R23-R28) -/

/-- The bushel with the smallest H(n) of those with a completed window, the lowest where they tie. -/
def limiting (s : State) : Option Nat :=
  ((bushelsOn s).filter fun n => (bushelAt s n).done).foldl (fun a n => match a with
    | none => some n
    | some m => if (bushelAt s n).h < (bushelAt s m).h then some n else some m) none

/-- The headroom path at the end of a window (R27 step 2, R28): every bushel's windows count (log 22). -/
def headroomPath (s : State) : State :=
  let h := getF s F.HEADROOM
  let req := getF s F.HR_REQ
  let good (n : Nat) (s : State) : State := { s with fab := { s.fab with good := n } }
  if h < getF s F.HR_THROTTLE then
    let s := good 0 s
    if 8 ≤ req then s
    else
      let s := setF s F.HR_REQ (req + 1)
      let s := onlyIf (req == 0) (detect .fabric 13 0) s
      throttle (onlyIf (req == 7) (detect .fabric 15 0) s)
  else if getF s F.HR_RAISE ≤ h then
    if s.fab.good + 1 < 4 then good (s.fab.good + 1) s
    else if req = 0 then good 3 s
    else throttle (setF (good 0 s) F.HR_REQ (req - 1))
  else good 0 s

/-- FABRIC_HEADROOM is reported (R24, R25). -/
def headroomReport (s : State) : State :=
  match limiting s with
  | none => s
  | some n =>
    setFs s [(F.HEADROOM, min 0xFFFF ((bushelAt s n).h / 2 ^ 10)), (F.HR_LIMIT_BUSHEL, n),
      (F.HR_VALID, if (bushelsOn s).all fun m => (bushelAt s m).since then 1 else 0)]

/-- Where a bushel stands at the end of a window whose smallest distance from the non-saturated end was `slack`: a free
value that far from full (into the fabric) or from empty (out of it). -/
def windowOcc (n slack : Nat) (s : State) : Nat :=
  if slipsIn n ∨ n % 6 = 5 then draw s (257 - slack) else slack + draw s (257 - slack)

/-- Bushel `n` completes a window with `count` samples at its saturated end: the next window takes the length that WIN_LOG2
then holds; a window in which an out-of-fabric bushel was never empty leaves no token owed to a slip (R31). -/
def windowEnd (n count slack : Nat) (s : State) : State :=
  if !bushelOn s n then s
  else
    let x := bushelAt s n
    let w := if x.win = 0 then getF s F.WIN_LOG2 else x.win
    let c := min count (2 ^ w)
    let h := c * 2 ^ (26 - w)
    let occ := if x.slipping then x.occ else windowOcc n (min slack 256) s
    let x := { x with done := true, since := true, h := h, win := 0, occ := occ, owed := if slack = 0 then x.owed else 0 }
    let s := setFs (drew (setBushel s n x)) [(F.BUSHEL_SAT n, c), (F.SLACK_MIN n, min slack 256)]
    let s := histSample (128 + n) (min 0xFFFF (h / 2 ^ 10) : Nat) ((h / 2 ^ 10 : Nat)) 1024 s
    if !isOn s 1 then s
    else headroomPath (headroomReport s)

/-- HEADROOM_WINDOW_END (R23). -/
def execHeadroomWindowEnd (n : Fin 12) (count : Nat) (slackMin : Nat) (s : State) : Host.Outcome State Fault Refusal :=
  .next (windowEnd n.val count slackMin s)

/-- A write of WIN_LOG2: windows in progress keep the length they began with. -/
def winWrite (v : Nat) (s : State) : State :=
  let old := getF s F.WIN_LOG2
  let s := (bushelsOn s).foldl (fun s n =>
    let x := bushelAt s n
    if x.win = 0 then setBushel s n { x with win := old } else s) s
  setF s F.WIN_LOG2 (clampN 16 26 v)

/-- A write of a threshold register: stored only where the orders of R26 hold. -/
def hrThreshold (thr1 : Bool) (v : Nat) (s : State) : State :=
  if !isOn s 1 then s
  else
    let lower := if thr1 then getF s F.HR_LOWER else bitsOf v 16 16
    let raise := if thr1 then getF s F.HR_RAISE else bitsOf v 0 16
    let thr := if thr1 then bitsOf v 0 16 else getF s F.HR_THROTTLE
    if raise < lower ∧ thr < raise then setFs s [(F.HR_LOWER, lower), (F.HR_RAISE, raise), (F.HR_THROTTLE, thr)]
    else detect .fabric 12 0 s

/-- HR_THRESHOLD_WRITE (R26). -/
def execHrThresholdWrite (thr1 : Bool) (value : Word) (s : State) : Host.Outcome State Fault Refusal :=
  .next (hrThreshold thr1 value.toNat s)

/-! ### Slips (R30-R33) -/

/-- A lane of the half, by number within it. -/
def halfLane (n k : Nat) : Fin 8 := Fin.ofNat 8 (4 * (n / 6) + k)

/-- A token of a host-side bushel was discarded or filled: its lane lost lock (R33). -/
def hostSlip (n lane : Nat) (s : State) : State :=
  if clockDom n = 2 ∨ clockDom n = 3 then
    match laneIn s (halfLane n lane).val with
    | some l => lockLost (halfLane n lane) l s
    | none => s
  else s

/-- A slip at a line-receive bushel of carrier `c` (R32): the codeword in progress on every subcarrier is delivered as erased, and
the symbol timing is to be established again at a training header. -/
def slipLine (n : Nat) (s : State) : State :=
  if n = 0 ∨ n = 6 then
    let c := n / 6
    { s with rx := { s.rx with slipped := s.rx.slipped.filter (· / 32 != c) ++ List.range' (32 * c) 32, retime := s.rx.retime.filter (· != c) ++ [c] } }
  else s

/-- The `k`-th token of a slip: the first raises BUSHEL_SLIP, and SLIP_TOKENS counts them. -/
def slipToken (n lane k : Nat) (s : State) : State :=
  let s := setF s F.SLIP_TOKENS (min k 0x1FF)
  hostSlip n lane (if k = 1 then detect (.fabric) n k s else s)

/-- BUSHEL_SLIP (R30): the bushel stands full, and the token is discarded. -/
def execBushelSlip (n : BushelTok) (s : State) : Host.Outcome State Fault Refusal :=
  .next (if slipsIn n.n.val && bushelOn s n.n.val then
      let x := bushelAt s n.n.val
      let k := if x.slipping then x.tokens + 1 else 1
      let occ := if x.slipping then x.occ else 256
      slipToken n.n.val n.lane.val k (slipLine n.n.val (setBushel s n.n.val { x with slipping := true, tokens := k, occ := occ }))
    else s)

/-- The first token that a bushel writes after a slip carries SLIP (R30). -/
def markSlip (t : Token) : Token := { t with slip := true }

/-- SLIP_RECOVERY (R30): the occupancy has fallen to 128, and the token presented is written, marked SLIP. -/
def execSlipRecovery (n : BushelTok) (s : State) : Host.Outcome State Fault Refusal :=
  .next (let x := bushelAt s n.n.val
    if x.slipping then
      slipLine n.n.val (setBushel s n.n.val { x with slipping := false, tokens := 0, occ := 129, written := some (markSlip n.token) })
    else s)

/-- The host lane sends NRZ symbols (08 R212). -/
def laneNrz (s : State) (k : Nat) : Bool := getF s (F.LANE_RATE k) == 1

/-- FILL_TOKEN (R31): of the tokens that have arrived since the last fill, as many as were owed have been discarded; more than
that end the slip. The fill token is owed in turn. -/
def execFillToken (n : FillReq) (s : State) : Host.Outcome State Fault Refusal :=
  .next (if slipsOut n.n.val && bushelOn s n.n.val then
      let x := bushelAt s n.n.val
      let k := if x.owed = 0 ∨ x.owed < n.arrived then 1 else x.tokens + 1
      let fill := fillContent (n.n.val % 6 == 1) (laneNrz s (halfLane n.n.val n.lane.val).val)
      slipToken n.n.val n.lane.val k (setBushel s n.n.val { x with tokens := k, occ := 0, owed := x.owed - n.arrived + 1, fill := fill })
    else s)

end Sys2Proof.Machine
end

