-- ==== Sys2Proof/Machine/Chain.lean ====
section
/-! DEFINITION. The Chain port (15 R374-R386): packets, credits and link, outbound drains and captures, inbound streams. -/
namespace Sys2Proof.Machine

/-! ### Packets in (R375-R379) -/

/-- The bytes that the CRC of a packet covers: header, and payload padded to a multiple of 4 and to 64 bytes in all. -/
def pktBytes (typ flags seq len arg : Nat) (payload : List Byte) : List Byte :=
  let pad := max 48 ((payload.length + 3) / 4 * 4) - payload.length
  leBytes 4 (typ * 2 ^ 24 + flags * 2 ^ 16 + seq) ++ leBytes 4 (len * 2 ^ 16) ++ leBytes 4 arg ++ payload ++ List.replicate pad 0#8

/-- The CRC of a packet passes. -/
def pktGood (typ len : Nat) (p : Packet) : Bool :=
  crc32c (pktBytes typ p.flags.toNat p.seq.toNat len p.arg.toNat p.payload) == p.crc.toNat

/-- The port receives: CHAIN on and not stopped by a Grave fault. -/
def chnHears (s : State) : Bool := isOn s 10 && !s.chn.stopped

/-- SEQ of an inbound packet: a jump raises RX_SEQ_GAP, and CONFIG payload is discarded until the next START (R377, R386). -/
def takeSeq (seq : Nat) (s : State) : State :=
  let gap := match s.chn.inSeq with
    | some e => e != seq
    | none => false
  let s := { s with chn := { s.chn with inSeq := some ((seq + 1) % 65536), blockLock := true } }
  if gap then detect .chn 5 0 { s with ld := { s.ld with discard := true } } else s

/-- A packet whose CRC passes and whose TYPE and LEN are good, or what else it comes to. -/
def inbound (typ : Nat) (p : Packet) (s : State) (f : State → State) : State :=
  if !chnHears s then s
  else if !pktGood typ p.payload.length p then detect .chn 4 0 s
  else
    let s := takeSeq p.seq.toNat s
    if 4096 < p.payload.length then detect .chn 6 0 s else f s

/-- A packet of inbound stream `k`: beyond the credit granted it is discarded and raises STALL_k (R379). -/
def inStream (k typ : Nat) (p : Packet) (s : State) (f : State → State) : State :=
  inbound typ p s fun s =>
    let used := (tget s.chn.usedIn k 0 + pktUnits p.payload.length) % 2 ^ 32
    if 2 ^ 31 ≤ (tget s.chn.limIn k 0 + 2 ^ 32 - used) % 2 ^ 32 then detect .chn (16 + k) 0 s
    else f { s with chn := { s.chn with usedIn := tset s.chn.usedIn k used 0 } }

/-- BAD_PACKET (R376): the CRC covers TYPE and LEN as they stand in the header. -/
def execBadPacket (typ : Byte) (len : BitVec 16) (p : Packet) (s : State) : Host.Outcome State Fault Refusal :=
  .next (if !chnHears s then s
    else if !pktGood typ.toNat len.toNat p then detect .chn 4 0 s
    else if len.toNat ≤ 4096 ∧ typ.toNat ∈ [0x10, 0x11, 0x12, 0x7F] then s
    else detect .chn 6 0 (takeSeq p.seq.toNat s))

/-- LIMIT_k and USED_k of the host (R378): limits of the streams the device sends, use of the streams it receives. -/
def takeCredit (bs : List Byte) (s : State) : State :=
  let lim (k : Nat) : Nat := leAt bs (8 * k) 4
  let used (k : Nat) : Nat := leAt bs (8 * k + 4) 4
  { s with chn := { s.chn with
      limOut := (List.range 5).foldl (fun t k => tset t k (lim k) 0) s.chn.limOut
      usedIn := [5, 6, 7].foldl (fun t k => tset t k (used k) 0) s.chn.usedIn } }

/-- CREDIT (R378): a payload of 64 bytes. -/
def execCredit (p : Packet) (s : State) : Host.Outcome State Fault Refusal :=
  .next (inbound 0x7F p s fun s => if p.payload.length = 64 then takeCredit p.payload s else s)

/-- CREDIT_SEND (R378): 64 KiB of buffer stand free for each inbound stream. -/
def creditSend (s : State) : State :=
  if !chnHears s then s
  else
    let lim := [5, 6, 7].foldl (fun t k => tset t k ((tget s.chn.usedIn k 0 + 1024) % 2 ^ 32) 0) s.chn.limIn
    let bs := (List.range 8).flatMap fun k =>
      leBytes 4 (if 5 ≤ k then tget lim k 0 else 0) ++ leBytes 4 (if k < 5 then tget s.chn.usedOut k 0 else 0)
    sendPkt { s with chn := { s.chn with limIn := lim } } none 0x7F 3 0 bs

/-- CREDIT_SEND (R378). -/
def execCreditSend (s : State) : Host.Outcome State Fault Refusal := .next (creditSend s)

/-! ### Link (R379) -/

/-- LINK_UP (R379): the next packet sets the SEQ expected. -/
def execLinkUp (s : State) : Host.Outcome State Fault Refusal :=
  .next (if chnHears s && !getB s F.CHN_LINK then
      detect .chn 0 0 (setB { s with chn := { s.chn with blockLock := true, inSeq := none } } F.CHN_LINK true)
    else s)

/-- An inbound snapshot is not complete, or fails: its slot is invalid (R386). -/
def snapInFail (s : State) : State :=
  let s := onlyIf (s.chn.snapNext.isSome && mgmtWorks s) (fun s => killSlot s .snapshot (nextSlot s .snapshot)) s
  let s := onlyIf (getB s (F.DMA_BUSY 2)) (fun s => storeDone s 7) s
  detect .chn 15 0 (setB { s with chn := { s.chn with snapNext := none, snapBad := true, snapBuf := [] } } (F.DMA_BUSY 2) false)

/-- The link goes down. -/
def linkDown (s : State) : State :=
  if !getB s F.CHN_LINK then s
  else
    let s := setFs { s with chn := { s.chn with drain := none } } [(F.CHN_LINK, 0), (F.STREAMING, 0)]
    let s := detect .chn 1 0 s
    if s.chn.snapNext.isSome then snapInFail s else s

/-- RX_LOCK_LOST (R379). -/
def execRxLockLost (s : State) : Host.Outcome State Fault Refusal :=
  .next (if chnHears s && s.chn.blockLock then
      linkDown (detect .chn 3 0 { s with chn := { s.chn with blockLock := false } })
    else s)

/-- CREDIT_TIMEOUT (R379). -/
def execCreditTimeout (s : State) : Host.Outcome State Fault Refusal := .next (if chnHears s then linkDown s else s)

/-- A stream has data that waits: a capture in its stream, a drain; the other streams drop what finds no credit. -/
def streamWaits (s : State) (k : Nat) : Bool :=
  if k = 0 then getB s F.STREAMING else if k = 1 then s.chn.drain.isSome else decide (k < 5)

/-- STREAM_STALL (R379). -/
def execStreamStall (k : Fin 8) (s : State) : Host.Outcome State Fault Refusal :=
  .next (if chnUp s && streamWaits s k.val && !hasCredit s k.val 1 then detect .chn (16 + k.val) 0 s else s)

/-! ### Drains (R381) -/

/-- The 32 bytes of a reserve entry (13 R334): words 0 and 1 and six payload words. -/
def resvBytes (r : LRec) : List Byte :=
  ((recWords r).take 2 ++ (r.payload ++ List.replicate 6 0).take 6).flatMap (leBytes 4)

/-- A write of 1 to DRAIN_REQ. -/
def drainReq (s : State) : State :=
  if !chnUp s || !isOn s 1 || s.chn.drain.isSome then s
  else
    let recs := s.ldg.region.filter fun e => e.2.typ != 0
    let resv := if getB s F.DRAIN_RES then s.ldg.reserve else []
    { s with chn := { s.chn with drain := some ⟨recs, resv, 0, false⟩ } }

/-- DRAIN_REQ (R381). -/
def execDrainReq (s : State) : Host.Outcome State Fault Refusal := .next (drainReq s)

/-- As many records as fit into a payload of 4,096 bytes with what it already holds. -/
def fitRecs : Nat → List (Nat × LRec) → List (Nat × LRec) × List (Nat × LRec)
  | _, [] => ([], [])
  | n, e :: es =>
    if n + ringLen e.2 ≤ 4096 then
      let (a, b) := fitRecs (n + ringLen e.2) es
      (e :: a, b)
    else ([], e :: es)

/-- The next packet of a drain. -/
def ledgerPacket (s : State) (d : DrainSt) : State :=
  let send (flags arg : Nat) (bs : List Byte) (rest : DrainSt) : State :=
    if !hasCredit s 1 (pktUnits bs.length) then s
    else
      let last := rest.recs.isEmpty && rest.resv.isEmpty
      let s := sendPkt s (some 1) 0x02 (flags + (if d.begun then 0 else 1) + (if last then 2 else 0)) arg bs
      let s := { s with chn := { s.chn with drain := if last then none else some { rest with begun := true } } }
      if last then detect .chn 10 0 s else s
  match fitRecs 0 d.recs with
  | (e :: a, b) => send 0 e.1 ((e :: a).flatMap fun r => recBytes r.2) { d with recs := b }
  | ([], _) =>
    if d.resv.isEmpty then detect .chn 10 0 { s with chn := { s.chn with drain := none } }
    else
      let now := d.resv.take 128
      send 4 d.index (now.flatMap resvBytes) { d with recs := [], resv := d.resv.drop 128, index := d.index + now.length }

/-- LEDGER (R381): when credit allows. -/
def execLedger (s : State) : Host.Outcome State Fault Refusal :=
  .next (match s.chn.drain with
    | some d => if chnUp s then ledgerPacket s d else s
    | none => s)

/-! ### Captures (R384, R385) -/

/-- The furlong number that a capture's header carries: of the received stream for SOURCE 1. -/
def capFurlong (s : State) : Nat :=
  if getF s F.CAP_SOURCE ≠ 1 then getF s F.FURLONG_NOW
  else
    let i := getF s F.CAP_INDEX
    match scGroup s (i / 32 % 2) (i % 32) with
    | some u => (unitAt s (i / 32 % 2) u).prevFur.getD 0
    | none => 0

/-- The capture's trigger: recording begins, and the header takes what belongs to this moment. -/
def capTrigger (s : State) : State :=
  let words := getF s F.CAP_WORDS
  let seq := (s.chn.capSeq + 1) % 2 ^ 32
  let head := leBytes 4 0x43415054 ++ leBytes 4 seq ++ leBytes 8 (mainTime s) ++ leBytes 1 (getF s F.CAP_SOURCE) ++
    leBytes 1 (getF s F.CAP_INDEX) ++ leBytes 2 0 ++ leBytes 4 (capFurlong s) ++ leBytes 4 words ++ leBytes 4 (getF s F.CAP_PRE)
  { s with chn := { s.chn with
      capArmed := false, capTrig := true, capHead := head, capWords := words, capSeq := seq } }

/-- A write of 1 to CAP_START: the capture is armed; an immediate trigger comes at once, and is one that finds a capture
under way where it does (R384). -/
def capStart (s : State) : State :=
  if !isOn s 10 then s
  else
    let now := getF s F.CAP_TRIGGER == 0
    if getB s F.CAP_BUSY then (if now then detect .chn 9 0 s else s)
    else
      let s := setB { s with chn := { s.chn with capArmed := true } } F.CAP_BUSY true
      if now then capTrigger s else s

/-- CAP_START (R384). -/
def execCapStart (s : State) : Host.Outcome State Fault Refusal := .next (capStart s)

/-- CAPTURE_TRIGGER (R384). -/
def execCaptureTrigger (s : State) : Host.Outcome State Fault Refusal :=
  .next (if !isOn s 10 then s
    else if s.chn.capArmed then capTrigger s
    else if getB s F.CAP_BUSY then detect .chn 9 0 s
    else s)

/-- The capture's words are in capture memory; writing them removes their poison (12 R310, R313). -/
def captureDone (samples : List (BitVec 56)) (s : State) : State :=
  if !isOn s 10 || !s.chn.capTrig then s
  else
    let n := s.chn.capWords
    let ws := samples.take n
    let mem := (ws.zipIdx).foldl (fun t e => tset t e.2 e.1.toNat 0) s.chn.capMem
    let s := unpoison 1 (List.range ws.length) { s with chn := { s.chn with capMem := mem, capTrig := false, capPos := 0 } }
    let s := setFs s [(F.CAP_BUSY, 0), (F.CAP_SEQ, s.chn.capSeq), (F.STREAMING, if getB s F.CAP_STREAM && chnUp s then 1 else 0)]
    detect .chn 8 0 s

/-- CAPTURE_DONE (R384). -/
def execCaptureDone (samples : List (BitVec 56)) (s : State) : Host.Outcome State Fault Refusal :=
  .next (captureDone samples s)

/-- A word of capture memory as it is sent: four samples of -8,192 where it is poisoned (12 R313). -/
def capWord (s : State) (w : Nat) : Nat := if unusable s 1 w then 0x80020008002000 else tget s.chn.capMem w 0

/-- The header of the capture (R385). -/
def capHeader (s : State) : List Byte :=
  let bad := (((memAt s 1).poison ++ (memAt s 1).bad).filter fun w => decide (w < s.chn.capWords))
  let h := s.chn.capHead ++ leBytes 4 bad.length ++ leBytes 4 (bad.min?.getD 0xFFFFFFFF) ++ List.replicate 20 0#8
  h ++ leBytes 4 (crc32c h)

/-- The bytes of the stream from an offset on. -/
def capBytes (s : State) (off n : Nat) : List Byte :=
  let head := (capHeader s).drop off
  let w0 := (off - 64) / 8
  (head ++ (List.range' w0 (min (n / 8 + 1) (s.chn.capWords - w0))).flatMap fun w => leBytes 8 (capWord s w)).take n

/-- CAPTURE (R376, R384): the next packet of the stream, when credit allows; channel 1 is done with the last. -/
def capturePacket (s : State) : State :=
  let off := s.chn.capPos
  let total := 64 + 8 * s.chn.capWords
  let n := min 4096 (total - off)
  if !getB s F.STREAMING || !chnUp s || !isOn s 1 || s.stw.dmaStop || !hasCredit s 0 (pktUnits n) then s
  else
    let last := off + n == total
    let s := sendPkt s (some 0) 0x01 ((if off = 0 then 1 else 0) + (if last then 2 else 0)) off (capBytes s off n)
    let s := { s with chn := { s.chn with capPos := off + n } }
    if last then detect .dma 1 0 (setB s F.STREAMING false) else s

/-- CAPTURE (R376). -/
def execCapture (s : State) : Host.Outcome State Fault Refusal := .next (capturePacket s)

/-! ### Inbound streams (R386) -/

/-- CONFIG (R386). -/
def execConfig (p : Packet) (s : State) : Host.Outcome State Fault Refusal :=
  .next (inStream 5 0x10 p s fun s =>
    if loading s 2 && getF s F.LOAD_SRC == 2 then (if s.ld.discard then s else feed p.payload s)
    else detect .chn 6 0 s)

/-- The bytes of a snapshot slot. -/
def snapSize : Nat := recSize .snapshot

/-- A snapshot begins: its slot is erased. -/
def snapInStart (s : State) : State :=
  let s := setCells s (flashErase s.st.cells (slotAddr .snapshot (nextSlot s .snapshot)) (recBlocks .snapshot))
  let s := if getB s (F.DMA_BUSY 2) then s else storeWant s 7
  setB { s with chn := { s.chn with snapNext := some 0, snapBad := false, snapBuf := [] } } (F.DMA_BUSY 2) true

/-- Every check of a snapshot in a slot. -/
def snapAllOk (s : State) (i : Nat) : Bool := slotValid s .snapshot i && (List.range 256).all (snapPageOk s i)

/-- Payload of a snapshot at the next offset: its first four bytes are programmed last (R372). -/
def snapInData (bs : List Byte) (last : Bool) (s : State) : State :=
  match s.chn.snapNext with
  | none => s
  | some off =>
    let i := nextSlot s .snapshot
    let a := slotAddr .snapshot i
    let head := s.chn.snapBuf ++ bs.take (4 - s.chn.snapBuf.length)
    let body := bs.drop (head.length - s.chn.snapBuf.length)
    let s := setCells s (flashProgram s.st.cells (a + off + (bs.length - body.length)) body)
    let s := { s with chn := { s.chn with snapNext := some (off + bs.length), snapBuf := head } }
    if off + bs.length < snapSize then (if last then snapInFail s else s)
    else if snapSize < off + bs.length then snapInFail s
    else
      let s := setCells s (flashProgram s.st.cells a head)
      if snapAllOk s i then
        detect .chn 14 0 { s with chn := { s.chn with snapNext := none, snapBuf := [] } }
      else snapInFail s

/-- DMA moves what an inbound stream brings to the store. -/
def dmaRuns (s : State) : Bool := mgmtWorks s && !s.stw.dmaStop

/-- An inbound SNAPSHOT packet. -/
def snapIn (p : Packet) (s : State) : State :=
  let off := p.arg.toNat
  let last := bitOf p.flags.toNat 1
  if off = 0 then
    let s := onlyIf s.chn.snapNext.isSome snapInFail s
    if getB s F.SNAP_BUSY || !dmaRuns s || s.st.small then snapInFail s
    else snapInData p.payload last (snapInStart s)
  else if s.chn.snapNext = some off ∧ !getB s F.SNAP_BUSY ∧ dmaRuns s then snapInData p.payload last s
  else if s.chn.snapBad then s
  else snapInFail s

/-- SNAPSHOT (R386). -/
def execSnapshot (p : Packet) (s : State) : Host.Outcome State Fault Refusal := .next (inStream 6 0x11 p s (snapIn p))

/-- A store address that the device accepts: the user area, and the image slots that BOOTED does not name. -/
def storeAccepts (s : State) (a n : Nat) : Bool :=
  let within (lo hi : Nat) : Bool := decide (lo ≤ a) && decide (a + n ≤ hi)
  let b := getF s F.BOOTED
  within 0x07000000 0x08000000 || (within 0 0x01000000 && b != 1) || (within 0x01000000 0x02000000 && b != 2)

/-- An inbound STORE packet. -/
def storeIn (p : Packet) (s : State) : State :=
  let a := p.arg.toNat
  if a % 256 ≠ 0 ∨ !dmaRuns s ∨ !storeAccepts s a p.payload.length then detect .chn 7 0 s
  else
    let s := setB (if getB s (F.DMA_BUSY 3) then s else storeWant s 7) (F.DMA_BUSY 3) true
    let s := if a % 65536 = 0 then setCells s (flashErase s.st.cells a 0x10000) else s
    setCells s (flashProgram s.st.cells a p.payload)

/-- STORE (R386). -/
def execStore (p : Packet) (s : State) : Host.Outcome State Fault Refusal := .next (inStream 7 0x12 p s (storeIn p))

end Sys2Proof.Machine
end

