-- ==== Sys2Proof/Machine/Steward.lean ====
section
/-! DEFINITION. The steward's mailbox and watchdog and the DMA channels (15 R387, R388; 12 R316). -/
namespace Sys2Proof.Machine

/-! ### Mailbox and watchdog (R387) -/

/-- A write of 1 to DOORBELL. -/
def doorbell (s : State) : State :=
  if !isOn s 1 then s else if getB s F.MBOX_BUSY then detect .stw 17 0 s else setB s F.MBOX_BUSY true

/-- DOORBELL (R387). -/
def execDoorbell (s : State) : Host.Outcome State Fault Refusal := .next (doorbell s)

/-- MBOX_RESPONSE (R387). -/
def execMboxResponse (r0 r1 r2 r3 : Word) (result : Byte) (s : State) : Host.Outcome State Fault Refusal :=
  .next (if stwRuns s && getB s F.MBOX_BUSY then
      detect .stw 16 0 (setFs s [(F.MBOX_RSP 0, r0.toNat), (F.MBOX_RSP 1, r1.toNat), (F.MBOX_RSP 2, r2.toNat),
        (F.MBOX_RSP 3, r3.toNat), (F.MBOX_RESULT, result.toNat), (F.MBOX_BUSY, 0)])
    else s)

/-- WATCHDOG_EXPIRY (R387): the steward restarts as R313 describes for memory 8. -/
def execWatchdogExpiry (s : State) : Host.Outcome State Fault Refusal :=
  .next (if stwRuns s then detect .stw 20 0 (stwReinit s) else s)

/-! ### Channels of the user (R388) -/

/-- The domain of a space: store, triplet table, capture memory, CAPTURE stream. -/
def spaceDom (sp : Nat) : Nat := [1, 9, 1, 10].getD sp 1

/-- The words of the triplet table and of capture memory. -/
def spaceWords : Nat := 4194304

/-- START is refused: a store destination outside the user area, a space whose domain is not ON, the stream as a source,
a length that is no multiple of 8 or above 128 MiB. -/
def dmaRefused (s : State) (c : Nat) : Bool :=
  let src := getF s (F.SRC_SPACE c)
  let dst := getF s (F.DST_SPACE c)
  let len := getF s (F.DMA_LEN c)
  let a := getF s (F.DMA_DST c)
  src == 3 || !isOn s (spaceDom src) || !isOn s (spaceDom dst) || len % 8 != 0 || decide (0x8000000 < len) ||
    (dst == 0 && !(decide (0x07000000 ≤ a) && decide (a + len ≤ 0x08000000)))

/-- A space of a transfer is the store. -/
def DmaRun.usesStore (r : DmaRun) : Bool := r.srcSpace == 0 || r.dstSpace == 0

/-- No transfer. -/
def DmaRun.blank : DmaRun := ⟨0, 0, 0, 0, 0⟩

/-- A write of 1 to START of a channel; channels 0 to 3 ignore it. -/
def dmaStart (c : Nat) (s : State) : State :=
  if c < 4 ∨ !isOn s 1 ∨ getB s (F.DMA_BUSY c) ∨ s.stw.dmaStop then s
  else if dmaRefused s c then setF s (F.DMA_ERR c) 1
  else
    let run : DmaRun := ⟨getF s (F.SRC_SPACE c), getF s (F.DST_SPACE c), getF s (F.DMA_SRC c), getF s (F.DMA_DST c), getF s (F.DMA_LEN c)⟩
    let s := { s with stw := { s.stw with dma := tput s.stw.dma c run } }
    onlyIf run.usesStore (fun s => storeWant s 8) (setFs s [(F.DMA_BUSY c, 1), (F.DMA_ERR c, 0)])

/-- DMA_START (R388). -/
def execDmaStart (c : Fin 8) (s : State) : Host.Outcome State Fault Refusal := .next (dmaStart c.val s)

/-- The address of word `i` of a copy that starts at `a`: the store counts bytes, the memories words. -/
def wordAddr (sp a i : Nat) : Nat := if sp = 0 then a + 8 * i else a + i

/-- Four entries of the triplet table as a word (05 R133). -/
def tableWord (s : State) (w : Nat) : Nat :=
  (List.range 4).foldl (fun x i => x + tableEntry s (4 * w + i) * 2 ^ (14 * i)) 0

/-- The eight bytes at an address of a source space; outside the space they are free. -/
def dmaRead (s : State) (sp a : Nat) : List Byte :=
  if sp = 0 then flashRead s.st.cells a 8
  else if spaceWords ≤ a then leBytes 8 (draw s (2 ^ 56))
  else leBytes 8 (if sp = 1 then tableWord s a else tget s.chn.capMem a 0)

/-- Write eight bytes to an address of a destination space: a full-word write takes a word's poison away (12 R310). -/
def dmaWrite (sp a : Nat) (bs : List Byte) (s : State) : State :=
  let w := ofLe bs % 2 ^ 56
  if sp = 0 then setCells s (flashProgram s.st.cells a bs)
  else if spaceWords ≤ a then s
  else if sp = 1 then
    unpoison 0 [a] (each (List.range 4) (fun s i => setEntry s (4 * a + i) (fixEntry (w / 2 ^ (14 * i) % 2 ^ 14))) s)
  else if sp = 2 then unpoison 1 [a] { s with chn := { s.chn with capMem := tset s.chn.capMem a w 0 } }
  else s

/-- Count the draw that a word outside its space takes. -/
def dmaDrew (sp a : Nat) (s : State) : State := onlyIf (sp != 0 && decide (spaceWords ≤ a)) drew s

/-- Copy word `i`. -/
def dmaWord (r : DmaRun) (s : State) (i : Nat) : State :=
  let a := wordAddr r.srcSpace r.src i
  dmaWrite r.dstSpace (wordAddr r.dstSpace r.dst i) (dmaRead s r.srcSpace a) (dmaDrew r.srcSpace a s)

/-- The bytes of the first `n` words of a copy to the CAPTURE stream, each word read in turn. -/
def dmaBytes (r : DmaRun) (n : Nat) (s : State) : State × List Byte :=
  (List.range n).foldl (fun x i =>
    let a := wordAddr r.srcSpace r.src i
    (dmaDrew r.srcSpace a x.1, x.2 ++ dmaRead x.1 r.srcSpace a)) (s, [])

/-- Send bytes as CAPTURE packets. -/
def dmaPackets (bs : List Byte) (s : State) : State :=
  let ps := pieces 4096 ((bs.length + 4095) / 4096) bs
  (ps.zipIdx).foldl (fun s p =>
    sendPkt s (some 0) 0x01 ((if p.2 = 0 then 1 else 0) + (if p.2 + 1 = ps.length then 2 else 0)) (4096 * p.2) p.1) s

/-- The credit that CAPTURE packets of `n` words take. -/
def dmaUnits (n : Nat) : Nat := n / 512 * pktUnits 4096 + (if n % 512 = 0 then 0 else pktUnits (8 * (n % 512)))

/-- Copy the first `n` words in ascending address order. -/
def dmaCopy (r : DmaRun) (n : Nat) (s : State) : State :=
  if r.dstSpace = 3 then
    let (s, bs) := dmaBytes r n s
    if chnUp s then dmaPackets bs s else s
  else each (List.range n) (dmaWord r) s

/-- A channel halts with an error: 2 source, 3 destination. -/
def dmaHalt (c err : Nat) (s : State) : State :=
  detect .dma (if err = 2 then 16 + c else 8 + c) 0 (setFs s [(F.DMA_BUSY c, 0), (F.DMA_ERR c, err)])

/-- The memory's own action on the uncorrectable word that a source read met (12 R312, R316). -/
def sourceAction (m a : Nat) (s : State) : State := if poisoned s m a then s else memUncorr m (a / 8) [a % 8] false s

/-- A source error at address `a` of a space. -/
def dmaSource (c sp a : Nat) (s : State) : State :=
  let s := setF (dmaHalt c 2 s) (F.HALT_ADDR c) a
  if sp = 1 ∧ a < spaceWords then sourceAction 0 a s else if sp = 2 ∧ a < spaceWords then sourceAction 1 a s else s

/-- A word of the triplet table or of capture memory that no read may use (12 R316). -/
def spaceBad (s : State) (sp a : Nat) : Bool := (sp == 1 && unusable s 0 a) || (sp == 2 && unusable s 1 a)

/-- The first word that a copy's source read cannot use, where the copy would else be done. -/
def DmaRun.meets (r : DmaRun) (o : DmaOutcome) (s : State) : DmaOutcome :=
  match o, (List.range (r.len / 8)).find? fun i => spaceBad s r.srcSpace (r.src + i) with
  | .done, some i => .sourceError (BitVec.ofNat 32 (r.src + i))
  | _, _ => o

/-- A channel of the user ends: done, or halted with the words before the error written. -/
def userDone (c : Nat) (o : DmaOutcome) (s : State) : State :=
  let r := tget s.stw.dma c DmaRun.blank
  let n := r.len / 8
  let free := fun (s : State) => onlyIf r.usesStore (fun s => storeDone s 8) { s with stw := { s.stw with dma := tdel s.stw.dma c } }
  match r.meets o s with
  | .done =>
    if r.dstSpace = 3 ∧ !(chnUp s && hasCredit s 0 (dmaUnits n)) then s
    else detect .dma c 0 (setB (free (dmaCopy r n s)) (F.DMA_BUSY c) false)
  | .sourceError a =>
    let k := min n ((a.toNat - r.src) / (if r.srcSpace = 0 then 8 else 1))
    dmaSource c r.srcSpace a.toNat (free (dmaCopy r k s))
  | .destError =>
    let k := draw s (n + 1)
    dmaHalt c 3 (free (dmaCopy r k (drew s)))

/-! ### Channels of the device (R388) -/

/-- Channel 0 moves a snapshot or a restoration. -/
def restoring (s : State) : Bool := getF s F.STORE_ACTIVE == 2 || s.st.waiting.contains 2

/-- Channel 0: a snapshot that halts fails (05 R141); a restoration that halts falls back through its own end. -/
def snapDone (o : DmaOutcome) (s : State) : State :=
  if !getB s F.SNAP_BUSY && !restoring s then s
  else
    let snap := getB s F.SNAP_BUSY
    match o with
    | .done => detect .dma 0 0 s
    | .sourceError a => onlyIf snap (endSnap false) (dmaSource 0 (if snap then 1 else 0) a.toNat s)
    | .destError => onlyIf snap (endSnap false) (dmaHalt 0 3 s)

/-- The lowest poisoned word of a page of the triplet table. -/
def pagePoison (s : State) (p : Nat) : Option Nat := ((memAt s 0).poison.filter fun w => w / 16384 == p).min?

/-- SNAPSHOT_PAGE_COPY (05 R141): pages in ascending order; a poisoned word halts channel 0, and the snapshot fails. -/
def execSnapshotPageCopy (s : State) : Host.Outcome State Fault Refusal :=
  .next (match s.fth.snap with
    | none => s
    | some x =>
      if 256 ≤ x.next ∨ !isOn s 9 ∨ !mgmtWorks s ∨ s.stw.dmaStop then s
      else match pagePoison s x.next with
        | some w => snapDone (.sourceError (BitVec.ofNat 32 w)) s
        | none => copyPage x s)

/-- Channel 1: the stream sends a poisoned word as samples of -8,192 and goes on (12 R313); it is done with its last
packet. -/
def streamDone (o : DmaOutcome) (s : State) : State :=
  match o with
  | .sourceError a => if getB s F.STREAMING && decide (a.toNat < spaceWords) then sourceAction 1 a.toNat s else s
  | .done | .destError => s

/-- A halt of channel 2 makes an inbound snapshot that is not whole fail. -/
def snapInCut (s : State) : State := if s.chn.snapNext.isSome then snapInFail s else storeDone s 7

/-- Channel 2: inbound snapshots. -/
def snapInDone (o : DmaOutcome) (s : State) : State :=
  if !getB s (F.DMA_BUSY 2) then s
  else match o with
    | .done => if s.chn.snapNext.isSome then s else detect .dma 2 0 (setB (storeDone s 7) (F.DMA_BUSY 2) false)
    | .sourceError a => dmaSource 2 3 a.toNat (snapInCut s)
    | .destError => dmaHalt 2 3 (snapInCut s)

/-- Channel 3: inbound STORE packets. -/
def storeInDone (o : DmaOutcome) (s : State) : State :=
  if !getB s (F.DMA_BUSY 3) then s
  else match o with
    | .done => detect .dma 3 0 (setB (storeDone s 7) (F.DMA_BUSY 3) false)
    | .sourceError a => dmaSource 3 3 a.toNat (storeDone s 7)
    | .destError => dmaHalt 3 3 (storeDone s 7)

/-- A transfer of channel `c` ends. -/
def dmaDone (c : Nat) (o : DmaOutcome) (s : State) : State :=
  if !isOn s 1 ∨ s.stw.dmaStop then s
  else if c = 0 then snapDone o s
  else if c = 1 then streamDone o s
  else if c = 2 then snapInDone o s
  else if c = 3 then storeInDone o s
  else if getB s (F.DMA_BUSY c) then userDone c o s
  else s

/-- The transfer that issued a failed program or erase fails (R370): a record write, an inbound stream, or a copy of the
user to the store. -/
def transferFails (s : State) : State :=
  let a := getF s F.STORE_ACTIVE
  match s.st.writes.find? fun w => recRank w.kind == a with
  | some w => endRec w.kind false s
  | none =>
    if a = 7 then (if getB s (F.DMA_BUSY 2) then snapInDone .destError s else storeInDone .destError s)
    else if a = 8 then
      match s.stw.dma.find? fun r => r.2.dstSpace == 0 with
      | some r => userDone r.1 .destError s
      | none => s
    else s

/-- STORE_BUSY_TIMEOUT (R370). -/
def execStoreBusyTimeout (s : State) : Host.Outcome State Fault Refusal :=
  .next (if mgmtWorks s && s.st.busy then
      transferFails (detect .stw 21 0 { s with st := { s.st with busy := false } })
    else s)

/-- DMA_DONE (R388). -/
def execDmaDone (c : Fin 8) (outcome : DmaOutcome) (s : State) : Host.Outcome State Fault Refusal :=
  .next (dmaDone c.val outcome s)

end Sys2Proof.Machine
end

