-- ==== Sys2Proof/Machine/SelfTest.lean ====
section
/-! DEFINITION. Self-test of a domain at its orderly off (16 R389-R395). -/
namespace Sys2Proof.Machine

/-- A wake of the domain is held (14 R347). -/
def wakeHeld (s : State) (d : Nat) : Bool := bitOf (getF s F.WAKE_PEND) (d - 1)

/-- A failure of the memory test or the logic test of a domain. -/
def bistFail (d : Nat) (s : State) : State :=
  let b := if s.bist.failed.contains d then s.bist.failed else s.bist.failed ++ [d]
  detect .sec (d - 1) d (setF { s with bist := ⟨b⟩ } (F.BIST_RESULT d) 2)

/-- A failing bit (R393, R394): counted, the first one kept, its row a repair candidate, buffered in AON. -/
def bistBit (d : Nat) (s : State) (f : Nat × Nat × Nat) : State :=
  let first := !s.bist.failed.contains d
  let s := satF s (F.FAIL_COUNT d) 1
  let s := onlyIf first (fun s => setFs s [(F.FAIL_MEM d, f.1), (F.FAIL_WORD d, f.2.1), (F.FAIL_BIT d, f.2.2)]) s
  bistFail d (addCand f.1 2 (f.2.1 / 8) (bufferCand f.1 (f.2.1 / 8) s))

/-- A logic signature that differs (R393). -/
def bistLogic (d : Nat) (s : State) : State := bistFail d (setF s (F.FAIL_MEM d) 0xF)

/-- The three secrets are written with zero before scan is enabled in MGMT (R395). -/
def clearSecrets (s : State) : State :=
  let s := challengeDrop s
  { s with sec := { s.sec with keyCopy := 0, respBuf := 0, keyRegs := 0 } }

/-- The secrets read back as zero. -/
def secretsZero (s : State) : Bool := s.sec.keyCopy == 0 && s.sec.respBuf == 0 && s.sec.keyRegs == 0

/-- Scan in MGMT: the secrets clear, and scan is enabled only where all three read back zero. -/
def mgmtScan (s : State) : State :=
  let s := clearSecrets s
  if secretsZero s then detect .sec 13 0 s else detect .sec 14 0 s

/-- The test stops before its last slice. -/
def bistStop (d : Nat) (s : State) : State :=
  setDom (detect .sec 11 d (setF s (F.BIST_RESULT d) 3)) d (.entering 4 .orderly)

/-- The last slice is over (R392). -/
def bistComplete (d : Nat) (s : State) : State :=
  let res := if s.bist.failed.contains d then 2 else 1
  let s := { s with bist := ⟨s.bist.failed.filter (· != d)⟩ }
  let s := setFs s [(F.BIST_RESULT d, res), (F.NEXT_SLICE d, 0), (F.COMPLETE_TIME d, mainTime s)]
  setDom (detect .sec 10 d s) d (.entering 4 .orderly)

/-- A slice ends; slice 0 begins the count of failing bits afresh (13 R341: failing bits in one completed test). The logic test of MGMT lies in the last slices, behind R395: its signature and the last slice come with
scan enabled. -/
def bistSlice (d : Nat) (r : SliceReport) (s : State) : State :=
  let s := onlyIf r.late (detect .sec 12 d) s
  let s := onlyIf (getF s (F.NEXT_SLICE d) == 0) (fun s => setF s (F.FAIL_COUNT d) 0) s
  let s := r.fails.foldl (bistBit d) s
  let s := onlyIf (d == 1 && (r.last || r.logicBad)) mgmtScan s
  let s := onlyIf r.logicBad (bistLogic d) s
  if r.last then bistComplete d s
  else
    let s := addF s (F.NEXT_SLICE d) 1
    if wakeHeld s d || decide (getF s F.BIST_LIMIT ≤ r.elapsed) then bistStop d s else s

/-- BIST_SLICE_END (R391). -/
def execBistSliceEnd (d : Dom) (report : SliceReport) (s : State) : Host.Outcome State Fault Refusal :=
  .next (match domAt s d.num with
    | .entering 3 _ => bistSlice d.num report s
    | _ => s)

/-- BIST_SLICE_CUT (R391): NEXT_SLICE keeps its number. -/
def execBistSliceCut (d : Dom) (s : State) : Host.Outcome State Fault Refusal :=
  .next (match domAt s d.num with
    | .entering 3 _ => if wakeHeld s d.num then bistStop d.num s else s
    | _ => s)

end Sys2Proof.Machine
end

