-- ==== Sys2Proof/Machine/Security.lean ====
section
/-! DEFINITION. Field access and fuse programming (16 R396-R402). -/
namespace Sys2Proof.Machine

/-! ### Field access (R397, R398) -/

/-- Something is open, also behind an outstanding challenge. -/
def accessOpen (s : State) : Bool := getF s F.ACC_STATE == 2 || getF s F.OPEN_SCOPE != 0

/-- A write of 1 to ACC_REQ, with the bits of the entropy source. -/
def accReq (entropy : Nat) (s : State) : State :=
  if !isOn s 1 then s
  else if getF s F.ACC_STATE = 3 then setF s F.ACC_RESULT 5
  else if fuseBad s 0 || fuseBad s 1 then setF s F.ACC_RESULT 4
  else
    let ch := sha256 (leBytes 32 entropy)
    let s := { s with sec := { s.sec with challenge := some (getF s F.ACC_SCOPE) } }
    setFs (each (List.range 8) (fun s i => setF s (F.CHALLENGE i) (ofBe ((ch.drop (4 * i)).take 4))) s)
      [(F.ACC_STATE, 1), (F.ACC_RESULT, 0)]

/-- ACC_REQ (R397). -/
def execAccReq (entropy : BitVec 256) (s : State) : Host.Outcome State Fault Refusal := .next (accReq entropy.toNat s)

/-- The message M (R397). -/
def accMessage (s : State) (scope : Nat) : List Byte :=
  (List.range 8).flatMap (fun i => beBytes 4 (getF s (F.CHALLENGE i))) ++ leBytes 8 (fuseAt s 0).data ++ leBytes 4 scope ++
    leBytes 4 0x3208

/-- The response that opens the scopes asked (R397). -/
def accExpected (s : State) (scope : Nat) : List Byte := hmacSha256 (leBytes 32 (fuseAt s 1).data) (accMessage s scope)

/-- RESPONSE_0 to RESPONSE_7 as a string. -/
def accResponse (s : State) : List Byte := (List.range 8).flatMap fun i => beBytes 4 (getF s (F.RESPONSE i))

/-- The scopes open. -/
def accOpen (scope : Nat) (s : State) : State :=
  let s := { s with sec := { s.sec with opened := s.time.sinceRst } }
  detect .sec 17 0 (setFs s [(F.ACC_STATE, 2), (F.OPEN_SCOPE, scope), (F.ACC_REMAIN, getF s F.ACC_LIFE), (F.ACC_RESULT, 0)])

/-- A mismatch; the eighth locks field access. -/
def accMismatch (s : State) : State :=
  let n := min 8 (getF s F.ACC_FAILS + 1)
  let s := setFs s [(F.ACC_STATE, if n = 8 then 3 else 0), (F.OPEN_SCOPE, 0), (F.ACC_FAILS, n), (F.ACC_RESULT, 1)]
  onlyIf (n == 8) (detect .sec 16 0) (detect .sec 15 0 s)

/-- A write of 1 to ACC_SUBMIT. -/
def accSubmit (s : State) : State :=
  if !isOn s 1 then s
  else match s.sec.challenge with
    | none => setF s F.ACC_RESULT 2
    | some scope =>
      let good := accResponse s == accExpected s scope
      let bad := fuseBad s 0 || fuseBad s 1
      let s := challengeDrop { s with sec := { s.sec with keyCopy := 0, respBuf := 0 } }
      if bad then setFs s [(F.ACC_STATE, if getF s F.OPEN_SCOPE = 0 then 0 else 2), (F.ACC_RESULT, 4)]
      else if good then accOpen scope s else accMismatch s

/-- ACC_SUBMIT (R398). -/
def execAccSubmit (s : State) : Host.Outcome State Fault Refusal := .next (accSubmit s)

/-- What is open closes. -/
def accClose (s : State) : State :=
  if accessOpen s then
    let s := onlyIf s.sec.challenge.isSome challengeDrop s
    detect .sec 18 0 (setFs s [(F.ACC_STATE, 0), (F.OPEN_SCOPE, 0), (F.ACC_REMAIN, 0)])
  else s

/-- ACC_CLOSE (R398). -/
def execAccClose (s : State) : Host.Outcome State Fault Refusal := .next (accClose s)

/-- CHALLENGE_EXPIRY (R398). -/
def execChallengeExpiry (s : State) : Host.Outcome State Fault Refusal :=
  .next (if s.sec.challenge.isSome then challengeExpires s else s)

/-- ACCESS_LIFE_EXPIRY (R398). -/
def execAccessLifeExpiry (s : State) : Host.Outcome State Fault Refusal := .next (accClose s)

/-- REMAIN as it reads: ACC_LIFE as at the opening, less the minutes of operating time since (3,840 grains each). -/
def accRemain (s : State) : Nat := getF s F.ACC_REMAIN - (s.time.sinceRst - s.sec.opened) / 3840

/-! ### Fuses (R401, R402) -/

/-- FUSE_INTEGRITY_CHECK (R401). -/
def execFuseIntegrityCheck (sensed : List FuseWord) (s : State) : Host.Outcome State Fault Refusal :=
  .next (fuseCheck sensed s)

/-- The data that FUSE_DATA holds for a group. -/
def fuseInput (s : State) (g : Nat) : Nat :=
  (List.range 16).foldl (fun x j => x + getF s (F.FUSE_DATA j) * 2 ^ (32 * j)) 0 % 2 ^ fuseBits g

/-- A key slot would stand programmed and not revoked without slot `k`. -/
def otherKey (s : State) (k : Nat) : Bool :=
  (List.range 4).any fun j => j != k && (fuseAt s (6 + j)).marker && !fuseBad s (6 + j) && !(fuseAt s (10 + j)).marker &&
    !fuseBad s (10 + j)

/-- The refusals of R402 in the order it lists them, with their code; a closed FUSE scope refuses first (R396). -/
def progRefused (s : State) (g : Nat) : Option Nat :=
  let v := fuseInput s g
  let t := getS s F.TEMP
  if !bitOf (getF s F.OPEN_SCOPE) 1 then some 1
  else if g < 3 ∨ 14 ≤ g then some 1
  else if (fuseAt s g).marker then some 1
  else if 6 ≤ g ∧ g < 10 ∧ !onP256 (bitsOf v 0 256) (bitsOf v 256 256) then some 2
  else if 10 ≤ g ∧ !otherKey s (g - 10) then some 2
  else if (g = 4 ∨ g = 5) ∧ toS 16 (bitsOf v 16 16) < toS 16 (bitsOf v 0 16) then some 1
  else if t < 0 ∨ 850 < t then some 3
  else if graveLocked s then some 3
  else none

/-- A write of 1 to PROG. -/
def prog (s : State) : State :=
  let g := getF s F.FUSE_GROUP
  if getB s F.FUSE_BUSY then s
  else match progRefused s g with
    | some code => detect .sec 20 g (setF s F.FUSE_RESULT code)
    | none =>
      let v := fuseInput s g
      setFs { s with sec := { s.sec with prog := some (g, ⟨true, v, fuseCrc g v⟩) } } [(F.FUSE_BUSY, 1), (F.FUSE_RESULT, 0)]

/-- PROG (R402). -/
def execProg (s : State) : Host.Outcome State Fault Refusal := .next (prog s)

/-- The group stands as sensed: taken into use where it holds what was to be programmed, else R401 acts where it fails. -/
def progEnd (sensed : FuseWord) (s : State) : State :=
  match s.sec.prog with
  | none => s
  | some (g, want) =>
    let s := setB { s with sec := { s.sec with prog := none, fuses := s.sec.fuses.set g sensed } } F.FUSE_BUSY false
    if sensed = want then
      let s := detect .sec 19 g { s with sec := { s.sec with shadow := s.sec.shadow.set g sensed } }
      onlyIf (decide (10 ≤ g)) (detect .sec 21 g) s
    else if !fuseGood g sensed || sensed != fuseAt s g then
      settle (fuseFails (setB s F.INTEGRITY_OK false) g)
    else s

/-- FUSE_PROG_COMPLETE (R402). -/
def execFuseProgComplete (sensed : FuseWord) (s : State) : Host.Outcome State Fault Refusal := .next (progEnd sensed s)

end Sys2Proof.Machine
end

