-- ==== Sys2Proof/Machine/RegTable.lean ====
section
/-! DEFINITION. The register file as software reaches it (00 R8-R12; 18 R429-R433): every listed register with its fields
and their access codes, page by page. -/
namespace Sys2Proof.Machine

/-- A field of a register with its access code (00 R8): a RW field may be stored at its nearest limit or through a map of
its own; `lo` and `hi` are the halves of a 64-bit counter. -/
inductive Desc where
  | ro (f : Fld) | rw (f : Fld) | rwU (f : Fld) (least most : Nat) | rwF (f : Fld) (fix : Nat → Nat)
  | sc (f : Fld) | wo (f : Fld) | otp (f : Fld) | lo (f : Fld) | hi (f : Fld)

/-- Registers of one shape: the first address, the stride, how many, and the fields of each that exists. -/
structure RegRow where
  base   : Nat
  stride : Nat
  count  : Nat
  descs  : Nat → Option (List Desc)

/-- TLM_PERIOD: 0, or 1 to 1,000 (15 R388). -/
def tlmFix (v : Nat) : Nat := min v 1000
/-- 3 is stored as 0 (15 R388). -/
def threeAs0 (v : Nat) : Nat := if v = 3 then 0 else v
/-- 3 is stored as 1 (08 R241). -/
def threeAs1 (v : Nat) : Nat := if v = 3 then 1 else v
/-- 0 is stored as 1 (09 R260). -/
def zeroAs1 (v : Nat) : Nat := if v = 0 then 1 else v
/-- SNAP_PERIOD: 0, or 15 to 10,080 (05 R160). -/
def snapFix (v : Nat) : Nat := if v = 0 then 0 else clampN 15 10080 v
/-- The period of a scrubber: 0, or not below its least (12 R305, R311). -/
def scrubFix (m v : Nat) : Nat := if v = 0 then 0 else max (scrubMin m) v
/-- Slot 31 reads 31 (09 R260). -/
def hkFix (i v : Nat) : Nat := if i = 31 then 31 else v

/-- A row of registers with fields in all of them. -/
def regs (base stride count : Nat) (descs : Nat → List Desc) : RegRow := ⟨base, stride, count, fun i => some (descs i)⟩

/-- One register. -/
def reg (base : Nat) (descs : List Desc) : RegRow := ⟨base, 4, 1, fun _ => some descs⟩

/-- A row of registers of which only some exist. -/
def regsIf (base stride count : Nat) (has : Nat → Bool) (descs : Nat → List Desc) : RegRow :=
  ⟨base, stride, count, fun i => if has i then some (descs i) else none⟩

/-- Words of a block that the chapter lists as reserved (00 R10). -/
def resv (base stride count words : Nat) : List RegRow :=
  (List.range words).map fun j => regs (base + 4 * j) stride count fun _ => []

/-- The domains of a self-test result block (16 R402). -/
def dOk (d : Nat) : Bool := decide (1 ≤ d)

/-- The Ident page (18 R434, R439). -/
def pageIdent : List RegRow :=
  [reg 0x00000000 [.ro F.IDENT_DEVICE],
   reg 0x00000004 [.ro F.IDENT_STEPPING],
   reg 0x00000100 [.rw F.TBL_SEL],
   reg 0x00000104 [.rw F.TBL_ADDR],
   reg 0x00000108 [],
   reg 0x0000010C [.ro F.TBL_ERR]]

/-- The Aon page (14 R363; 11 R304; 13 R341; 15 R369). -/
def pageAon : List RegRow :=
  [reg 0x00010000 [],
   reg 0x00010004 [],
   reg 0x00010008 [],
   reg 0x0001000C [.ro F.WAKE_N_LOW, .ro F.WAKE_PEND, .rw F.WAKE_SET],
   reg 0x00010010 [.rwU F.SAVE_TIMEOUT 10 2000],
   reg 0x00010020 [.rw F.AVS_EN, .rw F.AVS_ADDR, .rw F.AVS_EXP, .rwU F.AVS_STEP 1 25],
   reg 0x00010024 [.rwU F.VMAX 550 800, .rwU F.VMIN 550 800],
   reg 0x00010028 [.ro F.VCORE_READ, .ro F.VCORE_REQ],
   reg 0x0001002C [.ro F.AVS_FAILED, .ro F.AVS_STATUS_WORD],
   reg 0x00010040 [.ro F.GRAVE_LOCK, .ro F.GRAVE_CAUSE, .ro F.GRAVE_SOURCE, .ro F.GRAVE_BLOCK],
   reg 0x00010044 [.ro F.PIN_GRAVE, .ro F.PIN_MAJOR, .ro F.PIN_MINOR],
   reg 0x00010060 [],
   reg 0x00010064 [],
   reg 0x00010068 [.ro F.GRAIN_LEN],
   reg 0x0001006C [.ro F.LEDGER_EXHAUSTED, .ro F.SLEWING, .ro F.TIME_UNTRIMMED, .ro F.TIME_VALID],
   reg 0x00010080 [.ro F.FRAME_ERRS, .ro F.MP_CRC_ERRS],
   reg 0x00010140 [.ro F.AON_SRC]]

/-- The Therm page (14 R363). -/
def pageTherm : List RegRow :=
  [reg 0x00020000 [.ro F.TEMP, .ro F.TEMP_SRC, .ro F.SENSOR_BROKEN, .ro F.HOST_STALE, .ro F.HOT, .ro F.SHUT_COUNT],
   reg 0x00020004 [.ro F.SENSOR],
   reg 0x00020008 [.rwU F.WARN 600 1250, .rwU F.THROTTLE 600 1250],
   reg 0x0002000C [.rwU F.SHUTDOWN 1000 1250, .rwU F.HYST 5 100],
   reg 0x00020010 [.ro F.HOST_AGE, .rw F.HOST_TEMP],
   reg 0x00020014 [.ro F.THR_STEP, .ro F.HR_REQ, .ro F.TH_REQ, .rwU F.FLOOR 0 8, .ro F.THR_F, .ro F.THR_V, .ro F.THR_E]]

/-- The Cfg page (02 R66, R67). -/
def pageCfg : List RegRow :=
  [reg 0x00030000 [.rw F.ABORT_ZONE, .sc F.CFG_ABORT, .sc F.CFG_START, .rw F.LOAD_SRC],
   reg 0x00030004 [.ro F.LAST_ZONE, .ro F.CFG_LAST_RESULT, .ro F.LOADER_STATE, .ro F.NO_IMAGE, .ro F.FALLBACK, .ro F.BOOTED],
   reg 0x00030008 [.wo F.CFG_LOAD_DATA],
   reg 0x0003000C [.rwU F.COMMIT_TIMEOUT 10 60000, .rwU F.LOAD_TIMEOUT 1 10000],
   reg 0x00030010 [.ro F.FURLONG_NOW],
   reg 0x00030014 [.ro F.CFG_ISSUE_SEQ],
   regsIf 0x00030400 0x10 64 zoneOk fun z => [.ro (F.ZONE_EPOCH z), .ro (F.ZONE_STATE z), .ro (F.ZONE_RESULT z), .ro (F.ZONE_PRESENT z)],
   regsIf 0x00030404 0x10 64 zoneOk fun z => [.ro (F.PEND_EPOCH z), .ro (F.SWITCHED_TX z), .ro (F.SWITCHED_RX z)],
   regsIf 0x00030408 0x10 64 zoneOk fun z => [.ro (F.COMMIT_TX z)],
   regsIf 0x0003040C 0x10 64 zoneOk fun z => [.ro (F.COMMIT_RX z)],
   regsIf 0x00030800 0x4 64 zoneOk fun z => [.ro (F.ZONE_BUILD z)],
   regsIf 0x00030900 0x4 64 zoneOk fun z => [.ro (F.ZONE_SRC z), .ro (F.ZONE_OFFSET z)]]

/-- The Stw page (15 R388). -/
def pageStw : List RegRow :=
  [reg 0x00040300 [.rw F.MBOX_CMD],
   regs 0x00040304 0x4 4 fun i => [.rw (F.MBOX_ARG i)],
   regs 0x00040314 0x4 4 fun i => [.ro (F.MBOX_RSP i)],
   reg 0x00040324 [.ro F.MBOX_RESULT, .ro F.MBOX_BUSY, .sc F.DOORBELL],
   reg 0x00040340 [.rw F.STORE_DUMMY, .rw F.STORE_ADDR4, .rw F.STORE_QUAD, .rw F.SCK_DIV],
   reg 0x00040344 [.ro F.CAPACITY, .ro F.STORE_ACTIVE],
   regs 0x00040400 0x20 8 fun c => [.ro (F.DMA_ERR c), .ro (F.DMA_BUSY c), .sc (F.DMA_START c), .rw (F.DST_SPACE c), .rw (F.SRC_SPACE c)],
   regs 0x00040404 0x20 8 fun c => [.rw (F.DMA_SRC c)],
   regs 0x00040408 0x20 8 fun c => [.rw (F.DMA_DST c)],
   regs 0x0004040C 0x20 8 fun c => [.rw (F.DMA_LEN c)],
   regs 0x00040410 0x20 8 fun c => [.ro (F.HALT_ADDR c)]]

/-- The Cal page (10 R443). -/
def pageCal : List RegRow :=
  [reg 0x00050000 [.rwU F.CAL_DELTA_T 5 160, .sc F.FG_REQ, .sc F.FULL_REQ],
   reg 0x00050004 [.ro F.T_LAST, .ro F.T_LAST_VALID, .ro F.REC_SRC1, .ro F.REC_SRC0, .ro F.BG_PRIO, .ro F.VREF_OK, .ro F.REFCLK_OK],
   reg 0x00050008 [.ro F.CAL_BG1, .ro F.CAL_FG1, .ro F.CAL_FG0],
   reg 0x0005000C [.ro F.CAL_BG0],
   reg 0x00050140 [.ro F.CAL_SRC]]

/-- The Ldg page (13 R341). -/
def pageLdg : List RegRow :=
  [reg 0x00060000 [.sc F.RES_CLEAR, .sc F.CKPT_REQ],
   reg 0x00060004 [.ro F.HIST_SEQ, .ro F.RES_COUNT, .ro F.LDG_CLOSED, .ro F.LDG_STOPPED],
   reg 0x00060008 [.ro F.LDG_WR],
   reg 0x0006000C [.ro F.LDG_RD],
   reg 0x00060010 [.wo F.LDG_FREE],
   reg 0x00060014 [.ro F.LDG_LAST_GOOD],
   reg 0x00060018 [.ro F.LDG_SEQ],
   reg 0x0006001C [.ro F.LOSS_FIRST],
   reg 0x00060020 [.ro F.LOSS_PEND],
   regs 0x00060800 0x4 512 fun _ => []]

/-- The Chn page (15 R388). -/
def pageChn : List RegRow :=
  [reg 0x00070000 [.ro F.CHN_LINK, .rw F.DRAIN_RES, .sc F.DRAIN_REQ, .rw F.EVT_MSG_EN],
   reg 0x00070004 [.ro F.MSG_DROPS],
   reg 0x00070008 [.rwF F.TLM_PERIOD (tlmFix)],
   reg 0x0007000C [.rw F.FKC_EN, .rw F.FKC_FIRKIN],
   reg 0x00070200 [.rw F.CAP_INDEX, .rwF F.CAP_SOURCE (threeAs0), .rwF F.CAP_TRIGGER (threeAs0), .rw F.CAP_STREAM, .sc F.CAP_START],
   reg 0x00070204 [.rwU F.CAP_WORDS 1 4194304],
   reg 0x00070208 [.rw F.CAP_PRE],
   reg 0x0007020C [.rw F.TRIG_BIT, .rw F.TRIG_BLOCK],
   reg 0x00070210 [.ro F.CAP_SEQ, .ro F.STREAMING, .ro F.CAP_BUSY]]

/-- The Sec page (16 R402; 12 R319). -/
def pageSec : List RegRow :=
  [reg 0x00080000 [],
   reg 0x00080004 [],
   reg 0x00080010 [.rw F.ACC_SCOPE, .sc F.ACC_CLOSE, .sc F.ACC_SUBMIT, .sc F.ACC_REQ],
   reg 0x00080014 [.ro F.ACC_STATE, .ro F.OPEN_SCOPE, .ro F.ACC_RESULT, .ro F.ACC_FAILS],
   reg 0x00080018 [.ro F.ACC_REMAIN, .rwU F.ACC_LIFE 1 1440],
   regs 0x00080020 0x4 8 fun i => [.ro (F.CHALLENGE i)],
   regs 0x00080040 0x4 8 fun i => [.wo (F.RESPONSE i)],
   reg 0x00080060 [.rw F.FUSE_GROUP, .sc F.FUSE_PROG],
   reg 0x00080064 [.ro F.PROGRAMMED, .ro F.FUSE_RESULT, .ro F.FUSE_BUSY, .ro F.INTEGRITY_OK],
   regs 0x00080070 0x4 16 fun j => [.rw (F.FUSE_DATA j)],
   reg 0x000800C0 [.rw F.BIST_EN],
   reg 0x000800C4 [.rwU F.BIST_LIMIT 10 2000, .rwU F.BIST_SLICE 500 10000],
   reg 0x00080140 [.ro F.SEC_GROUP, .ro F.SEC_DOM],
   reg 0x00080240 [.ro F.UNC_MEM, .ro F.UNC_WORD],
   reg 0x00080244 [.ro F.CORR_MEM, .ro F.CORR_WORD],
   reg 0x00080248 [.ro F.CORR_BIT, .ro F.CAND_MEM],
   regs 0x00080300 0x4 11 fun m => [.rwF (F.SCRUB_PERIOD m) (scrubFix m)],
   regs 0x00080400 0x20 11 fun m => [.lo (F.MEM_CORR m)],
   regs 0x00080404 0x20 11 fun m => [.hi (F.MEM_CORR m)],
   regs 0x00080408 0x20 11 fun m => [.lo (F.MEM_UNCORR m)],
   regs 0x0008040C 0x20 11 fun m => [.hi (F.MEM_UNCORR m)],
   regs 0x00080410 0x20 11 fun m => [.ro (F.PASSES m), .ro (F.POISONED m)],
   regs 0x00080414 0x20 11 fun m => [.ro (F.SPARES_FREE m)],
   regsIf 0x00080600 0x10 11 dOk fun d => [.ro (F.BIST_RESULT d), .ro (F.FAIL_COUNT d), .ro (F.NEXT_SLICE d)],
   regsIf 0x00080604 0x10 11 dOk fun d => [.ro (F.FAIL_MEM d), .ro (F.FAIL_WORD d)],
   regsIf 0x00080608 0x10 11 dOk fun d => [.ro (F.FAIL_BIT d)],
   regsIf 0x0008060C 0x10 11 dOk fun d => [.ro (F.COMPLETE_TIME d)],
   reg 0x000806C0 [.ro F.BIST_CAND]]

/-- The Lane page (08 R241). -/
def pageLane : List RegRow :=
  [regs 0x00100000 0x1000 8 fun l => [.ro (F.LANE_RATE l), .ro (F.LANE_PRE l), .ro (F.LANE_POST l), .ro (F.LANE_SWING l)],
   regs 0x00100004 0x1000 8 fun l => [.ro (F.ECHO_START l), .ro (F.CTLE_INIT l), .ro (F.PRECODE l), .ro (F.RX_INV l), .ro (F.TX_INV l)],
   regs 0x00100008 0x1000 8 fun l => [.rw (F.CDR_BW l)],
   regs 0x0010000C 0x1000 8 fun l => [.sc (F.RESTART l), .rwU (F.LANE_MU l) 8 15, .rwF (F.ECHO_MODE l) (threeAs1), .rwF (F.DFE_MODE l) (threeAs1), .rwF (F.FFE_MODE l) (threeAs1), .rwF (F.CTLE_MODE l) (threeAs1)],
   regs 0x00100010 0x1000 8 fun l => [.ro (F.LANE_CTLE l), .ro (F.ADAPT_DONE l), .ro (F.FRAME_LOCK l), .ro (F.FREQ_KEPT l), .ro (F.CDR_LOCK l), .ro (F.SIG_DET l), .ro (F.LOCKED l)],
   regs 0x00100014 0x1000 8 fun l => [.rw (F.CHK_PAT l), .rw (F.CHK_EN l), .rw (F.GEN_PAT l), .rw (F.GEN_EN l)],
   regs 0x00100018 0x1000 8 fun l => [.ro (F.CHK_LOCK l)],
   regs 0x00100020 0x1000 8 fun l => [.lo (F.PAT_ERR l)],
   regs 0x00100024 0x1000 8 fun l => [.hi (F.PAT_ERR l)],
   regs 0x00100028 0x1000 8 fun l => [.lo (F.PAT_BITS l)],
   regs 0x0010002C 0x1000 8 fun l => [.hi (F.PAT_BITS l)],
   regs 0x00100030 0x1000 8 fun l => [.lo (F.INNER_CORR l)],
   regs 0x00100034 0x1000 8 fun l => [.hi (F.INNER_CORR l)],
   regs 0x00100038 0x1000 8 fun l => [.lo (F.INNER_UNCORR l)],
   regs 0x0010003C 0x1000 8 fun l => [.hi (F.INNER_UNCORR l)]]

/-- The Hpcs page (08 R241). -/
def pageHpcs : List RegRow :=
  [reg 0x00110000 [.rwU F.HOLD_ALARM 1 1000],
   reg 0x00110140 [.ro F.LONG_LANE, .ro F.UNCORR_LANE, .ro F.HOLD_LANE],
   regs 0x00110400 0x40 8 fun l => [.ro (F.GRP_WIDTH l), .ro (F.GRP_CLIENT l)],
   regs 0x00110404 0x40 8 fun l => [.ro (F.GRP_STATE l)],
   regs 0x00110408 0x40 8 fun l => [.rw (F.GRP_LOOP l)],
   regs 0x0011040C 0x40 8 fun l => [.ro (F.HOLDS l)],
   regs 0x00110410 0x40 8 fun l => [.lo (F.RS_CORR l)],
   regs 0x00110414 0x40 8 fun l => [.hi (F.RS_CORR l)],
   regs 0x00110418 0x40 8 fun l => [.lo (F.RS_UNCORR l)],
   regs 0x0011041C 0x40 8 fun l => [.hi (F.RS_UNCORR l)],
   regs 0x00110420 0x40 8 fun l => [.lo (F.HOLD_US l)],
   regs 0x00110424 0x40 8 fun l => [.hi (F.HOLD_US l)]]

/-- The Tx page (03 R103). -/
def pageTx (c : Nat) : List RegRow :=
  [reg (0x00200000 + 0x10000 * c) [.rw (F.TX_ENABLE c)],
   reg (0x00200004 + 0x10000 * c) [.ro (F.TX_FG_CAL c), .ro (F.LASER_LOCK c), .ro (F.SYNTH_LOCK c), .ro (F.TX_STATE c)],
   reg (0x00200008 + 0x10000 * c) [.rwU (F.TX_ENABLE_TIMEOUT c) 10 4000],
   reg (0x0020000C + 0x10000 * c) [.ro (F.D_PRE c)],
   reg (0x00200010 + 0x10000 * c) [.ro (F.TX_RMS c), .ro (F.DAC_GAIN c)],
   reg (0x00200018 + 0x10000 * c) [.lo (F.TX_CLIP_CNT c)],
   reg (0x0020001C + 0x10000 * c) [.hi (F.TX_CLIP_CNT c)],
   regs (0x00200200 + 0x10000 * c) 0x4 16 fun g => [.ro (F.TXG_TAG c g)],
   regs (0x00200400 + 0x10000 * c) 0x10 32 fun s => [.ro (F.SHAPE_B c s), .ro (F.SHAPE_MODE c s)],
   regs (0x00200404 + 0x10000 * c) 0x10 32 fun s => [.ro (F.SHAPE_C2 c s), .ro (F.SHAPE_C1 c s), .ro (F.SHAPE_C0 c s)],
   regs (0x00200408 + 0x10000 * c) 0x10 32 fun s => [.ro (F.SC_ATTEN c s), .ro (F.SHAPE_K c s)],
   regs (0x0020040C + 0x10000 * c) 0x10 32 fun s => [.ro (F.SHAPE_ENTROPY c s)]]

/-- The Rx page, part 1 (04 R129, R130; 05 R160). -/
def pageRxA (c : Nat) : List RegRow :=
  [reg (0x00220000 + 0x10000 * c) [.rwU (F.AGC_TARGET c) 512 4096],
   reg (0x00220004 + 0x10000 * c) [.ro (F.AGC_MODE c)],
   regs (0x00220010 + 0x10000 * c) 0x4 4 fun i => [.ro (F.AGC_GAIN c i)],
   regs (0x00220020 + 0x10000 * c) 0x4 4 fun i => [.ro (F.RX_TRIM c i)],
   reg (0x00220040 + 0x10000 * c) [.rwU (F.SEARCH_TIMEOUT c) 1 1000, .rwU (F.ACQ_THR c) 4096 49152],
   reg (0x00220044 + 0x10000 * c) [.ro (F.RX_SC_MASK c)],
   reg (0x00220048 + 0x10000 * c) [.lo (F.RX_OVR_CNT c)],
   reg (0x0022004C + 0x10000 * c) [.hi (F.RX_OVR_CNT c)],
   reg (0x00220050 + 0x10000 * c) [.lo (F.RX_FALSE_CNT c)],
   reg (0x00220054 + 0x10000 * c) [.hi (F.RX_FALSE_CNT c)],
   reg (0x00220058 + 0x10000 * c) [.rwU (F.Q_AVG_LOG2 c) 4 12],
   reg (0x00220140 + 0x10000 * c) [.ro (F.MASK_SC c), .ro (F.INTR_UNIT c), .ro (F.LOS_UNIT c), .ro (F.UNEXP_UNIT c), .ro (F.FALSE_UNIT c), .ro (F.ACQ_UNIT c)],
   regs (0x00220400 + 0x10000 * c) 0x20 16 fun u => [.ro (F.SC_COUNT c u), .ro (F.FIRST_SC c u), .ro (F.ACQ_STATE c u)],
   regs (0x00220404 + 0x10000 * c) 0x20 16 fun u => [.ro (F.CD_MIN c u), .ro (F.CD_MAX c u)],
   regs (0x00220408 + 0x10000 * c) 0x20 16 fun u => [.ro (F.D_EST c u)],
   regs (0x0022040C + 0x10000 * c) 0x20 16 fun u => [.ro (F.FOFF c u), .ro (F.ACQ_POWER c u)],
   regs (0x00220410 + 0x10000 * c) 0x20 16 fun u => [.ro (F.ACQ_TAG c u)],
   regs (0x00220414 + 0x10000 * c) 0x20 16 fun u => [.ro (F.UNEXP_TAG c u)],
   regs (0x00220418 + 0x10000 * c) 0x20 16 fun u => [.ro (F.INTR_TAG c u)],
   regs (0x0022041C + 0x10000 * c) 0x20 16 fun u => [.ro (F.INTR_POWER c u)],
   regs (0x00220600 + 0x10000 * c) 0x40 16 fun u => [.ro (F.PILOT_AVG c u), .ro (F.EQ_MU c u), .ro (F.NTAPS c u)],
   regs (0x00220604 + 0x10000 * c) 0x40 16 fun u => [.ro (F.D_RES c u), .ro (F.NTAPS_EFF c u)],
   regs (0x00220608 + 0x10000 * c) 0x40 16 fun u => [.ro (F.EQ_REINIT_CNT c u)],
   regs (0x0022060C + 0x10000 * c) 0x40 16 fun u => [.ro (F.U_SNR c u), .ro (F.U_GMI c u)],
   regs (0x00220610 + 0x10000 * c) 0x40 16 fun u => [.ro (F.U_Q_SEQ c u), .ro (F.U_PILOT_ONLY c u), .ro (F.U_VALID c u)],
   regs (0x00220614 + 0x10000 * c) 0x40 16 fun u => [.lo (F.BER_ERR c u)],
   regs (0x00220618 + 0x10000 * c) 0x40 16 fun u => [.hi (F.BER_ERR c u)],
   regs (0x0022061C + 0x10000 * c) 0x40 16 fun u => [.lo (F.BER_BITS c u)],
   regs (0x00220620 + 0x10000 * c) 0x40 16 fun u => [.hi (F.BER_BITS c u)],
   regs (0x00220A00 + 0x10000 * c) 0x10 32 fun s => [.ro (F.SC_SNR c s), .ro (F.SC_GMI c s)]]

/-- The Rx page, part 2 (04 R129, R130; 05 R160). -/
def pageRxB (c : Nat) : List RegRow :=
  [regs (0x00220A04 + 0x10000 * c) 0x10 32 fun s => [.ro (F.SC_EVM c s), .ro (F.EQ_DELAY c s)],
   regs (0x00220A08 + 0x10000 * c) 0x10 32 fun s => [.ro (F.SC_Q_SEQ c s), .ro (F.SC_PILOT_ONLY c s), .ro (F.SC_VALID c s)]]

/-- The Fth page (05 R160). -/
def pageFth : List RegRow :=
  [reg 0x00240000 [.rwU F.ADAPT_LOG2 10 18, .rwU F.LEARN_MU 4 15, .sc F.CLEAR_ALL, .sc F.SNAP_REQ, .rw F.LEARN_EN],
   reg 0x00240004 [.ro F.FTH_LEVEL, .ro F.START_SRC, .ro F.SNAP_BUSY, .ro F.FTH_CLEARING],
   reg 0x00240008 [.rwF F.SNAP_PERIOD (snapFix)],
   reg 0x0024000C [.ro F.FTH_UPDATE_CNT],
   reg 0x00240010 [.lo (F.FTH_SAT_CNT)],
   reg 0x00240014 [.hi (F.FTH_SAT_CNT)],
   regs 0x00240400 0x10 32 fun g => [.ro (F.FTH_SCALE g), .ro (F.FTH_REACH g), .ro (F.PAGE_COUNT g), .ro (F.PAGE_BASE g)],
   regs 0x00240404 0x10 32 fun g => [.ro (F.ADAPT_EPOCH g)],
   regs 0x00240408 0x10 32 fun g => [.ro (F.LEARN_TAG g)],
   regs 0x0024040C 0x10 32 fun g => [.ro (F.FTH_GAIN g)]]

/-- The Fabric page (01 R25; 18 R440). -/
def pageFabric : List RegRow :=
  [reg 0x00250000 [.ro F.HR_VALID, .ro F.HR_LIMIT_BUSHEL, .ro F.HEADROOM],
   reg 0x00250004 [.rwU F.WIN_LOG2 16 26],
   reg 0x00250008 [.rw F.HR_LOWER, .rw F.HR_RAISE],
   reg 0x0025000C [.rw F.HR_THROTTLE],
   regs 0x00250100 0x4 12 fun n => [.ro (F.SLACK_MIN n), .ro (F.BUSHEL_OCC n)],
   regs 0x00250140 0x4 12 fun n => [.ro (F.BUSHEL_SAT n)],
   reg 0x00250240 [.ro F.SLIP_TOKENS]]

/-- The Fec page (06 R190). -/
def pageFec : List RegRow :=
  [reg 0x00300000 [.rwU F.FIRKIN_WAIT 8 1000],
   reg 0x00300004 [.ro F.ITER_LEVEL, .ro F.POOL_BUSY],
   reg 0x00300140 [.ro F.HUNT_LANE, .ro F.OVF_FIRKIN],
   reg 0x00300144 [.ro F.LATE_GRP, .ro F.OUTER_GRP, .ro F.ERASED_GRP],
   regs 0x00300400 0x40 32 fun g => [.ro (F.AVG_ITER g), .ro (F.OUTER_EN g), .ro (F.FEC_RATE g)],
   regs 0x00300404 0x40 32 fun g => [.ro (F.AVG_EFF g), .ro (F.FEC_BANK g)],
   regs 0x00300408 0x40 32 fun g => [.lo (F.FEC_CW g)],
   regs 0x0030040C 0x40 32 fun g => [.hi (F.FEC_CW g)],
   regs 0x00300410 0x40 32 fun g => [.lo (F.FEC_ERASED g)],
   regs 0x00300414 0x40 32 fun g => [.hi (F.FEC_ERASED g)],
   regs 0x00300418 0x40 32 fun g => [.lo (F.FEC_ITER g)],
   regs 0x0030041C 0x40 32 fun g => [.hi (F.FEC_ITER g)],
   regs 0x00300420 0x40 32 fun g => [.lo (F.OUTER_CORR g)],
   regs 0x00300424 0x40 32 fun g => [.hi (F.OUTER_CORR g)],
   regs 0x00300428 0x40 32 fun g => [.lo (F.FEC_LATE g)],
   regs 0x0030042C 0x40 32 fun g => [.hi (F.FEC_LATE g)],
   regs 0x00300430 0x40 32 fun g => [.lo (F.BLK_LOST g)],
   regs 0x00300434 0x40 32 fun g => [.hi (F.BLK_LOST g)],
   regs 0x00300C00 0x40 8 fun l => [.ro (F.N_FIRKIN l), .ro (F.CLI_SYNC l)],
   regs 0x00300C04 0x40 8 fun l => [.lo (F.CLI_FRAMES l)],
   regs 0x00300C08 0x40 8 fun l => [.hi (F.CLI_FRAMES l)],
   regs 0x00300C0C 0x40 8 fun l => [.lo (F.CLI_DROP l)],
   regs 0x00300C10 0x40 8 fun l => [.hi (F.CLI_DROP l)],
   regs 0x00300C14 0x40 8 fun l => [.lo (F.TX_OVERSIZE l)],
   regs 0x00300C18 0x40 8 fun l => [.hi (F.TX_OVERSIZE l)],
   regs 0x00300C1C 0x40 8 fun l => [.ro (F.CLI_HUNTS l)]]

/-- The Peer page (07 R210). -/
def pagePeer : List RegRow :=
  [reg 0x00310000 [.sc F.PEER_SAVE],
   reg 0x00310004 [.rw F.PEER_STAGE_TAG],
   reg 0x00310008 [.ro F.PEER_LOAD_SRC, .ro F.SAVE_BUSY, .ro F.FREE_COUNT],
   reg 0x00310140 [.ro F.REFUSED_ENTRY],
   regs 0x00310400 0x10 64 fun n => [.ro (F.PEER_TAG n)],
   regs 0x00310404 0x10 64 fun n => [.ro (F.PEER_KIND n), .ro (F.PEER_CARRIER n), .ro (F.PEER_LAST n), .ro (F.PEER_FIRST n)],
   regs 0x00310408 0x10 64 fun n => [.ro (F.PEER_INTR n), .ro (F.PEER_EVENTS n)],
   regs 0x0031040C 0x10 64 fun n => [.ro (F.CARRIED_MASK n)],
   regs 0x00310800 0x4 64 fun k => [.ro (F.SC_ASSIGNED k), .ro (F.SC_CAP k)]]

/-- The Bias page (09 R260). -/
def pageBias : List RegRow :=
  [reg 0x00400000 [.sc F.HK_CAL_START],
   reg 0x00400004 [.ro F.HK_CAL_VALID, .ro F.HK_CAL_BUSY],
   reg 0x00400008 [.ro F.HK_GAIN, .ro F.HK_OFFSET],
   reg 0x00400140 [.ro F.OVR_SLOT, .ro F.CLIP_CH, .ro F.RANGE_CH, .ro F.FAULT_CH],
   regs 0x00400200 0x4 32 fun i => [.rwF (F.HK_INPUT i) (hkFix i)],
   regs 0x00400280 0x4 32 fun i => [.ro (F.HK_OVR i), .ro (F.HK_SETTLED i), .ro (F.HK_DATA i)],
   regs 0x00400400 0x40 24 fun n => [.rw (F.BC_KI n), .rw (F.BC_SLOT n), .rw (F.LOOP_SIGN n), .rw (F.BC_HARM n), .rw (F.BC_RANGE n), .rw (F.BC_MODE n)],
   regs 0x00400404 0x40 24 fun n => [.rw (F.PHASE_INC n)],
   regs 0x00400408 0x40 24 fun n => [.rwU (F.TONE_N_LOG2 n) 6 12, .rw (F.DITHER_AMP n)],
   regs 0x0040040C 0x40 24 fun n => [.rwF (F.BC_SLEW n) (zeroAs1)],
   regs 0x00400410 0x40 24 fun n => [.rw (F.TONE_ROT n), .rw (F.TONE_TARGET n)],
   regs 0x00400414 0x40 24 fun n => [.rw (F.SETPOINT n)],
   regs 0x00400418 0x40 24 fun n => [.ro (F.BC_CODE n), .ro (F.BC_TARGET n)],
   regs 0x0040041C 0x40 24 fun n => [.ro (F.TONE_I n), .ro (F.TONE_Q n)],
   regs 0x00400420 0x40 24 fun n => [.ro (F.TONE_SEQ n), .ro (F.SAVED_RANGE n), .ro (F.SAVED_VALID n), .ro (F.FAULT_CAUSE n), .ro (F.BC_STATE n)],
   regs 0x00400424 0x40 24 fun n => [.ro (F.SAVED n)]]

/-- The Lp page (10 R443). -/
def pageLp : List RegRow :=
  [reg 0x00410140 [.ro F.LP_SRC],
   regs 0x00410200 0x40 2 fun c => [.rw (F.TX_CHANNEL c), .rw (F.TX_FINE c)],
   regs 0x00410204 0x40 2 fun c => [.rw (F.LO_CHANNEL c), .rw (F.LO_FINE c)],
   regs 0x00410208 0x40 2 fun c => [.rw (F.TX_POWER c), .rw (F.LO_POWER c)],
   regs 0x0041020C 0x40 2 fun c => [.rw (F.PORT_EN c), .rw (F.LO_EN c)],
   regs 0x00410210 0x40 2 fun c => [.ro (F.REFUSED_CMD c), .ro (F.LO_STATUS c), .ro (F.TX_LSTATUS c)],
   regs 0x00410214 0x40 2 fun c => [.ro (F.TX_READ_POWER c), .ro (F.LO_READ_POWER c)],
   regs 0x00410218 0x40 2 fun c => [.otp (F.N_MAX c), .otp (F.N_MIN c)],
   regs 0x0041021C 0x40 2 fun c => [.otp (F.PWR_LO_MAX c), .otp (F.PWR_TX_MAX c)]]

/-- The rows of a page (18 R429). -/
def pageRows (p : Nat) : List RegRow :=
  if p = 0x0 then pageIdent
  else if p = 0x1 then pageAon
  else if p = 0x2 then pageTherm
  else if p = 0x3 then pageCfg
  else if p = 0x4 then pageStw
  else if p = 0x5 then pageCal
  else if p = 0x6 then pageLdg
  else if p = 0x7 then pageChn
  else if p = 0x8 then pageSec ++ resv 0x00080418 0x20 11 2
  else if p = 0x10 then pageLane
  else if p = 0x11 then pageHpcs ++ resv 0x00110428 0x40 8 6
  else if p = 0x20 ∨ p = 0x21 then pageTx (p - 0x20)
  else if p = 0x22 ∨ p = 0x23 then pageRxA (p - 0x22) ++ pageRxB (p - 0x22) ++ resv (0x00220624 + 0x10000 * (p - 0x22)) 0x40 16 7 ++ resv (0x00220A0C + 0x10000 * (p - 0x22)) 0x10 32 1
  else if p = 0x24 then pageFth
  else if p = 0x25 then pageFabric
  else if p = 0x30 then pageFec ++ resv 0x00300438 0x40 32 2 ++ resv 0x00300C20 0x40 8 8
  else if p = 0x31 then pagePeer
  else if p = 0x40 then pageBias ++ resv 0x00400428 0x40 24 6
  else if p = 0x41 then pageLp ++ resv 0x00410220 0x40 2 8
  else []

/-- The fields of the register at an address, none where no register is listed there. -/
def regDescs (a : Nat) : Option (List Desc) :=
  (pageRows (a / 65536)).findSome? fun r =>
    if r.base ≤ a ∧ (a - r.base) % r.stride = 0 ∧ (a - r.base) / r.stride < r.count then r.descs ((a - r.base) / r.stride)
    else none

/-- The event block whose registers lie at an address (11 R304). -/
def evtBlock (a : Nat) : Option EvBlk := EvBlk.all.find? fun b => decide (b.base ≤ a) && decide (a < b.base + 0x100)

/-- An address lies in a register (00 R11; 18 R432); of an event block every word up to +0xFC is listed or reserved. -/
def mapped (a : Nat) : Bool := a % 4 == 0 && (evtAddr a || (regDescs a).isSome)

end Sys2Proof.Machine
end

