-- ==== Sys2Proof/Machine/RegRead.lean ====
section
/-! DEFINITION. Reads of registers (00 R8-R11; 15 R366; 18 R430-R434): what each field reads as, the latches of 64-bit
counters, and the statuses. -/
namespace Sys2Proof.Machine

/-! ### Requesters and latches (18 R434) -/

/-- The requesters: 0 MPORT, 1 the steward; the telemetry engine is 2. -/
def reqNum : Requester → Nat
  | .mport => 0 | .steward => 1

/-- The key of the latch that a requester's read of a register at `a` returns. -/
def latchKey (r a : Nat) : Nat := r * 2 ^ 33 + a

/-- What a requester latched. -/
def latched (s : State) (r a : Nat) : Nat := tget s.mp.latch (latchKey r a) 0

/-- Latch a value. -/
def latch (r a v : Nat) (s : State) : State := { s with mp := { s.mp with latch := tset s.mp.latch (latchKey r a) v 0 } }

/-! ### Live fields -/

/-- AGE of HOST_TEMP, in 0.1 s (14 R363): 0xFFFF before the first write; later the time since the write, which no command
brings: a free value, of at least 10 s once HOST_TEMP is stale (R358). -/
def hostAge (s : State) : Nat :=
  if getF s F.HOST_AGE = 0xFFFF then 0xFFFF
  else if getB s F.HOST_STALE then 100 + draw s (65536 - 100)
  else draw s 100

/-- OCC of a bushel: nothing while its half or its clocked domain is not on (01 R39). -/
def occNow (s : State) (n : Nat) : Nat :=
  if isOn s (6 + n / 6) && isOn s (clockDom n) then (tget s.fab.bushel n Bushel.blank).occ else 0

/-- A block of a lane group reads 0 where its lane is not the first of a group (06 R190; 08 R241). -/
def deadBlock (s : State) (a : Nat) : Bool :=
  (decide (0x00110400 ≤ a) && decide (a < 0x00110600) && !present s (16 + (a - 0x00110400) / 0x40)) ||
    (decide (0x00300C00 ≤ a) && decide (a < 0x00300E00) && !present s (16 + (a - 0x00300C00) / 0x40))

/-- The records of a LOSS range: pending runs, and LOSS records that still stand in the intake queue (13 R331, R341). -/
def lossRuns (s : State) : List (Nat × Nat) :=
  ((s.ldg.intake.filter fun r => r.typ == 8).map fun r => (r.payload.getD 0 0, r.payload.getD 1 0)) ++
    s.ldg.runs.map fun r => (r.first, r.count)

/-- A limit fuse field (10 R443). -/
def limitNow (s : State) (a lo : Nat) : Nat :=
  let c := (a - 0x00410200) / 0x40
  let i := if (a - 0x00410200) % 0x40 = 0x18 then (if lo = 0 then 0 else 1) else (if lo = 0 then 2 else 3)
  limitField s c i

/-- A field as it reads: most are stored; the others follow from what they report. -/
def fieldNow (s : State) (f : Fld) : Nat :=
  let a := f.addr
  if a = F.HOST_AGE.addr ∧ f.lo = 16 then hostAge s
  else if a = F.PIN_GRAVE.addr then (if pinLow s (f.lo + 1) then 1 else 0)
  else if 0x00030400 ≤ a ∧ a < 0x00030800 ∧ a % 16 = 0 ∧ (f.lo = 8 ∨ f.lo = 12) ∧ !isOn s 1 then 0
  else if f = F.DMA_BUSY 0 then (if getB s F.SNAP_BUSY || restoring s then 1 else 0)
  else if f = F.DMA_BUSY 1 then getF s F.STREAMING
  else if f = F.RES_COUNT then s.ldg.reserve.length
  else if f = F.LDG_SEQ then s.ldg.seq
  else if f = F.LOSS_FIRST then ((lossRuns s).head?.map (·.1)).getD 0
  else if f = F.LOSS_PEND then ((lossRuns s).map (·.2)).sum % 2 ^ 32
  else if f = F.ACC_REMAIN then accRemain s
  else if f = F.PROGRAMMED then ((List.range 14).map fun g => if (fuseAt s g).marker then 2 ^ g else 0).sum
  else if 0x00250100 ≤ a ∧ a < 0x00250130 ∧ f.lo = 0 then occNow s ((a - 0x00250100) / 4)
  else if f = F.ITER_LEVEL then getF s F.THR_V
  else if f = F.POOL_BUSY then engines s
  else if 0x00300400 ≤ a ∧ a < 0x00300C00 ∧ a % 0x40 = 4 ∧ f.lo = 16 then avgEff s ((a - 0x00300400) / 0x40)
  else if 0x00410218 ≤ a ∧ a < 0x00410260 ∧ (a % 0x40 = 0x18 ∨ a % 0x40 = 0x1C) then limitNow s a f.lo
  else getF s f

/-- Reading a register draws a free value (HOST_TEMP). -/
def drawsFree (a : Nat) : Bool := a == F.HOST_AGE.addr

/-- A field in its place in the word that requester `r` reads. -/
def descRead (s : State) (r : Nat) (d : Desc) : Nat :=
  match d with
  | .ro f | .rw f | .rwU f _ _ | .rwF f _ | .otp f => fieldNow s f % 2 ^ f.width * 2 ^ f.lo
  | .lo f => getF s f % 2 ^ 32
  | .hi f => latched s r (f.addr + 4)
  | .sc _ | .wo _ => 0

/-! ### Event registers (11 R304) -/

/-- The sum of fields that a function gives for the sources of a block from `i0` on, each in its place. -/
def srcWord (n i0 : Nat) (f : Nat → Nat) (place : Nat → Nat) : Nat :=
  ((List.range n).map fun k => f (i0 + k) * 2 ^ place k).sum

/-- A word of an event block, but for its EVT_SRC registers. -/
def evtRead (s : State) (b : EvBlk) (off : Nat) : Nat :=
  let has (v : Nat → Nat) (i : Nat) : Nat := if b.has i then v i else 0
  if off = 0 then srcWord 32 0 (has fun i => getF s (F.EVT b i)) id
  else if off = 4 then srcWord 32 0 (has fun i => getF s (F.EN b i)) id
  else if off = 0xC then srcWord 3 1 (fun cls => getF s (F.PEND b cls)) (16 + ·)
  else if off = 0x10 ∨ off = 0x14 then srcWord 16 ((off - 0x10) * 4) (has fun i => getF s (F.CLASS b i)) (2 * ·)
  else if off = 0x18 then getF s (F.EVT_SEQ b)
  else if 0x20 ≤ off ∧ off < 0x40 then srcWord 4 (off - 0x20) (has fun i => getF s (F.EVT_N b i)) (8 * ·)
  else if 0x80 ≤ off ∧ off < 0xC0 then srcWord 2 ((off - 0x80) / 2) (has fun i => getF s (F.EVT_W b i)) (16 * ·)
  else 0

/-! ### Words -/

/-- PWR_STATUS (14 R363). -/
def pwrStatus (s : State) : Nat := (domsAll.map fun d => stateCode (domAt s d) * 2 ^ (3 * d - 3)).sum

/-- A word of the reserve (13 R334). -/
def reserveWord (s : State) (i : Nat) : Nat :=
  match s.ldg.reserve[i / 8]? with
  | some r => leAt (resvBytes r) (4 * (i % 8)) 4
  | none => 0

/-- The word that requester `r` reads at a listed address whose domain is on. -/
def wordNow (s : State) (r a : Nat) : Nat :=
  if a = 0x00010000 then (domsAll.map fun d => getF s (F.TARGET d) * 2 ^ (2 * d - 2)).sum
  else if a = 0x00010004 then pwrStatus s
  else if a = 0x00010008 then (domsAll.map fun d => getF s (F.WAKE_STEP d) * 2 ^ (2 * d - 2)).sum
  else if a = 0x00010060 then mainTime s % 2 ^ 32
  else if a = 0x00010064 then latched s r a
  else if 0x00060800 ≤ a ∧ a < 0x00061000 then reserveWord s ((a - 0x00060800) / 4)
  else if a = 0x00080000 then (fuseAt s 0).data % 2 ^ 32
  else if a = 0x00080004 then (fuseAt s 0).data / 2 ^ 32 % 2 ^ 32
  else if deadBlock s a then 0
  else match regDescs a with
    | some ds => (ds.map (descRead s r)).sum
    | none => match evtBlock a with
      | some b => evtRead s b (a - b.base)
      | none => 0

/-- A BER_ERR_LO register (05 R160), by carrier and unit. -/
def berAddr (a : Nat) : Option (Nat × Nat) :=
  let c := (a - 0x00220614) / 0x10000
  let u := (a - 0x00220614) % 0x10000 / 0x40
  if 0x00220614 ≤ a ∧ c < 2 ∧ u < 16 ∧ a = 0x00220614 + 0x10000 * c + 0x40 * u then some (c, u) else none

/-- The words of the BER counters but for BER_ERR_LO: all are read from the latches (05 R160). -/
def berLatched (a : Nat) : Bool := (berAddr (a - 4)).isSome || (berAddr (a - 8)).isSome || (berAddr (a - 12)).isSome

/-- What a read latches for its requester: the high half of a counter, or the three words that go with BER_ERR_LO. -/
def latchAt (r a : Nat) (s : State) : State :=
  if a = 0x00010060 then latch r 0x00010064 (mainTime s / 2 ^ 32) s
  else match berAddr a with
    | some (c, u) =>
      let e := getF s (F.BER_ERR c u)
      let n := getF s (F.BER_BITS c u)
      latch r (a + 12) (n / 2 ^ 32) (latch r (a + 8) (n % 2 ^ 32) (latch r (a + 4) (e / 2 ^ 32) s))
    | none =>
      if deadBlock s a then (match regDescs a with
        | some [.lo _] => latch r (a + 4) 0 s
        | _ => s)
      else match regDescs a with
        | some [.lo f] => latch r (a + 4) (getF s f / 2 ^ 32) s
        | _ => s

/-- Adaptation has moved what LANE_STATUS and LANE_ADAPT of a lane report or act on (08 R229). -/
def adaptNow (k : Nat) (s : State) : State :=
  match laneGroup s k with
  | some l => adaptLane (getF s (F.GRP_STATE l)) k s
  | none => s

/-- What happens before a register is read. -/
def readPrep (a : Nat) (s : State) : State :=
  if 0x00100000 ≤ a ∧ a < 0x00108000 ∧ a % 0x1000 = 0x10 then adaptNow ((a - 0x00100000) / 0x1000) s else s

/-- What a read of a register answers: the state after it, the value, and the STATUS of 15 R366. -/
structure Answer where
  st     : State
  value  : Nat
  status : Nat

/-- Read a listed register whose domain is on. -/
def readWord (r a : Nat) (s : State) : Answer :=
  let s := readPrep a s
  let v := if berLatched a then latched s r a else wordNow s r a
  ⟨onlyIf (drawsFree a) drew (latchAt r a s), v, 0⟩

end Sys2Proof.Machine
end

