-- ==== Sys2Proof/Machine/Window.lean ====
section
/-! DEFINITION. The table window (18 R435-R439): its tables, and one access of TBL_DATA. -/
namespace Sys2Proof.Machine

/-! ### The requesters' windows (R436) -/

/-- TBL_SEL of a requester: the register bank is MPORT's. -/
def winSel (s : State) (r : Nat) : Nat := if r = 0 then getF s F.TBL_SEL else s.mp.stwSel

/-- TBL_ADDR of a requester. -/
def winAddr (s : State) (r : Nat) : Nat := if r = 0 then getF s F.TBL_ADDR else s.mp.stwAddr

/-- ERR of a requester's TBL_STATUS. -/
def winErr (s : State) (r : Nat) : Nat := if r = 0 then getF s F.TBL_ERR else s.mp.stwErr

/-- Set TBL_SEL. -/
def setWinSel (r v : Nat) (s : State) : State :=
  if r = 0 then setF s F.TBL_SEL v else { s with mp := { s.mp with stwSel := v % 2 ^ 16 } }

/-- Set TBL_ADDR. -/
def setWinAddr (r v : Nat) (s : State) : State :=
  if r = 0 then setF s F.TBL_ADDR v else { s with mp := { s.mp with stwAddr := v % 2 ^ 32 } }

/-- Set ERR. -/
def setWinErr (r v : Nat) (s : State) : State :=
  if r = 0 then setF s F.TBL_ERR v else { s with mp := { s.mp with stwErr := v } }

/-! ### Tables (R435) -/

/-- How many indices a table has, none where no table has the selector. -/
def tblSize (sel : Nat) : Option Nat :=
  match sel with
  | 0x0010 => some 16777216
  | 0x0020 => some 65536
  | 0x0021 => some 8192
  | 0x0030 => some 1024
  | 0x0040 => some 74240
  | 0x0041 => some 1048576
  | 0x0070 => some 32
  | _ => none

/-- The domain of a table, for an index: host lane coefficients lie in the fabric half of the index's lane; AON stands
for a selector with no table and for an index that names no lane. -/
def tblDom (sel i : Nat) : Nat :=
  match sel with
  | 0x0010 => 9
  | 0x0020 | 0x0021 => 8
  | 0x0030 => if i < 1024 then laneFab (i / 128) else 0
  | 0x0040 | 0x0041 => 1
  | 0x0070 => 10
  | _ => 0

/-- A table whose writes are ignored. -/
def tblReadOnly (sel : Nat) : Bool := [0x0020, 0x0021, 0x0040, 0x0041].contains sel

/-- The firkin map (07 R211). -/
def firkinWord (s : State) (f : Nat) : Nat :=
  let p := tget s.fec.line f 0
  let c := tget s.fec.client f 0
  (if p = 0 then 0 else 2 ^ 31 + (p - 1) / 32 * 2 ^ 16 + (p - 1) % 32 * 2 ^ 8) + (if c = 0 then 0 else 8 + (c - 1))

/-- The mode of the block that a coefficient belongs to, none where R229 lists no coefficient (08 R229). -/
def coefMode (s : State) (i : Nat) : Option Nat :=
  let l := i / 128
  let k := i % 128
  if k < 16 then some (getF s (F.FFE_MODE l)) else if k = 16 then some (getF s (F.DFE_MODE l))
  else if 32 ≤ k ∧ k < 80 then some (getF s (F.ECHO_MODE l)) else none

/-- The word that a table gives for an index of its range. -/
def tblValue (s : State) (sel i : Nat) : Nat :=
  match sel with
  | 0x0010 => tableEntry s i
  | 0x0020 => if i % 2 = 0 then tget s.fec.cnt (i / 2) 0 % 2 ^ 32 else 0
  | 0x0021 => firkinWord s i
  | 0x0030 => if (coefMode s i).isSome then tget s.host.coef i 0 else 0
  | 0x0040 => histWord s i
  | 0x0041 => regionWord s i
  | 0x0070 => tget s.chn.tlm i 0
  | _ => 0

/-- How an access ends before its table is reached (R438): no table, range, domain off; the domain decides first. -/
def tblFault (s : State) (sel i : Nat) : Option Nat :=
  match tblSize sel with
  | none => some 1
  | some n => if !isOn s (tblDom sel i) then some 5 else if n ≤ i then some 2 else none

/-- An access ends with an outcome: TBL_ADDR advances unless it is DOMAIN_OFF (R437). -/
def tblEnd (r err : Nat) (s : State) : State :=
  let s := setWinErr r err s
  if err = 5 then s else setWinAddr r (winAddr s r + 1) s

/-- A read of TBL_DATA. -/
def tblRead (r : Nat) (s : State) : Answer :=
  let sel := winSel s r
  let i := winAddr s r
  match tblFault s sel i with
  | some err =>
    let s := tblEnd r err s
    ⟨{ s with mp := { s.mp with tblOut := 0 } }, 0, if err = 5 then 4 else 0⟩
  | none =>
    let s := onlyIf (sel == 0x0030) (adaptNow (i / 128)) s
    let half := sel == 0x0020 && i % 2 == 1
    let v := if half then latched s r (2 ^ 32 + i) else tblValue s sel i
    let s := onlyIf (sel == 0x0041 && !regionStored s i) drew s
    let s := onlyIf (sel == 0x0020 && !half) (latch r (2 ^ 32 + i + 1) (tget s.fec.cnt (i / 2) 0 / 2 ^ 32)) s
    let s := tblEnd r 0 s
    ⟨{ s with mp := { s.mp with tblOut := v } }, v, 0⟩

/-- The write of a table that takes writes, and its outcome: a poisoned word of the triplet table is refused (12 R310), as
is a coefficient of a block that is not FROZEN or that is none; a coefficient takes effect with its perch's next token
(18 R439). -/
def tblStore (sel i v : Nat) (s : State) : State × Nat :=
  match sel with
  | 0x0010 => if poisoned s 0 (i / 4) then (s, 4) else (setEntry s i (fixEntry (v % 2 ^ 14)), 0)
  | 0x0030 =>
    if coefMode s i = some 0 then ({ s with fab := { s.fab with writes := s.fab.writes ++ [(coefKey i, v % 2 ^ 10)] } }, 0)
    else (s, 4)
  | 0x0070 => ({ s with chn := { s.chn with tlm := tset s.chn.tlm i (v % 2 ^ 32) 0 } }, 0)
  | _ => (s, 3)

/-- A write of TBL_DATA, with its STATUS. -/
def tblWrite (r v : Nat) (s : State) : State × Nat :=
  let sel := winSel s r
  let i := winAddr s r
  match tblFault s sel i with
  | some err => (tblEnd r err s, if err = 5 then 4 else 0)
  | none =>
    let (s, err) := if tblReadOnly sel then (s, 3) else tblStore sel i v s
    (tblEnd r err s, 0)

end Sys2Proof.Machine
end

