-- ==== Sys2Proof/Machine/RegWrite.lean ====
section
/-! DEFINITION. Writes of registers (00 R8; 18 R433): each listed register, with what a write of it starts, and the writes
of fabric-resident registers, which wait for a token (01 R36). -/
namespace Sys2Proof.Machine

/-! ### Fields -/

/-- A field takes its bits of a word, as its access code has it. -/
def descWrite (v : Nat) (s : State) (d : Desc) : State :=
  let bits (f : Fld) : Nat := bitsOf v f.lo f.width
  match d with
  | .rw f | .wo f => setF s f (bits f)
  | .rwU f least most => setF s f (clampN least most (bits f))
  | .rwF f fix => setF s f (fix (bits f))
  | .ro _ | .sc _ | .otp _ | .lo _ | .hi _ => s

/-- The fields of a register take their bits. -/
def plain (a v : Nat) (s : State) : State := ((regDescs a).getD []).foldl (descWrite v) s

/-! ### Event registers (11 R284, R285, R288, R289, R304) -/

/-- Write a field of the sources from `i0` on that exist. -/
def srcWrite (b : EvBlk) (n i0 : Nat) (f : State → Nat → Nat → State) (s : State) : State :=
  (List.range n).foldl (fun s k => if b.has (i0 + k) then f s (i0 + k) k else s) s

/-- Write a word of an event block. -/
def evtWrite (b : EvBlk) (off v : Nat) (s : State) : State :=
  if off = 0 then srcWrite b 32 0 (fun s i _ => if bitOf v i then setB s (F.EVT b i) false else s) s
  else if off = 4 then srcWrite b 32 0 (fun s i _ => if b.fixed i then s else setB s (F.EN b i) (bitOf v i)) s
  else if off = 8 then forceBits b v s
  else if off = 0xC then onlyIf (bitOf v 1) (ackClass b 2) (onlyIf (bitOf v 0) (ackClass b 1) s)
  else if off = 0x10 ∨ off = 0x14 then
    srcWrite b 16 ((off - 0x10) * 4) (fun s i k => if b.fixed i then s else setF s (F.CLASS b i) (min 2 (bitsOf v (2 * k) 2))) s
  else if 0x20 ≤ off ∧ off < 0x40 then
    srcWrite b 4 (off - 0x20) (fun s i k => setF s (F.EVT_N b i) (max 1 (bitsOf v (8 * k) 8))) s
  else if 0x80 ≤ off ∧ off < 0xC0 then
    srcWrite b 2 ((off - 0x80) / 2) (fun s i k => setF s (F.EVT_W b i) (max 1 (bitsOf v (16 * k) 16))) s
  else s

/-! ### Registers whose writes start something -/

/-- AVS_LIMIT: a write that makes VMIN exceed VMAX is ignored (14 R363). -/
def avsLimitWrite (v : Nat) (s : State) : State :=
  let hi := clampN 550 800 (bitsOf v 16 16)
  let lo := clampN 550 800 (bitsOf v 0 16)
  if hi < lo then s else setFs s [(F.VMAX, hi), (F.VMIN, lo)]

/-- The AON and thermal pages (14 R348, R353, R358, R359, R363). -/
def writeAon (a v : Nat) (s : State) : State :=
  if a = 0x00010000 then pwrTargetWrite v s
  else if a = 0x00010020 then avsEnWrite (bitOf v 31) (plain a v s)
  else if a = 0x00010024 then avsLimitWrite v s
  else if a = 0x00020008 then thermThreshold false v s
  else if a = 0x0002000C then thermThreshold true v s
  else if a = 0x00020010 then hostTempWrite (v % 65536) s
  else if a = 0x00020014 then floorWrite (bitsOf v 16 4) s
  else plain a v s

/-- The loader (02 R51, R56). -/
def writeCfg (a v : Nat) (s : State) : State :=
  if a = 0x00030000 then
    onlyIf (bitOf v 9) (loadStart (bitsOf v 0 3)) (onlyIf (bitOf v 16) (abortZone (bitsOf v 24 8)) (plain a v s))
  else if a = 0x00030008 then cfgLoadData v s
  else plain a v s

/-- The steward's page, calibration and the Ledger (15 R387, R388; 10 R265, R270; 13 R324, R331, R336). -/
def writeMgmt (a v : Nat) (s : State) : State :=
  if a = 0x00040324 then onlyIf (bitOf v 0) doorbell s
  else if 0x00040400 ≤ a ∧ a < 0x00040500 ∧ a % 0x20 = 0 then
    onlyIf (bitOf v 8) (dmaStart ((a - 0x00040400) / 0x20)) (plain a v s)
  else if a = 0x00050000 then onlyIf (bitsOf v 2 2 != 0) (fgReqs (bitsOf v 2 2)) (onlyIf (bitOf v 0) fullReq (plain a v s))
  else if a = 0x00060000 then onlyIf (bitOf v 1) resClear (onlyIf (bitOf v 0) ckptReq s)
  else if a = 0x00060010 then ldgFree (v % 2 ^ 22) s
  else plain a v s

/-- The Chain port (15 R381, R384). -/
def writeChn (a v : Nat) (s : State) : State :=
  if a = 0x00070000 then onlyIf (bitOf v 3) drainReq (plain a v s)
  else if a = 0x00070200 then onlyIf (bitOf v 0) capStart (plain a v s)
  else plain a v s

/-- Security (16 R397, R398, R402). The entropy source gives ACC_REQ bits that are not stated: a free value (log
101). -/
def writeSec (a v : Nat) (s : State) : State :=
  if a = 0x00080010 then
    let s := plain a v s
    let s := onlyIf (bitOf v 0) (fun s => accReq (draw s (2 ^ 256)) (drew s)) s
    onlyIf (bitOf v 2) accClose (onlyIf (bitOf v 1) accSubmit s)
  else if a = 0x00080060 then onlyIf (bitOf v 0) prog (plain a v s)
  else plain a v s

/-- LANE_PAT: a checker that is off or changes its pattern starts afresh (08 R239). -/
def patWrite (l v : Nat) (s : State) : State :=
  let fresh := !bitOf v 8 || bitsOf v 9 3 != getF s (F.CHK_PAT l)
  onlyIf fresh (fun s => setB { s with host := { s.host with pat := tdel s.host.pat l } } (F.CHK_LOCK l) false) s

/-- Host lanes (08 R229, R236, R239). -/
def writeHost (a v : Nat) (s : State) : State :=
  let l := (a - 0x00100000) / 0x1000
  if a < 0x00108000 ∧ a % 0x1000 = 0xC then onlyIf (bitOf v 16) (laneRestart l) (plain a v (adaptNow l s))
  else if a < 0x00108000 ∧ a % 0x1000 = 0x14 then plain a v (patWrite l v s)
  else if 0x00110400 ≤ a ∧ a % 0x40 = 8 then loopWrite ((a - 0x00110400) / 0x40) (v % 4) s
  else plain a v s

/-- Lines, Fathom and fabric (03 R100; 05 R138, R141; 01 R23, R26). -/
def writeLine (a v : Nat) (s : State) : State :=
  if a = 0x00200000 then writeTxEnable 0 (bitOf v 0) s
  else if a = 0x00210000 then writeTxEnable 1 (bitOf v 0) s
  else if a = 0x00240000 then onlyIf (bitOf v 1) snapStart (onlyIf (bitOf v 2) clearAll (plain a v s))
  else if a = 0x00250004 then winWrite (bitsOf v 0 5) s
  else if a = 0x00250008 then hrThreshold false v s
  else if a = 0x0025000C then hrThreshold true v s
  else plain a v s

/-- Writes of a bias channel wait for the frame boundary (09 R260). -/
def biasWrite (n off v : Nat) (s : State) : State :=
  if off < 0x18 then setChan s n { chanAt s n with pend := (chanAt s n).pend ++ [(off, v)] } else s

/-- Peers, converters and laser ports (07 R196, R200; 09 R245, R247, R260; 10 R279). -/
def writeCtl (a v : Nat) (s : State) : State :=
  if a = 0x00310000 then onlyIf (bitOf v 0) peerSave s
  else if 0x00310400 ≤ a ∧ a < 0x00310800 ∧ a % 16 = 4 then peerCtrlWrite ((a - 0x00310400) / 16) v s
  else if a = 0x00400000 then onlyIf (bitOf v 0) calStart s
  else if 0x00400200 ≤ a ∧ a < 0x00400280 then hkSlotWrite ((a - 0x00400200) / 4) v s
  else if 0x00400400 ≤ a ∧ a < 0x00400A00 then biasWrite ((a - 0x00400400) / 0x40) ((a - 0x00400400) % 0x40) v s
  else if 0x00410200 ≤ a ∧ a < 0x00410280 ∧ a % 0x40 < 0x10 then portBlockWrite ((a - 0x00410200) / 0x40) (a % 0x40 / 4) v s
  else plain a v s

/-- A write reaches the register at a listed address whose domain is on. -/
def writeNow (a v : Nat) (s : State) : State :=
  match evtBlock a with
  | some b => evtWrite b (a - b.base) v s
  | none =>
    let p := a / 0x10000
    if p < 3 then writeAon a v s
    else if p = 3 then writeCfg a v s
    else if p < 7 then writeMgmt a v s
    else if p = 7 then writeChn a v s
    else if p = 8 then writeSec a v s
    else if p < 0x20 then writeHost a v s
    else if p < 0x30 then writeLine a v s
    else writeCtl a v s

/-! ### Accesses of a requester (15 R366; 18 R431, R436) -/

/-- The registers of the window. -/
def isWindow (a : Nat) : Bool := decide (0x100 ≤ a) && decide (a < 0x110)

/-- Read a register for a requester (2: the telemetry engine, which has no window). -/
def regRead (r a : Nat) (s : State) : Answer :=
  if !mapped a then ⟨s, 0, 1⟩
  else if isWindow a then
    if r = 2 then ⟨s, 0, 0⟩
    else if a = 0x108 then tblRead r s
    else ⟨s, if a = 0x100 then winSel s r else if a = 0x104 then winAddr s r else winErr s r, 0⟩
  else if !isOn s (regDom a) then ⟨s, 0, 4⟩
  else readWord r a s

/-- ACC_SUBMIT is in MGMT (16 R399): a write of ACC_CTRL that submits meets DOMAIN_OFF while MGMT is not ON. -/
def submitOff (a v : Nat) (s : State) : Bool := a == 0x00080010 && bitOf v 1 && !isOn s 1

/-- Write a register for a requester, with the STATUS: a write of a register in a fabric half waits for a token. -/
def regWrite (r a v : Nat) (s : State) : State × Nat :=
  if !mapped a then (s, 1)
  else if isWindow a then
    if a = 0x108 then tblWrite r v s
    else (if a = 0x100 then setWinSel r v s else if a = 0x104 then setWinAddr r v s else s, 0)
  else if !isOn s (regDom a) || submitOff a v s then (s, 4)
  else if regDom a = 6 ∨ regDom a = 7 then ({ s with fab := { s.fab with writes := s.fab.writes ++ [(a, v)] } }, 0)
  else (writeNow a v s, 0)

/-! ### Commands -/

/-- A requester can make an access: the steward while it runs. -/
def canAccess (q : Requester) (s : State) : Bool :=
  match q with
  | .mport => true
  | .steward => stwRuns s

/-- REGISTER_WRITE (00 R8). -/
def execRegisterWrite (req : Requester) (addr data : Word) (s : State) : Host.Outcome State Fault Refusal :=
  .next (if canAccess req s then (regWrite (reqNum req) addr.toNat data.toNat s).1 else s)

/-- TBL_DATA_ACCESS (18 R437). -/
def execTblDataAccess (req : Requester) (wr : Option Word) (s : State) : Host.Outcome State Fault Refusal :=
  .next (if !canAccess req s then s
    else match wr with
      | some w => (tblWrite (reqNum req) w.toNat s).1
      | none => (tblRead (reqNum req) s).st)

/-- A write that waited takes effect: of a coefficient whose block is still FROZEN, or of a register. -/
def fabApply (s : State) (w : Nat × Nat) : State :=
  if w.1 < 2 ^ 32 then writeNow w.1 w.2 s
  else if coefMode s (w.1 - 2 ^ 32) = some 0 then setCoef s (w.1 - 2 ^ 32) w.2
  else s

/-- FABRIC_REGISTER_APPLY (01 R36): the perches start a token, and the writes that waited take effect in order. -/
def execFabricRegisterApply (s : State) : Host.Outcome State Fault Refusal :=
  .next (s.fab.writes.foldl fabApply { s with fab := { s.fab with writes := [] } })

/-! ### Telemetry (15 R382) -/

/-- The telemetry list up to its first 0. -/
def tlmList (s : State) : List Nat := ((List.range 32).map fun i => tget s.chn.tlm i 0).takeWhile (· != 0)

/-- Read the list, with latches of the engine's own. -/
def tlmRead (s : State) : State × List Byte :=
  (tlmList s).foldl (fun x a =>
    let r := regRead 2 a x.1
    (r.st, x.2 ++ leBytes 4 r.value)) (s, [])

/-- TELEMETRY_PERIOD (R382): a period without credit drops its packet. -/
def execTelemetryPeriod (s : State) : Host.Outcome State Fault Refusal :=
  .next (if !isOn s 10 ∨ getF s F.TLM_PERIOD = 0 then s
    else
      let (s, bs) := tlmRead s
      if chnUp s && hasCredit s 3 (pktUnits bs.length) then sendPkt s (some 3) 0x04 3 (mainTime s % 2 ^ 32) bs
      else detect .chn 12 0 s)

end Sys2Proof.Machine
end

