-- ==== Sys2Proof/Machine/Mport.lean ====
section
/-! DEFINITION. MPORT (15 R364-R369): frames, the read phase, discards and time limits. -/
namespace Sys2Proof.Machine

/-! ### What a frame comes to (R366) -/

/-- STATUS and DATA of the most recent complete frame; a READ that stretched is over. -/
def frameEnd (status data : Nat) (s : State) : State := { s with mp := { s.mp with last := some (status, data), pendRead := none } }

/-- A frame discarded with FRAME. -/
def frameBad (s : State) : State := frameEnd 3 0 (satF s F.FRAME_ERRS 1)

/-- A frame discarded with CRC. -/
def frameCrc (s : State) : State := frameEnd 2 0 (satF s F.MP_CRC_ERRS 1)

/-- Four bytes, most significant first (R365). -/
def wordBytes (w : Word) : List Byte := beBytes 4 w.toNat

/-! ### Writes (R365, R367) -/

/-- Apply the words of a frame in order up to the first whose domain is not ON: state, words applied, STATUS. -/
def applyWords (a : Nat) : List Word → Nat → State → State × Nat × Nat
  | [], n, s => (s, n, 0)
  | w :: ws, n, s =>
    let (s, st) := regWrite 0 a w.toNat s
    if st = 0 then applyWords a ws (n + 1) s else (s, n, st)

/-- Perform a queued frame. -/
def performFrame (s : State) (f : MpFrame) : State :=
  let (s, n, st) := applyWords f.addr f.words 0 s
  frameEnd st n s

/-- Perform the queued frames in arrival order. -/
def drainFrames (s : State) : State := s.mp.queue.foldl performFrame { s with mp := { s.mp with queue := [] } }

/-- A read that MPORT holds can be performed: every earlier write has taken effect (R369), those of fabric-resident
registers and of bias channels among them. -/
def writesDone (s : State) : Bool :=
  s.fab.writes.isEmpty && (!converting s || (List.range 24).all fun n => (chanAt s n).pend.isEmpty || !isOn s (lineDom (n / 12)))

/-- The domain that decides the status of a read (18 R431). -/
def readDom (s : State) (a : Nat) : Nat := if a = 0x108 then tblDom (winSel s 0) (winAddr s 0) else regDom a

/-- Perform a READ whose time has come, else leave it stretching: a domain that is OFF answers at once (R368). -/
def performRead (a : Nat) (s : State) : State :=
  if mapped a && (isWaking s (readDom s a) || (isOn s (readDom s a) && !writesDone s)) then
    { s with mp := { s.mp with pendRead := some a } }
  else
    let r := regRead 0 a s
    frameEnd r.status r.value r.st

/-- A READ that stretches is tried again. -/
def retryRead (s : State) : State :=
  match s.mp.pendRead with
  | some a => performRead a { s with mp := { s.mp with pendRead := none } }
  | none => s

/-- A frame of writes: the CRC is checked, and the frame enters a queue of four whose frames are performed in order. A
frame that finds the queue full is not acknowledged. -/
def writeFrame (op a : Nat) (ws : List Word) (head : List Byte) (crc : Byte) (s : State) : State :=
  let s := retryRead s
  if 4 ≤ s.mp.queue.length then s
  else if crc8 (BitVec.ofNat 8 op :: head ++ ws.flatMap wordBytes) ≠ crc.toNat then frameCrc s
  else drainFrames { s with mp := { s.mp with queue := s.mp.queue ++ [⟨a, ws⟩] } }

/-- WRITE (R365). -/
def execWrite (addr data : Word) (crc : Byte) (s : State) : Host.Outcome State Fault Refusal :=
  .next (writeFrame 1 addr.toNat [data] (wordBytes addr) crc s)

/-- WRITE_SAME (R365): a COUNT outside 1 to 64 is bad. -/
def execWriteSame (addr : Word) (words : List Word) (crc : Byte) (s : State) : Host.Outcome State Fault Refusal :=
  .next (if words.length < 1 ∨ 64 < words.length then frameBad s
    else writeFrame 3 addr.toNat words (wordBytes addr ++ leBytes 1 words.length) crc s)

/-! ### Reads (R365, R366, R368, R369) -/

/-- READ (R365). -/
def execRead (addr : Word) (crc : Byte) (s : State) : Host.Outcome State Fault Refusal :=
  .next (let s := drainFrames (retryRead s)
    if crc8 (2#8 :: wordBytes addr) ≠ crc.toNat then frameCrc s else performRead addr.toNat s)

/-- The six bytes of a read phase: STATUS, DATA, CRC; NO_FRAME before the first frame. -/
def replyBytes (s : State) : List Byte :=
  let (st, v) := s.mp.last.getD (5, 0)
  let bs := leBytes 1 st ++ beBytes 4 v
  bs ++ leBytes 1 (crc8 bs)

/-- READ_PHASE (R366): it stretches until the frame has been performed, and repeats no access. -/
def execReadPhase (s : State) : Host.Outcome State Fault Refusal :=
  .next (let s := retryRead s
    if s.mp.pendRead.isSome then s else { s with mp := { s.mp with reply := replyBytes s } })

/-! ### Discards and time limits (R366, R368) -/

/-- MPORT_FRAME_DISCARD (R366). -/
def execMportFrameDiscard (_fault : FrameFault) (s : State) : Host.Outcome State Fault Refusal := .next (frameBad s)

/-- SCL_TIMEOUT (R368): the frame in progress is discarded with FRAME. -/
def execSclTimeout (inFrame : Bool) (s : State) : Host.Outcome State Fault Refusal :=
  .next (if inFrame then frameBad s else s)

/-- MPORT_READ_STRETCH_TIMEOUT (R368): after 10 ms the read of a register in a WAKING domain returns DOMAIN_OFF. -/
def execMportReadStretchTimeout (s : State) : Host.Outcome State Fault Refusal :=
  .next (let s := retryRead s
    match s.mp.pendRead with
    | some a => if isWaking s (readDom s a) then frameEnd 4 0 s else s
    | none => s)

end Sys2Proof.Machine
end

