-- ==== Sys2Proof/Machine/Dispatch.lean ====
section
/-! DEFINITION. The dispatch of a command to its meaning, one arm per row of the command table. -/
namespace Sys2Proof.Machine

def exec (i : Instr) (s : State) : Host.Outcome State Fault Refusal :=
  match i with
  | .aonPowerOnReset addr1 addr0 => Sys2Proof.Machine.execAonPowerOnReset addr1 addr0 s
  | .supplyLoss supply => Sys2Proof.Machine.execSupplyLoss supply s
  | .registerWrite req addr data => Sys2Proof.Machine.execRegisterWrite req addr data s
  | .write addr data crc => Sys2Proof.Machine.execWrite addr data crc s
  | .read addr crc => Sys2Proof.Machine.execRead addr crc s
  | .writeSame addr words crc => Sys2Proof.Machine.execWriteSame addr words crc s
  | .readPhase => Sys2Proof.Machine.execReadPhase s
  | .sclTimeout inFrame => Sys2Proof.Machine.execSclTimeout inFrame s
  | .mportReadStretchTimeout => Sys2Proof.Machine.execMportReadStretchTimeout s
  | .tblDataAccess req wr => Sys2Proof.Machine.execTblDataAccess req wr s
  | .addressMatchWake => Sys2Proof.Machine.execAddressMatchWake s
  | .wakePin heldLow => Sys2Proof.Machine.execWakePin heldLow s
  | .pwrTargetWrite value => Sys2Proof.Machine.execPwrTargetWrite value s
  | .wakePowerGood d => Sys2Proof.Machine.execWakePowerGood d s
  | .wakeClockPresent d => Sys2Proof.Machine.execWakeClockPresent d s
  | .wakePllLock d => Sys2Proof.Machine.execWakePllLock d s
  | .wakeComplete d => Sys2Proof.Machine.execWakeComplete d s
  | .wakeStepTimeout d => Sys2Proof.Machine.execWakeStepTimeout d s
  | .wakeRetry d => Sys2Proof.Machine.execWakeRetry d s
  | .domainEntry d => Sys2Proof.Machine.execDomainEntry d s
  | .entrySavesDone d => Sys2Proof.Machine.execEntrySavesDone d s
  | .saveTimeout d => Sys2Proof.Machine.execSaveTimeout d s
  | .entryIsolateAndSwitch d => Sys2Proof.Machine.execEntryIsolateAndSwitch d s
  | .imageSelection => Sys2Proof.Machine.execImageSelection s
  | .loadStart src => Sys2Proof.Machine.execLoadStart src s
  | .abort zone => Sys2Proof.Machine.execAbort zone s
  | .cfgLoadData data => Sys2Proof.Machine.execCfgLoadData data s
  | .storeImageReadDone => Sys2Proof.Machine.execStoreImageReadDone s
  | .imageHeader => Sys2Proof.Machine.execImageHeader s
  | .imageEnd => Sys2Proof.Machine.execImageEnd s
  | .sectionHeader => Sys2Proof.Machine.execSectionHeader s
  | .recordStaged => Sys2Proof.Machine.execRecordStaged s
  | .sectionEnd => Sys2Proof.Machine.execSectionEnd s
  | .copyComplete zone => Sys2Proof.Machine.execCopyComplete zone s
  | .loadTimeout => Sys2Proof.Machine.execLoadTimeout s
  | .localFurlongBoundary => Sys2Proof.Machine.execLocalFurlongBoundary s
  | .rxCommitSwitch zone => Sys2Proof.Machine.execRxCommitSwitch zone s
  | .commitTimeout zone => Sys2Proof.Machine.execCommitTimeout zone s
  | .laneGroupCommit zone => Sys2Proof.Machine.execLaneGroupCommit zone s
  | .stewardRestartComplete => Sys2Proof.Machine.execStewardRestartComplete s
  | .revertSwitch zone => Sys2Proof.Machine.execRevertSwitch zone s
  | .fabricRegisterApply => Sys2Proof.Machine.execFabricRegisterApply s
  | .headroomWindowEnd n count slackMin => Sys2Proof.Machine.execHeadroomWindowEnd n count slackMin s
  | .hrThresholdWrite thr1 value => Sys2Proof.Machine.execHrThresholdWrite thr1 value s
  | .bushelSlip n => Sys2Proof.Machine.execBushelSlip n s
  | .slipRecovery n => Sys2Proof.Machine.execSlipRecovery n s
  | .fillToken n => Sys2Proof.Machine.execFillToken n s
  | .blockSlot c sc => Sys2Proof.Machine.execBlockSlot c sc s
  | .holdGapBlock lane => Sys2Proof.Machine.execHoldGapBlock lane s
  | .demapperChunk lane items => Sys2Proof.Machine.execDemapperChunk lane items s
  | .txEnable c on => Sys2Proof.Machine.execTxEnable c on s
  | .txLocksPresent c => Sys2Proof.Machine.execTxLocksPresent c s
  | .txLockLost c synth => Sys2Proof.Machine.execTxLockLost c synth s
  | .txTimeout c => Sys2Proof.Machine.execTxTimeout c s
  | .offsetUpdate c conv sum2 => Sys2Proof.Machine.execOffsetUpdate c conv sum2 s
  | .agcSlowUpdate c rms => Sys2Proof.Machine.execAgcSlowUpdate c rms s
  | .agcFastUpdate c rms => Sys2Proof.Machine.execAgcFastUpdate c rms s
  | .agcReplacementEnd c => Sys2Proof.Machine.execAgcReplacementEnd c s
  | .cdScanStep c u peakD => Sys2Proof.Machine.execCdScanStep c u peakD s
  | .candidateDeclared c u peak => Sys2Proof.Machine.execCandidateDeclared c u peak s
  | .secondCorrelatorPeak c u peak hdr => Sys2Proof.Machine.execSecondCorrelatorPeak c u peak hdr s
  | .rxHeader c u hdr meas => Sys2Proof.Machine.execRxHeader c u hdr meas s
  | .searchTimeout c u => Sys2Proof.Machine.execSearchTimeout c u s
  | .unitEnabled c u => Sys2Proof.Machine.execUnitEnabled c u s
  | .unitDisabled c u => Sys2Proof.Machine.execUnitDisabled c u s
  | .eqTapUpdate c sc grad => Sys2Proof.Machine.execEqTapUpdate c sc grad s
  | .qualityIntervalEnd c u q scs => Sys2Proof.Machine.execQualityIntervalEnd c u q scs s
  | .fathomPageClear => Sys2Proof.Machine.execFathomPageClear s
  | .clearAll => Sys2Proof.Machine.execClearAll s
  | .snapReq => Sys2Proof.Machine.execSnapReq s
  | .snapshotPeriodic => Sys2Proof.Machine.execSnapshotPeriodic s
  | .snapshotPageCopy => Sys2Proof.Machine.execSnapshotPageCopy s
  | .snapshotDone ok => Sys2Proof.Machine.execSnapshotDone ok s
  | .snapshotLoadDone => Sys2Proof.Machine.execSnapshotLoadDone s
  | .codewordEntersPool g sc signs erased => Sys2Proof.Machine.execCodewordEntersPool g sc signs erased s
  | .engineAssign => Sys2Proof.Machine.execEngineAssign s
  | .decoderIteration id hard => Sys2Proof.Machine.execDecoderIteration id hard s
  | .codewordDeadline id => Sys2Proof.Machine.execCodewordDeadline id s
  | .outerBlockDecode c sc => Sys2Proof.Machine.execOuterBlockDecode c sc s
  | .firkinWaitExpiry f => Sys2Proof.Machine.execFirkinWaitExpiry f s
  | .mapperChunk lane => Sys2Proof.Machine.execMapperChunk lane s
  | .peerCtrlWrite n value => Sys2Proof.Machine.execPeerCtrlWrite n value s
  | .peerSave => Sys2Proof.Machine.execPeerSave s
  | .laneLockLost lane cause => Sys2Proof.Machine.execLaneLockLost lane cause s
  | .laneLocked lane ppm => Sys2Proof.Machine.execLaneLocked lane ppm s
  | .groupAligned lane => Sys2Proof.Machine.execGroupAligned lane s
  | .holdConfirmation lane pass => Sys2Proof.Machine.execHoldConfirmation lane pass s
  | .holdFastTimeout lane => Sys2Proof.Machine.execHoldFastTimeout lane s
  | .holdLong lane => Sys2Proof.Machine.execHoldLong lane s
  | .groupZoneStateChange lane => Sys2Proof.Machine.execGroupZoneStateChange lane s
  | .restart lane => Sys2Proof.Machine.execRestart lane s
  | .loop lane value => Sys2Proof.Machine.execLoop lane value s
  | .adaptDone lane => Sys2Proof.Machine.execAdaptDone lane s
  | .innerFrame lane bits => Sys2Proof.Machine.execInnerFrame lane bits s
  | .patternCheck lane symbols => Sys2Proof.Machine.execPatternCheck lane symbols s
  | .modulatorFrame codes => Sys2Proof.Machine.execModulatorFrame codes s
  | .toneBlockEnd ch ti tq => Sys2Proof.Machine.execToneBlockEnd ch ti tq s
  | .hkSlotWrite slot value => Sys2Proof.Machine.execHkSlotWrite slot value s
  | .calStart => Sys2Proof.Machine.execCalStart s
  | .hkCalComplete gain offset => Sys2Proof.Machine.execHkCalComplete gain offset s
  | .fullReq => Sys2Proof.Machine.execFullReq s
  | .fgReq carriers => Sys2Proof.Machine.execFgReq carriers s
  | .calTrigger => Sys2Proof.Machine.execCalTrigger s
  | .wakeFgRunStart c => Sys2Proof.Machine.execWakeFgRunStart c s
  | .fgRunComplete c res => Sys2Proof.Machine.execFgRunComplete c res s
  | .bgPassComplete c res => Sys2Proof.Machine.execBgPassComplete c res s
  | .refLost refclk vref => Sys2Proof.Machine.execRefLost refclk vref s
  | .refPresent => Sys2Proof.Machine.execRefPresent s
  | .portBlockWrite c word value => Sys2Proof.Machine.execPortBlockWrite c word value s
  | .portEnable c => Sys2Proof.Machine.execPortEnable c s
  | .laserStatusPoll c tx lo => Sys2Proof.Machine.execLaserStatusPoll c tx lo s
  | .laserPowerPoll c tx lo => Sys2Proof.Machine.execLaserPowerPoll c tx lo s
  | .setChannel c l n => Sys2Proof.Machine.execSetChannel c l n s
  | .setFine c l mhz => Sys2Proof.Machine.execSetFine c l mhz s
  | .setPower c l power => Sys2Proof.Machine.execSetPower c l power s
  | .output c l on => Sys2Proof.Machine.execOutput c l on s
  | .readStatus c l answer => Sys2Proof.Machine.execReadStatus c l answer s
  | .readPower c l answer => Sys2Proof.Machine.execReadPower c l answer s
  | .readFreqErr c l answer => Sys2Proof.Machine.execReadFreqErr c l answer s
  | .eventDetection b source info => Sys2Proof.Machine.execEventDetection b source info s
  | .evtForce b bits => Sys2Proof.Machine.execEvtForce b bits s
  | .ackMinor b => Sys2Proof.Machine.execAckMinor b s
  | .ackMajor b => Sys2Proof.Machine.execAckMajor b s
  | .promotionWindowExpiry b source => Sys2Proof.Machine.execPromotionWindowExpiry b source s
  | .mergedRecord b source => Sys2Proof.Machine.execMergedRecord b source s
  | .scrubVisit m row => Sys2Proof.Machine.execScrubVisit m row s
  | .scrubLate m => Sys2Proof.Machine.execScrubLate m s
  | .tripletRestoreDone page ok => Sys2Proof.Machine.execTripletRestoreDone page ok s
  | .reloadDone line => Sys2Proof.Machine.execReloadDone line s
  | .fetchTrap line => Sys2Proof.Machine.execFetchTrap line s
  | .stewardLoadTrap word => Sys2Proof.Machine.execStewardLoadTrap word s
  | .grainTick => Sys2Proof.Machine.execGrainTick s
  | .trimMeasurement grainLen err => Sys2Proof.Machine.execTrimMeasurement grainLen err s
  | .timeUntrimmed => Sys2Proof.Machine.execTimeUntrimmed s
  | .checkpointPeriodic => Sys2Proof.Machine.execCheckpointPeriodic s
  | .ckptReq => Sys2Proof.Machine.execCkptReq s
  | .checkpointRetry => Sys2Proof.Machine.execCheckpointRetry s
  | .recordWriteComplete kind ok => Sys2Proof.Machine.execRecordWriteComplete kind ok s
  | .recordStore => Sys2Proof.Machine.execRecordStore s
  | .ldgFree value => Sys2Proof.Machine.execLdgFree value s
  | .resClear => Sys2Proof.Machine.execResClear s
  | .histogramIntervalEnd => Sys2Proof.Machine.execHistogramIntervalEnd s
  | .voutCommand ack => Sys2Proof.Machine.execVoutCommand ack s
  | .statusWord ack status => Sys2Proof.Machine.execStatusWord ack status s
  | .readVout ack raw => Sys2Proof.Machine.execReadVout ack raw s
  | .avsRequest => Sys2Proof.Machine.execAvsRequest s
  | .avsRequestTimeout => Sys2Proof.Machine.execAvsRequestTimeout s
  | .avsEnWrite en => Sys2Proof.Machine.execAvsEnWrite en s
  | .tempReading meanCode => Sys2Proof.Machine.execTempReading meanCode s
  | .hostTempWrite value => Sys2Proof.Machine.execHostTempWrite value s
  | .hostTempStale => Sys2Proof.Machine.execHostTempStale s
  | .thermThresholdWrite thr1 value => Sys2Proof.Machine.execThermThresholdWrite thr1 value s
  | .thermalThrottleRise => Sys2Proof.Machine.execThermalThrottleRise s
  | .thermalThrottleFall => Sys2Proof.Machine.execThermalThrottleFall s
  | .shutdownCountExpiry => Sys2Proof.Machine.execShutdownCountExpiry s
  | .storeTransferStart => Sys2Proof.Machine.execStoreTransferStart s
  | .storeRead addr len => Sys2Proof.Machine.execStoreRead addr len s
  | .pageProgram addr data => Sys2Proof.Machine.execPageProgram addr data s
  | .blockErase addr => Sys2Proof.Machine.execBlockErase addr s
  | .writeEnable => Sys2Proof.Machine.execWriteEnable s
  | .storeReadStatus busy => Sys2Proof.Machine.execStoreReadStatus busy s
  | .readId capacity => Sys2Proof.Machine.execReadId capacity s
  | .extendedAddress bank => Sys2Proof.Machine.execExtendedAddress bank s
  | .storeBusyTimeout => Sys2Proof.Machine.execStoreBusyTimeout s
  | .linkUp => Sys2Proof.Machine.execLinkUp s
  | .rxLockLost => Sys2Proof.Machine.execRxLockLost s
  | .creditTimeout => Sys2Proof.Machine.execCreditTimeout s
  | .streamStall k => Sys2Proof.Machine.execStreamStall k s
  | .credit p => Sys2Proof.Machine.execCredit p s
  | .creditSend => Sys2Proof.Machine.execCreditSend s
  | .config p => Sys2Proof.Machine.execConfig p s
  | .snapshot p => Sys2Proof.Machine.execSnapshot p s
  | .store p => Sys2Proof.Machine.execStore p s
  | .capture => Sys2Proof.Machine.execCapture s
  | .ledger => Sys2Proof.Machine.execLedger s
  | .telemetryPeriod => Sys2Proof.Machine.execTelemetryPeriod s
  | .drainReq => Sys2Proof.Machine.execDrainReq s
  | .capStart => Sys2Proof.Machine.execCapStart s
  | .captureTrigger => Sys2Proof.Machine.execCaptureTrigger s
  | .captureDone samples => Sys2Proof.Machine.execCaptureDone samples s
  | .doorbell => Sys2Proof.Machine.execDoorbell s
  | .mboxResponse r0 r1 r2 r3 result => Sys2Proof.Machine.execMboxResponse r0 r1 r2 r3 result s
  | .watchdogExpiry => Sys2Proof.Machine.execWatchdogExpiry s
  | .dmaStart c => Sys2Proof.Machine.execDmaStart c s
  | .dmaDone c outcome => Sys2Proof.Machine.execDmaDone c outcome s
  | .bistSliceEnd d report => Sys2Proof.Machine.execBistSliceEnd d report s
  | .bistSliceCut d => Sys2Proof.Machine.execBistSliceCut d s
  | .accReq entropy => Sys2Proof.Machine.execAccReq entropy s
  | .accSubmit => Sys2Proof.Machine.execAccSubmit s
  | .accClose => Sys2Proof.Machine.execAccClose s
  | .challengeExpiry => Sys2Proof.Machine.execChallengeExpiry s
  | .accessLifeExpiry => Sys2Proof.Machine.execAccessLifeExpiry s
  | .fuseIntegrityCheck sensed => Sys2Proof.Machine.execFuseIntegrityCheck sensed s
  | .prog => Sys2Proof.Machine.execProg s
  | .fuseProgComplete sensed => Sys2Proof.Machine.execFuseProgComplete sensed s
  | .mportFrameDiscard fault => Sys2Proof.Machine.execMportFrameDiscard fault s
  | .badPacket typ len p => Sys2Proof.Machine.execBadPacket typ len p s
  | .hostRsCodeword lane corrected => Sys2Proof.Machine.execHostRsCodeword lane corrected s
  | .signalDetect lane ppm => Sys2Proof.Machine.execSignalDetect lane ppm s
  | .hostStale => Sys2Proof.Machine.execHostStale s
  | .sensorReadingOld => Sys2Proof.Machine.execSensorReadingOld s
  | .avsStretchTimeout => Sys2Proof.Machine.execAvsStretchTimeout s

end Sys2Proof.Machine
end

