-- ==== Sys2Proof/Machine/Step.lean ====
section
/-! DEFINITION. One step of the block: the command at the front of the queue, or idle. -/
namespace Sys2Proof.Machine

/-- Put a command at the front of the queue. -/
def State.front (s : State) (c : Instr) : State := { s with pending := c :: s.pending }

/-- One step: take the front command and run it on the state with the queue's rest; idle on an empty queue
(DESIGN CHOICE, log 1). -/
def step (s : State) : Host.Outcome State Fault Refusal :=
  match s.pending with
  | [] => .next s
  | c :: rest => exec c { s with pending := rest }

/-- The state with the command that a table word spells at the front of its queue, or unchanged. -/
def State.withFetchWord (s : State) (nbits w : Nat) : State :=
  match Sys2Proof.decodeTableWord nbits w with
  | some c => s.front c
  | none => s

end Sys2Proof.Machine
end

