-- ==== Sys2Proof/Safety.lean ====
section
/-! DEFINITION. What counts as a safe run: every step answers a next state and keeps the bounds that the manual sets on what
the block holds. -/
namespace Sys2Proof

/-- The outcome is a next state. -/
def Safety.goesOn (o : Host.Outcome Machine.State Machine.Fault Machine.Refusal) : Prop := ∃ t, o = .next t

/-- The bounds and forms that hold of every state the block is in: the register file and the flash in canonical form;
at most 256 records in the intake queue (13 R328), 64 reserve entries (13 R334), 32 candidates in the AON buffer (16 R394),
509 repair candidates (12 R318) and four MPORT writes (15 R367); 14 fuse groups and their shadow (16 R400). -/
structure Safety.Inv (s : Machine.State) : Prop where
  regs    : Machine.trising s.regs = true
  flash   : Machine.flashWf s.st.cells = true
  intake  : s.ldg.intake.length ≤ 256
  reserve : s.ldg.reserve.length ≤ 64
  buffer  : s.prot.buffer.length ≤ 32
  cands   : s.prot.cands.length ≤ 509
  queue   : s.mp.queue.length ≤ 4
  fuses   : s.sec.fuses.length = 14
  shadow  : s.sec.shadow.length = 14

/-- From `s` to `t` only the listed register fields may change, and nothing beside registers does. -/
def Safety.onlyFields (fs : List Machine.Fld) (s t : Machine.State) : Prop :=
  (∀ f : Machine.Fld, (∀ g ∈ fs, f.key ≠ g.key) → Machine.getF t f = Machine.getF s f) ∧ t = { s with regs := t.regs }

/-- From `s` to `t` no register field but the listed ones changes. -/
def Safety.fieldsKept (fs : List Machine.Fld) (s t : Machine.State) : Prop :=
  ∀ f : Machine.Fld, (∀ g ∈ fs, f.key ≠ g.key) → Machine.getF t f = Machine.getF s f

end Sys2Proof
end

