-- ==== Sys2Proof/Certificates/Slice0/Obligations.lean ====
section
/-! DEFINITION. What is claimed of the block, each statement from the numbered rules of the manual that its docstring names. -/
open Sys2Proof Sys2Proof.Machine
open Sys2Proof.Safety (onlyFields fieldsKept)

/-! ### The block as a whole -/

/-- A step runs the command at the front of the queue with the queue's rest (an empty queue idles: the model's choice,
log 1). -/
def Obligations.StepRunsFrontCommand : Prop :=
  (∀ (c : Instr) (s : State), step (s.front c) = exec c s) ∧ ∀ s : State, s.pending = [] → step s = .next s

/-- Every command answers a next state from every state and leaves the queue alone; where its rule lets it, with its own
effect (01 R23-R36; 14 R351-R363; 15 R365-R388; 16 R391-R402; 18 R431-R438). -/
def Obligations.EveryCommandGoesOn : Prop :=
  (∀ (c : Instr) (s : State), ∃ t, exec c s = .next t ∧ t.pending = s.pending) ∧
  -- voltage, throttle, temperature
  (∀ (s : State) (v : Nat) (w : BitVec 16) (x : Word) (code : Int) (en : Bool),
    (stwRuns s = true → getB s F.AVS_EN = true → getB s F.AVS_FAILED = false → getB s F.HR_VALID = true → getF s F.TH_REQ = 0 →
      getF s F.HEADROOM < getF s F.HR_RAISE → getF s F.VCORE_REQ < getF s F.VMAX → s.avs.request = none →
      ∃ t, exec .avsRequest s = .next t ∧ t.avs.request = some (min (getF s F.VCORE_REQ + getF s F.AVS_STEP) (getF s F.VMAX))) ∧
    (isOn s 1 = true → s.avs.request = some v →
      (s.avs.stage = 0 → ∃ t, exec (.voutCommand true) s = .next t ∧ t.avs.stage = 1) ∧
      (s.avs.stage = 1 → statusBad w.toNat = false → ∃ t, exec (.statusWord true w) s = .next t ∧ t.avs.stage = 2) ∧
      (s.avs.stage = 2 → s.avs.first = false → v ≤ voutMv s w.toNat + 10 → voutMv s w.toNat ≤ v + 10 →
        ∃ u, exec (.readVout true w) s = .next (detect .aon 26 0 u) ∧ u.avs.request = none) ∧
      (∃ u, exec .avsRequestTimeout s = .next (detect .aon 24 0 u) ∧ getB u F.AVS_FAILED = true) ∧
      (∃ u, exec .avsStretchTimeout s = .next (detect .aon 24 0 u) ∧ getB u F.AVS_FAILED = true)) ∧
    (∃ t, exec (.avsEnWrite en) s = .next t ∧ getB t F.AVS_EN = en) ∧
    (clampN 600 1250 (bitsOf x.toNat 16 16) ≤ clampN 600 1250 (bitsOf x.toNat 0 16) →
      clampN 600 1250 (bitsOf x.toNat 0 16) < getF s F.SHUTDOWN →
      ∃ t, exec (.thermThresholdWrite false x) s = .next t ∧ getF t F.THROTTLE = clampN 600 1250 (bitsOf x.toNat 0 16)) ∧
    (s.therm.rising = true → s.therm.stale = false → 0 < getF s F.TH_REQ →
      ∃ u, exec .thermalThrottleRise s = .next (throttle u) ∧ getF u F.TH_REQ = min (getF s F.TH_REQ + 1) 8) ∧
    (getS s F.TEMP < (getF s F.THROTTLE : Int) - getF s F.HYST → s.therm.stale = false → getF s F.TH_REQ ≤ 8 →
      ∃ u, exec .thermalThrottleFall s = .next (throttle u) ∧ getF u F.TH_REQ = getF s F.TH_REQ - 1) ∧
    (getF s F.TEMP_SRC = 0 → s.therm.stale = false → isOn s 8 = true →
      ∃ u, exec .hostTempStale s = .next (throttle (detect .therm 6 0 u)) ∧ getF u F.TH_REQ = 8) ∧
    (getF s F.SHUT_COUNT ≤ 3 → ∃ t, exec .shutdownCountExpiry s = .next t ∧ getF t F.SHUT_COUNT = getF s F.SHUT_COUNT - 1) ∧
    (isOn s 4 = true → getB s F.HK_CAL_BUSY = false → getB s F.SENSOR_BROKEN = true → ∃ t, exec (.tempReading code) s = .next t ∧
      getS t F.SENSOR = toS 16 (ofS 16 (Config.tempOfCode code))) ∧
    (getB s F.SENSOR_BROKEN = false → s.therm.fresh = true → ∃ t, exec (.hostTempWrite x) s = .next t ∧
      getF t F.HOST_TEMP = x.toNat % 2 ^ 16) ∧
    (getB s F.HOST_STALE = false → getB s F.SENSOR_BROKEN = false → s.therm.fresh = true → getF s F.TEMP_SRC = 1 →
      ∃ t, exec .hostStale s = .next t ∧ getB t F.HOST_STALE = true) ∧
    (getB s F.HOST_STALE = true → getF s F.TEMP_SRC = 1 → ∃ t, exec .sensorReadingOld s = .next t ∧ getF t F.TEMP_SRC = 0)) ∧
  -- bushels
  (∀ (s : State) (b : BushelTok) (f : FillReq) (count slack : Nat) (v : Word),
    (bushelOn s b.n.val = true → mgmtWorks s = false → ∃ u, getF u (F.SLACK_MIN b.n.val) = min slack 256 ∧
      exec (.headroomWindowEnd b.n count slack) s = .next (if isOn s 1 then headroomPath (headroomReport u) else u)) ∧
    (isOn s 1 = true → bitsOf v.toNat 0 16 < bitsOf v.toNat 16 16 → getF s F.HR_THROTTLE < bitsOf v.toNat 0 16 →
      ∃ t, exec (.hrThresholdWrite false v) s = .next t ∧ getF t F.HR_RAISE = bitsOf v.toNat 0 16) ∧
    (bushelOn s b.n.val = true → slipsIn b.n.val = true → (bushelAt s b.n.val).slipping = true → b.n.val = 0 ∨ b.n.val = 6 →
      ∃ t, exec (.bushelSlip b) s = .next t ∧ (bushelAt t b.n.val).tokens = (bushelAt s b.n.val).tokens + 1) ∧
    ((bushelAt s b.n.val).slipping = true → ∃ t, exec (.slipRecovery b) s = .next t ∧ (bushelAt t b.n.val).slipping = false) ∧
    (bushelOn s f.n.val = true → (bushelAt s f.n.val).owed = 0 → f.n.val = 1 ∨ f.n.val = 7 →
      ∃ u, exec (.fillToken f) s = .next (detect .fabric f.n.val 1 u) ∧ (bushelAt u f.n.val).tokens = 1)) ∧
  -- the Chain port
  (∀ (s : State) (p : Packet) (k : Fin 8), chnHears s = true →
    (getB s F.CHN_LINK = false → ∃ u, exec .linkUp s = .next (detect .chn 0 0 u) ∧ getB u F.CHN_LINK = true) ∧
    (getB s F.CHN_LINK = true → s.chn.snapNext = none → ∃ u, getB u F.CHN_LINK = false ∧ u.chn.snapNext = none ∧
      exec .creditTimeout s = .next (let v := detect .chn 1 0 u; if v.chn.snapNext.isSome then snapInFail v else v)) ∧
    (s.chn.blockLock = true → ∃ u, exec .rxLockLost s = .next (linkDown (detect .chn 3 0 u)) ∧ u.chn.blockLock = false) ∧
    (chnUp s = true → streamWaits s k.val = true → hasCredit s k.val 1 = false →
      exec (.streamStall k) s = .next (detect .chn (16 + k.val) 0 s)) ∧
    (pktGood 0x7F 64 p = true → p.payload.length = 64 → s.chn.inSeq = none →
      ∃ t, exec (.credit p) s = .next t ∧ tget t.chn.limOut 0 0 = leAt p.payload 0 4) ∧
    (∃ t, exec .creditSend s = .next t ∧ t.chn.outSeq = (s.chn.outSeq + 1) % 65536) ∧
    (pktGood 0x55 p.payload.length p = true → s.chn.inSeq = none → ∃ u,
      exec (.badPacket 0x55 (BitVec.ofNat 16 p.payload.length) p) s = .next (detect .chn 6 0 u) ∧
      u.chn.inSeq = some ((p.seq.toNat + 1) % 65536)) ∧
    (s.chn.inSeq = none → p.payload.length ≤ 4096 →
      let room (k : Nat) := (tget s.chn.limIn k 0 + 2 ^ 32 - (tget s.chn.usedIn k 0 + pktUnits p.payload.length) % 2 ^ 32) % 2 ^ 32
      (pktGood 0x10 p.payload.length p = true → room 5 < 2 ^ 31 → loading s 2 = true → getF s F.LOAD_SRC = 2 → s.ld.discard = false →
        ∃ u, exec (.config p) s = .next (feed p.payload u) ∧ u.ld = s.ld) ∧
      (pktGood 0x11 p.payload.length p = true → room 6 < 2 ^ 31 → p.arg = 0 → s.chn.snapNext = none → getB s F.SNAP_BUSY = false →
        dmaRuns s = true → s.st.small = false →
        ∃ u, exec (.snapshot p) s = .next (snapInData p.payload (bitOf p.flags.toNat 1) (snapInStart u)) ∧ u.st = s.st) ∧
      (pktGood 0x12 p.payload.length p = true → room 7 < 2 ^ 31 → p.arg.toNat % 256 = 0 → dmaRuns s = true →
        storeAccepts s p.arg.toNat p.payload.length = true → ∃ t, exec (.store p) s = .next t ∧ getB t (F.DMA_BUSY 3) = true))) ∧
  (∀ (s : State) (samples : List (BitVec 56)),
    (chnUp s = true → isOn s 1 = true → s.chn.drain = none → ∃ t d, exec .drainReq s = .next t ∧ t.chn.drain = some d ∧
      d.recs = s.ldg.region.filter fun e => e.2.typ != 0) ∧
    (∀ d, s.chn.drain = some d → chnUp s = true → d.recs = [] → d.resv = [] →
      exec .ledger s = .next (detect .chn 10 0 { s with chn := { s.chn with drain := none } })) ∧
    (isOn s 10 = true → getB s F.CAP_BUSY = false → ∃ t, exec .capStart s = .next t ∧ getB t F.CAP_BUSY = true) ∧
    (isOn s 10 = true → s.chn.capArmed = true → ∃ t, exec .captureTrigger s = .next t ∧ t.chn.capTrig = true) ∧
    (isOn s 10 = true → s.chn.capTrig = true → samples.length = s.chn.capWords →
      ∃ u, exec (.captureDone samples) s = .next (detect .chn 8 0 u) ∧ getB u F.CAP_BUSY = false) ∧
    (getB s F.STREAMING = true → chnUp s = true → isOn s 1 = true → s.stw.dmaStop = false → hasCredit s 0 65 = true →
      s.chn.capPos + 4096 < 64 + 8 * s.chn.capWords → ∃ t, exec .capture s = .next t ∧ t.chn.capPos = s.chn.capPos + 4096) ∧
    (isOn s 10 = true → getF s F.TLM_PERIOD ≠ 0 → tlmList s = [] → chnUp s = true → hasCredit s 3 1 = true →
      ∃ t, exec .telemetryPeriod s = .next t ∧ t.chn.sent = some ⟨0x04, 3, s.chn.outSeq, mainTime s % 2 ^ 32, []⟩)) ∧
  -- steward, DMA, self-test
  (∀ (s : State) (r0 r1 r2 r3 : Word) (res : Byte) (c : Fin 8) (d : Dom), isOn s 1 = true →
    (getB s F.MBOX_BUSY = false → ∃ t, exec .doorbell s = .next t ∧ getB t F.MBOX_BUSY = true) ∧
    (s.stw.running = true → getB s F.MBOX_BUSY = true → ∃ u,
      exec (.mboxResponse r0 r1 r2 r3 res) s = .next (detect .stw 16 0 u) ∧ getF u F.MBOX_RESULT = res.toNat) ∧
    (s.stw.running = true → ∃ u, exec .watchdogExpiry s = .next (detect .stw 20 0 u) ∧ u.stw.running = false) ∧
    (4 ≤ c.val → getB s (F.DMA_BUSY c.val) = false → s.stw.dmaStop = false → dmaRefused s c.val = false →
      ∃ t, exec (.dmaStart c) s = .next t ∧ getB t (F.DMA_BUSY c.val) = true) ∧
    (∀ r : DmaRun, 4 ≤ c.val → getB s (F.DMA_BUSY c.val) = true → s.stw.dmaStop = false → tfind s.stw.dma c.val = some r →
      r.dstSpace = 2 → r.srcSpace = 0 → getF s F.STORE_ACTIVE = 8 →
      ∃ u, exec (.dmaDone c .done) s = .next (detect .dma c.val 0 u) ∧ getB u (F.DMA_BUSY c.val) = false) ∧
    (d ≠ .aon → d ≠ .mgmt → domAt s d.num = .entering 3 .orderly → getF s (F.NEXT_SLICE d.num) ≠ 0 →
      (∀ r : SliceReport, r.late = false → r.fails = [] → r.logicBad = false → r.last = false → wakeHeld s d.num = false →
        r.elapsed < getF s F.BIST_LIMIT → ∃ t, exec (.bistSliceEnd d r) s = .next t ∧
          getF t (F.NEXT_SLICE d.num) = (getF s (F.NEXT_SLICE d.num) + 1) % 2 ^ 16) ∧
      (wakeHeld s d.num = true → ∃ u, exec (.bistSliceCut d) s =
        .next (setDom (detect .sec 11 d.num u) d.num (.entering 4 .orderly)) ∧ getF u (F.BIST_RESULT d.num) = 3))) ∧
  -- field access and fuses
  (∀ (s : State) (e : BitVec 256) (scope : Nat),
    (isOn s 1 = true → fuseBad s 0 = false → fuseBad s 1 = false →
      (getF s F.ACC_STATE ≠ 3 → ∃ t, exec (.accReq e) s = .next t ∧ t.sec.challenge = some (getF s F.ACC_SCOPE)) ∧
      (s.sec.challenge = some scope → accResponse s = accExpected s scope →
        ∃ u, exec .accSubmit s = .next (detect .sec 17 0 u) ∧ getF u F.OPEN_SCOPE = scope % 8)) ∧
    (accessOpen s = true → (∃ u, exec .accClose s = .next (detect .sec 18 0 u) ∧ getF u F.OPEN_SCOPE = 0) ∧
      ∃ u, exec .accessLifeExpiry s = .next (detect .sec 18 0 u) ∧ getF u F.OPEN_SCOPE = 0) ∧
    (s.sec.challenge.isSome = true → ∃ t, exec .challengeExpiry s = .next t ∧ t.sec.challenge = none) ∧
    (∀ l : List FuseWord, (∀ g, g < 14 → fuseGood g (l.getD g FuseWord.blank) = true ∧ l.getD g FuseWord.blank = fuseAt s g) →
      s.ldg.unrep = 0 → ∃ t, exec (.fuseIntegrityCheck l) s = .next t ∧ getB t F.INTEGRITY_OK = true) ∧
    (getB s F.FUSE_BUSY = false → progRefused s (getF s F.FUSE_GROUP) = none →
      ∃ t, exec .prog s = .next t ∧ getB t F.FUSE_BUSY = true) ∧
    (∀ g f, s.sec.prog = some (g, f) → ∃ u, getB u F.FUSE_BUSY = false ∧ u.sec.fuses = s.sec.fuses.set g f ∧
      exec (.fuseProgComplete f) s = .next (onlyIf (decide (10 ≤ g)) (detect .sec 21 g) (detect .sec 19 g u)))) ∧
  -- registers, windows, MPORT
  (∀ (s : State) (a v : Word) (crc : Byte) (ws : List Word) (f : FrameFault),
    (mapped a.toNat = true → isWindow a.toNat = false → isOn s (regDom a.toNat) = true → regDom a.toNat = 6 ∨ regDom a.toNat = 7 →
      exec (.registerWrite .mport a v) s = .next { s with fab := { s.fab with writes := s.fab.writes ++ [(a.toNat, v.toNat)] } }) ∧
    (∀ q qs, s.fab.writes = q :: qs → exec .fabricRegisterApply s =
      .next (qs.foldl fabApply (fabApply { s with fab := { s.fab with writes := [] } } q))) ∧
    (getF s F.TBL_SEL = 0x10 → getF s F.TBL_ADDR < 2 ^ 24 → isOn s 9 = true → ∃ t, exec (.tblDataAccess .mport none) s = .next t ∧
      t.mp.tblOut = tableEntry s (getF s F.TBL_ADDR)) ∧
    (s.mp.pendRead = none →
      (s.mp.queue = [] → mapped a.toNat = true → isWindow a.toNat = false → isOn s (regDom a.toNat) = true → writesDone s = true →
        crc8 (2#8 :: wordBytes a) = crc.toNat →
        ∃ t, exec (.read a crc) s = .next t ∧ t.mp.last = some (0, (readWord 0 a.toNat s).value)) ∧
      (s.mp.queue = [] → (regWrite 0 a.toNat v.toNat s).2 = 0 → crc8 (1#8 :: (wordBytes a ++ wordBytes v)) = crc.toNat →
        ∃ t, exec (.write a v crc) s = .next t ∧ t.mp.last = some (0, 1)) ∧
      (1 ≤ ws.length → ws.length ≤ 64 → s.mp.queue = [] →
        crc8 (3#8 :: (wordBytes a ++ leBytes 1 ws.length ++ ws.flatMap wordBytes)) = crc.toNat →
        ∃ t st n, exec (.writeSame a ws crc) s = .next t ∧ t.mp.last = some (st, n) ∧ (st = 0 ↔ n = ws.length)) ∧
      (∃ t, exec .readPhase s = .next t ∧ t.mp.reply.headD 0 = BitVec.ofNat 8 (s.mp.last.getD (5, 0)).1) ∧
      (∃ t, exec (.mportFrameDiscard f) s = .next t ∧ t.mp.last = some (3, 0)) ∧
      (∃ t, exec (.sclTimeout true) s = .next t ∧ t.mp.last = some (3, 0))) ∧
    (∀ x, s.mp.pendRead = some x → mapped x = true → isWaking s (readDom s x) = true →
      ∃ t, exec .mportReadStretchTimeout s = .next t ∧ t.mp.last = some (4, 0)))

/-- Every step from a state within the manual's bounds answers one within them. -/
def Obligations.EveryStepKeepsBounds : Prop :=
  ∀ s : State, Safety.Inv s → ∃ t, step s = .next t ∧ Safety.Inv t

/-- The state after reset is within the bounds. -/
def Obligations.ResetMeetsBounds : Prop :=
  Safety.Inv State.reset

/-- What reset leaves: MGMT and CHAIN waking, register fields at reset values, no zone with content (00 R12; 14 R350). -/
def Obligations.ResetLeavesOnlyMgmtAndChainWaking : Prop :=
  (∀ f : Fld, getF State.reset f = f.rst) ∧ State.reset.pending = [] ∧
    (∀ z, zoneAt State.reset z = ZoneSt.blank) ∧
    domAt State.reset 0 = .on ∧ isWaking State.reset 1 = true ∧ isWaking State.reset 10 = true ∧
    ∀ d, d ≠ 0 → d ≠ 1 → d ≠ 10 → domAt State.reset d = .off

/-! ### Events (11 R281-R300) -/

/-- Detections of disabled sources, and forced detections (11 R282, R289; 16 R396). -/
def Obligations.DisabledAndForcedDetectionsFollowTheirRules : Prop :=
  (∀ (b : EvBlk) (i : Fin 32) (info : Word) (s : State),
     (b.has i.val = true → getB s (F.EN b i.val) = false →
       ∃ t, exec (.eventDetection b i info) s = .next t ∧ getB t (F.EVT b i.val) = true ∧
         onlyFields (F.EVT b i.val :: sourceCount b i.val ++ (evtSrcFields b i.val info.toNat).map (·.1)) s { t with ldg := s.ldg } ∧
         (b ≠ .ldg ∨ i ≠ 14 → t.ldg = s.ldg)) ∧
     (b.has i.val = false → exec (.eventDetection b i info) s = .next s)) ∧
  (∀ (b : EvBlk) (bits : Word) (s : State),
     (∀ i, b.sources.filter (bitOf bits.toNat) = [i] → b.fixed i = false →
       exec (.evtForce b bits) s = .next (detectN 3 b i (draw s (2 ^ 32)) true (drew s))) ∧
     (∀ i, b.sources.filter (bitOf bits.toNat) = [i] → b.fixed i = true → bitOf (getF s F.OPEN_SCOPE) 0 = false →
       exec (.evtForce b bits) s = .next s) ∧
     (b.sources.filter (bitOf bits.toNat) = [] → exec (.evtForce b bits) s = .next s))

/-- An enabled detection is recorded once; merged ones once at the next millisecond (04 R109; 11 R282, R283, R287, R292,
R293; 13 R327-R329). -/
def Obligations.DetectionsAreRecordedOnce : Prop :=
  (∀ (b : EvBlk) (i : Fin 32) (info : Word) (s : State) (cls : Nat),
     b.has i.val = true → getB s (F.EN b i.val) = true → getF s (F.CLASS b i.val) = cls → cls ≤ 1 →
     getB s (F.EVT b i.val) = false → (evAt s b i.val).marked = false → (evAt s b i.val).count = .idle →
     1 < getF s (F.EVT_N b i.val) → (cls = 1 → getB s (F.PEND b 1) = false) →
     mgmtWorks s = true → getB s F.LDG_STOPPED = false → s.ldg.runs = [] → s.ldg.intake.length < 256 → s.ldg.unrep = 0 →
     isOn s 10 = false →
       ∃ t, exec (.eventDetection b i info) s = .next t ∧ getB t (F.EVT b i.val) = true ∧
         getF t (F.EVT_SEQ b) = (getF s (F.EVT_SEQ b) + 1) % 2 ^ 32 ∧
         (cls = 1 → getB t (F.PEND b 1) = true) ∧
         (evAt t b i.val).count = .opened 1 (getF s (F.EVT_N b i.val)) ∧
         t.ldg.intake = s.ldg.intake ++ [newRec s 1 0 (eventPayload b i.val 0 cls cls ((getF s (F.EVT_SEQ b) + 1) % 2 ^ 32))] ∧
         t.ldg.seq = (s.ldg.seq + 1) % 2 ^ 32 ∧
         (∀ f ∈ sourceCount b i.val, isOn s (b.srcDom i.val) = true → getF t f = (getF s f + 1) % 2 ^ 64) ∧
         fieldsKept (F.EVT b i.val :: F.EVT_SEQ b :: F.PEND b 1 :: sourceCount b i.val ++
           (evtSrcFields b i.val info.toNat).map (·.1)) s t ∧
         t = { s with regs := t.regs, ev := t.ev, ldg := t.ldg }) ∧
  (∀ (b : EvBlk) (i : Fin 32) (s : State),
     ((evAt s b i.val).merged = none → ∃ t, exec (.mergedRecord b i) s = .next t ∧
       (evAt t b i.val).marked = false ∧ (evAt t b i.val).merged = none ∧
       (evAt t b i.val).count = (evAt s b i.val).count ∧ t = { s with ev := t.ev }) ∧
     (∀ m : Merged, (evAt s b i.val).merged = some m → mgmtWorks s = true → getB s F.LDG_STOPPED = false →
       s.ldg.runs = [] → s.ldg.intake.length < 256 → s.ldg.unrep = 0 → isOn s 10 = false →
       ∃ t, exec (.mergedRecord b i) s = .next t ∧ (evAt t b i.val).marked = true ∧ (evAt t b i.val).merged = none ∧
         getF t (F.EVT_SEQ b) = (getF s (F.EVT_SEQ b) + 1) % 2 ^ 32 ∧
         t.ldg.intake = s.ldg.intake ++ [newRec s 1 m.flags
           (eventPayload b i.val m.count m.cls (getF s (F.CLASS b i.val)) ((getF s (F.EVT_SEQ b) + 1) % 2 ^ 32))] ∧
         fieldsKept [F.EVT_SEQ b] s t ∧ t = { s with regs := t.regs, ev := t.ev, ldg := t.ldg }))

/-- Acknowledgements clear their own flag; promotion windows and counters (11 R288, R285). -/
def Obligations.AcknowledgementsAndWindowsTouchTheirOwnPart : Prop :=
  (∀ (b : EvBlk) (s : State),
     (∃ t, exec (.ackMinor b) s = .next t ∧ getB t (F.PEND b 1) = false ∧ onlyFields [F.PEND b 1] s t) ∧
     (∃ t, exec (.ackMajor b) s = .next t ∧ getB t (F.PEND b 2) = false ∧ onlyFields [F.PEND b 2] s t)) ∧
  ((∀ (b : EvBlk) (i : Fin 32) (s : State), ∃ t, exec (.promotionWindowExpiry b i) s = .next t ∧
     (evAt t b i.val).count = .idle ∧ (evAt t b i.val).marked = (evAt s b i.val).marked ∧
     (evAt t b i.val).merged = (evAt s b i.val).merged ∧
     (∀ (b' : EvBlk) (j : Nat), b'.key j ≠ b.key i.val → evAt t b' j = evAt s b' j) ∧ t = { s with ev := t.ev }) ∧
   countDetection .idle 1 = (.spent, true) ∧
   (∀ n, 1 < n → countDetection .idle n = (.opened 1 n, false)) ∧
   (∀ k m n, k + 1 = m → countDetection (.opened k m) n = (.spent, true)) ∧
   (∀ k m n, k + 1 < m → countDetection (.opened k m) n = (.opened (k + 1) m, false)) ∧
   (∀ n, countDetection .spent n = (.spent, false)))

/-- The first Grave fault locks FLT_GRAVE and holds the steward in reset; a later one leaves it (11 R299, R303, R304). -/
def Obligations.FirstGraveFaultLocks : Prop :=
  ∀ (info : Word) (s : State),
    getB s (F.EN .stw 23) = true → getF s (F.CLASS .stw 23) = 3 → s.ldg.unrep = 0 → s.ldg.runs = [] → s.ldg.intake.length < 256 →
    zonesIn s zStaging = [] → zonesIn s zArmed = [] → isOn s 10 = false →
    ∃ t, exec (.eventDetection .stw 23 info) s = .next t ∧ getB t F.GRAVE_LOCK = true ∧ t.stw.held = true ∧
      t.stw.running = false ∧
      (getB s F.GRAVE_LOCK = false → getF t F.GRAVE_CAUSE = 1 ∧ getF t F.GRAVE_SOURCE = 23 ∧
        getF t F.GRAVE_BLOCK = EvBlk.stw.code) ∧
      (getB s F.GRAVE_LOCK = true → getF t F.GRAVE_CAUSE = getF s F.GRAVE_CAUSE ∧
        getF t F.GRAVE_SOURCE = getF s F.GRAVE_SOURCE ∧ getF t F.GRAVE_BLOCK = getF s F.GRAVE_BLOCK)

/-! ### The store port (15 R370, R373) -/

/-- Page program and block erase change their unit alone (bit clearing is presumed, log 20) (15 R370). -/
def Obligations.ProgramAndEraseTouchTheirUnitAlone : Prop :=
  (∀ (addr : Word) (data : List Byte) (s : State), flashWf s.st.cells = true → data.length = 256 →
     mgmtWorks s = true → s.st.busy = false → s.st.wel = true →
     ∃ t, exec (.pageProgram addr data) s = .next t ∧ t.st.wel = false ∧ t.st.busy = true ∧
       flashWf t.st.cells = true ∧
       (∀ i, flashAddr s addr.toNat / 256 * 256 ≤ i → i < flashAddr s addr.toNat / 256 * 256 + 256 →
         flashByte t.st.cells i =
           flashByte s.st.cells i &&& data.getD (i - flashAddr s addr.toNat / 256 * 256) erased) ∧
       (∀ i, i < flashAddr s addr.toNat / 256 * 256 ∨ flashAddr s addr.toNat / 256 * 256 + 256 ≤ i →
         flashByte t.st.cells i = flashByte s.st.cells i) ∧
       t = { s with st := { s.st with cells := t.st.cells, wel := false, busy := true } }) ∧
  (∀ (addr : Word) (s : State), flashWf s.st.cells = true → mgmtWorks s = true → s.st.busy = false → s.st.wel = true →
     ∃ t, exec (.blockErase addr) s = .next t ∧ t.st.wel = false ∧ t.st.busy = true ∧ flashWf t.st.cells = true ∧
       (∀ i, flashAddr s addr.toNat / 65536 * 65536 ≤ i → i < flashAddr s addr.toNat / 65536 * 65536 + 65536 →
         flashByte t.st.cells i = erased) ∧
       (∀ i, i < flashAddr s addr.toNat / 65536 * 65536 ∨ flashAddr s addr.toNat / 65536 * 65536 + 65536 ≤ i →
         flashByte t.st.cells i = flashByte s.st.cells i) ∧
       t = { s with st := { s.st with cells := t.st.cells, wel := false, busy := true } })

/-- Flash commands answer and set their own part of the store port (15 R370). -/
def Obligations.FlashCommandsAnswerAndSetTheirOwnPart : Prop :=
  ((∀ (addr : Word) (len : BitVec 13) (s : State), flashWf s.st.cells = true → mgmtWorks s = true → s.st.busy = false →
     ∃ t, exec (.storeRead addr len) s = .next t ∧ t.st.lastRead.length = len.toNat ∧
       (∀ k, k < len.toNat → t.st.lastRead.getD k erased = flashByte s.st.cells (flashAddr s addr.toNat + k)) ∧
       t = { s with st := { s.st with lastRead := t.st.lastRead } }) ∧
   (∀ (addr : Word) (data : List Byte) (s : State), s.st.wel = false ∨ s.st.busy = true →
     exec (.pageProgram addr data) s = .next s ∧ exec (.blockErase addr) s = .next s) ∧
   (∀ (addr : Word) (len : BitVec 13) (bank : Byte) (s : State), s.st.busy = true →
     exec (.storeRead addr len) s = .next s ∧ exec .writeEnable s = .next s ∧ exec (.extendedAddress bank) s = .next s)) ∧
  (∀ (s : State), mgmtWorks s = true →
     (s.st.busy = false → exec .writeEnable s = .next { s with st := { s.st with wel := true } }) ∧
     (∀ bank : Byte, s.st.busy = false → ∃ t, exec (.extendedAddress bank) s = .next t ∧
       t = { s with st := { s.st with bank := bank.toNat } } ∧
       (getB s F.STORE_ADDR4 = false → ∀ a, flashAddr t a = bank.toNat * 2 ^ 24 + a % 2 ^ 24)) ∧
     (∀ busy : Bool, exec (.storeReadStatus busy) s = .next { s with st := { s.st with busy := s.st.busy && busy } }) ∧
     (s.st.busy = true →
       exec .storeBusyTimeout s = .next (transferFails (detect .stw 21 0 { s with st := { s.st with busy := false } }))) ∧
     (getF s F.STORE_ACTIVE = 0 → transferFails s = s) ∧
     (s.st.busy = false → exec .storeBusyTimeout s = .next s))

/-- The store port serves the best rank and judges its flash's size (15 R370, R373). -/
def Obligations.StorePortServesTheBestRankAndJudgesItsFlash : Prop :=
  (∀ (code : Byte) (s : State), mgmtWorks s = true → s.st.busy = false →
     ∃ u, getF u F.CAPACITY = code.toNat ∧ (u.st.small = true ↔ code.toNat < 0x1B) ∧
       fieldsKept [F.CAPACITY] s u ∧ u = { s with regs := u.regs, st := { s.st with small := u.st.small } } ∧
       (0x1B ≤ code.toNat → exec (.readId code) s = .next u) ∧
       (code.toNat < 0x1B → exec (.readId code) s = .next (detect .stw 22 0 u))) ∧
  (∀ (s : State) (r : Nat), mgmtWorks s = true → r ∈ s.st.waiting → (∀ x ∈ s.st.waiting, r ≤ x) → r < 16 →
     (getF s F.STORE_ACTIVE = 0 → ∃ t, exec .storeTransferStart s = .next t ∧ getF t F.STORE_ACTIVE = r ∧
       t.st.waiting = s.st.waiting.erase r ∧ fieldsKept [F.STORE_ACTIVE] s t ∧
       t = { s with regs := t.regs, st := { s.st with waiting := t.st.waiting } }) ∧
     (r < getF s F.STORE_ACTIVE → ∃ t, exec .storeTransferStart s = .next t ∧ getF t F.STORE_ACTIVE = r ∧
       t.st.waiting = s.st.waiting.erase r ++ [getF s F.STORE_ACTIVE] ∧ fieldsKept [F.STORE_ACTIVE] s t ∧
       t = { s with regs := t.regs, st := { s.st with waiting := t.st.waiting } }) ∧
     (getF s F.STORE_ACTIVE ≠ 0 → getF s F.STORE_ACTIVE ≤ r → exec .storeTransferStart s = .next s))

/-! ### Control converters (09) -/

/-- The slew limiter moves each bias channel towards its target (09 R244-R246, R248, R252); the model's choice: log 132. -/
def Obligations.SlewLimiterMovesTowardsTarget : Prop :=
  ∀ (s : State) (codes : List (List Int)),
    (s.cal.hkWait = none → codes = [] ∨ converting s = false →
      (∀ n, n < 24 → (chanAt s n).pend = [] ∧ (chanAt s n).fault = false ∧ (chanAt s n).search = none ∧
        getF s (F.DITHER_AMP n) = 0) →
      ∃ t, exec (.modulatorFrame codes) s = .next t ∧
        (∀ n, n < 24 → isOn s (lineDom (n / 12)) = true →
          codeC t n = codeC s n + max (-(getF s (F.BC_SLEW n) : Int)) (min (getF s (F.BC_SLEW n) : Int) (codeT s n - codeC s n)) ∧
          (chanAt t n).phase = ((chanAt s n).phase + getF s (F.PHASE_INC n)) % 2 ^ 32 ∧
          (chanAt t n).code = codeC t n) ∧
        (∀ n, n < 24 → isOn s (lineDom (n / 12)) = false → codeC t n = codeC s n ∧ chanAt t n = chanAt s n) ∧
        fieldsKept ((List.range 24).map F.BC_CODE) s t ∧ t = { s with regs := t.regs, bias := t.bias }) ∧
    (converting s = true → ∃ u, u = convertAll codes { s with bias := { s.bias with out := [] } } ∧
      exec (.modulatorFrame codes) s = .next (each allChans chanFrame (onlyIf (isOn u 4) hkApply u))) ∧
    ∀ (i : Nat) (raw : Int), -8191 ≤ hkFactors s raw → hkFactors s raw ≤ 8191 → (chainAt s i).n1 = 1 →
      convertOne i raw s = setChain s i ((chainAt s i).push (hkFactors s raw) false).1

/-- Detector blocks, the lock loop and the housekeeping chains (09 R250, R251, R253, R245, R247); the model's choice:
log 134. -/
def Obligations.DetectorBlocksAndChainsFollowTheirRules : Prop :=
  (∀ (ch : Fin 24) (i q : Int) (s : State), converting s = true → isOn s (lineDom (ch.val / 12)) = true →
     let x := chanAt s ch.val
     let len := 2 ^ getF s (F.TONE_N_LOG2 ch.val)
     let y := toneY s ch.val (x.blk.take len)
     let hit := (x.blk.take len).any (·.2.2)
     let i' := max (-32767) (min 32767 (y.1 + i))
     let q' := max (-32767) (min 32767 (y.2 + q))
     (len ≤ x.blk.length → getF s (F.BC_STATE ch.val) = 3 → hit = false → x.rail < 63 →
       ∃ t, exec (.toneBlockEnd ch i q) s = .next t ∧ getS t (F.TONE_I ch.val) = i' ∧ getS t (F.TONE_Q ch.val) = q' ∧
         getF t (F.TONE_SEQ ch.val) = (getF s (F.TONE_SEQ ch.val) + 1) % 2 ^ 16 ∧ (chanAt t ch.val).blk = x.blk.drop len ∧
         (chanAt t ch.val).p = limitP (x.p +
           sigma s ch.val * (i' - getS s (F.TONE_TARGET ch.val)) * 2 ^ (16 - getF s (F.BC_KI ch.val))) ∧
         codeT t ch.val = rdiv (chanAt t ch.val).p 65536 ∧
         fieldsKept [F.TONE_I ch.val, F.TONE_Q ch.val, F.TONE_SEQ ch.val, F.BC_TARGET ch.val] s t ∧
         t = { s with regs := t.regs, bias := t.bias }) ∧
     (len ≤ x.blk.length → getF s (F.BC_STATE ch.val) < 2 → hit = false → x.search = none →
       ∃ t, exec (.toneBlockEnd ch i q) s = .next t ∧ getS t (F.TONE_I ch.val) = i' ∧ getS t (F.TONE_Q ch.val) = q' ∧
         getF t (F.TONE_SEQ ch.val) = (getF s (F.TONE_SEQ ch.val) + 1) % 2 ^ 16 ∧
         fieldsKept [F.TONE_I ch.val, F.TONE_Q ch.val, F.TONE_SEQ ch.val] s t ∧ t = { s with regs := t.regs, bias := t.bias }) ∧
     (len ≤ x.blk.length → getF s (F.BC_STATE ch.val) = 3 → hit = true → x.ovrRun < 3 →
       ∃ t, exec (.toneBlockEnd ch i q) s = .next t ∧ (chanAt t ch.val).p = x.p ∧
         codeT t ch.val = codeT s ch.val ∧ (chanAt t ch.val).blk = x.blk.drop len) ∧
     (x.blk.length < len → exec (.toneBlockEnd ch i q) s = .next s)) ∧
  ((∀ (slot : Fin 32) (v : Word) (s : State),
     (isOn s 4 = true → slot.val ≠ 31 → getF s (F.HK_INPUT slot.val) ≠ v.toNat % 32 →
       ∃ t, exec (.hkSlotWrite slot v) s = .next t ∧ getF t (F.HK_INPUT slot.val) = v.toNat % 32 ∧
         chainAt t slot.val = Chain.blank ∧ fieldsKept [F.HK_INPUT slot.val] s t ∧
         t = { s with regs := t.regs, bias := t.bias }) ∧
     (isOn s 4 = false ∨ slot.val = 31 ∨ getF s (F.HK_INPUT slot.val) = v.toNat % 32 →
       exec (.hkSlotWrite slot v) s = .next s)) ∧
   (∀ s : State,
     (isOn s 4 = true → getB s F.HK_CAL_BUSY = false → isOn s 1 = true → getB s F.REFCLK_OK = true → getB s F.VREF_OK = true →
       ∃ t, exec .calStart s = .next t ∧ getB t F.HK_CAL_BUSY = true ∧ (∀ n, n < 24 → (chanAt t n).blk = []) ∧
         onlyFields [F.HK_CAL_BUSY] s { t with bias := s.bias, cal := s.cal }) ∧
     (getB s F.HK_CAL_BUSY = true → exec .calStart s = .next s)))

/-! ### Line transmit (03) -/

/-- TX_ENABLE and the transmit machine's first rows (03 R100, R102). -/
def Obligations.TransmitEnableFollowsItsRows : Prop :=
  ∀ (c : Fin 2) (s : State),
    (isOn s (lineDom c.val) = true →
      (getF s (F.TX_STATE c.val) = 0 → getB s F.GRAVE_LOCK = false → (c = 0 → getB s F.HOT = false) →
        ∃ t, exec (.txEnable c true) s = .next t ∧ getF t (F.TX_STATE c.val) = 1 ∧ getB t (F.TX_ENABLE c.val) = true ∧
          tfind t.tx.timer c.val = some (getF s (F.TX_ENABLE_TIMEOUT c.val)) ∧
          fieldsKept [F.TX_STATE c.val, F.TX_ENABLE c.val] s t ∧
          t = { s with regs := t.regs, tx := { s.tx with timer := t.tx.timer } }) ∧
      (getF s (F.TX_STATE c.val) = 1 →
        ∃ t, exec (.txEnable c false) s = .next t ∧ getF t (F.TX_STATE c.val) = 0 ∧ getB t (F.TX_ENABLE c.val) = false ∧
          tfind t.tx.timer c.val = none ∧ fieldsKept [F.TX_STATE c.val, F.TX_ENABLE c.val] s t ∧
          t = { s with regs := t.regs, tx := { s.tx with timer := t.tx.timer } }) ∧
      (getF s (F.TX_STATE c.val) = 2 ∨ getF s (F.TX_STATE c.val) = 3 →
        ∃ t, exec (.txEnable c false) s = .next t ∧ getF t (F.TX_STATE c.val) = 0 ∧ getB t (F.TX_ENABLE c.val) = false ∧
          (laserAt t c.val 0).on = false ∧
          (getB s (F.PORT_EN c.val) = true → (laserAt t c.val 0).sent.head? = some (laserFrame 0x04 0)) ∧
          fieldsKept [F.TX_STATE c.val, F.TX_ENABLE c.val] s t ∧
          t = { s with regs := t.regs, tx := { s.tx with timer := t.tx.timer }, lp := t.lp }) ∧
      (getF s (F.TX_STATE c.val) = 4 → getB s F.GRAVE_LOCK = false →
        ∃ t, exec (.txEnable c false) s = .next t ∧ getF t (F.TX_STATE c.val) = 0 ∧
          onlyFields [F.TX_STATE c.val, F.TX_ENABLE c.val] s t) ∧
      (getF s (F.TX_STATE c.val) = 4 → getB s F.GRAVE_LOCK = true →
        ∃ t, exec (.txEnable c false) s = .next t ∧ getF t (F.TX_STATE c.val) = 4 ∧
          onlyFields [F.TX_ENABLE c.val] s t)) ∧
    (∀ on, isOn s (lineDom c.val) = false → exec (.txEnable c on) s = .next s)

/-- The transmit machine's locks and time limit (03 R100). -/
def Obligations.TransmitLocksAndTimeLimitFollowTheirRows : Prop :=
  ∀ (c : Fin 2) (s : State), isOn s (lineDom c.val) = true →
    (getF s (F.TX_STATE c.val) = 1 → getB s (F.LASER_LOCK c.val) = true → getB s (F.TX_FG_CAL c.val) = false →
      laserAllowed s c.val 0 4 1 = true → getB s (F.PORT_EN c.val) = true →
      ∃ t, exec (.txLocksPresent c) s = .next t ∧ getF t (F.TX_STATE c.val) = 2 ∧ (laserAt t c.val 0).on = true ∧
        (laserAt t c.val 0).sent.head? = some (laserFrame 0x04 1) ∧ getB t (F.SYNTH_LOCK c.val) = true ∧
        fieldsKept [F.TX_STATE c.val, F.SYNTH_LOCK c.val] s t ∧ t = { s with regs := t.regs, lp := t.lp }) ∧
    (∀ synth : Bool, getF s (F.TX_STATE c.val) = 2 →
      ∃ t, exec (.txLockLost c synth) s = .next t ∧ getF t (F.TX_STATE c.val) = 1 ∧ (laserAt t c.val 0).on = false ∧
        t.tx.timer = s.tx.timer ∧ getB t (if synth then F.SYNTH_LOCK c.val else F.LASER_LOCK c.val) = false ∧
        fieldsKept [F.TX_STATE c.val, if synth then F.SYNTH_LOCK c.val else F.LASER_LOCK c.val] s t ∧
        t = { s with regs := t.regs, lp := t.lp }) ∧
    (∀ synth : Bool, getF s (F.TX_STATE c.val) = 3 →
      ∃ u, exec (.txLockLost c synth) s = .next (detect (.tx c) 2 0 u) ∧ getF u (F.TX_STATE c.val) = 1 ∧
        (laserAt u c.val 0).on = false ∧ tfind u.tx.timer c.val = some (getF s (F.TX_ENABLE_TIMEOUT c.val)) ∧
        fieldsKept [F.TX_STATE c.val, if synth then F.SYNTH_LOCK c.val else F.LASER_LOCK c.val] s u ∧
        u = { s with regs := u.regs, lp := u.lp, tx := { s.tx with timer := u.tx.timer } }) ∧
    ((getF s (F.TX_STATE c.val) = 1 ∨ getF s (F.TX_STATE c.val) = 2) → (tfind s.tx.timer c.val).isSome = true →
      ∃ u, exec (.txTimeout c) s = .next (detect (.tx c) 1 0 u) ∧ getF u (F.TX_STATE c.val) = 0 ∧
        getB u (F.TX_ENABLE c.val) = false ∧ tfind u.tx.timer c.val = none ∧
        (getF s (F.TX_STATE c.val) = 2 → (laserAt u c.val 0).on = false) ∧
        fieldsKept [F.TX_STATE c.val, F.TX_ENABLE c.val] s u ∧
        u = { s with regs := u.regs, lp := u.lp, tx := { s.tx with timer := u.tx.timer } })

/-- A block slot sends the next firkin's oldest block, or an IDLE block (03 R74). -/
def Obligations.BlockSlotSendsNextQueuedBlock : Prop :=
  ∀ (c : Fin 2) (sc : Fin 32) (u : Nat) (s : State), txGroup s c.val sc.val = some u →
    (isOn s 8 = true → getF s (F.SHAPE_MODE c.val sc.val) ≠ 0 →
      (tget s.tx.run (scKey c.val sc.val) TxRun.blank).count * (cwCfg s c.val sc.val (unitKey c.val u)).dataBits +
          (tget s.tx.run (scKey c.val sc.val) TxRun.blank).bits.length + 2112 ≤
        dataCws (cwCfg s c.val sc.val (unitKey c.val u))
          (runCws (cwCfg s c.val sc.val (unitKey c.val u)) (getF s (F.SHAPE_B c.val sc.val)) (runLen s (unitKey c.val u))) *
          (cwCfg s c.val sc.val (unitKey c.val u)).dataBits →
      (∀ f b q, nextFirkin s (scFirkins s (unitKey c.val u) sc.val) (tfind s.tx.served (scKey c.val sc.val)) = some f →
        tget s.tx.queue f [] = b :: q →
        ∃ t, exec (.blockSlot c sc) s = .next t ∧ tfind t.tx.sent (scKey c.val sc.val) = some b ∧
          tget t.tx.queue f [] = q ∧ (∀ f', f' ≠ f → tget t.tx.queue f' [] = tget s.tx.queue f' []) ∧
          tfind t.tx.served (scKey c.val sc.val) = some f ∧ t = { s with tx := t.tx }) ∧
      (nextFirkin s (scFirkins s (unitKey c.val u) sc.val) (tfind s.tx.served (scKey c.val sc.val)) = none →
        ∃ t, exec (.blockSlot c sc) s = .next t ∧ tfind t.tx.sent (scKey c.val sc.val) = some idleBlk ∧
          t.tx.queue = s.tx.queue ∧ t.tx.served = s.tx.served ∧ t = { s with tx := t.tx })) ∧
    (isOn s 8 = false ∨ getF s (F.SHAPE_MODE c.val sc.val) = 0 → exec (.blockSlot c sc) s = .next s)

/-- Chunks of a client's stream become DATA blocks; GAP blocks in HOLD (03 R72, R73; 06 R185-R187; 08 R232, R236). -/
def Obligations.ChunksAndGapBlocksGoOutInOrder : Prop :=
  (∀ (l : Fin 8) (ext : List HostItem) (s : State) (f : Nat),
     isOn s 8 = true → present s (16 + l.val) = true → let items := itemsIn s l.val ext
     (getF s (F.GRP_STATE l.val) = 2 → (clientFirkins s l.val)[tget s.tx.chunk l.val 0]? = some f → tget s.fec.line f 0 ≠ 0 →
       ∃ t, exec (.demapperChunk l ext) s = .next t ∧
         tget t.tx.queue f [] = tget s.tx.queue f [] ++ [⟨0, f, tget s.tx.fseq f 0,
           (tget s.tx.stream l.val [] ++ (items.filter emitted).flatMap itemWords).take 64 ++
             List.replicate (64 - (tget s.tx.stream l.val [] ++ (items.filter emitted).flatMap itemWords).length) fillWord⟩] ∧
         tget t.tx.fseq f 0 = (tget s.tx.fseq f 0 + 1) % 65536 ∧
         tget t.tx.stream l.val [] = (tget s.tx.stream l.val [] ++ (items.filter emitted).flatMap itemWords).drop 64 ∧
         tget t.tx.chunk l.val 0 = (tget s.tx.chunk l.val 0 + 1) % (clientFirkins s l.val).length ∧
         getF t (F.TX_OVERSIZE l.val) = (getF s (F.TX_OVERSIZE l.val) + (items.filter oversize).length) % 2 ^ (F.TX_OVERSIZE l.val).width ∧
         (∀ f', f' ≠ f → tget t.tx.queue f' [] = tget s.tx.queue f' []) ∧
         fieldsKept [F.TX_OVERSIZE l.val, F.POISONED 3] s t ∧
         t = { s with regs := t.regs, tx := t.tx, host := { s.host with back := t.host.back }, prot := t.prot, freeCnt := t.freeCnt }) ∧
     (getF s (F.GRP_STATE l.val) ≠ 2 → exec (.demapperChunk l ext) s = .next s)) ∧
  (∀ (l : Fin 8) (ext : List HostItem) (s : State),
     (nearLoop s l.val = true → itemsIn s l.val ext = tget s.host.back l.val []) ∧
     (nearLoop s l.val = false → itemsIn s l.val ext = ext.map (rxClient s l.val))) ∧
  (∀ (l : Fin 8) (s : State), isOn s 8 = true → present s (16 + l.val) = true →
     (inHold s l.val = true → (clientFirkins s l.val).Nodup → ∃ t, exec (.holdGapBlock l) s = .next t ∧
       (∀ f, f ∈ clientFirkins s l.val → tget s.fec.line f 0 ≠ 0 →
         tget t.tx.queue f [] = tget s.tx.queue f [] ++ [⟨1, f, tget s.tx.fseq f 0, []⟩] ∧
           tget t.tx.fseq f 0 = (tget s.tx.fseq f 0 + 1) % 65536) ∧
       (∀ f, f ∉ clientFirkins s l.val ∨ tget s.fec.line f 0 = 0 → tget t.tx.queue f [] = tget s.tx.queue f []) ∧
       fieldsKept [F.POISONED 3] s t ∧
       t = { s with regs := t.regs, tx := { s.tx with queue := t.tx.queue, fseq := t.tx.fseq }, prot := t.prot, freeCnt := t.freeCnt }) ∧
     (inHold s l.val = false → exec (.holdGapBlock l) s = .next s))

/-! ### Laser ports (10 R276-R279) -/

/-- Laser commands are checked against the limit fuses before they are sent (10 R276, R278, R277, R279). -/
def Obligations.LaserCommandsAndPortWritesAreChecked : Prop :=
  (∀ (c : Fin 2) (l : Laser) (v : BitVec 16) (s : State),
     (isOn s (lineDom c.val) = true →
       (∀ cmd, (cmd = 2 ∨ cmd = 3) → laserAllowed s c.val (Laser.num l) cmd v.toNat = true → getB s (F.PORT_EN c.val) = true →
         ∃ t, exec (if cmd = 2 then .setFine c l v else .setPower c l v) s = .next t ∧
           getF t (laserField c.val (Laser.num l) cmd) = v.toNat ∧
           (laserAt t c.val (Laser.num l)).sent.head? = some (laserFrame cmd v.toNat) ∧
           fieldsKept [laserField c.val (Laser.num l) cmd] s t ∧ t = { s with regs := t.regs, lp := t.lp }) ∧
       (laserAllowed s c.val (Laser.num l) 1 v.toNat = true → getF s (F.TX_STATE c.val) = 0 → getB s (F.PORT_EN c.val) = true →
         ∃ t, exec (.setChannel c l v) s = .next t ∧ getF t (channelF c.val (Laser.num l)) = v.toNat ∧
           (laserAt t c.val (Laser.num l)).sent.head? = some (laserFrame 1 v.toNat) ∧
           fieldsKept [channelF c.val (Laser.num l)] s t ∧ t = { s with regs := t.regs, lp := t.lp }) ∧
       (∀ cmd, (cmd = 1 ∨ cmd = 2 ∨ cmd = 3) → laserAllowed s c.val (Laser.num l) cmd v.toNat = false →
         ∃ u, exec (if cmd = 1 then .setChannel c l v else if cmd = 2 then .setFine c l v else .setPower c l v) s =
             .next (detect .lp 0 c.val u) ∧ getF u (F.REFUSED_CMD c.val) = cmd ∧ onlyFields [F.REFUSED_CMD c.val] s u)) ∧
     (isOn s (lineDom c.val) = false →
       exec (.setChannel c l v) s = .next s ∧ exec (.setFine c l v) s = .next s ∧ exec (.setPower c l v) s = .next s) ∧
     (laserAllowed s c.val (Laser.num l) 1 v.toNat = true ↔
       limitsBlank s c.val = false ∧ limitOf s c.val 0 ≤ toS 16 v.toNat ∧ toS 16 v.toNat ≤ limitOf s c.val 1)) ∧
  (∀ (c : Fin 2) (v : Word) (s : State), isOn s (lineDom c.val) = true →
     (bitsOf v.toNat 16 16 = getF s (F.TX_CHANNEL c.val) → bitsOf v.toNat 0 16 = getF s (F.TX_FINE c.val) →
       exec (.portBlockWrite c 0 v) s = .next s) ∧
     (bitsOf v.toNat 16 16 ≠ getF s (F.TX_POWER c.val) → bitsOf v.toNat 0 16 = getF s (F.LO_POWER c.val) →
       laserAllowed s c.val 0 3 (bitsOf v.toNat 16 16) = true → getB s (F.PORT_EN c.val) = true →
       ∃ t, exec (.portBlockWrite c 2 v) s = .next t ∧ getF t (F.TX_POWER c.val) = bitsOf v.toNat 16 16 ∧
         (laserAt t c.val 0).sent.head? = some (laserFrame 3 (bitsOf v.toNat 16 16)) ∧ laserAt t c.val 1 = laserAt s c.val 1 ∧
         fieldsKept [F.TX_POWER c.val] s t ∧ t = { s with regs := t.regs, lp := t.lp }) ∧
     (bitOf v.toNat 0 = getB s (F.LO_EN c.val) → bitOf v.toNat 1 = false → getB s (F.PORT_EN c.val) = true →
       ∃ t, exec (.portBlockWrite c 3 v) s = .next t ∧ getB t (F.PORT_EN c.val) = false ∧ getF t (F.TX_LSTATUS c.val) = 0 ∧
         getF t (F.LO_STATUS c.val) = 0 ∧ getB t (F.LASER_LOCK c.val) = false ∧
         fieldsKept [F.PORT_EN c.val, F.TX_LSTATUS c.val, F.LO_STATUS c.val, F.LASER_LOCK c.val] s t ∧
         t = { s with regs := t.regs, lp := t.lp }) ∧
     (getB s (F.PORT_EN c.val) = false → getB s (F.LO_EN c.val) = false →
       (∀ l cmd, l < 2 → cmd = 1 ∨ cmd = 2 ∨ cmd = 3 → laserAllowed s c.val l cmd (getF s (laserField c.val l cmd)) = true) →
       ∃ t, exec (.portEnable c) s = .next t ∧ getB t (F.PORT_EN c.val) = true ∧
         (∀ l, l < 2 → (laserAt t c.val l).on = false ∧ (laserAt t c.val l).sent.take 4 =
           [laserFrame 3 (getF s (laserField c.val l 3)), laserFrame 2 (getF s (laserField c.val l 2)),
            laserFrame 1 (getF s (laserField c.val l 1)), laserFrame 4 0]) ∧
         fieldsKept [F.PORT_EN c.val] s t ∧ t = { s with regs := t.regs, lp := t.lp }) ∧
     (getB s (F.PORT_EN c.val) = true → exec (.portEnable c) s = .next s))

/-- Laser OUTPUT commands follow the transmit machine and LO_EN (03 R100; 10 R278, R279). -/
def Obligations.LaserOutputFollowsItsOwner : Prop :=
  ∀ (c : Fin 2) (l : Laser) (s : State), isOn s (lineDom c.val) = true → getB s (F.PORT_EN c.val) = true →
    (outputDue s c.val (Laser.num l) = false → ∃ t, exec (.output c l false) s = .next t ∧ (laserAt t c.val (Laser.num l)).on = false ∧
      (laserAt t c.val (Laser.num l)).sent.head? = some (laserFrame 0x04 0) ∧ t = { s with lp := t.lp }) ∧
    (outputDue s c.val (Laser.num l) = true → exec (.output c l false) s = .next s) ∧
    (outputDue s c.val (Laser.num l) = true → laserAllowed s c.val (Laser.num l) 4 1 = true →
      ∃ t, exec (.output c l true) s = .next t ∧ (laserAt t c.val (Laser.num l)).on = true ∧
        (laserAt t c.val (Laser.num l)).sent.head? = some (laserFrame 0x04 1) ∧ t = { s with lp := t.lp }) ∧
    (outputDue s c.val (Laser.num l) = false → exec (.output c l true) s = .next s) ∧
    (limitsBlank s c.val = true ∨ c.val ∈ s.lp.stopped → laserAllowed s c.val (Laser.num l) 4 1 = false)

/-- Laser answers are judged, kept or counted as bad (10 R276, R277; 13 R337). -/
def Obligations.LaserAnswersAreJudgedAndKept : Prop :=
  (∀ (c : Fin 2) (l : Laser) (w : Word) (s : State), isOn s (lineDom c.val) = true → getB s (F.PORT_EN c.val) = true →
     (answerGood 0x10 w = true → ∃ t, exec (.readStatus c l w) s = .next t ∧
       getF t (lstatusF c.val (Laser.num l)) = answerData w % 16 ∧ (laserAt t c.val (Laser.num l)).bad = 0 ∧
       (l = .tx → getB t (F.LASER_LOCK c.val) = bitOf (answerData w) 0) ∧
       fieldsKept [lstatusF c.val (Laser.num l), F.LASER_LOCK c.val] s t ∧ t = { s with regs := t.regs, lp := t.lp }) ∧
     (answerGood 0x10 w = false → (laserAt s c.val (Laser.num l)).bad = 2 →
       ∃ u, exec (.readStatus c l w) s = .next (detect .lp 1 c.val u) ∧ (laserAt u c.val (Laser.num l)).bad = 3 ∧
         getF u (lstatusF c.val (Laser.num l)) = getF s (lstatusF c.val (Laser.num l)) / 4 * 4 % 16 ∧
         (l = .tx → getB u (F.LASER_LOCK c.val) = false) ∧
         fieldsKept [lstatusF c.val (Laser.num l), F.LASER_LOCK c.val] s u ∧ u = { s with regs := u.regs, lp := u.lp }) ∧
     (answerGood 0x10 w = false → (laserAt s c.val (Laser.num l)).bad ≠ 2 →
       ∃ t, exec (.readStatus c l w) s = .next t ∧ t = { s with lp := t.lp }) ∧
     (∀ tx lo : Word, answerGood 0x10 tx = true → answerGood 0x10 lo = true →
       ∃ t, exec (.laserStatusPoll c tx lo) s = .next t ∧ getF t (F.TX_LSTATUS c.val) = answerData tx % 16 ∧
         getF t (F.LO_STATUS c.val) = answerData lo % 16 ∧ getB t (F.LASER_LOCK c.val) = bitOf (answerData tx) 0 ∧
         fieldsKept [F.TX_LSTATUS c.val, F.LO_STATUS c.val, F.LASER_LOCK c.val] s t ∧ t = { s with regs := t.regs, lp := t.lp })) ∧
  (∀ (c : Fin 2) (l : Laser) (w : Word) (s : State), isOn s (lineDom c.val) = true → getB s (F.PORT_EN c.val) = true →
     (answerGood 0x11 w = true → ∃ t, exec (.readPower c l w) s = .next t ∧
       getF t (readPowerF c.val (Laser.num l)) = answerData w ∧ fieldsKept [readPowerF c.val (Laser.num l)] s t ∧
       t = { s with regs := t.regs, lp := t.lp }) ∧
     (answerGood 0x11 w = false → ∃ t, exec (.readPower c l w) s = .next t ∧ t = { s with lp := t.lp }) ∧
     (answerGood 0x12 w = true → ∃ t, exec (.readFreqErr c l w) s = .next t ∧
       (laserAt t c.val (Laser.num l)).freqErr = toS 16 (answerData w) ∧ t = { s with lp := t.lp }) ∧
     (∀ tx lo : Word, mgmtWorks s = false → answerGood 0x11 tx = true → answerGood 0x11 lo = true →
       ∃ t, exec (.laserPowerPoll c tx lo) s = .next t ∧ getF t (F.TX_READ_POWER c.val) = answerData tx ∧
         getF t (F.LO_READ_POWER c.val) = answerData lo ∧ fieldsKept [F.TX_READ_POWER c.val, F.LO_READ_POWER c.val] s t ∧
         t = { s with regs := t.regs, lp := t.lp }))

/-! ### Calibration (10) -/

/-- A foreground calibration request starts or is refused with its code (10 R263-R265). -/
def Obligations.ForegroundRequestStartsOrSaysWhy : Prop :=
  ∀ (c : Fin 2) (s : State), isOn s 1 = true →
    (refsOk s = true → transmitting s c.val = false → fgRunning s c.val = false → isOn s (lineDom c.val) = true →
      ∃ t, exec (.fgReq (BitVec.ofNat 2 (2 ^ c.val))) s = .next t ∧ fgRunning t c.val = true ∧
        getB t (F.TX_FG_CAL c.val) = true ∧ fieldsKept [F.TX_FG_CAL c.val] s t ∧ t = { s with regs := t.regs, cal := t.cal }) ∧
    (refsOk s = false → ∃ u, exec (.fgReq (BitVec.ofNat 2 (2 ^ c.val))) s = .next (detect .cal 1 c.val u) ∧
      getF u (fgResF c.val) = 3 ∧ onlyFields [fgResF c.val] s u) ∧
    (refsOk s = true → transmitting s c.val = true →
      ∃ u, exec (.fgReq (BitVec.ofNat 2 (2 ^ c.val))) s = .next (detect .cal 1 c.val u) ∧
        getF u (fgResF c.val) = 1 ∧ onlyFields [fgResF c.val] s u) ∧
    (refsOk s = true → transmitting s c.val = false → fgRunning s c.val = true ∨ isOn s (lineDom c.val) = false →
      ∃ u, exec (.fgReq (BitVec.ofNat 2 (2 ^ c.val))) s = .next (detect .cal 1 c.val u) ∧
        getF u (fgResF c.val) = 2 ∧ onlyFields [fgResF c.val] s u)

/-- Triggered calibration and self-calibration of the converters (09 R245; 10 R267, R270, R271). -/
def Obligations.ConverterCalibrationBeginsAndEnds : Prop :=
  (∀ (c : Instr) (s : State), isOn s 1 = true → isOn s 4 = true → refsOk s = true → s.cal.trig = false →
     getB s F.HK_CAL_BUSY = false →
     (c = .fullReq ∨ (c = .calTrigger ∧ s.stw.running = true ∧ calTriggered s = true) →
       ∃ t, exec c s = .next t ∧ getS t F.T_LAST = getS s F.TEMP ∧ getB t F.T_LAST_VALID = true ∧
         getB t F.HK_CAL_BUSY = true ∧ t.cal.trig = true ∧ t.cal.trigHk = true ∧
         fieldsKept [F.T_LAST, F.T_LAST_VALID, F.HK_CAL_BUSY] s t ∧
         t = { s with regs := t.regs, cal := t.cal, bias := t.bias }) ∧
     (s.stw.running = false ∨ calTriggered s = false → exec .calTrigger s = .next s)) ∧
  (∀ (g o : BitVec 16) (s : State), isOn s 4 = true → getB s F.HK_CAL_BUSY = true → s.cal.trigHk = false →
     ∃ v, exec (.hkCalComplete g o) s = .next (offerCalib 0 0xFF 0 (tget s.cal.temp 2 0) (detect .bias 5 0 v)) ∧
       getB v F.HK_CAL_BUSY = false ∧ getB v F.HK_CAL_VALID = true ∧ (∀ i, i < 32 → chainAt v i = Chain.blank) ∧
       (isOn s 5 = true → v.cal.hkWait = some (g.toNat, o.toNat)) ∧
       (isOn s 5 = false → getF v F.HK_GAIN = g.toNat ∧ getF v F.HK_OFFSET = o.toNat) ∧
       fieldsKept [F.HK_CAL_BUSY, F.HK_CAL_VALID, F.HK_GAIN, F.HK_OFFSET] s v ∧
       v = { s with regs := v.regs, cal := { s.cal with hkWait := v.cal.hkWait }, bias := v.bias })

/-- A foreground run ends with its coefficients in force, or with a failure (10 R266, R269, R271). -/
def Obligations.ForegroundRunEndsInResultOrFailure : Prop :=
  ∀ (c : Fin 2) (r : CalResult) (s : State),
    (fgRunning s c.val = true → s.cal.running.Nodup → s.cal.wakeRun.Nodup →
      ∃ u bytes, u = { s with regs := u.regs, cal := u.cal } ∧ fgRunning u c.val = false ∧
        getB u (F.TX_FG_CAL c.val) = false ∧ fieldsKept [fgResF c.val, F.TX_FG_CAL c.val] s u ∧
        (calInRange r = true → getF u (fgResF c.val) = 0 ∧
          (isOn s 4 = true ∧ isOn s 5 = true → tfind u.cal.waiting c.val = some r ∧ u.cal.coef = s.cal.coef) ∧
          (isOn s 4 = false ∨ isOn s 5 = false → coefAt u c.val = r) ∧
          exec (.fgRunComplete c r) s = .next (calOwed c.val (startRec (.calib c) bytes 0
            (detect .cal 0 c.val (offerCalib 1 c.val 0 (tget s.cal.temp c.val 0) u))))) ∧
        (calInRange r = false → getF u (fgResF c.val) = 5 ∧ u.cal.coef = s.cal.coef ∧ u.cal.waiting = s.cal.waiting ∧
          exec (.fgRunComplete c r) s = .next (calOwed c.val
            (detect .cal 2 c.val (offerCalib 1 c.val 5 (tget s.cal.temp c.val 0) u))))) ∧
    (fgRunning s c.val = false → exec (.fgRunComplete c r) s = .next s)

/-- Background passes, owed runs and the references (10 R264, R266, R271, R268, R263, R267). -/
def Obligations.BackgroundPassesAndReferencesFollowTheirRules : Prop :=
  (∀ (c : Fin 2) (r : CalResult) (s : State), prioRunning s c.val = false →
     (isOn s (lineDom c.val) = true → isOn s (fabDom c.val) = true → calInRange r = true →
       (isOn s 4 = true ∧ isOn s 5 = true →
         ∃ t x, exec (.bgPassComplete c r) s = .next t ∧ tfind t.cal.waiting c.val = some x ∧ x.og = r.og ∧ x.skew = r.skew ∧
           x.dac = ((tfind s.cal.waiting c.val).getD (coefAt s c.val)).dac ∧ t.cal.coef = s.cal.coef ∧
           t = { s with cal := t.cal }) ∧
       (isOn s 4 = false ∨ isOn s 5 = false →
         ∃ t, exec (.bgPassComplete c r) s = .next t ∧ (coefAt t c.val).og = r.og ∧ (coefAt t c.val).skew = r.skew ∧
           (coefAt t c.val).dac = ((tfind s.cal.waiting c.val).getD (coefAt s c.val)).dac ∧ t = { s with cal := t.cal })) ∧
     (isOn s (lineDom c.val) = true → isOn s (fabDom c.val) = true → calInRange r = false →
       exec (.bgPassComplete c r) s = .next (detect .cal 2 c.val s)) ∧
     (isOn s (lineDom c.val) = false ∨ isOn s (fabDom c.val) = false → exec (.bgPassComplete c r) s = .next s) ∧
     (c.val ∈ s.cal.wakeRun → refsOk s = true → isOn s (lineDom c.val) = true → fgRunning s c.val = false →
       ∃ t, exec (.wakeFgRunStart c) s = .next t ∧ fgRunning t c.val = true ∧ getB t (F.TX_FG_CAL c.val) = true ∧
         fieldsKept [F.TX_FG_CAL c.val] s t ∧ t = { s with regs := t.regs, cal := t.cal }) ∧
     (c.val ∉ s.cal.wakeRun ∨ refsOk s = false → exec (.wakeFgRunStart c) s = .next s)) ∧
  (∀ (refclk vref : Bool) (s : State),
     (isOn s 1 = true → (refclk = true ∧ getB s F.REFCLK_OK = true) ∨ (vref = true ∧ getB s F.VREF_OK = true) →
       getB s F.HK_CAL_BUSY = false → s.cal.running = [] → getF s F.BG_PRIO = 0 →
       ∃ u, exec (.refLost refclk vref) s = .next (detect .cal 3 (draw s 2) (drew u)) ∧
         (refclk = true → getB u F.REFCLK_OK = false) ∧ (vref = true → getB u F.VREF_OK = false) ∧
         getB u F.T_LAST_VALID = false ∧ u.cal.trig = false ∧
         fieldsKept [F.REFCLK_OK, F.VREF_OK, F.T_LAST_VALID] s u ∧
         u = { s with regs := u.regs, cal := { s.cal with trig := false, trigHk := false, owed := [] } }) ∧
     (isOn s 1 = true → ∃ t, exec .refPresent s = .next t ∧ getB t F.REFCLK_OK = true ∧ getB t F.VREF_OK = true ∧
       onlyFields [F.REFCLK_OK, F.VREF_OK] s t) ∧
     (isOn s 1 = false → exec (.refLost refclk vref) s = .next s ∧ exec .refPresent s = .next s))

/-! ### Host lanes (08) -/

/-- The lane-group machine of the host side (08 R229, R232). -/
def Obligations.LaneGroupMachineFollowsItsRows : Prop :=
  ∀ (l : Fin 8) (s : State),
    (groupAble s l.val = true →
      (getF s (F.GRP_STATE l.val) = 0 → ∃ t, exec (.groupZoneStateChange l) s = .next t ∧ getF t (F.GRP_STATE l.val) = 1 ∧
        l.val ∈ t.host.timers ∧ (∀ k ∈ grpLanes s l.val, getB t (F.ADAPT_DONE k) = false) ∧
        fieldsKept (F.GRP_STATE l.val :: (grpLanes s l.val).flatMap fun k => [F.LANE_CTLE k, F.ADAPT_DONE k]) s t ∧
        t = { s with regs := t.regs, host := t.host }) ∧
      (getF s (F.GRP_STATE l.val) = 1 ∨ getF s (F.GRP_STATE l.val) = 4 → allLocked s l.val = true →
        ∃ t, exec (.groupAligned l) s = .next t ∧ getF t (F.GRP_STATE l.val) = 2 ∧ l.val ∉ t.host.timers ∧
          t.pending = s.pending ∧ t.ldg = s.ldg ∧ t.fec = s.fec) ∧
      (getF s (F.GRP_STATE l.val) = 3 →
        (allLocked s l.val = true → ∃ t, exec (.holdConfirmation l true) s = .next t ∧ getF t (F.GRP_STATE l.val) = 2 ∧
          l.val ∉ t.host.timers ∧ tget t.tx.stream l.val [] = []) ∧
        (∃ t, exec (.holdConfirmation l false) s = .next t ∧ getF t (F.GRP_STATE l.val) = 4 ∧
          onlyFields [F.GRP_STATE l.val] s t) ∧
        ((∀ k ∈ grpLanes s l.val, getB s (F.SIG_DET k) = true) →
          ∃ t, exec (.holdFastTimeout l) s = .next t ∧ getF t (F.GRP_STATE l.val) = 4 ∧ onlyFields [F.GRP_STATE l.val] s t)) ∧
      (getF s (F.GRP_STATE l.val) = 1 ∨ getF s (F.GRP_STATE l.val) = 3 ∨ getF s (F.GRP_STATE l.val) = 4 →
        l.val ∈ s.host.timers → l.val ∉ s.host.alarmed → ∃ u, exec (.holdLong l) s = .next (detect .hpcs 2 l.val u) ∧
          l.val ∈ u.host.alarmed ∧ u = { s with host := { s.host with alarmed := u.host.alarmed } }) ∧
      (l.val ∈ s.host.alarmed → exec (.holdLong l) s = .next s)) ∧
    (groupAble s l.val = false → getF s (F.GRP_STATE l.val) ≠ 0 → ∃ t, exec (.groupZoneStateChange l) s = .next t ∧
      getF t (F.GRP_STATE l.val) = 0 ∧ l.val ∉ t.host.timers ∧ t.ldg = s.ldg ∧ t.fec = s.fec)

/-- Lane locks, frequency, RESTART, ONE_SHOT and LOOP of the host lanes (08 R231, R232, R229, R236). -/
def Obligations.LaneLocksAndControlsTakeEffect : Prop :=
  (∀ (k : Fin 8) (l : Nat) (cause : LossCause) (ppm : Int) (s : State), laneIn s k.val = some l →
     (cause ≠ .frame ∨ getF s (F.LANE_RATE k.val) = 5 →
       (getB s (F.LOCKED k.val) = true → getF s (F.GRP_STATE l) = 2 →
         ∃ u, exec (.laneLockLost k cause) s = .next (detect .hpcs 0 l (detect (.hl k) 0 0 u)) ∧ getF u (F.GRP_STATE l) = 3 ∧
           getB u (F.LOCKED k.val) = false ∧ l ∈ u.host.timers ∧
           getF u (F.HOLDS l) = min (getF s (F.HOLDS l) + 1) (2 ^ (F.HOLDS l).width - 1) ∧
           u = { s with regs := u.regs, host := u.host, freeCnt := u.freeCnt }) ∧
       (getB s (F.LOCKED k.val) = false → ∃ t, exec (.laneLockLost k cause) s = .next t ∧ getB t (F.LOCKED k.val) = false ∧
         onlyFields [F.LOCKED k.val, F.SIG_DET k.val, F.CDR_LOCK k.val, F.FRAME_LOCK k.val] s t)) ∧
     (-50 ≤ ppm → ppm ≤ 50 → ∃ t, exec (.laneLocked k ppm) s = .next t ∧ getB t (F.LOCKED k.val) = true ∧
       lockHolds t k.val = true ∧ getB t (F.FREQ_KEPT k.val) = true ∧ getF t (F.GRP_STATE l) = getF s (F.GRP_STATE l) ∧
       onlyFields [F.LOCKED k.val, F.SIG_DET k.val, F.CDR_LOCK k.val, F.FRAME_LOCK k.val, F.FREQ_KEPT k.val] s t) ∧
     ((getB s (F.LOCKED k.val) = true → lockHolds s k.val = true) → ppm < -50 ∨ 50 < ppm → getF s (F.GRP_STATE l) = 3 →
       ∃ t, exec (.signalDetect k ppm) s = .next t ∧ getB t (F.SIG_DET k.val) = true ∧
         getB t (F.LOCKED k.val) = lockHolds t k.val ∧ getB t (F.FREQ_KEPT k.val) = false ∧ getF t (F.GRP_STATE l) = 4 ∧
         onlyFields [F.LOCKED k.val, F.SIG_DET k.val, F.FREQ_KEPT k.val, F.GRP_STATE l] s t)) ∧
  (∀ (k : Fin 8) (l : Nat) (v : BitVec 2) (s : State),
     (laneIn s k.val = some l → ∃ t, exec (.restart k) s = .next t ∧ getB t (F.ADAPT_DONE k.val) = false ∧
       getF t (F.LANE_CTLE k.val) = min (getF s (F.CTLE_INIT k.val)) 24 ∧
       (∀ i, i < 17 → tget t.host.coef (128 * k.val + i) 0 = initCoef s l (128 * k.val + i) % 1024) ∧
       fieldsKept [F.LANE_CTLE k.val, F.ADAPT_DONE k.val] s t ∧ t = { s with regs := t.regs, host := { s.host with coef := t.host.coef } }) ∧
     (laneIn s k.val = some l → getF s (F.CTLE_MODE k.val) = 2 → getB s (F.ADAPT_DONE k.val) = false →
       ∃ u, exec (.adaptDone k) s = .next (detect (.hl k) 1 0 u) ∧ getB u (F.ADAPT_DONE k.val) = true ∧
         onlyFields [F.ADAPT_DONE k.val] s u) ∧
     (getB s (F.ADAPT_DONE k.val) = true → exec (.adaptDone k) s = .next s) ∧
     (isOn s (laneFab k.val) = true → present s (16 + k.val) = true → getF s (F.GRP_LOOP k.val) ≠ v.toNat →
       (getF s (F.GRP_STATE k.val) = 2 → ∃ t, exec (.loop k v) s = .next t ∧ getF t (F.GRP_LOOP k.val) = v.toNat ∧
         getF t (F.GRP_STATE k.val) = 4 ∧ k.val ∈ t.host.timers ∧
         t = { s with regs := t.regs, host := t.host, freeCnt := t.freeCnt }) ∧
       (getF s (F.GRP_STATE k.val) ≠ 2 → ∃ t, exec (.loop k v) s = .next t ∧ getF t (F.GRP_LOOP k.val) = v.toNat ∧
         fieldsKept [F.GRP_LOOP k.val] s t ∧ t = { s with regs := t.regs, host := { s.host with back := t.host.back } })) ∧
     (getF s (F.GRP_LOOP k.val) = v.toNat → exec (.loop k v) s = .next s))

/-- Frame search, pattern checker and client codewords of a lane (08 R222, R223, R231, R239). -/
def Obligations.LaneReceiversCountAndLock : Prop :=
  (∀ (k : Fin 8) (l : Nat) (bits : BitVec 448) (s : State), laneIn s k.val = some l → getF s (F.LANE_RATE k.val) = 5 →
    let x := tget s.host.inner k.val InnerSt.blank
    let bs := bitsMsb 448 bits.toNat
    let frame := ((lastBits 448 (List.replicate 448 false ++ x.bits) ++ bs).drop (448 - x.tail)).take 448
    let q := (x.quad + 1) % 4
    (getB s (F.FRAME_LOCK k.val) = true → syncKind frame ≠ syncOf q → 3 ≤ x.bad →
      ∃ u, exec (.innerFrame k bits) s = .next (lockLost k l u) ∧ getB u (F.FRAME_LOCK k.val) = false ∧
        tget u.host.inner k.val InnerSt.blank = InnerSt.blank ∧ fieldsKept [F.FRAME_LOCK k.val] s u ∧
        u = { s with regs := u.regs, host := { s.host with inner := u.host.inner } }) ∧
    (getB s (F.FRAME_LOCK k.val) = true → syncKind frame = syncOf q →
      (∀ n, (innerMsg frame).2 = some n → ∃ u, exec (.innerFrame k bits) s = .next (relock k l u) ∧
        (tget u.host.inner k.val InnerSt.blank).quad = q ∧ (tget u.host.inner k.val InnerSt.blank).bad = 0 ∧
        (tget u.host.inner k.val InnerSt.blank).msg = (if q = 0 then (innerMsg frame).1 else x.msg ++ (innerMsg frame).1) ∧
        getF u (F.INNER_CORR k.val) = (getF s (F.INNER_CORR k.val) + n) % 2 ^ (F.INNER_CORR k.val).width ∧
        fieldsKept [F.INNER_CORR k.val] s u ∧ u = { s with regs := u.regs, host := { s.host with inner := u.host.inner } }) ∧
      ((innerMsg frame).2 = none → ∃ u, exec (.innerFrame k bits) s = .next (relock k l (detect (.hl k) 2 0 u)) ∧
        getF u (F.INNER_UNCORR k.val) = (getF s (F.INNER_UNCORR k.val) + 1) % 2 ^ (F.INNER_UNCORR k.val).width)) ∧
    (getB s (F.FRAME_LOCK k.val) = false →
      (∀ e p, innerSearch (lastBits 4032 (x.bits ++ bs)) = some (e, p) → ∃ u, exec (.innerFrame k bits) s = .next (relock k l u) ∧
        getB u (F.FRAME_LOCK k.val) = true ∧ tget u.host.inner k.val InnerSt.blank = ⟨bs, e, 0, p, []⟩ ∧
        fieldsKept [F.FRAME_LOCK k.val] s u) ∧
      (innerSearch (lastBits 4032 (x.bits ++ bs)) = none → ∃ u, exec (.innerFrame k bits) s = .next (relock k l u) ∧
        tget u.host.inner k.val InnerSt.blank = ⟨lastBits 4032 (x.bits ++ bs), 0, 0, 0, []⟩ ∧
        u = { s with host := { s.host with inner := u.host.inner } }))) ∧
  (∀ (k : Fin 8) (l deg : Nat) (taps : List Nat) (x : Nat) (r : Int) (s : State), laneIn s k.val = some l →
    patPoly (getF s (F.CHK_PAT k.val)) = some (deg, taps, x) → getB s (F.CHK_EN k.val) = true →
    getB s (F.CHK_LOCK k.val) = true → (tget s.host.pat k.val PatSt.blank).win = [] →
    ∃ t, exec (.patternCheck k [r]) s = .next t ∧ getB t (F.CHK_LOCK k.val) = true ∧
      getF t (F.PAT_BITS k.val) = (getF s (F.PAT_BITS k.val) + laneWidth s k.val) % 2 ^ (F.PAT_BITS k.val).width ∧
      (tget t.host.smp k.val []).head? = some (if getB s (F.RX_INV k.val) then -r else r) ∧
      fieldsKept [F.PAT_BITS k.val, F.PAT_ERR k.val] s t ∧
      t = { s with regs := t.regs, host := { s.host with pat := t.host.pat, smp := t.host.smp, dec := t.host.dec } }) ∧
  (∀ (l : Fin 8) (w : List (BitVec 10)) (s : State), groupAble s l.val = true → 2 ≤ getF s (F.LANE_RATE l.val) →
    getF s (F.GRP_STATE l.val) ≠ 0 → let n := tget s.host.rsSeq l.val 0
    (∀ k, rsErrors (w.map (·.toNat)) = some k → ∃ t, exec (.hostRsCodeword l w) s = .next t ∧
      getF t (F.RS_CORR l.val) = (getF s (F.RS_CORR l.val) + k) % 2 ^ (F.RS_CORR l.val).width ∧ tget t.host.rsSeq l.val 0 = n + 1 ∧
      fieldsKept [F.RS_CORR l.val] s t ∧ t = { s with regs := t.regs, host := { s.host with rsSeq := t.host.rsSeq } }) ∧
    (rsErrors (w.map (·.toNat)) = none → ∃ u, exec (.hostRsCodeword l w) s = .next (detect .hpcs 1 l.val u) ∧
      getF u (F.RS_UNCORR l.val) = (getF s (F.RS_UNCORR l.val) + 1) % 2 ^ (F.RS_UNCORR l.val).width ∧
      tget u.host.rsBad l.val [] = tget s.host.rsBad l.val [] ++ [n] ∧ fieldsKept [F.RS_UNCORR l.val] s u))

/-! ### The peer table (07 R192-R202; 15 R444) -/

/-- A peer entry write is checked, and refused or taken (07 R192, R196). -/
def Obligations.PeerEntryWriteIsCheckedAndTaken : Prop :=
  ∀ (n : Fin 64) (v : Word) (s : State),
    (isOn s 1 = false → exec (.peerCtrlWrite n v) s = .next s) ∧
    (isOn s 1 = true → 2 ≤ bitsOf v.toNat 30 2 ∨ bitsOf v.toNat 16 5 < bitsOf v.toNat 8 5 →
      exec (.peerCtrlWrite n v) s = .next (detect .peer 4 n.val s)) ∧
    (isOn s 1 = true → bitsOf v.toNat 30 2 < 2 → bitsOf v.toNat 8 5 ≤ bitsOf v.toNat 16 5 →
      ∃ t, exec (.peerCtrlWrite n v) s = .next t ∧ getF t (F.PEER_KIND n.val) = bitsOf v.toNat 30 2 ∧
        getF t (F.PEER_CARRIER n.val) = bitsOf v.toNat 24 1 ∧ getF t (F.PEER_FIRST n.val) = bitsOf v.toNat 8 5 ∧
        getF t (F.PEER_LAST n.val) = bitsOf v.toNat 16 5 ∧
        getF t (F.PEER_TAG n.val) = (if bitsOf v.toNat 30 2 = 0 then 0 else getF s F.PEER_STAGE_TAG % 2 ^ 32) ∧
        ((if bitsOf v.toNat 30 2 = 0 then 0 else getF s F.PEER_STAGE_TAG) = getF s (F.PEER_TAG n.val) ∧
            bitsOf v.toNat 30 2 = getF s (F.PEER_KIND n.val) →
            unusable s 10 (2 * n.val) = false → unusable s 10 (2 * n.val + 1) = false →
          getF t (F.PEER_EVENTS n.val) = getF s (F.PEER_EVENTS n.val) ∧
            getF t (F.PEER_INTR n.val) = getF s (F.PEER_INTR n.val)) ∧
        (bitsOf v.toNat 30 2 ≠ getF s (F.PEER_KIND n.val) ∨ bitsOf v.toNat 30 2 ≠ peerKind s n.val →
          getF t (F.PEER_EVENTS n.val) = 0 ∧ getF t (F.PEER_INTR n.val) = 0) ∧
        fieldsKept [F.PEER_TAG n.val, F.PEER_KIND n.val, F.PEER_CARRIER n.val, F.PEER_FIRST n.val, F.PEER_LAST n.val,
          F.PEER_EVENTS n.val, F.PEER_INTR n.val, F.CARRIED_MASK n.val, F.FREE_COUNT, F.POISONED 10] s t ∧
        t = { s with regs := t.regs, prot := t.prot })

/-- Peer saves, record writes and snapshots in the store (05 R140, R141; 07 R200; 12 R316; 15 R371, R372, R444). -/
def Obligations.RecordWritesAndSnapshotsGoToTheStore : Prop :=
  ((∀ s : State,
     (isOn s 1 = true → getB s F.SAVE_BUSY = false → s.st.small = false →
       ∃ t, exec .peerSave s = .next t ∧ getB t F.SAVE_BUSY = true ∧
         t.st.writes = s.st.writes ++ [⟨.peer, peerBytes s, 0⟩] ∧ t.st.waiting = s.st.waiting ++ [5] ∧
         fieldsKept [F.SAVE_BUSY] s t ∧
         t = { s with regs := t.regs, st := { s.st with writes := t.st.writes, waiting := t.st.waiting } }) ∧
     (isOn s 1 = false ∨ getB s F.SAVE_BUSY = true → exec .peerSave s = .next s)) ∧
   (∀ (k : RecKind) (ok : Bool) (w : RecWrite) (s : State), k ≠ .snapshot → mgmtWorks s = true → s.st.small = false →
     (s.st.writes.find? fun x => x.kind == k) = some w →
     ∃ v, v.st.writes = s.st.writes.erase w ∧ fieldsKept [F.STORE_ACTIVE] s v ∧
       v = { s with regs := v.regs, st := { s.st with writes := v.st.writes, waiting := v.st.waiting, cells := v.st.cells } } ∧
       (ok = true → exec (.recordWriteComplete k ok) s = .next (recDone k (bufferDone k w.bytes v)) ∧
         v.st.cells = flashPut (flashErase s.st.cells (slotAddr k (nextSlot s k)) (recBlocks k)) (slotAddr k (nextSlot s k))
           (sealRec k (nextSeq s k) w.bytes)) ∧
       (ok = false → exec (.recordWriteComplete k ok) s = .next (recFailed k w.cause v) ∧
         v.st.cells = flashErase s.st.cells (slotAddr k (nextSlot s k)) 0x10000)) ∧
   (∀ (k : RecKind) (ok : Bool) (s : State), k ≠ .snapshot → (s.st.writes.find? fun x => x.kind == k) = none →
     exec (.recordWriteComplete k ok) s = .next s)) ∧
  (∀ s : State,
     (∀ c, c = Instr.snapReq ∨ (c = .snapshotPeriodic ∧ getF s F.SNAP_PERIOD ≠ 0) →
       isOn s 9 = true → getB s F.SNAP_BUSY = false → mgmtWorks s = true → s.st.small = false →
       ∃ t, exec c s = .next t ∧ getB t F.SNAP_BUSY = true ∧ t.fth.snap = some ⟨0, snapHead s, []⟩ ∧
         t.st.writes = s.st.writes ++ [⟨.snapshot, [], 0⟩] ∧ t.st.waiting = s.st.waiting ++ [6] ∧
         fieldsKept [F.SNAP_BUSY] s t) ∧
     (getB s F.SNAP_BUSY = true → exec .snapReq s = .next s ∧ exec .snapshotPeriodic s = .next s) ∧
     (∀ x : SnapSt, s.fth.snap = some x → x.next < 256 → isOn s 9 = true → mgmtWorks s = true → s.stw.dmaStop = false →
       (pagePoison s x.next = none → ∃ t y, exec .snapshotPageCopy s = .next t ∧ t.fth.snap = some y ∧ y.next = x.next + 1 ∧
         y.pages = x.pages ++ [pageBytes s x.next] ∧ (x.next < 255 → y.head = x.head) ∧
         t = { s with fth := { s.fth with snap := t.fth.snap } }) ∧
       (∀ w, pagePoison s x.next = some w → exec .snapshotPageCopy s = .next (snapDone (.sourceError (BitVec.ofNat 32 w)) s)) ∧
       exec (.snapshotDone true) s = .next s) ∧
     (∀ x : SnapSt, s.fth.snap = some x → exec (.snapshotDone false) s = .next (endRec .snapshot false s)) ∧
     (s.fth.snap = none → ∀ ok, exec .snapshotPageCopy s = .next s ∧ exec (.snapshotDone ok) s = .next s))

/-! ### Fathom (05 R131-R142) -/

/-- Triplet-table pages clear and load (05 R135, R138, R142). -/
def Obligations.FathomPagesClearAndLoad : Prop :=
  (∀ s : State,
     (isOn s 9 = true →
       ∃ t, exec .clearAll s = .next t ∧
         (∀ i, (∃ g, g < 32 ∧ i / 65536 ∈ grpPages s g) → tableEntry t i = 0) ∧
         (∀ i, (∀ g, g < 32 → i / 65536 ∉ grpPages s g) → tableEntry t i = tableEntry s i) ∧
         (∀ g, g < 32 → getF t (F.ADAPT_EPOCH g) = (getF s (F.ADAPT_EPOCH g) + 1) % 2 ^ 32) ∧
         fieldsKept (F.POISONED 0 :: (List.range 32).map F.ADAPT_EPOCH) s t ∧
         t = { s with regs := t.regs, prot := t.prot, fth := { s.fth with table := t.fth.table, acc := t.fth.acc } }) ∧
     (isOn s 9 = true → s.fth.clear ≠ [] →
       ∃ u, exec .fathomPageClear s = .next (detect .fth 3 0 u) ∧ u.fth.clear = [] ∧
         getB u F.FTH_CLEARING = s.fth.loading ∧ (∀ i, i / 65536 ∈ s.fth.clear → tableEntry u i = 0) ∧
         (∀ i, i / 65536 ∉ s.fth.clear → tableEntry u i = tableEntry s i) ∧
         fieldsKept (F.FTH_CLEARING :: F.POISONED 0 :: (List.range 32).map F.ADAPT_EPOCH) s u) ∧
     (isOn s 9 = false → exec .clearAll s = .next s) ∧
     (isOn s 9 = false ∨ s.fth.clear = [] → exec .fathomPageClear s = .next s)) ∧
  (∀ s : State,
     (isOn s 9 = true → s.fth.loading = true → newest s .snapshot = none →
       ∃ u, exec .snapshotLoadDone s = .next (fthTags (detect .fth 0 0 u)) ∧ u.fth.loading = false ∧ getF u F.START_SRC = 0 ∧
         (∀ i, i < 2 ^ 24 → tableEntry u i = 0) ∧ ∀ g, g < 32 → getF u (F.ADAPT_EPOCH g) = 0) ∧
     (∀ slot, isOn s 9 = true → s.fth.loading = true → newest s .snapshot = some slot →
       ∃ u, exec .snapshotLoadDone s = .next (fthTags u) ∧ u.fth.loading = false ∧ getF u F.START_SRC = 1 + slot) ∧
     ((∀ g, g < 32 → getF s (F.ACQ_STATE (g / 16) (g % 16)) < 4) → fthTags s = s) ∧
     (isOn s 9 = false ∨ s.fth.loading = false → exec .snapshotLoadDone s = .next s))

/-! ### Line receive (04; 05 R143-R161) -/

/-- Offset, gain, quality and equaliser steps of the receive path (04 R105, R110, R111; 05 R155-R157, R145). -/
def Obligations.ReceiveLoopsAndMeasuresFollowTheirRules : Prop :=
  ((∀ (c : Fin 2) (v : Fin 4) (sum2 : Int) (s : State), isOn s (lineDom c.val) = true → c.val ∉ s.cal.running →
     (262144 < sum2 → ∃ t, exec (.offsetUpdate c v sum2) s = .next t ∧
       getS t (F.RX_TRIM c.val v.val) = max (-128) (getS s (F.RX_TRIM c.val v.val) - 1) ∧ onlyFields [F.RX_TRIM c.val v.val] s t) ∧
     (sum2 < -262144 → ∃ t, exec (.offsetUpdate c v sum2) s = .next t ∧
       getS t (F.RX_TRIM c.val v.val) = min 127 (getS s (F.RX_TRIM c.val v.val) + 1) ∧ onlyFields [F.RX_TRIM c.val v.val] s t) ∧
     (-262144 ≤ sum2 → sum2 ≤ 262144 → exec (.offsetUpdate c v sum2) s = .next s)) ∧
   (∀ (c : Fin 2) (rms : List Nat) (s : State), isOn s (lineDom c.val) = true →
     (getF s (F.AGC_MODE c.val) = 1 → exec (.agcFastUpdate c rms) s = .next s ∧ exec (.agcSlowUpdate c rms) s = .next s) ∧
     (getF s (F.AGC_MODE c.val) = 0 → ∃ t, exec (.agcFastUpdate c rms) s = .next t ∧
       (∀ i, i < 4 → rms.getD i 0 = 0 → getF t (F.AGC_GAIN c.val i) = 0xFFFF) ∧
       (∀ i, i < 4 → 0x100 ≤ getF t (F.AGC_GAIN c.val i)) ∧
       fieldsKept ((List.range 4).map (F.AGC_GAIN c.val)) s t ∧ t = { s with regs := t.regs, freeCnt := t.freeCnt }) ∧
     (getF s (F.AGC_MODE c.val) = 2 → (∀ i, i < 4 → 0x100 ≤ getF s (F.AGC_GAIN c.val i) ∧ getF s (F.AGC_GAIN c.val i) ≤ 0xFFFF) →
       ∃ t, exec (.agcSlowUpdate c rms) s = .next t ∧
       (∀ i, i < 4 →
         (rms.getD i 0 = getF s (F.AGC_TARGET c.val) → getF t (F.AGC_GAIN c.val i) = getF s (F.AGC_GAIN c.val i)) ∧
         (rms.getD i 0 < getF s (F.AGC_TARGET c.val) → getF s (F.AGC_GAIN c.val i) ≤ getF t (F.AGC_GAIN c.val i) ∧
           getF t (F.AGC_GAIN c.val i) ≤ 0xFFFF ∧
           within001 (getF t (F.AGC_GAIN c.val i)) (getF s (F.AGC_GAIN c.val i)) = true) ∧
         (getF s (F.AGC_TARGET c.val) < rms.getD i 0 → getF t (F.AGC_GAIN c.val i) ≤ getF s (F.AGC_GAIN c.val i) ∧
           within001 (getF s (F.AGC_GAIN c.val i)) (getF t (F.AGC_GAIN c.val i)) = true)) ∧
       fieldsKept ((List.range 4).map (F.AGC_GAIN c.val)) s t ∧ t = { s with regs := t.regs, freeCnt := t.freeCnt }) ∧
     (c.val ∈ s.rx.agcRep → agcModeOf s c.val = 1 → ∃ t, exec (.agcReplacementEnd c) s = .next t ∧
       c.val ∉ t.rx.agcRep ∧ getF t (F.AGC_MODE c.val) = 1 ∧ fieldsKept [F.AGC_MODE c.val] s t) ∧
     (c.val ∉ s.rx.agcRep → exec (.agcReplacementEnd c) s = .next s))) ∧
  (∀ (c : Fin 2) (u : Fin 16) (q : QUnit) (scs : List QSample) (s : State),
     (4 ≤ getF s (F.ACQ_STATE c.val u.val) → intervalDone s c.val u.val = true → mgmtWorks s = false →
       ∃ t, exec (.qualityIntervalEnd c u q scs) s = .next t ∧ getB t (F.U_VALID c.val u.val) = true ∧
         getF t (F.U_PILOT_ONLY c.val u.val) = (if (unitAccs s c.val u.val).any (fun e => QAcc.pilotOnly e.2) then 1 else 0) ∧
         getF t (F.U_GMI c.val u.val) = unitGmi s c.val u.val scs % 2 ^ 16 ∧
         getF t (F.U_SNR c.val u.val) = ofS 16 (unitSnr s c.val u.val scs) ∧
         getF t (F.U_Q_SEQ c.val u.val) = (getF s (F.U_Q_SEQ c.val u.val) + 1) % 2 ^ (F.U_Q_SEQ c.val u.val).width ∧
         intervalDone t c.val u.val = false ∧
         fieldsKept ([F.U_SNR c.val u.val, F.U_GMI c.val u.val, F.U_PILOT_ONLY c.val u.val, F.U_VALID c.val u.val,
           F.U_Q_SEQ c.val u.val, F.FTH_GAIN (unitKey c.val u.val), F.BER_ERR c.val u.val, F.BER_BITS c.val u.val] ++
           (unitScs s c.val u.val).flatMap fun k => [F.SC_SNR c.val k, F.SC_GMI c.val k, F.SC_EVM c.val k, F.SC_PILOT_ONLY c.val k,
             F.SC_VALID c.val k, F.SC_Q_SEQ c.val k]) s t) ∧
     (getF s (F.ACQ_STATE c.val u.val) < 4 ∨ intervalDone s c.val u.val = false →
       exec (.qualityIntervalEnd c u q scs) s = .next s)) ∧
  (∀ (c : Fin 2) (sc : Fin 32) (y : RxSyms) (s : State),
     (stayUnit s c.val sc.val = none → exec (.eqTapUpdate c sc y) s = .next s) ∧
     (∀ u, stayUnit s c.val sc.val = some u → tget s.rx.taps (scKey c.val sc.val) [] ≠ [] →
       let n := getF s (F.NTAPS c.val u)
       let d := dropped s c.val u
       let z := subtractFathom s (unitKey c.val u) sc.val n y
       let tap (s : State) (i : Nat) : Int := (scTaps s c.val u sc.val).getD i 0
       ∃ t, exec (.eqTapUpdate c sc y) s = .next t ∧
         (∀ k, k ≠ scKey c.val sc.val → tget t.rx.taps k [] = tget s.rx.taps k []) ∧
         (∀ i, i / 8 < d ∨ n - d ≤ i / 8 → tap t i = tap s i) ∧
         (∀ i, d ≤ i / 8 → i / 8 < n - d → i < (scTaps s c.val u sc.val).length →
           let v := lmsStep n (lmsErrors s c.val u sc.val z) z (i / 8) (i % 8 / 2)
           tap t i = tap s i + rdiv (if i % 2 = 0 then v.re else v.im) (2 ^ getF s (F.EQ_MU c.val u))) ∧
         t = { s with rx := { s.rx with taps := t.rx.taps } }))

/-- The acquisition machine up to VERIFY (04 R121). -/
def Obligations.AcquisitionFollowsItsRows : Prop :=
  ∀ (c : Fin 2) (u : Fin 16) (s : State),
    (unitAble s c.val u.val = true → getF s (F.ACQ_STATE c.val u.val) = 0 →
      ∃ t, exec (.unitEnabled c u) s = .next t ∧ getF t (F.ACQ_STATE c.val u.val) = 1 ∧
        (unitAt t c.val u.val).trialD = cdMin s c.val u.val ∧
        fieldsKept [F.ACQ_STATE c.val u.val, F.AGC_MODE c.val] s t ∧ t = { s with regs := t.regs, rx := t.rx }) ∧
    (unitAble s c.val u.val = true → getF s (F.ACQ_STATE c.val u.val) ≠ 0 → exec (.unitEnabled c u) s = .next s) ∧
    (unitAble s c.val u.val = false → getF s (F.ACQ_STATE c.val u.val) ≤ 3 → s.ldg.unrep = 0 →
      ∃ t, exec (.unitDisabled c u) s = .next t ∧ getF t (F.ACQ_STATE c.val u.val) = 0 ∧
        fieldsKept [F.ACQ_STATE c.val u.val, F.AGC_MODE c.val] s t ∧ t = { s with regs := t.regs, rx := t.rx }) ∧
    (unitAble s c.val u.val = true → exec (.unitDisabled c u) s = .next s) ∧
    (∀ d : Int, getF s (F.ACQ_STATE c.val u.val) = 1 →
      ((unitAt s c.val u.val).trialD < cdMax s c.val u.val → ∃ t, exec (.cdScanStep c u d) s = .next t ∧
        (unitAt t c.val u.val).trialD = min ((unitAt s c.val u.val).trialD + 500) (cdMax s c.val u.val) ∧
        t = { s with rx := { s.rx with unit := t.rx.unit } }) ∧
      (cdMax s c.val u.val ≤ (unitAt s c.val u.val).trialD → -51000 ≤ d → d ≤ 51000 →
        ∃ t, exec (.cdScanStep c u d) s = .next t ∧ getF t (F.ACQ_STATE c.val u.val) = 2 ∧
          getS t (F.D_EST c.val u.val) = d ∧ (unitAt t c.val u.val).timer = some (getF s (F.SEARCH_TIMEOUT c.val)) ∧
          fieldsKept [F.ACQ_STATE c.val u.val, F.AGC_MODE c.val, F.D_EST c.val u.val] s t ∧
          t = { s with regs := t.regs, rx := t.rx })) ∧
    (∀ p : Peak, getF s (F.ACQ_STATE c.val u.val) = 2 →
      (getF s (F.ACQ_THR c.val) ≤ peakLam s c.val u.val p → ∃ t, exec (.candidateDeclared c u p) s = .next t ∧
        getF t (F.ACQ_STATE c.val u.val) = 3 ∧ (unitAt t c.val u.val).cand = some p ∧ (unitAt t c.val u.val).passes = 0 ∧
        getF t (F.FOFF c.val u.val) = ofS (F.FOFF c.val u.val).width p.foff ∧
        getF t (F.ACQ_POWER c.val u.val) = ofS (F.ACQ_POWER c.val u.val).width (peakPower s c.val u.val p) ∧
        fieldsKept [F.ACQ_STATE c.val u.val, F.AGC_MODE c.val, F.FOFF c.val u.val, F.ACQ_POWER c.val u.val] s t ∧
        t = { s with regs := t.regs, rx := t.rx }) ∧
      (peakLam s c.val u.val p < getF s (F.ACQ_THR c.val) → exec (.candidateDeclared c u p) s = .next s)) ∧
    (getF s (F.ACQ_STATE c.val u.val) = 2 ∨ getF s (F.ACQ_STATE c.val u.val) = 3 → (unitAt s c.val u.val).timer.isSome = true →
      ∃ t, exec (.searchTimeout c u) s = .next t ∧ getF t (F.ACQ_STATE c.val u.val) = 1 ∧
        (unitAt t c.val u.val).trialD = cdMin s c.val u.val ∧ (unitAt t c.val u.val).timer = none ∧
        fieldsKept [F.ACQ_STATE c.val u.val, F.AGC_MODE c.val] s t ∧ t = { s with regs := t.regs, rx := t.rx })

/-- Headers and further peaks in VERIFY and before (04 R119-R122). -/
def Obligations.HeadersVerifyTheCandidate : Prop :=
  ∀ (c : Fin 2) (u : Fin 16) (hdr : List HdrSc) (meas : HdrMeas) (s : State), (∀ z, z < 3 → unitKey c.val u.val ∉ (zoneAt s z).waits) →
    (getF s (F.ACQ_STATE c.val u.val) < 3 → exec (.rxHeader c u hdr meas) s = .next s) ∧
    (getF s (F.ACQ_STATE c.val u.val) = 3 →
      (let x := unitAt s c.val u.val
       let ps := passing x x.first (expected s c.val u.val) (unitHdrs s c.val u.val hdr)
       groupPass s c.val u.val ps = true → ps ≠ [] → x.passes < 2 →
        ∃ t, exec (.rxHeader c u hdr meas) s = .next t ∧ (unitAt t c.val u.val).passes = x.passes + 1 ∧
          (unitAt t c.val u.val).first = false ∧ (unitAt t c.val u.val).cand = x.cand ∧
          (unitAt t c.val u.val).retained = [] ∧ t = { s with rx := { s.rx with unit := t.rx.unit } }) ∧
      ((∀ h ∈ unitHdrs s c.val u.val hdr, h.crc = false) → (unitAt s c.val u.val).retained = [] →
        ∃ v, exec (.rxHeader c u hdr meas) s = .next (headerEnd c.val u.val s (unitLeave c.val u.val 2 (detect (.rx c) 2 u.val v))) ∧
          getF v (F.RX_FALSE_CNT c.val) = (getF s (F.RX_FALSE_CNT c.val) + 1) % 2 ^ (F.RX_FALSE_CNT c.val).width ∧
          onlyFields [F.RX_FALSE_CNT c.val] s v)) ∧
    (∀ p : Peak, getF s (F.ACQ_STATE c.val u.val) < 3 ∨ timingGap p.timing (unitAt s c.val u.val).timing ≤ 64 →
      exec (.secondCorrelatorPeak c u p hdr) s = .next s) ∧
    (∀ p cand : Peak, getF s (F.ACQ_STATE c.val u.val) = 3 → (unitAt s c.val u.val).cand = some cand →
      64 < timingGap p.timing (unitAt s c.val u.val).timing →
      peakPower s c.val u.val p < peakPower s c.val u.val cand + 30 →
      (peakLam s c.val u.val p < getF s (F.ACQ_THR c.val) → exec (.secondCorrelatorPeak c u p hdr) s = .next s) ∧
      (getF s (F.ACQ_THR c.val) ≤ peakLam s c.val u.val p →
        ∃ t, exec (.secondCorrelatorPeak c u p hdr) s = .next t ∧
          (unitAt t c.val u.val).retained = (unitAt s c.val u.val).retained ++ [(p, hdr)] ∧
          t = { s with rx := { s.rx with unit := t.rx.unit } }))

/-! ### Decoder and delivery (06) -/

/-- The decoder pool: entry, engines, credit, iterations, deadline (06 R167, R170-R172). -/
def Obligations.DecoderPoolFollowsItsRules : Prop :=
  ∀ s : State, isOn s 8 = true →
    (∀ (g sc : Fin 32) (y : RxSyms) (bad : List Nat), getF s (F.ACQ_STATE (g.val / 16) (g.val % 16)) = 5 →
      sc.val ∈ unitScs s (g.val / 16) (g.val % 16) →
      let key := scKey (g.val / 16) sc.val
      ∃ t w, exec (.codewordEntersPool g sc y bad) s = .next t ∧ t.fec.pool = s.fec.pool ++ [w] ∧
        w.id = s.fec.nextId ∧ w.grp = g.val ∧ w.sc = key ∧ w.phase = 0 ∧ w.iter = 0 ∧
        w.cfg = rxCwCfg s (g.val / 16) sc.val g.val ∧ w.first = s.fec.runMark.contains key ∧
        w.num = (if w.first then 0 else tget s.fec.runPos key 0) ∧ w.post = w.llr.map llrQ ∧
        (∀ i, i / 32 ∈ bad → w.llr.getD i 0 = 0) ∧
        w.erased = (s.rx.slipped.contains key || bitOf (getF s (F.RX_SC_MASK (g.val / 16))) sc.val) ∧
        t.fec.nextId = s.fec.nextId + 1 ∧ tget t.fec.runPos key 0 = w.num + 1 ∧ key ∉ t.fec.runMark ∧
        bank t g.val = min (bank s g.val + avgEff s g.val) 1024 ∧
        getF t (F.FEC_CW g.val) = (getF s (F.FEC_CW g.val) + 1) % 2 ^ (F.FEC_CW g.val).width ∧
        fieldsKept [F.FEC_BANK g.val, F.FEC_CW g.val] s t ∧
        (let fec := { s.fec with pool := t.fec.pool, nextId := t.fec.nextId, runMark := t.fec.runMark, runPos := t.fec.runPos }
         let rx := { s.rx with slipped := t.rx.slipped, dec := t.rx.dec }
         t = { s with regs := t.regs, rx := rx, freeCnt := s.freeCnt + 23040, fec := fec })) ∧
    (∀ (g sc : Fin 32) (y : RxSyms) (bad : List Nat), getF s (F.ACQ_STATE (g.val / 16) (g.val % 16)) ≠ 5 →
      exec (.codewordEntersPool g sc y bad) s = .next s) ∧
    (∀ w, (s.fec.pool.find? fun v => v.phase == 0) = some w → engines s < 48 → -32764 ≤ bank s w.grp →
      ∃ t, exec .engineAssign s = .next t ∧ bank t w.grp = bank s w.grp - 4 ∧
        t.fec.pool = s.fec.pool.map (fun v => if v.id = w.id then { w with phase := 1 } else v) ∧
        fieldsKept [F.FEC_BANK w.grp] s t ∧ t = { s with regs := t.regs, fec := { s.fec with pool := t.fec.pool } }) ∧
    ((s.fec.pool.find? fun v => v.phase == 0) = none ∨ 48 ≤ engines s → exec .engineAssign s = .next s) ∧
    (∀ (id : Nat) (up : List Bool) (w : Cw), cwAt s id = some w → w.phase = 1 →
      let r := layeredPass w.cfg.kb up w.msgs w.post
      let w' := { w with iter := w.iter + 1, msgs := r.1, post := r.2, hard := hardBits s r.2 }
      (syndromeZero w'.hard w.cfg.kb = false → w.iter < 31 → w.iter = 0 ∨ 4 ≤ bank s w.grp → -32764 ≤ bank s w.grp →
        ∃ t, exec (.decoderIteration id up) s = .next t ∧ bank t w.grp = bank s w.grp - 4 ∧
          t.fec.pool = s.fec.pool.map (fun v => if v.id = w.id then w' else v) ∧
          getF t (F.FEC_ITER w.grp) = (getF s (F.FEC_ITER w.grp) + 1) % 2 ^ (F.FEC_ITER w.grp).width ∧
          fieldsKept [F.FEC_BANK w.grp, F.FEC_ITER w.grp] s t) ∧
      (syndromeZero w'.hard w.cfg.kb = true ∨ 31 ≤ w.iter ∨ (1 ≤ w.iter ∧ bank s w.grp < 4) →
        ∃ u, exec (.decoderIteration id up) s = .next (cwDone w' u) ∧
          getF u (F.FEC_ITER w.grp) = (getF s (F.FEC_ITER w.grp) + 1) % 2 ^ (F.FEC_ITER w.grp).width ∧
          onlyFields [F.FEC_ITER w.grp] { s with freeCnt := s.freeCnt + 23040 } u)) ∧
    (∀ (id : Nat) (w : Cw), cwAt s id = some w →
      (w.phase ≠ 2 → ∃ u, exec (.codewordDeadline id) s = .next (cwDone w (detect .fec 2 w.grp u)) ∧
        getF u (F.FEC_LATE w.grp) = (getF s (F.FEC_LATE w.grp) + 1) % 2 ^ (F.FEC_LATE w.grp).width ∧
        onlyFields [F.FEC_LATE w.grp] s u) ∧
      (w.phase = 2 → exec (.codewordDeadline id) s = .next s))

/-- The outer decoder, lost marks and the mapper take entries in order (06 R173, R180, R182, R188). -/
def Obligations.DeliveryTakesEntriesInOrder : Prop :=
  ∀ s : State, isOn s 8 = true →
    (∀ (c : Fin 2) (sc : Fin 32) (w : Cw) (ws : List Cw),
      ((s.fec.pool.filter fun v => v.sc == scKey c.val sc.val).take 4) = w :: ws →
      (ws.length = 3 → w.cfg.outer = true → (∀ v ∈ w :: ws, v.phase = 2) → (∀ v ∈ ws, v.first = false) →
        exec (.outerBlockDecode c sc) s = .next (outerDecode w.grp (scKey c.val sc.val) (w :: ws)
          (setPool s (s.fec.pool.filter fun v => !(w :: ws).contains v)))) ∧
      (ws.length < 3 ∨ (∃ v ∈ w :: ws, v.phase ≠ 2) → exec (.outerBlockDecode c sc) s = .next s)) ∧
    (∀ (f : Fin 8192) (e : Nat), tfind s.fec.expect f.val = some e →
      (tailTakes s f.val e 1 = 0 → rxFree s f.val ≠ 0 →
        ∃ t, exec (.firkinWaitExpiry f) s = .next t ∧ rxq t f.val = rxq s f.val ++ [.gaps 1 (e % 65536) 1] ∧
          tfind t.fec.expect f.val = some ((e + 1) % 65536) ∧
          tget t.fec.cnt (4 * f.val + 1) 0 = (tget s.fec.cnt (4 * f.val + 1) 0 + 1) % 2 ^ 64 ∧
          fieldsKept [F.POISONED 2] s t ∧
          (let fec := { s.fec with rxq := t.fec.rxq, expect := t.fec.expect, cnt := t.fec.cnt }
           t = { s with regs := t.regs, prot := t.prot, freeCnt := t.freeCnt, fec := fec })) ∧
      (tailTakes s f.val e 1 = 1 → ∃ t, exec (.firkinWaitExpiry f) s = .next t ∧ rxq t f.val = extendTail (rxq s f.val) 1 ∧
        tfind t.fec.expect f.val = some ((e + 1) % 65536) ∧
        tget t.fec.cnt (4 * f.val + 1) 0 = (tget s.fec.cnt (4 * f.val + 1) 0 + 1) % 2 ^ 64 ∧
        t = { s with fec := { s.fec with rxq := t.fec.rxq, expect := t.fec.expect, cnt := t.fec.cnt } }) ∧
      (tailTakes s f.val e 1 = 0 → rxFree s f.val = 0 → exec (.firkinWaitExpiry f) s = .next s)) ∧
    (∀ f : Fin 8192, tfind s.fec.expect f.val = none → exec (.firkinWaitExpiry f) s = .next s) ∧
    (∀ (l : Fin 8) (f : Nat), present s (16 + l.val) = true → (clientFirkins s l.val)[(mapAt s l.val).next]? = some f →
      isOn s 10 = false → getB s (F.CLI_SYNC l.val) = false → tfind s.fec.commit f = none →
      (∀ b q, rxq s f = .block b :: q → huntStart ((mapAt s l.val).words ++ b.words) = none →
        ∃ t, exec (.mapperChunk l) s = .next t ∧ rxq t f = q ∧
          mapAt t l.val = ⟨huntKeep ((mapAt s l.val).words ++ b.words),
            ((mapAt s l.val).next + 1) % (clientFirkins s l.val).length⟩ ∧ t = { s with fec := t.fec }) ∧
      (∀ cause e k q, rxq s f = .gaps cause e k :: q →
        ∃ t, exec (.mapperChunk l) s = .next t ∧
          rxq t f = (if k ≤ 1 then q else .gaps cause ((e + 1) % 65536) (k - 1) :: q) ∧
          mapAt t l.val = ⟨[], ((mapAt s l.val).next + 1) % (clientFirkins s l.val).length⟩ ∧ t = { s with fec := t.fec }) ∧
      (rxq s f = [] → ∃ t, exec (.mapperChunk l) s = .next t ∧ rxq t f = [] ∧ mapAt t l.val = mapAt s l.val ∧
        tfind t.fec.itemsOut l.val = none ∧ t = { s with fec := { s.fec with itemsOut := t.fec.itemsOut } }))

/-! ### The Ledger and main time (13) -/

/-- Main time, its trim, checkpoints and lifetime sets (13 R321-R323, R324, R326, R338). -/
def Obligations.MainTimeAndLifetimeSetsAreKept : Prop :=
  (∀ s : State,
     (∃ u, (getF s F.TEMP_SRC ≠ 0 → exec .grainTick s = .next (histSample 144 (getS s F.TEMP) (getS s F.TEMP + 100) 20 u)) ∧
       (getF s F.TEMP_SRC = 0 → exec .grainTick s = .next u) ∧
       fieldsKept [F.SLEWING] s u ∧ u = { s with regs := u.regs, time := u.time } ∧ u.time.cycles = s.time.cycles ∧
       (getB s F.SLEWING = false → u.time.grains = (s.time.grains + if s.time.err < 0 then 2 else 1) % 2 ^ 40 ∧ u.time.err = 0 ∧
         getB u F.SLEWING = false) ∧
       (getB s F.SLEWING = true → u.time.grains = (s.time.grains + 1) % 2 ^ 40 ∧
         (5 < s.time.err → u.time.err = s.time.err - 5) ∧ (s.time.err < -5 → u.time.err = s.time.err + 5) ∧
         (-5 ≤ s.time.err → s.time.err ≤ 5 → u.time.err = 0) ∧
         (getB u F.SLEWING = true ↔ u.time.err ≠ 0))) ∧
     (∀ (g : BitVec 16) (e : Int), ∃ u, getF u F.GRAIN_LEN = g.toNat ∧ getB u F.TIME_UNTRIMMED = false ∧ u.time.err = e ∧
       (getB u F.SLEWING = true ↔ 512 < e.natAbs) ∧ fieldsKept [F.GRAIN_LEN, F.TIME_UNTRIMMED, F.SLEWING] s u ∧
       u = { s with regs := u.regs, time := { s.time with err := e } } ∧
       (512 < e.natAbs → getB s F.SLEWING = false → exec (.trimMeasurement g e) s = .next (detect .ldg 10 0 u)) ∧
       (e.natAbs ≤ 512 ∨ getB s F.SLEWING = true → exec (.trimMeasurement g e) s = .next u)) ∧
     (∃ u, getB u F.TIME_UNTRIMMED = true ∧ getB u F.SLEWING = false ∧ u.time.err = 0 ∧
       fieldsKept [F.TIME_UNTRIMMED, F.SLEWING] s u ∧ u = { s with regs := u.regs, time := { s.time with err := 0 } } ∧
       (getB s F.TIME_UNTRIMMED = true → exec .timeUntrimmed s = .next u) ∧
       (getB s F.TIME_UNTRIMMED = false → exec .timeUntrimmed s = .next (detect .ldg 9 0 u)))) ∧
  (∀ s : State,
     (∀ c cause, (c = Instr.checkpointPeriodic ∧ cause = 0 ∧ mgmtWorks s = true) ∨ (c = .ckptReq ∧ cause = 2 ∧ isOn s 1 = true) ∨
       (c = .checkpointRetry ∧ cause = 0 ∧ mgmtWorks s = true ∧ s.time.ckptRetry = true) → s.st.small = false →
       ∃ t, exec c s = .next t ∧ t.st.writes = s.st.writes ++ [⟨.checkpoint, ckptBytes s cause 0, cause⟩] ∧
         t.st.waiting = s.st.waiting ++ [4] ∧ t = { s with st := { s.st with writes := t.st.writes, waiting := t.st.waiting } }) ∧
     (mgmtWorks s = false → exec .checkpointPeriodic s = .next s ∧ exec .ckptReq s = .next s ∧ exec .checkpointRetry s = .next s) ∧
     (s.time.ckptRetry = false → exec .checkpointRetry s = .next s) ∧
     (mgmtWorks s = true → trising s.ldg.hist = true →
       ∃ u, exec .histogramIntervalEnd s = .next (detect .ldg 12 0 u) ∧
         (∀ h, (histAt u h).prev = (histAt s h).cur ∧ (histAt u h).prevX = (histAt s h).curX ∧ (histAt u h).cur = [] ∧
           (histAt u h).life = (histAt s h).life ∧ (histAt u h).lifeX = (histAt s h).lifeX) ∧
         getF u F.HIST_SEQ = (getF s F.HIST_SEQ + 1) % 2 ^ F.HIST_SEQ.width ∧ fieldsKept [F.HIST_SEQ] s u ∧
         u = { s with regs := u.regs, ldg := { s.ldg with hist := u.ldg.hist } }))

/-- The record writer, LDG_FREE and the reserve (13 R330, R331, R334-R336). -/
def Obligations.RecordWriterFillsTheRing : Prop :=
  ∀ s : State, s.ldg.unrep = 0 →
    (∀ r rest, mgmtWorks s = true → s.ldg.intake = r :: rest →
      (getB s F.LDG_CLOSED = false → ringFits s r = true → r.typ ≠ 7 → r.typ ≠ 8 → getF s F.LDG_WR + ringLen r ≤ 2 ^ 22 →
        ∃ t, exec .recordStore s = .next t ∧ t.ldg.intake = rest ∧ t.ldg.region = s.ldg.region ++ [(getF s F.LDG_WR, r)] ∧
          getF t F.LDG_WR = (getF s F.LDG_WR + ringLen r) % 2 ^ 22 ∧ fieldsKept [F.LDG_WR] s t ∧
          t = { s with regs := t.regs, ldg := { s.ldg with intake := rest, region := t.ldg.region } }) ∧
      (getB s F.LDG_CLOSED = false → ringFits s r = false →
        ∃ u, exec .recordStore s = .next (settle (detect .ldg 0 0 u)) ∧ getB u F.LDG_STOPPED = true ∧ u.ldg.intake = [] ∧
          u.ldg.region = s.ldg.region ∧ fieldsKept [F.LDG_STOPPED] s u) ∧
      (getB s F.LDG_CLOSED = true → s.ldg.reserve.length < 63 → r.typ ≠ 7 → r.typ ≠ 8 →
        ∃ t, exec .recordStore s = .next t ∧ t.ldg.reserve = s.ldg.reserve ++ [⟨r.typ, r.flags ||| 2, r.seq, 0, r.payload.take 6⟩] ∧
          t = { s with ldg := { s.ldg with intake := rest, reserve := t.ldg.reserve } })) ∧
    (mgmtWorks s = false → exec .recordStore s = .next s) ∧
    (∀ v : Word, isOn s 1 = true → s.ldg.runs = [] →
      (bitsOf v.toNat 0 22 = getF s F.LDG_WR → ∃ t, exec (.ldgFree v) s = .next t ∧ t.ldg.region = [] ∧
        getF t F.LDG_RD = bitsOf v.toNat 0 22 ∧ getB t F.LDG_STOPPED = false ∧ fieldsKept [F.LDG_RD, F.LDG_STOPPED] s t) ∧
      (bitsOf v.toNat 0 22 ≠ getF s F.LDG_WR → (∀ e ∈ s.ldg.region, e.1 ≠ bitsOf v.toNat 0 22) →
        exec (.ldgFree v) s = .next (detect .ldg 11 0 s)) ∧
      (bitsOf v.toNat 0 22 ≠ getF s F.LDG_WR → (∃ e ∈ s.ldg.region, e.1 = bitsOf v.toNat 0 22) →
        ∃ t, exec (.ldgFree v) s = .next t ∧ t.ldg.region = s.ldg.region.dropWhile (fun e => e.1 != bitsOf v.toNat 0 22) ∧
          getF t F.LDG_RD = bitsOf v.toNat 0 22 ∧ getB t F.LDG_STOPPED = false ∧ fieldsKept [F.LDG_RD, F.LDG_STOPPED] s t)) ∧
    (isOn s 1 = true → getB s F.LDG_CLOSED = false → exec .resClear s = .next { s with ldg := { s.ldg with reserve := [] } }) ∧
    (isOn s 1 = false ∨ getB s F.LDG_CLOSED = true → exec .resClear s = .next s)

/-! ### Memory protection (12) -/

/-- The parity code corrects any one wrong bit of a row (12 R306, R307). -/
def Obligations.ParityCorrectsAnyOneBit : Prop :=
  ∀ (row : List Nat) (j b : Nat), row.length = 8 → rowR row = [] → rowC row = [] → j < 8 → b < 64 →
    (parityCheck (row.set j (row.getD j 0 ^^^ 2 ^ b))).fixed = [(j, [b])] ∧
    (parityCheck (row.set j (row.getD j 0 ^^^ 2 ^ b))).bad = [] ∧ (parityCheck row).fixed = [] ∧ (parityCheck row).bad = []

/-- Scrubber visits, page restoration and the steward's own memory faults (12 R311, R314, R313, R315). -/
def Obligations.ScrubberAndStewardMeetBadWords : Prop :=
  ((∀ (m : Fin 11) (row : List Nat) (s : State),
     (isOn s (memDom m.val) = true → getF s (F.SCRUB_PERIOD m.val) ≠ 0 →
       (rowCheck m.val row).fixed = [] → (rowCheck m.val row).bad = [] →
       ((memAt s m.val).row + 1 < memRows m.val → ∃ t, exec (.scrubVisit m row) s = .next t ∧
         memAt t m.val = { memAt s m.val with row := (memAt s m.val).row + 1 } ∧
         fieldsKept [F.POISONED m.val] s t ∧ t = { s with regs := t.regs, prot := { s.prot with mem := t.prot.mem } }) ∧
       (memRows m.val ≤ (memAt s m.val).row + 1 → ∃ t, exec (.scrubVisit m row) s = .next t ∧ (memAt t m.val).row = 0 ∧
         (memAt t m.val).poison = (memAt s m.val).poison ∧
         getF t (F.PASSES m.val) = (getF s (F.PASSES m.val) + 1) % 2 ^ (F.PASSES m.val).width ∧
         fieldsKept [F.POISONED m.val, F.PASSES m.val] s t)) ∧
     (isOn s (memDom m.val) = true → getF s (F.SCRUB_PERIOD m.val) ≠ 0 → exec (.scrubLate m) s = .next (detect .mem 31 m.val s)) ∧
     (isOn s (memDom m.val) = false ∨ getF s (F.SCRUB_PERIOD m.val) = 0 →
       exec (.scrubVisit m row) s = .next s ∧ exec (.scrubLate m) s = .next s)) ∧
   (∀ (p : Byte) (s : State), isOn s 9 = true →
     ∃ u, exec (.tripletRestoreDone p false) s = .next
         (each ((memAt s 0).poison.filter fun w => w / 16384 == p.toNat) (fun s _ => detect .mem 24 0 s) u) ∧
       (∀ w ∈ (memAt s 0).poison, w / 16384 = p.toNat → ∀ i, i < 4 → tableEntry u (4 * w + i) = 0) ∧
       (memAt u 0).poison = ((memAt s 0).poison.filter fun w => w / 16384 != p.toNat) ∧
       fieldsKept [F.POISONED 0, F.STORE_ACTIVE] s u)) ∧
  ((∀ (line : BitVec 14) (s : State),
     (isOn s 1 = true → s.stw.running = true → unusable s 7 (4 * line.toNat) = true →
       ∃ u, exec (.fetchTrap line) s = .next (detect .stw 19 0 (detect .mem 25 0 u)) ∧ u.stw.running = false ∧
         u.stw.halted = some line.toNat ∧ u = { s with stw := { s.stw with running := false, halted := some line.toNat } }) ∧
     (s.stw.running = false ∨ unusable s 7 (4 * line.toNat) = false → exec (.fetchTrap line) s = .next s)) ∧
   (∀ (w : BitVec 15) (s : State),
     (isOn s 1 = true → s.stw.running = true → unusable s 8 w.toNat = true →
       ∃ t, exec (.stewardLoadTrap w) s = .next t ∧ t.stw.running = false ∧ t.stw.halted = none ∧ (memAt t 8).poison = [] ∧ (memAt t 8).bad = []) ∧
     (s.stw.running = false ∨ unusable s 8 w.toNat = false → exec (.stewardLoadTrap w) s = .next s)))

/-! ### The loader (02 R43-R56, R446, R447) -/

/-- Loads start, take words, abort and end (02 R51, R56, R447). -/
def Obligations.LoadsStartAndEnd : Prop :=
  ∀ s : State,
    (∀ src : BitVec 3, isOn s 1 = true →
      (src.toNat < 4 → getF s F.LOADER_STATE = 0 → ∃ t, exec (.loadStart src) s = .next t ∧ getF t F.LOADER_STATE = 1 ∧
        getF t F.LOAD_SRC = src.toNat ∧ t.ld = { LoaderSt.idle with src := src.toNat } ∧
        t.st.waiting = s.st.waiting ++ (if src.toNat < 2 then [3] else []) ∧ fieldsKept [F.LOADER_STATE, F.LOAD_SRC] s t ∧
        t = { s with regs := t.regs, ld := t.ld, st := { s.st with waiting := t.st.waiting } }) ∧
      (4 ≤ src.toNat ∨ getF s F.LOADER_STATE ≠ 0 → ∃ t, exec (.loadStart src) s = .next t ∧
        getF t F.LOAD_SRC = src.toNat ∧ onlyFields [F.LOAD_SRC] s t)) ∧
    (∀ v : Word, (loading s 3 = true → getF s F.LOAD_SRC = 3 → s.ld.img = none → s.ld.skip = 0 →
        exec (.cfgLoadData v) s = .next { s with ld := { s.ld with buf := s.ld.buf ++ leBytes 4 v.toNat } }) ∧
      (loading s 3 = false → exec (.cfgLoadData v) s = .next s)) ∧
    (∀ z : Byte, isOn s 1 = true → zoneOk z.toNat = true → ∃ u, getF u F.ABORT_ZONE = z.toNat ∧ onlyFields [F.ABORT_ZONE] s u ∧
      (getF s (F.ZONE_STATE z.toNat) = 1 → exec (.abort z) s = .next (detect .cfg 1 0 (endSection z.toNat 0xC u))) ∧
      (getF s (F.ZONE_STATE z.toNat) = 0 ∨ getF s (F.ZONE_STATE z.toNat) = 3 → exec (.abort z) s = .next u)) ∧
    (∀ z code, zoneOk z = true → code < 16 → getF (endSection z code s) (F.ZONE_STATE z) = 0 ∧
      getF (endSection z code s) (F.ZONE_RESULT z) = code ∧ getF (endSection z code s) (F.PEND_EPOCH z) = 0 ∧
      (zoneAt (endSection z code s) z).copied = none ∧ (zoneAt (endSection z code s) z).active = (zoneAt s z).active) ∧
    (isOn s 1 = true → 2 ≤ s.ld.src → getF s F.LOADER_STATE = 1 → s.ld.img = none → s.ld.sec = none →
      ∃ t, exec .loadTimeout s = .next t ∧ getF t F.LOADER_STATE = 0 ∧ t.ld = LoaderSt.idle ∧
        fieldsKept [F.LOADER_STATE] s t ∧ t = { s with regs := t.regs, ld := t.ld }) ∧
    ((s.ld.src < 2 ∧ getF s F.LOADER_STATE = 1) ∨ getF s F.LOADER_STATE = 0 ∨ getF s F.LOADER_STATE = 3 →
      exec .loadTimeout s = .next s) ∧
    (∀ x, isOn s 1 = true → getF s F.LOADER_STATE = 2 → s.ld.img = none → s.ld.sec = some x →
      exec .loadTimeout s = .next (cancel x.hdr.zone 0xC s)) ∧
    (isOn s 1 = true → getF s F.LOADER_STATE = 1 → s.ld.src < 2 → s.ld.sec = none → s.ld.buf = [] →
      (∀ code, storeImage s s.ld.src = .error code → ∃ t, exec .storeImageReadDone s = .next t ∧ getF t F.LOADER_STATE = 0 ∧
        t.ld = LoaderSt.idle) ∧
      (∀ off bs rest, storeImage s s.ld.src = .ok ((off, bs) :: rest) → (∀ e ∈ (off, bs) :: rest, secVerify s e.2 = 0) →
        staleSec s bs = false → ∃ t, exec .storeImageReadDone s = .next t ∧ t.ld.buf = bs ∧ t.ld.pos = off ∧ t.ld.todo = rest ∧
          getF t F.LOADER_STATE = 1 ∧ fieldsKept [F.LOADER_STATE, F.STORE_ACTIVE] s t))

/-- Headers, records, END and copies stage and arm a section (02 R46-R50, R54, R56, R446, R447). -/
def Obligations.SectionsAreStagedAndArmed : Prop :=
  ∀ s : State,
    (s.ld.skip = 0 → headReady s = true → atImage s = true →
      (imgHeadCheck s (s.ld.buf.take 128) = 0 → ∃ t i, exec .imageHeader s = .next t ∧ t.ld.img = some i ∧
        i.seq = leAt s.ld.buf 0x10 4 ∧ i.len = leAt s.ld.buf 0x14 4 ∧ i.zones = [] ∧
        (∀ z, zoneAt t z = { zoneAt s z with copied := (zoneAt s z).copied.map fun p => { p with inImage := false } }) ∧
        t = { s with ld := t.ld, zones := t.zones }) ∧
      (imgHeadCheck s (s.ld.buf.take 128) ≠ 0 → ∃ u, u = { s with ld := u.ld } ∧
        exec .imageHeader s = .next
          (let v := imageFail (leAt s.ld.buf 0x10 4) (imgHeadCheck s (s.ld.buf.take 128)) u
           { v with ld := { v.ld with buf := [], skip := 2 ^ 32 } }))) ∧
    (headReady s = false ∨ atImage s = false → s.ld.skip = 0 → exec .imageHeader s = .next s) ∧
    (s.ld.skip = 0 → headReady s = true → atImage s = false → s.ld.img = none → 2 ≤ s.ld.src →
      (secHeadCheck s false (s.ld.buf.take 128) = 0 → secZoneCheck s (secOf (s.ld.buf.take 128)) = 0 →
        ∃ t x, exec .sectionHeader s = .next t ∧ t.ld.sec = some x ∧ x.hdr = secOf (s.ld.buf.take 128) ∧ x.body = [] ∧
          x.content = ZContent.empty ∧ t.ld.buf = s.ld.buf.drop 128 ∧ getF t F.LOADER_STATE = 2 ∧
          getF t (F.ZONE_STATE x.hdr.zone) = 1 ∧ getF t (F.PEND_EPOCH x.hdr.zone) = x.hdr.epoch % 2 ^ 16 ∧
          fieldsKept [F.ZONE_STATE x.hdr.zone, F.PEND_EPOCH x.hdr.zone, F.SWITCHED_TX x.hdr.zone, F.SWITCHED_RX x.hdr.zone,
            F.LOADER_STATE] s t ∧ t = { s with regs := t.regs, ld := t.ld }) ∧
      (secHeadCheck s false (s.ld.buf.take 128) ≠ 0 →
        ∃ u, u = { s with ld := u.ld } ∧ ∃ n, exec .sectionHeader s = .next
          (let v := secRefuse (secOf (s.ld.buf.take 128)) (secHeadCheck s false (s.ld.buf.take 128)) u
           nextSection { v with ld := { v.ld with skip := n } }))) ∧
    (∀ x typ ws n, stagingSec s = some x → overruns x s.ld.buf = false → recordAt s.ld.buf = some (typ, ws, n) →
      (typ ≠ 0x7FFF → x.hdr.zone ≠ 3 →
        (∀ ct, applyRec x.hdr.zone typ ws x.content = .ok ct → x.hdr.len ≤ 128 + x.body.length + n →
          exec .recordStaged s = .next (cancel x.hdr.zone 2 (takeRecord x ct n s))) ∧
        (∀ ct, applyRec x.hdr.zone typ ws x.content = .ok ct → 128 + x.body.length + n < x.hdr.len → ∃ t, exec .recordStaged s = .next t ∧
          t.ld.sec = some { x with body := x.body ++ s.ld.buf.take n, content := ct } ∧ t.ld.buf = s.ld.buf.drop n ∧
          t.ld.pos = s.ld.pos + n ∧ t = { s with ld := t.ld }) ∧
        (∀ code, applyRec x.hdr.zone typ ws x.content = .error code →
          exec .recordStaged s = .next (cancel x.hdr.zone code s))) ∧
      (typ = 0x7FFF → ws = [] → x.hdr.zone ≠ 3 →
        (bodyBad x (x.body ++ s.ld.buf.take n) = none → contentBad s x.hdr.zone x.content = none →
          zoneOn s x.hdr.zone x.content = true →
          ∃ t p, exec .sectionEnd s = .next t ∧ getF t F.LOADER_STATE = 3 ∧ (zoneAt t x.hdr.zone).copied = some p ∧
            p.content = x.content ∧ p.epoch = x.hdr.epoch ∧ p.build = x.hdr.build ∧ fieldsKept [F.LOADER_STATE] s t) ∧
        (∀ code, bodyBad x (x.body ++ s.ld.buf.take n) = some code → exec .sectionEnd s = .next (cancel x.hdr.zone code s)))) ∧
    (∀ (z : Byte) x p, s.ld.sec = some x → (zoneAt s z.toNat).copied = some p → isOn s 1 = true → getF s F.LOADER_STATE = 3 →
      x.hdr.zone = z.toNat → zoneOk z.toNat = true →
      (commitCheck s (commitPoint s p) = 0 → 2 ≤ s.ld.src → ∃ t q, exec (.copyComplete z) s = .next t ∧
        getF t (F.ZONE_STATE z.toNat) = 2 ∧ getF t (F.COMMIT_TX z.toNat) = commitPoint s p % 2 ^ 32 ∧
        getF t F.CFG_ISSUE_SEQ = (getF s F.CFG_ISSUE_SEQ + 1) % 2 ^ 32 ∧ (zoneAt t z.toNat).copied = some q ∧
        q.issue = getF t F.CFG_ISSUE_SEQ ∧ q.tx = commitPoint s p ∧ t.ld.sec = none ∧ getF t F.LOADER_STATE = 1) ∧
      (commitCheck s (commitPoint s p) ≠ 0 →
        exec (.copyComplete z) s = .next (cancel z.toNat (commitCheck s (commitPoint s p)) s))) ∧
    (∀ z : Byte, getF s F.LOADER_STATE ≠ 3 → exec (.copyComplete z) s = .next s) ∧
    (∀ i, s.ld.img = some i → isOn s 1 = true → getF s F.LOADER_STATE = 1 → i.body.length + 128 = i.len → s.ld.buf = [] →
      s.ld.skip = 0 → ∃ t, exec .imageEnd s = .next t ∧ getF t F.LOADER_STATE = 0 ∧ t.ld = LoaderSt.idle ∧
        (i.zones.length = i.count → sha256 i.body = i.digest →
          fieldsKept [F.LOADER_STATE] s t ∧ t = { s with regs := t.regs, ld := t.ld })) ∧
    (s.ld.img = none → s.ld.skip = 0 → exec .imageEnd s = .next s)

/-! ### Commits, reverts and start-up (02 R53-R69; 12 R315; 14 R350) -/

/-- Commits give a zone its new content (02 R53, R56-R60, R65, R66; 12 R315). -/
def Obligations.CommitsGiveTheZoneItsNewContent : Prop :=
  ∀ s : State,
    (isOn s 8 = false → exec .localFurlongBoundary s = .next s) ∧
    (isOn s 8 = true → (∀ z ∈ zonesIn s 2, commitAt s z ≠ (getF s F.FURLONG_NOW + 1) % 2 ^ 32) →
      (getF s F.FURLONG_NOW + 1) % 2 ^ 32 % 256 ≠ 0 →
      ∃ v, exec .localFurlongBoundary s = .next (sendHeaders (txStart (txStart (fthBoundary (calBoundary v)) 0) 1)) ∧
        getF v F.FURLONG_NOW = (getF s F.FURLONG_NOW + 1) % 2 ^ 32 ∧
        fieldsKept [F.FURLONG_NOW, F.TX_CLIP_CNT 0, F.TX_CLIP_CNT 1] s v ∧
        (∀ c u, getF s (F.ACQ_STATE c u) < 4 → c < 2 → u < 16 → (unitAt v c u).intr = ageIntruders (unitAt s c u).intr) ∧
        v = { s with regs := v.regs, rx := { s.rx with unit := v.rx.unit } }) ∧
    (∀ z p, (zoneAt s z).copied = some p → zoneOk z = true → z ≠ 3 → ∃ u, zoneDone z s =
        detect .cfg 0 0 (offerCommit u z 0 true (getF s (F.ZONE_EPOCH z)) p.epoch p.issue p.build) ∧
      getF u (F.ZONE_EPOCH z) = p.epoch % 2 ^ 16 ∧ getF u (F.ZONE_PRESENT z) = 1 ∧ getF u (F.ZONE_BUILD z) = p.build % 2 ^ 32 ∧
      getF u (F.ZONE_STATE z) = 0 ∧ getF u (F.ZONE_RESULT z) = 0 ∧ getF u (F.SWITCHED_RX z) = 1 ∧
      (zoneAt u z).active = p.content ∧ (zoneAt u z).copied = none) ∧
    (∀ (z : Byte) p, (zoneAt s z.toNat).copied = some p →
      (rxPending s z.toNat = true → rxQualifies s z.toNat = true →
        exec (.rxCommitSwitch z) s = .next (zoneDone z.toNat (zoneRx z.toNat p.content s))) ∧
      (rxPending s z.toNat = true → exec (.commitTimeout z) s = .next (rxDone z.toNat (detect .cfg 3 0 s))) ∧
      (rxPending s z.toNat = false → exec (.rxCommitSwitch z) s = .next s ∧ exec (.commitTimeout z) s = .next s) ∧
      (16 ≤ z.toNat → z.toNat < 24 → getF s (F.ZONE_STATE z.toNat) = 3 → ∃ u, getB u (F.SWITCHED_TX z.toNat) = true ∧
        onlyFields [F.SWITCHED_TX z.toNat] s u ∧
        exec (.laneGroupCommit z) s = .next (zoneDone z.toNat (zoneRx z.toNat p.content u))) ∧
      (getF s (F.ZONE_STATE z.toNat) ≠ 3 → exec (.laneGroupCommit z) s = .next s)) ∧
    (s.stw.restart = true → isOn s 1 = true → s.stw.commit = false → exec .stewardRestartComplete s =
      .next (detect .stw 18 0 { s with stw := { s.stw with restart := false, running := true, commit := false } })) ∧
    (s.stw.restart = false → exec .stewardRestartComplete s = .next s) ∧
    (∀ z : Byte, zoneOk z.toNat = true →
      ((zoneAt s z.toNat).revert = none ∨ isOn s (zoneAt s z.toNat).waking = false → exec (.revertSwitch z) s = .next s) ∧
      ((zoneAt s z.toNat).revert = some none → isOn s (zoneAt s z.toNat).waking = true →
        ∃ u, exec (.revertSwitch z) s = .next (revertEnd z.toNat (getF s (F.ZONE_EPOCH z.toNat)) 0 (getF u (F.ZONE_BUILD z.toNat)) u) ∧
          getF u (F.ZONE_PRESENT z.toNat) = 0 ∧ getF u (F.ZONE_EPOCH z.toNat) = 0 ∧ getF u (F.ZONE_SRC z.toNat) = 0)) ∧
    (∀ line : BitVec 14, unusable s 7 (4 * line.toNat) = true → isOn s 1 = true →
      (imageFound s = false → ∃ u, exec (.reloadDone line) s = .next (detect .stw 23 0 u) ∧ fieldsKept [F.STORE_ACTIVE] s u) ∧
      (imageFound s = true → ∃ u, (∀ k, k < 4 → unusable u 7 (4 * line.toNat + k) = false) ∧
        fieldsKept [F.STORE_ACTIVE, F.POISONED 7] s u ∧
        exec (.reloadDone line) s = .next (let v := detect .mem 26 0 u
          if v.stw.halted = some line.toNat then stwRestart v else v))) ∧
    (∀ line : BitVec 14, unusable s 7 (4 * line.toNat) = false → exec (.reloadDone line) s = .next s) ∧
    (isOn s 1 = false ∨ s.pw.booted = true → exec .imageSelection s = .next s) ∧
    (∀ a b l, isOn s 1 = true → s.pw.booted = false → bootOrder s = [a, b] →
      bootCheck { s with pw := { s.pw with booted := true } } a = .ok l →
      exec .imageSelection s = .next (settle (bootApply a l { s with pw := { s.pw with booted := true } })))

/-! ### Power (14 R342-R350; 17 R407-R409) -/

/-- A wake takes its steps in order, and its time limits (14 R343-R345). -/
def Obligations.WakesTakeTheirStepsInOrder : Prop :=
  ∀ (d : Dom) (k : Nat) (fromOff retry : Bool) (s : State), d ≠ .aon →
    (domAt s d.num = .waking k fromOff retry →
      (k = 1 → hasClock d.num = true → ∃ t, exec (.wakePowerGood d) s = .next t ∧ domAt t d.num = .waking 2 fromOff retry ∧
        (∀ e, e ≠ d.num → domAt t e = domAt s e) ∧ t = { s with pw := { s.pw with dom := t.pw.dom } }) ∧
      (k = 2 → hasPll d.num = true → ∃ t, exec (.wakeClockPresent d) s = .next t ∧ domAt t d.num = .waking 3 fromOff retry ∧
        (∀ e, e ≠ d.num → domAt t e = domAt s e) ∧ t = { s with pw := { s.pw with dom := t.pw.dom } }) ∧
      (k = 3 → exec (.wakePllLock d) s = .next (wakeAfter d.num fromOff retry s)) ∧
      (k = 3 → fromOff = false → ∃ t, exec (.wakePllLock d) s = .next t ∧ domAt t d.num = .waking 5 false retry) ∧
      (k ≠ 1 → exec (.wakePowerGood d) s = .next s) ∧ (k ≠ 2 → exec (.wakeClockPresent d) s = .next s) ∧
      (k ≠ 3 → exec (.wakePllLock d) s = .next s) ∧
      (let s0 := if fromOff then s else retentionLost d.num s
       (k ≤ 3 → retry = false → ∃ u, exec (.wakeStepTimeout d) s = .next (settle (detect .aon (9 + d.num) 0 u)) ∧
        domAt u d.num = .off ∧ getF u (F.WAKE_STEP d.num) = k ∧ u.pw.retryPend = s0.pw.retryPend ++ [d.num] ∧
        fieldsKept [F.WAKE_STEP d.num] s0 u ∧ u = { s0 with regs := u.regs, pw := u.pw }) ∧
       (k ≤ 3 → retry = true → ∃ u, exec (.wakeStepTimeout d) s =
          .next (settle (offerDomain (detect .aon (d.num - 1) 0 u) d.num 5 k)) ∧
        domAt u d.num = .off ∧ getF u (F.WAKE_STEP d.num) = k ∧ fieldsKept [F.WAKE_STEP d.num] s0 u ∧
        u = { s0 with regs := u.regs, pw := { s0.pw with dom := u.pw.dom, gaveUp := s0.pw.gaveUp ++ [d.num] } })) ∧
      (3 < k → exec (.wakeStepTimeout d) s = .next s) ∧
      (k < 4 → exec (.wakeComplete d) s = .next s) ∧ (k = 5 → exec (.wakeComplete d) s = .next (domainUp d.num fromOff s))) ∧
    (d.num ∈ s.pw.retryPend → domAt s d.num = .off → graveBars s d.num = false → hotBars s d.num = false →
      ∃ t, exec (.wakeRetry d) s = .next t ∧ domAt t d.num = .waking 1 true true ∧ d.num ∉ t.pw.retryPend ∧
        t = { s with pw := t.pw }) ∧
    (d.num ∉ s.pw.retryPend → exec (.wakeRetry d) s = .next s) ∧
    (domAt s d.num = .on → exec (.wakePowerGood d) s = .next s ∧ exec (.wakeComplete d) s = .next s ∧
      exec (.wakeStepTimeout d) s = .next s)

/-- Power targets, wake sources and entries (14 R348, R349, R346; 16 R389). -/
def Obligations.TargetsAndEntriesFollowTheirRules : Prop :=
  (∀ s : State,
     (∀ (v : Word) (d : Nat), domsAll.find? (targetRefused s v.toNat) = some d →
       (∀ e ∈ domsAll, hotBars s e = false) → exec (.pwrTargetWrite v) s = .next (detect .aon 20 d s)) ∧
     (∀ v : Word, domsAll.find? (targetRefused s v.toNat) = none →
       ∃ u, exec (.pwrTargetWrite v) s = .next (settle (each (domsAll.filter fun d => bitsOf v.toNat (2 * d - 2) 2 != 3)
           (fun s d => control d (tryAgain d s)) u)) ∧
         (∀ d ∈ domsAll, bitsOf v.toNat (2 * d - 2) 2 < 3 → getF u (F.TARGET d) = bitsOf v.toNat (2 * d - 2) 2) ∧
         onlyFields (domsAll.map F.TARGET) s u) ∧
     (∀ d, wakeSet s = [d] → domAt s d = .off → getF s (F.TARGET d) ≠ 2 → graveBars s d = false → hotBars s d = false →
       (d = 9 → isOn s 8 = true) → d ∉ s.pw.retryPend →
       (∃ u, exec .addressMatchWake s = .next (settle (detect .aon 22 0 u)) ∧ getF u (F.TARGET d) = 2 ∧
         domAt u d = .waking 1 true false ∧ fieldsKept [F.TARGET d] s u ∧
         d ∉ u.pw.gaveUp ∧
         u = { s with regs := u.regs, pw := { s.pw with dom := u.pw.dom, gaveUp := u.pw.gaveUp } }) ∧
       (∀ low : Bool, ∃ u, exec (.wakePin low) s = .next (settle (detect .aon 23 0 u)) ∧ getF u (F.TARGET d) = 2 ∧
         getB u F.WAKE_N_LOW = low ∧ domAt u d = .waking 1 true false ∧ fieldsKept [F.TARGET d, F.WAKE_N_LOW] s u)) ∧
     (wakeSet s = [] → s.ldg.unrep = 0 → exec .addressMatchWake s = .next s)) ∧
  (∀ (d : Dom) (s : State), d ≠ .aon →
     (domAt s d.num = .entering 1 .retention → ∃ t, exec (.domainEntry d) s = .next t ∧ domAt t d.num = .entering 4 .retention) ∧
     (domAt s d.num = .entering 1 .orderly → ∃ v, exec (.domainEntry d) s = .next (settle (saves d.num v)) ∧
       domAt v d.num = .entering 2 .orderly) ∧
     (domAt s d.num = .on ∨ domAt s d.num = .off → exec (.domainEntry d) s = .next s ∧ exec (.entrySavesDone d) s = .next s ∧
       exec (.saveTimeout d) s = .next s ∧ exec (.entryIsolateAndSwitch d) s = .next s) ∧
     (∀ k : EntryKind, domAt s d.num = .entering 2 k →
       ((saveKinds d.num).any (recBusy s) = false → ∃ t, exec (.entrySavesDone d) s = .next t ∧
         domAt t d.num = .entering (if bitOf (getF s F.BIST_EN) (d.num - 1) then 3 else 4) .orderly ∧
         (∀ e, e ≠ d.num → domAt t e = domAt s e) ∧ t = { s with pw := { s.pw with dom := t.pw.dom } }) ∧
       ((saveKinds d.num).any (recBusy s) = true → exec (.entrySavesDone d) s = .next s) ∧
       ∃ t n, exec (.saveTimeout d) s = .next t ∧ domAt t d.num = .entering n .orderly ∧ (n = 3 ∨ n = 4)) ∧
     (∀ k : EntryKind, domAt s d.num = .entering 4 k → ∃ v, exec (.entryIsolateAndSwitch d) s = .next (control d.num v) ∧
       domAt v d.num = (if k = .retention then .retention else .off)))

/-- Supply loss, power-on reset and the straps (14 R350; 17 R408, R409). -/
def Obligations.SuppliesAndResetLeaveWhatTheyMust : Prop :=
  ∀ s : State,
    (∃ t, exec (.supplyLoss .vaon) s = .next t ∧ (∀ d, d ≠ 0 → domAt t d = .off) ∧ t.st.cells = s.st.cells ∧
      t.sec.fuses = s.sec.fuses ∧ t.ldg = State.reset.ldg ∧ t.time = State.reset.time ∧ t.zones = [] ∧
      ∀ f : Fld, f.key ≠ F.WAKE_N_LOW.key → getF t f = f.rst) ∧
    (∀ a1 a0 : Bool, ∃ u, exec (.aonPowerOnReset a1 a0) s = .next (fuseCheck s.sec.fuses u) ∧
      u.mp.addr = 0x58 + (if a1 then 2 else 0) + (if a0 then 1 else 0) ∧ u.st.cells = s.st.cells ∧ u.sec.fuses = s.sec.fuses ∧
      u.sec.shadow = s.sec.fuses ∧ u.pw = State.reset.pw ∧ u.ldg = State.reset.ldg ∧ u.zones = [] ∧
      ∀ f : Fld, f.key ≠ F.WAKE_N_LOW.key → getF u f = f.rst) ∧
    (∀ x : Supply, x ≠ .vaon → (∀ d ∈ supplyDoms x, domAt s d = .off ∨ domAt s d = .retention) →
      exec (.supplyLoss x) s = .next s)

/-! ### Core voltage, temperature and throttle (14 R351-R363) -/

/-- The voltage loop follows the headroom (14 R351-R353; 17 R422). -/
def Obligations.VoltageLoopFollowsTheHeadroom : Prop :=
  ∀ s : State,
    (stwRuns s = true → getB s F.AVS_EN = true → getB s F.AVS_FAILED = false → getB s F.HR_VALID = true →
      (getF s F.HEADROOM < getF s F.HR_RAISE → getF s F.TH_REQ = 0 → getF s F.VCORE_REQ < getF s F.VMAX → s.avs.request = none →
        ∃ t v, exec .avsRequest s = .next t ∧ v = min (getF s F.VCORE_REQ + getF s F.AVS_STEP) (getF s F.VMAX) ∧
          t.avs.request = some v ∧ t.avs.stage = 0 ∧ t.avs.low = 0 ∧ getF t F.VCORE_REQ = v % 2 ^ 16 ∧
          fieldsKept [F.VCORE_REQ] s t ∧ t = { s with regs := t.regs, avs := t.avs }) ∧
      (getF s F.HEADROOM < getF s F.HR_RAISE → getF s F.TH_REQ ≠ 0 →
        exec .avsRequest s = .next { s with avs := { s.avs with low := 0 } }) ∧
      (getF s F.HEADROOM < getF s F.HR_RAISE → getF s F.TH_REQ = 0 → getF s F.VMAX ≤ getF s F.VCORE_REQ → s.avs.ceiling = false →
        exec .avsRequest s = .next (detect .aon 25 0 { s with avs := { s.avs with low := 0, ceiling := true } })) ∧
      (getF s F.HR_RAISE ≤ getF s F.HEADROOM → getF s F.HEADROOM < getF s F.HR_LOWER →
        exec .avsRequest s = .next { s with avs := { s.avs with low := 0, ceiling := false } }) ∧
      (getF s F.HR_RAISE ≤ getF s F.HEADROOM → getF s F.HR_LOWER ≤ getF s F.HEADROOM → s.avs.low < 15 →
        exec .avsRequest s = .next { s with avs := { s.avs with low := s.avs.low + 1, ceiling := false } }) ∧
      (getF s F.HR_RAISE ≤ getF s F.HEADROOM → getF s F.HR_LOWER ≤ getF s F.HEADROOM → 15 ≤ s.avs.low → s.avs.request = none →
        getF s F.VMIN < getF s F.VCORE_REQ → 0 < getF s F.AVS_STEP →
        ∃ t v, exec .avsRequest s = .next t ∧ v = max (getF s F.VCORE_REQ - getF s F.AVS_STEP) (getF s F.VMIN) ∧
          t.avs.request = some v ∧ t.avs.low = 0 ∧ getF t F.VCORE_REQ = v % 2 ^ 16 ∧ fieldsKept [F.VCORE_REQ] s t)) ∧
    (stwRuns s = false ∨ getB s F.AVS_EN = false ∨ getB s F.AVS_FAILED = true ∨ getB s F.HR_VALID = false →
      exec .avsRequest s = .next s) ∧
    (∀ v (w : BitVec 16), isOn s 1 = true → s.avs.request = some v →
      (s.avs.stage = 0 → ∃ t, exec (.voutCommand true) s = .next t ∧ t.avs.stage = 1 ∧ t.avs.vout = voutWord s v ∧
        t.avs.request = some v ∧ t = { s with avs := t.avs }) ∧
      (s.avs.stage = 1 → statusBad w.toNat = false → ∃ t, exec (.statusWord true w) s = .next t ∧ t.avs.stage = 2 ∧
        getF t F.AVS_STATUS_WORD = w.toNat ∧ fieldsKept [F.AVS_STATUS_WORD] s t ∧ t = { s with regs := t.regs, avs := t.avs }) ∧
      (s.avs.stage = 2 → s.avs.first = false → v ≤ voutMv s w.toNat + 10 → voutMv s w.toNat ≤ v + 10 →
        ∃ u, exec (.readVout true w) s = .next (detect .aon 26 0 u) ∧ u.avs.request = none ∧
          getF u F.VCORE_READ = voutMv s w.toNat ∧ fieldsKept [F.VCORE_READ] s u) ∧
      (∀ c, c = Instr.avsRequestTimeout ∨ c = .avsStretchTimeout ∨ c = .readVout false w ∨
          (c = .voutCommand false ∧ s.avs.stage = 0) ∨ (c = .statusWord false w ∧ s.avs.stage = 1) ∨
          (c = .statusWord true w ∧ s.avs.stage = 1 ∧ statusBad w.toNat = true) →
        ∃ u, exec c s = .next (detect .aon 24 0 u) ∧ getB u F.AVS_FAILED = true ∧ u.avs.request = none ∧
          fieldsKept [F.AVS_FAILED, F.AVS_STATUS_WORD] s u ∧ u = { s with regs := u.regs, avs := u.avs })) ∧
    (s.avs.request = none → ∀ (ack : Bool) (w : BitVec 16), exec (.voutCommand ack) s = .next s ∧
      exec (.statusWord ack w) s = .next s ∧ exec .avsRequestTimeout s = .next s ∧ exec .avsStretchTimeout s = .next s) ∧
    (∀ en : Bool, ∃ t, exec (.avsEnWrite en) s = .next t ∧ getB t F.AVS_EN = en ∧
      (en = false → getB t F.AVS_FAILED = false) ∧ (en = true → getB t F.AVS_FAILED = getB s F.AVS_FAILED) ∧
      onlyFields [F.AVS_EN, F.AVS_FAILED] s t)

/-- Thresholds, the throttle's highest request and the thermal path (14 R354, R355, R359, R360, R363). -/
def Obligations.ThrottleTakesTheHighestRequest : Prop :=
  ∀ s : State,
    (∀ v : Word, let warn := clampN 600 1250 (bitsOf v.toNat 16 16); let thr := clampN 600 1250 (bitsOf v.toNat 0 16)
      (warn ≤ thr → thr < getF s F.SHUTDOWN → ∃ t, exec (.thermThresholdWrite false v) s = .next t ∧ getF t F.WARN = warn ∧
        getF t F.THROTTLE = thr ∧ (getF s F.SHUTDOWN < 2 ^ 16 → getF s F.HYST < 2 ^ 16 → onlyFields [F.WARN, F.THROTTLE] s t)) ∧
      (thr < warn ∨ getF s F.SHUTDOWN ≤ thr → exec (.thermThresholdWrite false v) s = .next (detect .therm 7 0 s))) ∧
    (∀ v : Word, let shut := clampN 1000 1250 (bitsOf v.toNat 16 16); let hyst := clampN 5 100 (bitsOf v.toNat 0 16)
      (getF s F.WARN ≤ getF s F.THROTTLE → getF s F.THROTTLE < shut → ∃ t, exec (.thermThresholdWrite true v) s = .next t ∧
        getF t F.SHUTDOWN = shut ∧ getF t F.HYST = hyst) ∧
      (shut ≤ getF s F.THROTTLE → exec (.thermThresholdWrite true v) s = .next (detect .therm 7 0 s))) ∧
    (stepWanted s = getF s F.THR_STEP → throttle s = s) ∧
    (stepWanted s ≠ getF s F.THR_STEP → stepWanted s ≤ 8 → ∃ u w, throttle s =
        settle (onlyIf (stepWanted s == 8) (detect .therm 2 0) (offer u 5 0 [w, getF s F.HEADROOM])) ∧
      getF u F.THR_STEP = stepWanted s ∧ getF u F.THR_F = min (stepWanted s) 4 ∧ getF u F.THR_V = levelV (stepWanted s) ∧
      getF u F.THR_E = levelE (stepWanted s) ∧ onlyFields [F.THR_STEP, F.THR_F, F.THR_V, F.THR_E] s u) ∧
    (s.therm.rising = true → s.therm.stale = false →
      ∃ u, getF u F.TH_REQ = min (getF s F.TH_REQ + 1) 8 ∧ onlyFields [F.TH_REQ] s u ∧
        (0 < getF s F.TH_REQ → exec .thermalThrottleRise s = .next (throttle u)) ∧
        (getF s F.TH_REQ = 0 → exec .thermalThrottleRise s = .next (throttle (detect .therm 1 0 u)))) ∧
    (s.therm.rising = false ∨ s.therm.stale = true → exec .thermalThrottleRise s = .next s) ∧
    (getS s F.TEMP < (getF s F.THROTTLE : Int) - getF s F.HYST → s.therm.stale = false → getF s F.TH_REQ ≤ 8 →
      ∃ u, exec .thermalThrottleFall s = .next (throttle u) ∧ getF u F.TH_REQ = getF s F.TH_REQ - 1 ∧ onlyFields [F.TH_REQ] s u) ∧
    (s.therm.stale = true ∨ (getF s F.THROTTLE : Int) - getF s F.HYST ≤ getS s F.TEMP → exec .thermalThrottleFall s = .next s) ∧
    (getF s F.TEMP_SRC = 0 → s.therm.stale = false → isOn s 8 = true →
      ∃ u, exec .hostTempStale s = .next (throttle (detect .therm 6 0 u)) ∧ getF u F.TH_REQ = 8 ∧ u.therm.stale = true ∧
        fieldsKept [F.TH_REQ] s u) ∧
    (getF s F.TEMP_SRC ≠ 0 ∨ s.therm.stale = true → exec .hostTempStale s = .next s) ∧
    (getF s F.SHUT_COUNT ≤ 3 → ∃ t, exec .shutdownCountExpiry s = .next t ∧ getF t F.SHUT_COUNT = getF s F.SHUT_COUNT - 1 ∧
      onlyFields [F.SHUT_COUNT] s t)

/-- TEMP takes its best source (14 R356-R362). -/
def Obligations.TemperatureTakesItsBestSource : Prop :=
  ∀ s : State,
    (∀ code : Int, isOn s 4 = true → getB s F.HK_CAL_BUSY = false →
      let t := toS 16 (ofS 16 (Config.tempOfCode code))
      (getB s F.SENSOR_BROKEN = true → ∃ u, exec (.tempReading code) s = .next u ∧ getS u F.SENSOR = t ∧ onlyFields [F.SENSOR] s u) ∧
      (getB s F.SENSOR_BROKEN = false → -8000 ≤ code → code ≤ 8000 → -400 ≤ t → t ≤ 1500 →
        ∃ u, exec (.tempReading code) s = .next (newTemp t 1 u) ∧ getS u F.SENSOR = t ∧ u.therm.badRun = 0 ∧ u.therm.fresh = true ∧
          fieldsKept [F.SENSOR] s u ∧ u = { s with regs := u.regs, therm := u.therm }) ∧
      (getB s F.SENSOR_BROKEN = false → 8000 < code ∨ code < -8000 → s.therm.badRun = 3 →
        ∃ u, exec (.tempReading code) s = .next (tempFall (detect .therm 5 0 u)) ∧ getB u F.SENSOR_BROKEN = true ∧
          fieldsKept [F.SENSOR, F.SENSOR_BROKEN] s u)) ∧
    (∀ code : Int, isOn s 4 = false ∨ getB s F.HK_CAL_BUSY = true → exec (.tempReading code) s = .next s) ∧
    (∀ v : Word, ∃ u, getF u F.HOST_TEMP = v.toNat % 2 ^ 16 ∧ getB u F.HOST_STALE = false ∧ getF u F.HOST_AGE = 0 ∧
      onlyFields [F.HOST_TEMP, F.HOST_AGE, F.HOST_STALE] s u ∧
      (getB s F.SENSOR_BROKEN = false → s.therm.fresh = true → exec (.hostTempWrite v) s = .next u) ∧
      (getB s F.SENSOR_BROKEN = true ∨ s.therm.fresh = false →
        exec (.hostTempWrite v) s = .next (newTemp (getS u F.HOST_TEMP) 2 u))) ∧
    (getB s F.HOST_STALE = true → exec .hostStale s = .next s) ∧
    (getB s F.HOST_STALE = false → getB s F.SENSOR_BROKEN = false → s.therm.fresh = true → getF s F.TEMP_SRC = 1 →
      ∃ t, exec .hostStale s = .next t ∧ getB t F.HOST_STALE = true ∧ onlyFields [F.HOST_STALE] s t) ∧
    (getB s F.HOST_STALE = false → getF s F.TEMP_SRC = 1 → exec .sensorReadingOld s = .next
      (newTemp (getS s F.HOST_TEMP) 2 { s with therm := { s.therm with fresh := false } })) ∧
    (getB s F.HOST_STALE = true → getF s F.TEMP_SRC = 1 → ∃ t, exec .sensorReadingOld s = .next t ∧ getF t F.TEMP_SRC = 0 ∧
      getS t F.TEMP = getS s F.TEMP ∧ t.therm.fresh = false ∧ fieldsKept [F.TEMP_SRC] s t) ∧
    (∀ (t : Int) (src : Nat), -400 ≤ t → t ≤ 1500 → src ≤ 2 → t < (getF s F.WARN : Int) - getF s F.HYST → t < getF s F.THROTTLE →
      t < (getF s F.SHUTDOWN : Int) - getF s F.HYST →
      getS (newTemp t src s) F.TEMP = t ∧ getF (newTemp t src s) F.TEMP_SRC = src ∧ getB (newTemp t src s) F.HOT = false ∧
        (newTemp t src s).therm.warned = false ∧ (newTemp t src s).therm.rising = false ∧
        fieldsKept [F.TEMP, F.TEMP_SRC, F.HOT] s (newTemp t src s))

/-! ### The fabric (01 R21-R36) -/

/-- Bushel windows, headroom requests, thresholds and slips (01 R23-R33); the model's choice: log 22. -/
def Obligations.BushelsReportHeadroomAndSlips : Prop :=
  (∀ (n : Fin 12) (count slack : Nat) (s : State),
    (bushelOn s n.val = false → exec (.headroomWindowEnd n count slack) s = .next s) ∧
    (bushelOn s n.val = true → mgmtWorks s = false → (bushelAt s n.val).win = 0 → getF s F.WIN_LOG2 ≤ 26 →
      ∃ u, exec (.headroomWindowEnd n count slack) s = .next (if isOn s 1 then headroomPath (headroomReport u) else u) ∧
        getF u (F.BUSHEL_SAT n.val) = min count (2 ^ getF s F.WIN_LOG2) ∧ getF u (F.SLACK_MIN n.val) = min slack 256 ∧
        (bushelAt u n.val).done = true ∧ (slack = 0 → (bushelAt u n.val).owed = (bushelAt s n.val).owed) ∧
        (slack ≠ 0 → (bushelAt u n.val).owed = 0) ∧
        (bushelAt u n.val).h = min count (2 ^ getF s F.WIN_LOG2) * 2 ^ (26 - getF s F.WIN_LOG2) ∧
        fieldsKept [F.BUSHEL_SAT n.val, F.SLACK_MIN n.val] s u ∧
        u = { s with regs := u.regs, fab := u.fab, freeCnt := s.freeCnt + 1 })) ∧
  (∀ s : State,
    (getF s F.HEADROOM < getF s F.HR_THROTTLE → 1 ≤ getF s F.HR_REQ → getF s F.HR_REQ < 7 →
      ∃ u, headroomPath s = throttle u ∧ getF u F.HR_REQ = getF s F.HR_REQ + 1 ∧ u.fab.good = 0 ∧ fieldsKept [F.HR_REQ] s u) ∧
    (getF s F.HR_THROTTLE ≤ getF s F.HEADROOM → getF s F.HR_RAISE ≤ getF s F.HEADROOM → s.fab.good < 3 →
      headroomPath s = { s with fab := { s.fab with good := s.fab.good + 1 } }) ∧
    (getF s F.HR_THROTTLE ≤ getF s F.HEADROOM → getF s F.HR_RAISE ≤ getF s F.HEADROOM → s.fab.good = 3 → 1 ≤ getF s F.HR_REQ →
      getF s F.HR_REQ ≤ 8 → ∃ u, headroomPath s = throttle u ∧ getF u F.HR_REQ = getF s F.HR_REQ - 1 ∧ u.fab.good = 0 ∧
        fieldsKept [F.HR_REQ] s u)) ∧
  (∀ (v : Word) (s : State), isOn s 1 = true →
    (bitsOf v.toNat 0 16 < bitsOf v.toNat 16 16 → getF s F.HR_THROTTLE < bitsOf v.toNat 0 16 →
      ∃ t, exec (.hrThresholdWrite false v) s = .next t ∧ getF t F.HR_LOWER = bitsOf v.toNat 16 16 ∧
        getF t F.HR_RAISE = bitsOf v.toNat 0 16) ∧
    (bitsOf v.toNat 16 16 ≤ bitsOf v.toNat 0 16 ∨ bitsOf v.toNat 0 16 ≤ getF s F.HR_THROTTLE →
      exec (.hrThresholdWrite false v) s = .next (detect .fabric 12 0 s)) ∧
    (getF s F.HR_RAISE < getF s F.HR_LOWER → bitsOf v.toNat 0 16 < getF s F.HR_RAISE →
      ∃ t, exec (.hrThresholdWrite true v) s = .next t ∧ getF t F.HR_THROTTLE = bitsOf v.toNat 0 16) ∧
    (getF s F.HR_RAISE ≤ bitsOf v.toNat 0 16 → exec (.hrThresholdWrite true v) s = .next (detect .fabric 12 0 s))) ∧
  (∀ (x : BushelTok) (s : State),
    let n := x.n.val
    let b := bushelAt s n
    (bushelOn s n = true → slipsIn n = true → b.slipping = false → clockDom n = 4 ∨ clockDom n = 5 →
      ∃ u, exec (.bushelSlip x) s = .next (detect .fabric n 1 u) ∧ getF u F.SLIP_TOKENS = 1 ∧
        bushelAt u n = { b with slipping := true, tokens := 1, occ := 256 } ∧
        (∀ k, k < 32 → 32 * (n / 6) + k ∈ u.rx.slipped) ∧ fieldsKept [F.SLIP_TOKENS] s u ∧
        u = { s with regs := u.regs, fab := u.fab, rx := { s.rx with slipped := u.rx.slipped, retime := u.rx.retime } }) ∧
    (bushelOn s n = true → slipsIn n = true → b.slipping = true → clockDom n = 4 ∨ clockDom n = 5 →
      ∃ t, exec (.bushelSlip x) s = .next (if b.tokens = 0 then detect .fabric n 1 t else t) ∧
        getF t F.SLIP_TOKENS = min (b.tokens + 1) 0x1FF ∧ bushelAt t n = { b with tokens := b.tokens + 1 } ∧
        fieldsKept [F.SLIP_TOKENS] s t) ∧
    (slipsIn n = false ∨ bushelOn s n = false → exec (.bushelSlip x) s = .next s) ∧
    (b.slipping = true → ∃ t, exec (.slipRecovery x) s = .next t ∧
      bushelAt t n = { b with slipping := false, tokens := 0, occ := 129, written := some { x.token with slip := true } } ∧
      t = { s with fab := t.fab, rx := { s.rx with slipped := t.rx.slipped, retime := t.rx.retime } }) ∧
    (b.slipping = false → exec (.slipRecovery x) s = .next s)) ∧
  (∀ (y : FillReq) (s : State),
    let n := y.n.val
    let b := bushelAt s n
    let fill := fillContent (n % 6 == 1) (laneNrz s (halfLane n y.lane.val).val)
    (bushelOn s n = true → slipsOut n = true → b.owed = 0 ∨ b.owed < y.arrived → clockDom n = 4 ∨ clockDom n = 5 →
      ∃ u, exec (.fillToken y) s = .next (detect .fabric n 1 u) ∧ getF u F.SLIP_TOKENS = 1 ∧
        bushelAt u n = { b with tokens := 1, occ := 0, owed := b.owed - y.arrived + 1, fill := fill } ∧
        fieldsKept [F.SLIP_TOKENS] s u ∧ u = { s with regs := u.regs, fab := u.fab }) ∧
    (bushelOn s n = true → slipsOut n = true → b.owed ≠ 0 → y.arrived ≤ b.owed → 1 ≤ b.tokens → clockDom n = 4 ∨ clockDom n = 5 →
      ∃ t, exec (.fillToken y) s = .next t ∧ getF t F.SLIP_TOKENS = min (b.tokens + 1) 0x1FF ∧
        bushelAt t n = { b with tokens := b.tokens + 1, occ := 0, owed := b.owed - y.arrived + 1, fill := fill } ∧
        fieldsKept [F.SLIP_TOKENS] s t ∧ t = { s with regs := t.regs, fab := t.fab }) ∧
    (slipsOut n = false ∨ bushelOn s n = false → exec (.fillToken y) s = .next s))

/-! ### The Chain port (15 R374-R386) -/

/-- The Chain port's link and credits (15 R376-R379). -/
def Obligations.ChainLinkAndCredits : Prop :=
  ∀ s : State,
    (chnHears s = true → getB s F.CHN_LINK = false → ∃ u, exec .linkUp s = .next (detect .chn 0 0 u) ∧ getB u F.CHN_LINK = true ∧
      u.chn.blockLock = true ∧ u.chn.inSeq = none ∧ fieldsKept [F.CHN_LINK] s u) ∧
    (chnHears s = false ∨ getB s F.CHN_LINK = true → exec .linkUp s = .next s) ∧
    (chnHears s = true → getB s F.CHN_LINK = true → ∃ u, getB u F.CHN_LINK = false ∧ getB u F.STREAMING = false ∧
      u.chn.drain = none ∧ fieldsKept [F.CHN_LINK, F.STREAMING] s u ∧ exec .creditTimeout s = .next
        (let v := detect .chn 1 0 u; if v.chn.snapNext.isSome then snapInFail v else v)) ∧
    (chnHears s = false ∨ getB s F.CHN_LINK = false → exec .creditTimeout s = .next s) ∧
    (chnHears s = true → s.chn.blockLock = true → exec .rxLockLost s =
      .next (linkDown (detect .chn 3 0 { s with chn := { s.chn with blockLock := false } }))) ∧
    (s.chn.blockLock = false → exec .rxLockLost s = .next s) ∧
    (∀ k : Fin 8, (chnUp s = true → streamWaits s k.val = true → hasCredit s k.val 1 = false →
        exec (.streamStall k) s = .next (detect .chn (16 + k.val) 0 s)) ∧
      (chnUp s = false ∨ streamWaits s k.val = false ∨ hasCredit s k.val 1 = true → exec (.streamStall k) s = .next s)) ∧
    (∀ p : Packet, chnHears s = true → pktGood 0x7F 64 p = true → p.payload.length = 64 →
      s.chn.inSeq = none ∨ s.chn.inSeq = some p.seq.toNat →
      ∃ t, exec (.credit p) s = .next t ∧ (∀ k, k < 5 → tget t.chn.limOut k 0 = leAt p.payload (8 * k) 4) ∧
        (∀ k, 5 ≤ k → k < 8 → tget t.chn.usedIn k 0 = leAt p.payload (8 * k + 4) 4) ∧
        t.chn.inSeq = some ((p.seq.toNat + 1) % 65536) ∧ t = { s with chn := t.chn }) ∧
    (chnHears s = true → ∃ t pkt, exec .creditSend s = .next t ∧ t.chn.sent = some pkt ∧ pkt.typ = 0x7F ∧ pkt.seq = s.chn.outSeq ∧
      pkt.payload.length = 64 ∧ (∀ k, 5 ≤ k → k < 8 → tget t.chn.limIn k 0 = (tget s.chn.usedIn k 0 + 1024) % 2 ^ 32) ∧
      t.chn.outSeq = (s.chn.outSeq + 1) % 65536 ∧ t = { s with chn := t.chn }) ∧
    (∀ (typ : Byte) (len : BitVec 16) (p : Packet), chnHears s = true →
      (pktGood typ.toNat len.toNat p = false → exec (.badPacket typ len p) s = .next (detect .chn 4 0 s)) ∧
      (pktGood typ.toNat len.toNat p = true → typ.toNat ∉ [0x10, 0x11, 0x12, 0x7F] ∨ 4096 < len.toNat →
        s.chn.inSeq = none ∨ s.chn.inSeq = some p.seq.toNat →
        ∃ u, exec (.badPacket typ len p) s = .next (detect .chn 6 0 u) ∧ u.chn.inSeq = some ((p.seq.toNat + 1) % 65536) ∧
          u = { s with chn := u.chn })) ∧
    (chnHears s = false → ∀ typ len p, exec (.badPacket typ len p) s = .next s ∧ exec (.credit p) s = .next s ∧
      exec .creditSend s = .next s ∧ exec (.config p) s = .next s ∧ exec (.snapshot p) s = .next s ∧ exec (.store p) s = .next s)

/-- Drains and captures go out of the Chain port (15 R381, R384, R385). -/
def Obligations.DrainsAndCapturesGoOut : Prop :=
  ∀ s : State,
    (chnUp s = true → isOn s 1 = true → s.chn.drain = none → ∃ t d, exec .drainReq s = .next t ∧ t.chn.drain = some d ∧
      d.recs = s.ldg.region.filter (fun e => e.2.typ != 0) ∧ d.resv = (if getB s F.DRAIN_RES then s.ldg.reserve else []) ∧
      d.begun = false ∧ t = { s with chn := { s.chn with drain := t.chn.drain } }) ∧
    (chnUp s = false ∨ s.chn.drain.isSome = true → exec .drainReq s = .next s) ∧
    (∀ d, s.chn.drain = some d → chnUp s = true →
      (d.recs = [] → d.resv = [] → exec .ledger s = .next (detect .chn 10 0 { s with chn := { s.chn with drain := none } })) ∧
      (∀ e a b, fitRecs 0 d.recs = (e :: a, b) → b ≠ [] →
        let bs := (e :: a).flatMap fun r => recBytes r.2
        (hasCredit s 1 (pktUnits bs.length) = true → ∃ t, exec .ledger s = .next t ∧
          t.chn.sent = some ⟨0x02, if d.begun then 0 else 1, s.chn.outSeq, e.1, bs⟩ ∧
          t.chn.drain = some { d with recs := b, begun := true } ∧ t.chn.outSeq = (s.chn.outSeq + 1) % 65536 ∧
          tget t.chn.usedOut 1 0 = (tget s.chn.usedOut 1 0 + pktUnits bs.length) % 2 ^ 32 ∧ t = { s with chn := t.chn }) ∧
        (hasCredit s 1 (pktUnits bs.length) = false → exec .ledger s = .next s))) ∧
    (s.chn.drain = none → exec .ledger s = .next s) ∧
    (isOn s 10 = true → getB s F.CAP_BUSY = false → ∃ t, exec .capStart s = .next t ∧ getB t F.CAP_BUSY = true ∧
      (getF s F.CAP_TRIGGER ≠ 0 → t.chn.capArmed = true ∧ t.chn.capTrig = s.chn.capTrig) ∧
      (getF s F.CAP_TRIGGER = 0 → t.chn.capArmed = false ∧ t.chn.capTrig = true ∧ t.chn.capWords = getF s F.CAP_WORDS) ∧
      fieldsKept [F.CAP_BUSY] s t ∧ t = { s with regs := t.regs, chn := t.chn }) ∧
    (isOn s 10 = true → getB s F.CAP_BUSY = true → (getF s F.CAP_TRIGGER = 0 → exec .capStart s = .next (detect .chn 9 0 s)) ∧
      (getF s F.CAP_TRIGGER ≠ 0 → exec .capStart s = .next s)) ∧
    (isOn s 10 = true → s.chn.capArmed = true → ∃ t, exec .captureTrigger s = .next t ∧ t.chn.capArmed = false ∧
      t.chn.capTrig = true ∧ t.chn.capSeq = (s.chn.capSeq + 1) % 2 ^ 32 ∧ t = { s with chn := t.chn }) ∧
    (isOn s 10 = true → s.chn.capArmed = false → getB s F.CAP_BUSY = true → exec .captureTrigger s = .next (detect .chn 9 0 s)) ∧
    (∀ samples : List (BitVec 56), (isOn s 10 = true → s.chn.capTrig = true → samples.length = s.chn.capWords →
        ∃ u, exec (.captureDone samples) s = .next (detect .chn 8 0 u) ∧ getB u F.CAP_BUSY = false ∧ u.chn.capTrig = false ∧
          (∀ i, i < samples.length → tget u.chn.capMem i 0 = (samples.getD i 0).toNat) ∧
          (∀ i, samples.length ≤ i → tget u.chn.capMem i 0 = tget s.chn.capMem i 0) ∧
          fieldsKept [F.CAP_BUSY, F.CAP_SEQ, F.STREAMING, F.POISONED 1] s u) ∧
      (isOn s 10 = false ∨ s.chn.capTrig = false → exec (.captureDone samples) s = .next s)) ∧
    (getB s F.STREAMING = true → chnUp s = true → isOn s 1 = true → s.stw.dmaStop = false →
      (hasCredit s 0 65 = true → s.chn.capPos + 4096 < 64 + 8 * s.chn.capWords → ∃ t, exec .capture s = .next t ∧
        t.chn.capPos = s.chn.capPos + 4096 ∧
        t.chn.sent = some ⟨0x01, if s.chn.capPos = 0 then 1 else 0, s.chn.outSeq, s.chn.capPos, capBytes s s.chn.capPos 4096⟩ ∧
        t = { s with chn := t.chn }) ∧
      (s.chn.capPos + 4096 = 64 + 8 * s.chn.capWords → hasCredit s 0 (pktUnits 4096) = true →
        ∃ u, exec .capture s = .next (detect .dma 1 0 u) ∧ getB u F.STREAMING = false ∧ u.chn.capPos = s.chn.capPos + 4096)) ∧
    (getB s F.STREAMING = false ∨ chnUp s = false → exec .capture s = .next s)

/-- Inbound streams feed loads, snapshots and the store (15 R379, R386). -/
def Obligations.InboundStreamsFeedTheirTargets : Prop :=
  ∀ (p : Packet) (s : State), chnHears s = true → p.payload.length ≤ 4096 →
    s.chn.inSeq = none ∨ s.chn.inSeq = some p.seq.toNat →
    (∀ k typ c, (k = 5 ∧ typ = 0x10 ∧ c = Instr.config p) ∨ (k = 6 ∧ typ = 0x11 ∧ c = .snapshot p) ∨ (k = 7 ∧ typ = 0x12 ∧ c = .store p) →
      pktGood typ p.payload.length p = true →
      let used := (tget s.chn.usedIn k 0 + pktUnits p.payload.length) % 2 ^ 32
      (2 ^ 31 ≤ (tget s.chn.limIn k 0 + 2 ^ 32 - used) % 2 ^ 32 → ∃ u, exec c s = .next (detect .chn (16 + k) 0 u) ∧
        u = { s with chn := u.chn } ∧ u.chn.inSeq = some ((p.seq.toNat + 1) % 65536)) ∧
      ((tget s.chn.limIn k 0 + 2 ^ 32 - used) % 2 ^ 32 < 2 ^ 31 → ∃ u, u = { s with chn := u.chn } ∧
        u.chn.inSeq = some ((p.seq.toNat + 1) % 65536) ∧ tget u.chn.usedIn k 0 = used ∧
        (k = 5 → loading s 2 = true → getF s F.LOAD_SRC = 2 → s.ld.discard = false → exec c s = .next (feed p.payload u)) ∧
        (k = 5 → loading s 2 = false → exec c s = .next (detect .chn 6 0 u)) ∧
        (k = 6 → p.arg.toNat ≠ 0 → s.chn.snapNext = none → s.chn.snapBad = false → exec c s = .next (snapInFail u)) ∧
        (k = 6 → p.arg.toNat = 0 → s.chn.snapNext = none → getB s F.SNAP_BUSY = false → dmaRuns s = true → s.st.small = false →
          exec c s = .next (snapInData p.payload (bitOf p.flags.toNat 1) (snapInStart u))) ∧
        (k = 7 → p.arg.toNat % 256 ≠ 0 ∨ dmaRuns s = false ∨ storeAccepts s p.arg.toNat p.payload.length = false →
          exec c s = .next (detect .chn 7 0 u)) ∧
        (k = 7 → p.arg.toNat % 256 = 0 → dmaRuns s = true → storeAccepts s p.arg.toNat p.payload.length = true →
          ∃ t, exec c s = .next t ∧ getB t (F.DMA_BUSY 3) = true ∧ fieldsKept [F.DMA_BUSY 3] s t ∧
            t.st.cells = flashProgram (if p.arg.toNat % 65536 = 0 then flashErase s.st.cells p.arg.toNat 0x10000 else s.st.cells)
              p.arg.toNat p.payload))) ∧
    (pktGood 0x10 p.payload.length p = false → exec (.config p) s = .next (detect .chn 4 0 s))

/-! ### Steward and DMA (15 R387, R388) -/

/-- The steward's mailbox, DMA and self-test (15 R387, R388; 16 R391-R393). -/
def Obligations.StewardDmaAndSelfTestAnswer : Prop :=
  (∀ s : State, isOn s 1 = true →
     (getB s F.MBOX_BUSY = false → ∃ t, exec .doorbell s = .next t ∧ getB t F.MBOX_BUSY = true ∧ onlyFields [F.MBOX_BUSY] s t) ∧
     (getB s F.MBOX_BUSY = true → exec .doorbell s = .next (detect .stw 17 0 s)) ∧
     (∀ (r0 r1 r2 r3 : Word) (res : Byte), (s.stw.running = true → getB s F.MBOX_BUSY = true →
         ∃ u, exec (.mboxResponse r0 r1 r2 r3 res) s = .next (detect .stw 16 0 u) ∧ getF u (F.MBOX_RSP 0) = r0.toNat ∧
           getF u (F.MBOX_RSP 1) = r1.toNat ∧ getF u (F.MBOX_RSP 2) = r2.toNat ∧ getF u (F.MBOX_RSP 3) = r3.toNat ∧
           getF u F.MBOX_RESULT = res.toNat ∧ getB u F.MBOX_BUSY = false ∧
           onlyFields [F.MBOX_RSP 0, F.MBOX_RSP 1, F.MBOX_RSP 2, F.MBOX_RSP 3, F.MBOX_RESULT, F.MBOX_BUSY] s u) ∧
       (s.stw.running = false ∨ getB s F.MBOX_BUSY = false → exec (.mboxResponse r0 r1 r2 r3 res) s = .next s)) ∧
     (s.stw.running = true → ∃ u, exec .watchdogExpiry s = .next (detect .stw 20 0 u) ∧ u.stw.running = false ∧
       u.stw.restart = !s.stw.held ∧ (memAt u 8).poison = [] ∧ (memAt u 8).bad = [] ∧ fieldsKept [F.MBOX_BUSY, F.MBOX_RESULT, F.POISONED 8] s u) ∧
     (s.stw.running = false → exec .watchdogExpiry s = .next s) ∧
     (∀ c : Fin 8, 4 ≤ c.val → getB s (F.DMA_BUSY c.val) = false → s.stw.dmaStop = false →
       (dmaRefused s c.val = true → ∃ t, exec (.dmaStart c) s = .next t ∧ getF t (F.DMA_ERR c.val) = 1 ∧
         onlyFields [F.DMA_ERR c.val] s t) ∧
       (dmaRefused s c.val = false → ∃ t, exec (.dmaStart c) s = .next t ∧ getB t (F.DMA_BUSY c.val) = true ∧
         getF t (F.DMA_ERR c.val) = 0 ∧ tfind t.stw.dma c.val = some ⟨getF s (F.SRC_SPACE c.val), getF s (F.DST_SPACE c.val),
           getF s (F.DMA_SRC c.val), getF s (F.DMA_DST c.val), getF s (F.DMA_LEN c.val)⟩ ∧
         fieldsKept [F.DMA_BUSY c.val, F.DMA_ERR c.val] s t)) ∧
     (∀ c : Fin 8, c.val < 4 ∨ getB s (F.DMA_BUSY c.val) = true → exec (.dmaStart c) s = .next s) ∧
     (∀ (c : Fin 8) (r : DmaRun), 4 ≤ c.val → getB s (F.DMA_BUSY c.val) = true → s.stw.dmaStop = false →
       tfind s.stw.dma c.val = some r → r.dstSpace = 2 → r.srcSpace = 0 → getF s F.STORE_ACTIVE = 8 →
       ∃ u, exec (.dmaDone c .done) s = .next (detect .dma c.val 0 u) ∧ getB u (F.DMA_BUSY c.val) = false ∧
         tfind u.stw.dma c.val = none ∧ getF u F.STORE_ACTIVE = 0 ∧ u.st.cells = s.st.cells ∧
         (∀ i, i < r.len / 8 → r.dst + i < spaceWords →
           tget u.chn.capMem (r.dst + i) 0 = ofLe (flashRead s.st.cells (r.src + 8 * i) 8) % 2 ^ 56) ∧
         (∀ a, a < r.dst ∨ r.dst + r.len / 8 ≤ a → tget u.chn.capMem a 0 = tget s.chn.capMem a 0)) ∧
     (∀ (c : Fin 8) (o : DmaOutcome), 4 ≤ c.val → getB s (F.DMA_BUSY c.val) = false → exec (.dmaDone c o) s = .next s)) ∧
  (∀ (d : Dom) (k : EntryKind) (s : State), d ≠ .aon → domAt s d.num = .entering 3 k →
     (∀ r : SliceReport, d ≠ .mgmt → r.late = false → r.fails = [] → r.logicBad = false → getF s (F.NEXT_SLICE d.num) ≠ 0 →
       (r.last = false → wakeHeld s d.num = false → r.elapsed < getF s F.BIST_LIMIT →
         ∃ t, exec (.bistSliceEnd d r) s = .next t ∧ getF t (F.NEXT_SLICE d.num) = (getF s (F.NEXT_SLICE d.num) + 1) % 2 ^ 16 ∧
           onlyFields [F.NEXT_SLICE d.num] s t) ∧
       (r.last = false → getF s F.BIST_LIMIT ≤ r.elapsed →
         ∃ u, exec (.bistSliceEnd d r) s = .next (setDom (detect .sec 11 d.num u) d.num (.entering 4 .orderly)) ∧
           getF u (F.NEXT_SLICE d.num) = (getF s (F.NEXT_SLICE d.num) + 1) % 2 ^ 16 ∧ getF u (F.BIST_RESULT d.num) = 3 ∧
           onlyFields [F.NEXT_SLICE d.num, F.BIST_RESULT d.num] s u) ∧
       (r.last = true →
         ∃ u, exec (.bistSliceEnd d r) s = .next (setDom (detect .sec 10 d.num u) d.num (.entering 4 .orderly)) ∧
           getF u (F.NEXT_SLICE d.num) = 0 ∧ getF u (F.BIST_RESULT d.num) = (if d.num ∈ s.bist.failed then 2 else 1) ∧
           d.num ∉ u.bist.failed ∧ fieldsKept [F.NEXT_SLICE d.num, F.BIST_RESULT d.num, F.COMPLETE_TIME d.num] s u)) ∧
     (wakeHeld s d.num = true → ∃ u, exec (.bistSliceCut d) s =
         .next (setDom (detect .sec 11 d.num u) d.num (.entering 4 .orderly)) ∧
       getF u (F.BIST_RESULT d.num) = 3 ∧ onlyFields [F.BIST_RESULT d.num] s u) ∧
     (wakeHeld s d.num = false → exec (.bistSliceCut d) s = .next s) ∧
     (∀ (e : Dom) (r : SliceReport), domAt s e.num = .on → exec (.bistSliceEnd e r) s = .next s ∧ exec (.bistSliceCut e) s = .next s))


/-! ### Field access and fuses (16 R396-R402) -/

/-- Field access and the fuses (16 R396-R398, R401, R402, R396). -/
def Obligations.FieldAccessAndFusesFollowTheirRules : Prop :=
  (∀ s : State,
     (∀ e : BitVec 256, isOn s 1 = true →
       (getF s F.ACC_STATE ≠ 3 → fuseBad s 0 = false → fuseBad s 1 = false → ∃ t, exec (.accReq e) s = .next t ∧
         getF t F.ACC_STATE = 1 ∧ getF t F.ACC_RESULT = 0 ∧ t.sec.challenge = some (getF s F.ACC_SCOPE) ∧
         (∀ i, i < 8 → getF t (F.CHALLENGE i) = ofBe (((sha256 (leBytes 32 e.toNat)).drop (4 * i)).take 4) % 2 ^ 32) ∧
         fieldsKept (F.ACC_STATE :: F.ACC_RESULT :: (List.range 8).map F.CHALLENGE) s t ∧
         t = { s with regs := t.regs, sec := { s.sec with challenge := t.sec.challenge } }) ∧
       (getF s F.ACC_STATE = 3 → ∃ t, exec (.accReq e) s = .next t ∧ getF t F.ACC_RESULT = 5 ∧ onlyFields [F.ACC_RESULT] s t)) ∧
     (isOn s 1 = true →
       (s.sec.challenge = none → ∃ t, exec .accSubmit s = .next t ∧ getF t F.ACC_RESULT = 2 ∧ onlyFields [F.ACC_RESULT] s t) ∧
       (∀ scope, s.sec.challenge = some scope → fuseBad s 0 = false → fuseBad s 1 = false →
         (accResponse s = accExpected s scope → ∃ u, exec .accSubmit s = .next (detect .sec 17 0 u) ∧ getF u F.ACC_STATE = 2 ∧
           getF u F.OPEN_SCOPE = scope % 8 ∧ u.sec.challenge = none ∧ u.sec.keyCopy = 0 ∧ u.sec.respBuf = 0 ∧
           (∀ i, i < 8 → getF u (F.CHALLENGE i) = 0)) ∧
         (accResponse s ≠ accExpected s scope → getF s F.ACC_FAILS < 7 → ∃ u, exec .accSubmit s = .next (detect .sec 15 0 u) ∧
           getF u F.ACC_STATE = 0 ∧ getF u F.OPEN_SCOPE = 0 ∧ getF u F.ACC_FAILS = getF s F.ACC_FAILS + 1 ∧ u.sec.challenge = none) ∧
         (accResponse s ≠ accExpected s scope → 7 ≤ getF s F.ACC_FAILS → ∃ u, exec .accSubmit s =
             .next (detect .sec 16 0 (detect .sec 15 0 u)) ∧
           getF u F.ACC_STATE = 3 ∧ getF u F.OPEN_SCOPE = 0 ∧ getF u F.ACC_FAILS = 8 ∧ u.sec.challenge = none))) ∧
     (∀ c, c = Instr.accClose ∨ c = .accessLifeExpiry →
       (accessOpen s = true → ∃ u, exec c s = .next (detect .sec 18 0 u) ∧ getF u F.ACC_STATE = 0 ∧ getF u F.OPEN_SCOPE = 0 ∧
         getF u F.ACC_REMAIN = 0 ∧ u.sec.challenge = none) ∧
       (accessOpen s = false → exec c s = .next s)) ∧
     (s.sec.challenge.isSome = true → ∃ t, exec .challengeExpiry s = .next t ∧ getF t F.ACC_RESULT = 3 ∧ t.sec.challenge = none ∧
       getF t F.OPEN_SCOPE = getF s F.OPEN_SCOPE ∧ (∀ i, i < 8 → getF t (F.CHALLENGE i) = 0)) ∧
     (s.sec.challenge = none → exec .challengeExpiry s = .next s)) ∧
  (∀ s : State,
     (∀ l : List FuseWord, ∃ u, u.sec.fuses = (List.range 14).map (fun g => l.getD g FuseWord.blank) ∧
       fieldsKept [F.INTEGRITY_OK] s u ∧ u = { s with regs := u.regs, sec := { s.sec with fuses := u.sec.fuses } } ∧
       ((∀ g, g < 14 → fuseGood g (l.getD g FuseWord.blank) = true ∧ l.getD g FuseWord.blank = fuseAt s g) → s.ldg.unrep = 0 →
         getB u F.INTEGRITY_OK = true ∧ exec (.fuseIntegrityCheck l) s = .next u) ∧
       (∀ g, g < 14 → fuseGood g (l.getD g FuseWord.blank) = false → getB u F.INTEGRITY_OK = false ∧
         ∃ bad, g ∈ bad ∧ exec (.fuseIntegrityCheck l) s = .next (settle (each bad fuseFails u)))) ∧
     (getB s F.FUSE_BUSY = true → exec .prog s = .next s) ∧
     (bitOf (getF s F.OPEN_SCOPE) 1 = false → progRefused s (getF s F.FUSE_GROUP) = some 1) ∧
     (∀ code, getB s F.FUSE_BUSY = false → progRefused s (getF s F.FUSE_GROUP) = some code → ∃ u,
       exec .prog s = .next (detect .sec 20 (getF s F.FUSE_GROUP) u) ∧ getF u F.FUSE_RESULT = code % 4 ∧ onlyFields [F.FUSE_RESULT] s u) ∧
     (getB s F.FUSE_BUSY = false → progRefused s (getF s F.FUSE_GROUP) = none → ∃ t f, exec .prog s = .next t ∧
       getB t F.FUSE_BUSY = true ∧ getF t F.FUSE_RESULT = 0 ∧ t.sec.prog = some (getF s F.FUSE_GROUP, f) ∧ f.marker = true ∧
       f.data = fuseInput s (getF s F.FUSE_GROUP) ∧ t.sec.fuses = s.sec.fuses ∧ t.sec.shadow = s.sec.shadow ∧
       fieldsKept [F.FUSE_BUSY, F.FUSE_RESULT] s t) ∧
     (∀ g f, s.sec.prog = some (g, f) → ∃ u, getB u F.FUSE_BUSY = false ∧ u.sec.prog = none ∧
       u.sec.fuses = s.sec.fuses.set g f ∧ u.sec.shadow = s.sec.shadow.set g f ∧ fieldsKept [F.FUSE_BUSY] s u ∧
       exec (.fuseProgComplete f) s = .next (onlyIf (decide (10 ≤ g)) (detect .sec 21 g) (detect .sec 19 g u))) ∧
     (∀ g f x, s.sec.prog = some (g, f) → x ≠ f → fuseGood g x = false → ∃ u, getB u F.FUSE_BUSY = false ∧ u.sec.prog = none ∧
       u.sec.fuses = s.sec.fuses.set g x ∧ u.sec.shadow = s.sec.shadow ∧ getB u F.INTEGRITY_OK = false ∧
       fieldsKept [F.FUSE_BUSY, F.INTEGRITY_OK] s u ∧ exec (.fuseProgComplete x) s = .next (settle (fuseFails u g))) ∧
     (∀ f, s.sec.prog = none → exec (.fuseProgComplete f) s = .next s))

/-! ### Registers and MPORT (00 R8-R11; 15 R364-R369; 18 R431-R439) -/

/-- A read of an unmapped address returns 0 and a write of one is ignored (00 R11; 15 R366). -/
def Obligations.UnmappedAccessesReadZeroAndAreIgnored : Prop :=
  ∀ (a v : Word) (s : State), mapped a.toNat = false →
    (∀ r, regRead r a.toNat s = ⟨s, 0, 1⟩ ∧ regWrite r a.toNat v.toNat s = (s, 1)) ∧
    (∀ q, exec (.registerWrite q a v) s = .next s) ∧
    (s.mp.queue = [] → s.mp.pendRead = none →
      (∀ crc : Byte, crc8 (2#8 :: wordBytes a) = crc.toNat → ∃ t, exec (.read a crc) s = .next t ∧ t.mp.last = some (1, 0) ∧
        t = { s with mp := { s.mp with last := t.mp.last } }) ∧
      (∀ crc : Byte, crc8 (1#8 :: (wordBytes a ++ wordBytes v)) = crc.toNat → ∃ t, exec (.write a v crc) s = .next t ∧
        t.mp.last = some (1, 0) ∧ t = { s with mp := { s.mp with last := t.mp.last } }))

/-- MPORT frames and read phases answer their status (15 R365-R369). -/
def Obligations.MportFramesAnswerTheirStatus : Prop :=
  ∀ s : State, s.mp.pendRead = none →
    (s.mp.queue = [] → ∀ (a v : Word) (crc : Byte),
      (crc8 (2#8 :: wordBytes a) ≠ crc.toNat → ∃ t, exec (.read a crc) s = .next t ∧ t.mp.last = some (2, 0) ∧
        getF t F.MP_CRC_ERRS = min (getF s F.MP_CRC_ERRS + 1) 65535 ∧ fieldsKept [F.MP_CRC_ERRS] s t ∧
        t = { s with regs := t.regs, mp := { s.mp with last := t.mp.last } }) ∧
      (crc8 (1#8 :: (wordBytes a ++ wordBytes v)) ≠ crc.toNat → ∃ t, exec (.write a v crc) s = .next t ∧
        t.mp.last = some (2, 0) ∧ fieldsKept [F.MP_CRC_ERRS] s t) ∧
      (crc8 (1#8 :: (wordBytes a ++ wordBytes v)) = crc.toNat → (regWrite 0 a.toNat v.toNat s).2 = 0 →
        ∃ t, exec (.write a v crc) s = .next t ∧ t.mp.last = some (0, 1) ∧
          ∀ f : Fld, getF t f = getF (regWrite 0 a.toNat v.toNat s).1 f) ∧
      (crc8 (2#8 :: wordBytes a) = crc.toNat → mapped a.toNat = true → isWindow a.toNat = false → domAt s (regDom a.toNat) = .off →
        ∃ t, exec (.read a crc) s = .next t ∧ t.mp.last = some (4, 0) ∧ t = { s with mp := { s.mp with last := t.mp.last } })) ∧
    (∀ (a : Word) (ws : List Word) (crc : Byte),
      (ws.length < 1 ∨ 64 < ws.length → ∃ t, exec (.writeSame a ws crc) s = .next t ∧ t.mp.last = some (3, 0) ∧
        getF t F.FRAME_ERRS = min (getF s F.FRAME_ERRS + 1) 65535 ∧ fieldsKept [F.FRAME_ERRS] s t) ∧
      (1 ≤ ws.length → ws.length ≤ 64 → s.mp.queue = [] →
        crc8 (3#8 :: (wordBytes a ++ leBytes 1 ws.length ++ ws.flatMap wordBytes)) = crc.toNat →
        ∃ t st n, exec (.writeSame a ws crc) s = .next t ∧ t.mp.last = some (st, n) ∧ n ≤ ws.length ∧
          (st = 0 ↔ n = ws.length)) ∧
      (s.mp.queue.length = 4 → 1 ≤ ws.length → ws.length ≤ 64 → exec (.writeSame a ws crc) s = .next s)) ∧
    (∃ t, exec .readPhase s = .next t ∧ t.mp.reply.length = 6 ∧
      t.mp.reply.headD 0 = BitVec.ofNat 8 (s.mp.last.getD (5, 0)).1 ∧ t = { s with mp := { s.mp with reply := t.mp.reply } }) ∧
    (∀ c, (∃ f, c = Instr.mportFrameDiscard f) ∨ c = .sclTimeout true → ∃ t, exec c s = .next t ∧ t.mp.last = some (3, 0) ∧
      getF t F.FRAME_ERRS = min (getF s F.FRAME_ERRS + 1) 65535 ∧ fieldsKept [F.FRAME_ERRS] s t ∧
      t = { s with regs := t.regs, mp := { s.mp with last := t.mp.last } }) ∧
    (exec (.sclTimeout false) s = .next s ∧ exec .mportReadStretchTimeout s = .next s) ∧
    (∀ a, mapped a = true → isWaking s (readDom s a) = true →
      ∃ t, exec .mportReadStretchTimeout { s with mp := { s.mp with pendRead := some a } } = .next t ∧ t.mp.last = some (4, 0) ∧
        t.mp.pendRead = none ∧ t = { s with mp := { s.mp with last := t.mp.last } })

/-- Register writes reach their register; fabric writes, the window, telemetry (01 R36; 15 R382; 18 R431-R438). -/
def Obligations.RegisterWritesReachTheirRegister : Prop :=
  ∀ s : State,
    (∀ a v : Word, mapped a.toNat = true → isWindow a.toNat = false →
      (isOn s (regDom a.toNat) = false → exec (.registerWrite .mport a v) s = .next s) ∧
      (isOn s (regDom a.toNat) = true → regDom a.toNat = 6 ∨ regDom a.toNat = 7 → exec (.registerWrite .mport a v) s =
        .next { s with fab := { s.fab with writes := s.fab.writes ++ [(a.toNat, v.toNat)] } }) ∧
      (isOn s (regDom a.toNat) = true → regDom a.toNat < 6 ∨ 7 < regDom a.toNat → submitOff a.toNat v.toNat s = false →
        exec (.registerWrite .mport a v) s = .next (writeNow a.toNat v.toNat s) ∧
        (stwRuns s = true → exec (.registerWrite .steward a v) s = .next (writeNow a.toNat v.toNat s)))) ∧
    (∀ a v : Word, stwRuns s = false → exec (.registerWrite .steward a v) s = .next s) ∧
    (∀ v : Word, isOn s 1 = true → ∃ t, exec (.registerWrite .mport 0x00310004 v) s = .next t ∧
      getF t F.PEER_STAGE_TAG = v.toNat ∧ onlyFields [F.PEER_STAGE_TAG] s t) ∧
    (s.fab.writes = [] → exec .fabricRegisterApply s = .next s) ∧
    (∀ w ws, s.fab.writes = w :: ws → exec .fabricRegisterApply s =
      .next (ws.foldl fabApply (fabApply { s with fab := { s.fab with writes := [] } } w))) ∧
    (∀ v : Word,
      (getF s F.TBL_SEL = 0x10 → getF s F.TBL_ADDR < 2 ^ 24 → isOn s 9 = true → poisoned s 0 (getF s F.TBL_ADDR / 4) = false →
        ∃ t, exec (.tblDataAccess .mport (some v)) s = .next t ∧
          tableEntry t (getF s F.TBL_ADDR) = fixEntry (v.toNat % 2 ^ 14) % 2 ^ 14 ∧
          (∀ i, i ≠ getF s F.TBL_ADDR → tableEntry t i = tableEntry s i) ∧
          getF t F.TBL_ADDR = (getF s F.TBL_ADDR + 1) % 2 ^ 32 ∧ getF t F.TBL_ERR = 0 ∧
          fieldsKept [F.TBL_ADDR, F.TBL_ERR] s t) ∧
      (getF s F.TBL_SEL = 0x20 → getF s F.TBL_ADDR < 65536 → isOn s 8 = true →
        ∃ t, exec (.tblDataAccess .mport (some v)) s = .next t ∧ getF t F.TBL_ADDR = (getF s F.TBL_ADDR + 1) % 2 ^ 32 ∧
          getF t F.TBL_ERR = 3 ∧ onlyFields [F.TBL_ADDR, F.TBL_ERR] s t) ∧
      (getF s F.TBL_SEL = 0x10 → isOn s 9 = false → ∃ t, exec (.tblDataAccess .mport (some v)) s = .next t ∧
        getF t F.TBL_ADDR = getF s F.TBL_ADDR ∧ getF t F.TBL_ERR = 5 ∧ onlyFields [F.TBL_ERR] s t)) ∧
    (getF s F.TBL_SEL = 0x10 → getF s F.TBL_ADDR < 2 ^ 24 → isOn s 9 = true → ∃ t, exec (.tblDataAccess .mport none) s = .next t ∧
      t.mp.tblOut = tableEntry s (getF s F.TBL_ADDR) ∧ getF t F.TBL_ADDR = (getF s F.TBL_ADDR + 1) % 2 ^ 32 ∧
      getF t F.TBL_ERR = 0 ∧ fieldsKept [F.TBL_ADDR, F.TBL_ERR] s t) ∧
    (isOn s 10 = false ∨ getF s F.TLM_PERIOD = 0 → exec .telemetryPeriod s = .next s) ∧
    (isOn s 10 = true → getF s F.TLM_PERIOD ≠ 0 → tlmList s = [] →
      (chnUp s = true → hasCredit s 3 1 = true → ∃ t, exec .telemetryPeriod s = .next t ∧
        t.chn.sent = some ⟨0x04, 3, s.chn.outSeq, mainTime s % 2 ^ 32, []⟩ ∧ t = { s with chn := t.chn }) ∧
      (chnUp s = false → exec .telemetryPeriod s = .next (detect .chn 12 0 s)))

/-- MPORT's and the steward's windows are separate (18 R436). -/
def Obligations.WindowIsBanked : Prop :=
  ∀ (a v : Nat) (s : State), isWindow a = true →
    (∀ t, t = (regWrite 0 a v s).1 ∨ t = (regRead 0 a s).st →
      t.mp.stwSel = s.mp.stwSel ∧ t.mp.stwAddr = s.mp.stwAddr ∧ t.mp.stwErr = s.mp.stwErr) ∧
    (∀ t, t = (regWrite 1 a v s).1 ∨ t = (regRead 1 a s).st →
      getF t F.TBL_SEL = getF s F.TBL_SEL ∧ getF t F.TBL_ADDR = getF s F.TBL_ADDR ∧ getF t F.TBL_ERR = getF s F.TBL_ERR) ∧
    (regRead 0 0x100 s).value = getF s F.TBL_SEL ∧ (regRead 0 0x104 s).value = getF s F.TBL_ADDR ∧
    (regRead 0 0x10C s).value = getF s F.TBL_ERR ∧ (regRead 1 0x100 s).value = s.mp.stwSel ∧
    (regRead 1 0x104 s).value = s.mp.stwAddr ∧ (regRead 1 0x10C s).value = s.mp.stwErr ∧ (a % 4 = 0 → regRead 2 a s = ⟨s, 0, 0⟩)

/-- A section is refused with ORDER after a later armed commit point (02 R55, R54). -/
def Obligations.LaterArmedCommitRefusesWithOrder : Prop :=
  ∀ (z : Byte) (x : SecSt) (p : Sys2Proof.Machine.Pending) (s : State), s.ld.sec = some x → (zoneAt s z.toNat).copied = some p →
    isOn s 1 = true → getF s F.LOADER_STATE = 3 → x.hdr.zone = z.toNat → zoneOk z.toNat = true → 2 ≤ s.ld.src →
    16 ≤ (commitPoint s p + 2 ^ 32 - getF s F.FURLONG_NOW) % 2 ^ 32 →
    (commitPoint s p + 2 ^ 32 - getF s F.FURLONG_NOW) % 2 ^ 32 < 2 ^ 31 →
    ((∃ y, zoneOk y = true ∧ getF s (F.ZONE_STATE y) = 2 ∧ after (commitAt s y) (commitPoint s p) 32 = true) →
      exec (.copyComplete z) s = .next (cancel z.toNat 7 s)) ∧
    ((∀ y, zoneOk y = true → getF s (F.ZONE_STATE y) = 2 → after (commitAt s y) (commitPoint s p) 32 = false) →
      ∃ t, exec (.copyComplete z) s = .next t ∧ getF t (F.ZONE_STATE z.toNat) = 2 ∧
        getF t (F.COMMIT_TX z.toNat) = commitPoint s p % 2 ^ 32) ∧
    ∀ b, after b b 32 = false
end

