-- ==== Sys2Proof/Laws/Fields.lean ====
section
/-! SUPPORT. The width of every register field, so that no proof unfolds a field to know how wide it is. -/
namespace Sys2Proof.Machine

@[simp] theorem F.IDENT_DEVICE_width : (F.IDENT_DEVICE).width = 32 := rfl
@[simp] theorem F.IDENT_STEPPING_width : (F.IDENT_STEPPING).width = 8 := rfl
@[simp] theorem F.TBL_SEL_width : (F.TBL_SEL).width = 16 := rfl
@[simp] theorem F.TBL_ADDR_width : (F.TBL_ADDR).width = 32 := rfl
@[simp] theorem F.TBL_ERR_width : (F.TBL_ERR).width = 3 := rfl
@[simp] theorem F.WAKE_N_LOW_width : (F.WAKE_N_LOW).width = 1 := rfl
@[simp] theorem F.WAKE_PEND_width : (F.WAKE_PEND).width = 10 := rfl
@[simp] theorem F.WAKE_SET_width : (F.WAKE_SET).width = 10 := rfl
@[simp] theorem F.SAVE_TIMEOUT_width : (F.SAVE_TIMEOUT).width = 16 := rfl
@[simp] theorem F.AVS_EN_width : (F.AVS_EN).width = 1 := rfl
@[simp] theorem F.AVS_ADDR_width : (F.AVS_ADDR).width = 7 := rfl
@[simp] theorem F.AVS_EXP_width : (F.AVS_EXP).width = 5 := rfl
@[simp] theorem F.AVS_STEP_width : (F.AVS_STEP).width = 6 := rfl
@[simp] theorem F.VMAX_width : (F.VMAX).width = 16 := rfl
@[simp] theorem F.VMIN_width : (F.VMIN).width = 16 := rfl
@[simp] theorem F.VCORE_READ_width : (F.VCORE_READ).width = 16 := rfl
@[simp] theorem F.VCORE_REQ_width : (F.VCORE_REQ).width = 16 := rfl
@[simp] theorem F.AVS_FAILED_width : (F.AVS_FAILED).width = 1 := rfl
@[simp] theorem F.AVS_STATUS_WORD_width : (F.AVS_STATUS_WORD).width = 16 := rfl
@[simp] theorem F.GRAVE_LOCK_width : (F.GRAVE_LOCK).width = 1 := rfl
@[simp] theorem F.GRAVE_CAUSE_width : (F.GRAVE_CAUSE).width = 3 := rfl
@[simp] theorem F.GRAVE_SOURCE_width : (F.GRAVE_SOURCE).width = 5 := rfl
@[simp] theorem F.GRAVE_BLOCK_width : (F.GRAVE_BLOCK).width = 16 := rfl
@[simp] theorem F.PIN_GRAVE_width : (F.PIN_GRAVE).width = 1 := rfl
@[simp] theorem F.PIN_MAJOR_width : (F.PIN_MAJOR).width = 1 := rfl
@[simp] theorem F.PIN_MINOR_width : (F.PIN_MINOR).width = 1 := rfl
@[simp] theorem F.GRAIN_LEN_width : (F.GRAIN_LEN).width = 16 := rfl
@[simp] theorem F.LEDGER_EXHAUSTED_width : (F.LEDGER_EXHAUSTED).width = 1 := rfl
@[simp] theorem F.SLEWING_width : (F.SLEWING).width = 1 := rfl
@[simp] theorem F.TIME_UNTRIMMED_width : (F.TIME_UNTRIMMED).width = 1 := rfl
@[simp] theorem F.TIME_VALID_width : (F.TIME_VALID).width = 1 := rfl
@[simp] theorem F.FRAME_ERRS_width : (F.FRAME_ERRS).width = 16 := rfl
@[simp] theorem F.MP_CRC_ERRS_width : (F.MP_CRC_ERRS).width = 16 := rfl
@[simp] theorem F.AON_SRC_width : (F.AON_SRC).width = 4 := rfl
@[simp] theorem F.TEMP_width : (F.TEMP).width = 16 := rfl
@[simp] theorem F.TEMP_SRC_width : (F.TEMP_SRC).width = 2 := rfl
@[simp] theorem F.SENSOR_BROKEN_width : (F.SENSOR_BROKEN).width = 1 := rfl
@[simp] theorem F.HOST_STALE_width : (F.HOST_STALE).width = 1 := rfl
@[simp] theorem F.HOT_width : (F.HOT).width = 1 := rfl
@[simp] theorem F.SHUT_COUNT_width : (F.SHUT_COUNT).width = 2 := rfl
@[simp] theorem F.SENSOR_width : (F.SENSOR).width = 16 := rfl
@[simp] theorem F.WARN_width : (F.WARN).width = 16 := rfl
@[simp] theorem F.THROTTLE_width : (F.THROTTLE).width = 16 := rfl
@[simp] theorem F.SHUTDOWN_width : (F.SHUTDOWN).width = 16 := rfl
@[simp] theorem F.HYST_width : (F.HYST).width = 16 := rfl
@[simp] theorem F.HOST_AGE_width : (F.HOST_AGE).width = 16 := rfl
@[simp] theorem F.HOST_TEMP_width : (F.HOST_TEMP).width = 16 := rfl
@[simp] theorem F.THR_STEP_width : (F.THR_STEP).width = 4 := rfl
@[simp] theorem F.HR_REQ_width : (F.HR_REQ).width = 4 := rfl
@[simp] theorem F.TH_REQ_width : (F.TH_REQ).width = 4 := rfl
@[simp] theorem F.FLOOR_width : (F.FLOOR).width = 4 := rfl
@[simp] theorem F.THR_F_width : (F.THR_F).width = 3 := rfl
@[simp] theorem F.THR_V_width : (F.THR_V).width = 2 := rfl
@[simp] theorem F.THR_E_width : (F.THR_E).width = 2 := rfl
@[simp] theorem F.ABORT_ZONE_width : (F.ABORT_ZONE).width = 8 := rfl
@[simp] theorem F.CFG_ABORT_width : (F.CFG_ABORT).width = 1 := rfl
@[simp] theorem F.CFG_START_width : (F.CFG_START).width = 1 := rfl
@[simp] theorem F.LOAD_SRC_width : (F.LOAD_SRC).width = 3 := rfl
@[simp] theorem F.LAST_ZONE_width : (F.LAST_ZONE).width = 8 := rfl
@[simp] theorem F.CFG_LAST_RESULT_width : (F.CFG_LAST_RESULT).width = 4 := rfl
@[simp] theorem F.LOADER_STATE_width : (F.LOADER_STATE).width = 4 := rfl
@[simp] theorem F.NO_IMAGE_width : (F.NO_IMAGE).width = 1 := rfl
@[simp] theorem F.FALLBACK_width : (F.FALLBACK).width = 1 := rfl
@[simp] theorem F.BOOTED_width : (F.BOOTED).width = 2 := rfl
@[simp] theorem F.CFG_LOAD_DATA_width : (F.CFG_LOAD_DATA).width = 32 := rfl
@[simp] theorem F.COMMIT_TIMEOUT_width : (F.COMMIT_TIMEOUT).width = 16 := rfl
@[simp] theorem F.LOAD_TIMEOUT_width : (F.LOAD_TIMEOUT).width = 16 := rfl
@[simp] theorem F.FURLONG_NOW_width : (F.FURLONG_NOW).width = 32 := rfl
@[simp] theorem F.CFG_ISSUE_SEQ_width : (F.CFG_ISSUE_SEQ).width = 32 := rfl
@[simp] theorem F.ZONE_EPOCH_width (z : Nat) : (F.ZONE_EPOCH z).width = 16 := rfl
@[simp] theorem F.ZONE_STATE_width (z : Nat) : (F.ZONE_STATE z).width = 4 := rfl
@[simp] theorem F.ZONE_RESULT_width (z : Nat) : (F.ZONE_RESULT z).width = 4 := rfl
@[simp] theorem F.ZONE_PRESENT_width (z : Nat) : (F.ZONE_PRESENT z).width = 1 := rfl
@[simp] theorem F.PEND_EPOCH_width (z : Nat) : (F.PEND_EPOCH z).width = 16 := rfl
@[simp] theorem F.SWITCHED_TX_width (z : Nat) : (F.SWITCHED_TX z).width = 1 := rfl
@[simp] theorem F.SWITCHED_RX_width (z : Nat) : (F.SWITCHED_RX z).width = 1 := rfl
@[simp] theorem F.COMMIT_TX_width (z : Nat) : (F.COMMIT_TX z).width = 32 := rfl
@[simp] theorem F.COMMIT_RX_width (z : Nat) : (F.COMMIT_RX z).width = 32 := rfl
@[simp] theorem F.ZONE_BUILD_width (z : Nat) : (F.ZONE_BUILD z).width = 32 := rfl
@[simp] theorem F.ZONE_SRC_width (z : Nat) : (F.ZONE_SRC z).width = 2 := rfl
@[simp] theorem F.ZONE_OFFSET_width (z : Nat) : (F.ZONE_OFFSET z).width = 24 := rfl
@[simp] theorem F.MBOX_CMD_width : (F.MBOX_CMD).width = 32 := rfl
@[simp] theorem F.MBOX_ARG_width (i : Nat) : (F.MBOX_ARG i).width = 32 := rfl
@[simp] theorem F.MBOX_RSP_width (i : Nat) : (F.MBOX_RSP i).width = 32 := rfl
@[simp] theorem F.MBOX_RESULT_width : (F.MBOX_RESULT).width = 8 := rfl
@[simp] theorem F.MBOX_BUSY_width : (F.MBOX_BUSY).width = 1 := rfl
@[simp] theorem F.DOORBELL_width : (F.DOORBELL).width = 1 := rfl
@[simp] theorem F.STORE_DUMMY_width : (F.STORE_DUMMY).width = 4 := rfl
@[simp] theorem F.STORE_ADDR4_width : (F.STORE_ADDR4).width = 1 := rfl
@[simp] theorem F.STORE_QUAD_width : (F.STORE_QUAD).width = 1 := rfl
@[simp] theorem F.SCK_DIV_width : (F.SCK_DIV).width = 2 := rfl
@[simp] theorem F.CAPACITY_width : (F.CAPACITY).width = 8 := rfl
@[simp] theorem F.STORE_ACTIVE_width : (F.STORE_ACTIVE).width = 4 := rfl
@[simp] theorem F.DMA_ERR_width (c : Nat) : (F.DMA_ERR c).width = 2 := rfl
@[simp] theorem F.DMA_BUSY_width (c : Nat) : (F.DMA_BUSY c).width = 1 := rfl
@[simp] theorem F.DMA_START_width (c : Nat) : (F.DMA_START c).width = 1 := rfl
@[simp] theorem F.DST_SPACE_width (c : Nat) : (F.DST_SPACE c).width = 2 := rfl
@[simp] theorem F.SRC_SPACE_width (c : Nat) : (F.SRC_SPACE c).width = 2 := rfl
@[simp] theorem F.DMA_SRC_width (c : Nat) : (F.DMA_SRC c).width = 32 := rfl
@[simp] theorem F.DMA_DST_width (c : Nat) : (F.DMA_DST c).width = 32 := rfl
@[simp] theorem F.DMA_LEN_width (c : Nat) : (F.DMA_LEN c).width = 32 := rfl
@[simp] theorem F.HALT_ADDR_width (c : Nat) : (F.HALT_ADDR c).width = 32 := rfl
@[simp] theorem F.CAL_DELTA_T_width : (F.CAL_DELTA_T).width = 8 := rfl
@[simp] theorem F.FG_REQ_width : (F.FG_REQ).width = 2 := rfl
@[simp] theorem F.FULL_REQ_width : (F.FULL_REQ).width = 1 := rfl
@[simp] theorem F.T_LAST_width : (F.T_LAST).width = 16 := rfl
@[simp] theorem F.T_LAST_VALID_width : (F.T_LAST_VALID).width = 1 := rfl
@[simp] theorem F.REC_SRC1_width : (F.REC_SRC1).width = 2 := rfl
@[simp] theorem F.REC_SRC0_width : (F.REC_SRC0).width = 2 := rfl
@[simp] theorem F.BG_PRIO_width : (F.BG_PRIO).width = 2 := rfl
@[simp] theorem F.VREF_OK_width : (F.VREF_OK).width = 1 := rfl
@[simp] theorem F.REFCLK_OK_width : (F.REFCLK_OK).width = 1 := rfl
@[simp] theorem F.CAL_BG1_width : (F.CAL_BG1).width = 3 := rfl
@[simp] theorem F.CAL_FG1_width : (F.CAL_FG1).width = 3 := rfl
@[simp] theorem F.CAL_FG0_width : (F.CAL_FG0).width = 3 := rfl
@[simp] theorem F.CAL_BG0_width : (F.CAL_BG0).width = 3 := rfl
@[simp] theorem F.CAL_SRC_width : (F.CAL_SRC).width = 1 := rfl
@[simp] theorem F.RES_CLEAR_width : (F.RES_CLEAR).width = 1 := rfl
@[simp] theorem F.CKPT_REQ_width : (F.CKPT_REQ).width = 1 := rfl
@[simp] theorem F.HIST_SEQ_width : (F.HIST_SEQ).width = 16 := rfl
@[simp] theorem F.RES_COUNT_width : (F.RES_COUNT).width = 7 := rfl
@[simp] theorem F.LDG_CLOSED_width : (F.LDG_CLOSED).width = 1 := rfl
@[simp] theorem F.LDG_STOPPED_width : (F.LDG_STOPPED).width = 1 := rfl
@[simp] theorem F.LDG_WR_width : (F.LDG_WR).width = 22 := rfl
@[simp] theorem F.LDG_RD_width : (F.LDG_RD).width = 22 := rfl
@[simp] theorem F.LDG_FREE_width : (F.LDG_FREE).width = 22 := rfl
@[simp] theorem F.LDG_LAST_GOOD_width : (F.LDG_LAST_GOOD).width = 22 := rfl
@[simp] theorem F.LDG_SEQ_width : (F.LDG_SEQ).width = 32 := rfl
@[simp] theorem F.LOSS_FIRST_width : (F.LOSS_FIRST).width = 32 := rfl
@[simp] theorem F.LOSS_PEND_width : (F.LOSS_PEND).width = 32 := rfl
@[simp] theorem F.CHN_LINK_width : (F.CHN_LINK).width = 1 := rfl
@[simp] theorem F.DRAIN_RES_width : (F.DRAIN_RES).width = 1 := rfl
@[simp] theorem F.DRAIN_REQ_width : (F.DRAIN_REQ).width = 1 := rfl
@[simp] theorem F.EVT_MSG_EN_width : (F.EVT_MSG_EN).width = 1 := rfl
@[simp] theorem F.MSG_DROPS_width : (F.MSG_DROPS).width = 32 := rfl
@[simp] theorem F.TLM_PERIOD_width : (F.TLM_PERIOD).width = 16 := rfl
@[simp] theorem F.FKC_EN_width : (F.FKC_EN).width = 1 := rfl
@[simp] theorem F.FKC_FIRKIN_width : (F.FKC_FIRKIN).width = 13 := rfl
@[simp] theorem F.CAP_INDEX_width : (F.CAP_INDEX).width = 8 := rfl
@[simp] theorem F.CAP_SOURCE_width : (F.CAP_SOURCE).width = 2 := rfl
@[simp] theorem F.CAP_TRIGGER_width : (F.CAP_TRIGGER).width = 2 := rfl
@[simp] theorem F.CAP_STREAM_width : (F.CAP_STREAM).width = 1 := rfl
@[simp] theorem F.CAP_START_width : (F.CAP_START).width = 1 := rfl
@[simp] theorem F.CAP_WORDS_width : (F.CAP_WORDS).width = 23 := rfl
@[simp] theorem F.CAP_PRE_width : (F.CAP_PRE).width = 23 := rfl
@[simp] theorem F.TRIG_BIT_width : (F.TRIG_BIT).width = 5 := rfl
@[simp] theorem F.TRIG_BLOCK_width : (F.TRIG_BLOCK).width = 16 := rfl
@[simp] theorem F.CAP_SEQ_width : (F.CAP_SEQ).width = 16 := rfl
@[simp] theorem F.STREAMING_width : (F.STREAMING).width = 1 := rfl
@[simp] theorem F.CAP_BUSY_width : (F.CAP_BUSY).width = 1 := rfl
@[simp] theorem F.ACC_SCOPE_width : (F.ACC_SCOPE).width = 3 := rfl
@[simp] theorem F.ACC_CLOSE_width : (F.ACC_CLOSE).width = 1 := rfl
@[simp] theorem F.ACC_SUBMIT_width : (F.ACC_SUBMIT).width = 1 := rfl
@[simp] theorem F.ACC_REQ_width : (F.ACC_REQ).width = 1 := rfl
@[simp] theorem F.ACC_STATE_width : (F.ACC_STATE).width = 2 := rfl
@[simp] theorem F.OPEN_SCOPE_width : (F.OPEN_SCOPE).width = 3 := rfl
@[simp] theorem F.ACC_RESULT_width : (F.ACC_RESULT).width = 4 := rfl
@[simp] theorem F.ACC_FAILS_width : (F.ACC_FAILS).width = 4 := rfl
@[simp] theorem F.ACC_REMAIN_width : (F.ACC_REMAIN).width = 16 := rfl
@[simp] theorem F.ACC_LIFE_width : (F.ACC_LIFE).width = 16 := rfl
@[simp] theorem F.CHALLENGE_width (i : Nat) : (F.CHALLENGE i).width = 32 := rfl
@[simp] theorem F.RESPONSE_width (i : Nat) : (F.RESPONSE i).width = 32 := rfl
@[simp] theorem F.FUSE_GROUP_width : (F.FUSE_GROUP).width = 4 := rfl
@[simp] theorem F.FUSE_PROG_width : (F.FUSE_PROG).width = 1 := rfl
@[simp] theorem F.PROGRAMMED_width : (F.PROGRAMMED).width = 14 := rfl
@[simp] theorem F.FUSE_RESULT_width : (F.FUSE_RESULT).width = 2 := rfl
@[simp] theorem F.FUSE_BUSY_width : (F.FUSE_BUSY).width = 1 := rfl
@[simp] theorem F.INTEGRITY_OK_width : (F.INTEGRITY_OK).width = 1 := rfl
@[simp] theorem F.FUSE_DATA_width (j : Nat) : (F.FUSE_DATA j).width = 32 := rfl
@[simp] theorem F.BIST_EN_width : (F.BIST_EN).width = 10 := rfl
@[simp] theorem F.BIST_LIMIT_width : (F.BIST_LIMIT).width = 16 := rfl
@[simp] theorem F.BIST_SLICE_width : (F.BIST_SLICE).width = 16 := rfl
@[simp] theorem F.SEC_GROUP_width : (F.SEC_GROUP).width = 4 := rfl
@[simp] theorem F.SEC_DOM_width : (F.SEC_DOM).width = 4 := rfl
@[simp] theorem F.UNC_MEM_width : (F.UNC_MEM).width = 4 := rfl
@[simp] theorem F.UNC_WORD_width : (F.UNC_WORD).width = 22 := rfl
@[simp] theorem F.CORR_MEM_width : (F.CORR_MEM).width = 4 := rfl
@[simp] theorem F.CORR_WORD_width : (F.CORR_WORD).width = 22 := rfl
@[simp] theorem F.CORR_BIT_width : (F.CORR_BIT).width = 7 := rfl
@[simp] theorem F.CAND_MEM_width : (F.CAND_MEM).width = 4 := rfl
@[simp] theorem F.SCRUB_PERIOD_width (m : Nat) : (F.SCRUB_PERIOD m).width = 16 := rfl
@[simp] theorem F.MEM_CORR_width (m : Nat) : (F.MEM_CORR m).width = 64 := rfl
@[simp] theorem F.MEM_UNCORR_width (m : Nat) : (F.MEM_UNCORR m).width = 64 := rfl
@[simp] theorem F.PASSES_width (m : Nat) : (F.PASSES m).width = 16 := rfl
@[simp] theorem F.POISONED_width (m : Nat) : (F.POISONED m).width = 7 := rfl
@[simp] theorem F.SPARES_FREE_width (m : Nat) : (F.SPARES_FREE m).width = 10 := rfl
@[simp] theorem F.BIST_RESULT_width (d : Nat) : (F.BIST_RESULT d).width = 2 := rfl
@[simp] theorem F.FAIL_COUNT_width (d : Nat) : (F.FAIL_COUNT d).width = 8 := rfl
@[simp] theorem F.NEXT_SLICE_width (d : Nat) : (F.NEXT_SLICE d).width = 16 := rfl
@[simp] theorem F.FAIL_MEM_width (d : Nat) : (F.FAIL_MEM d).width = 4 := rfl
@[simp] theorem F.FAIL_WORD_width (d : Nat) : (F.FAIL_WORD d).width = 22 := rfl
@[simp] theorem F.FAIL_BIT_width (d : Nat) : (F.FAIL_BIT d).width = 7 := rfl
@[simp] theorem F.COMPLETE_TIME_width (d : Nat) : (F.COMPLETE_TIME d).width = 32 := rfl
@[simp] theorem F.BIST_CAND_width : (F.BIST_CAND).width = 6 := rfl
@[simp] theorem F.LANE_RATE_width (l : Nat) : (F.LANE_RATE l).width = 3 := rfl
@[simp] theorem F.LANE_PRE_width (l : Nat) : (F.LANE_PRE l).width = 5 := rfl
@[simp] theorem F.LANE_POST_width (l : Nat) : (F.LANE_POST l).width = 5 := rfl
@[simp] theorem F.LANE_SWING_width (l : Nat) : (F.LANE_SWING l).width = 7 := rfl
@[simp] theorem F.ECHO_START_width (l : Nat) : (F.ECHO_START l).width = 10 := rfl
@[simp] theorem F.CTLE_INIT_width (l : Nat) : (F.CTLE_INIT l).width = 5 := rfl
@[simp] theorem F.PRECODE_width (l : Nat) : (F.PRECODE l).width = 1 := rfl
@[simp] theorem F.RX_INV_width (l : Nat) : (F.RX_INV l).width = 1 := rfl
@[simp] theorem F.TX_INV_width (l : Nat) : (F.TX_INV l).width = 1 := rfl
@[simp] theorem F.CDR_BW_width (l : Nat) : (F.CDR_BW l).width = 2 := rfl
@[simp] theorem F.RESTART_width (l : Nat) : (F.RESTART l).width = 1 := rfl
@[simp] theorem F.LANE_MU_width (l : Nat) : (F.LANE_MU l).width = 4 := rfl
@[simp] theorem F.ECHO_MODE_width (l : Nat) : (F.ECHO_MODE l).width = 2 := rfl
@[simp] theorem F.DFE_MODE_width (l : Nat) : (F.DFE_MODE l).width = 2 := rfl
@[simp] theorem F.FFE_MODE_width (l : Nat) : (F.FFE_MODE l).width = 2 := rfl
@[simp] theorem F.CTLE_MODE_width (l : Nat) : (F.CTLE_MODE l).width = 2 := rfl
@[simp] theorem F.LANE_CTLE_width (l : Nat) : (F.LANE_CTLE l).width = 5 := rfl
@[simp] theorem F.ADAPT_DONE_width (l : Nat) : (F.ADAPT_DONE l).width = 1 := rfl
@[simp] theorem F.FRAME_LOCK_width (l : Nat) : (F.FRAME_LOCK l).width = 1 := rfl
@[simp] theorem F.FREQ_KEPT_width (l : Nat) : (F.FREQ_KEPT l).width = 1 := rfl
@[simp] theorem F.CDR_LOCK_width (l : Nat) : (F.CDR_LOCK l).width = 1 := rfl
@[simp] theorem F.SIG_DET_width (l : Nat) : (F.SIG_DET l).width = 1 := rfl
@[simp] theorem F.LOCKED_width (l : Nat) : (F.LOCKED l).width = 1 := rfl
@[simp] theorem F.CHK_PAT_width (l : Nat) : (F.CHK_PAT l).width = 3 := rfl
@[simp] theorem F.CHK_EN_width (l : Nat) : (F.CHK_EN l).width = 1 := rfl
@[simp] theorem F.GEN_PAT_width (l : Nat) : (F.GEN_PAT l).width = 3 := rfl
@[simp] theorem F.GEN_EN_width (l : Nat) : (F.GEN_EN l).width = 1 := rfl
@[simp] theorem F.CHK_LOCK_width (l : Nat) : (F.CHK_LOCK l).width = 1 := rfl
@[simp] theorem F.PAT_ERR_width (l : Nat) : (F.PAT_ERR l).width = 64 := rfl
@[simp] theorem F.PAT_BITS_width (l : Nat) : (F.PAT_BITS l).width = 64 := rfl
@[simp] theorem F.INNER_CORR_width (l : Nat) : (F.INNER_CORR l).width = 64 := rfl
@[simp] theorem F.INNER_UNCORR_width (l : Nat) : (F.INNER_UNCORR l).width = 64 := rfl
@[simp] theorem F.HOLD_ALARM_width : (F.HOLD_ALARM).width = 16 := rfl
@[simp] theorem F.LONG_LANE_width : (F.LONG_LANE).width = 3 := rfl
@[simp] theorem F.UNCORR_LANE_width : (F.UNCORR_LANE).width = 3 := rfl
@[simp] theorem F.HOLD_LANE_width : (F.HOLD_LANE).width = 3 := rfl
@[simp] theorem F.GRP_WIDTH_width (l : Nat) : (F.GRP_WIDTH l).width = 4 := rfl
@[simp] theorem F.GRP_CLIENT_width (l : Nat) : (F.GRP_CLIENT l).width = 3 := rfl
@[simp] theorem F.GRP_STATE_width (l : Nat) : (F.GRP_STATE l).width = 3 := rfl
@[simp] theorem F.GRP_LOOP_width (l : Nat) : (F.GRP_LOOP l).width = 2 := rfl
@[simp] theorem F.HOLDS_width (l : Nat) : (F.HOLDS l).width = 32 := rfl
@[simp] theorem F.RS_CORR_width (l : Nat) : (F.RS_CORR l).width = 64 := rfl
@[simp] theorem F.RS_UNCORR_width (l : Nat) : (F.RS_UNCORR l).width = 64 := rfl
@[simp] theorem F.HOLD_US_width (l : Nat) : (F.HOLD_US l).width = 64 := rfl
@[simp] theorem F.TX_ENABLE_width (c : Nat) : (F.TX_ENABLE c).width = 1 := rfl
@[simp] theorem F.TX_FG_CAL_width (c : Nat) : (F.TX_FG_CAL c).width = 1 := rfl
@[simp] theorem F.LASER_LOCK_width (c : Nat) : (F.LASER_LOCK c).width = 1 := rfl
@[simp] theorem F.SYNTH_LOCK_width (c : Nat) : (F.SYNTH_LOCK c).width = 1 := rfl
@[simp] theorem F.TX_STATE_width (c : Nat) : (F.TX_STATE c).width = 3 := rfl
@[simp] theorem F.TX_ENABLE_TIMEOUT_width (c : Nat) : (F.TX_ENABLE_TIMEOUT c).width = 16 := rfl
@[simp] theorem F.D_PRE_width (c : Nat) : (F.D_PRE c).width = 16 := rfl
@[simp] theorem F.TX_RMS_width (c : Nat) : (F.TX_RMS c).width = 16 := rfl
@[simp] theorem F.DAC_GAIN_width (c : Nat) : (F.DAC_GAIN c).width = 16 := rfl
@[simp] theorem F.TX_CLIP_CNT_width (c : Nat) : (F.TX_CLIP_CNT c).width = 64 := rfl
@[simp] theorem F.TXG_TAG_width (c : Nat) (g : Nat) : (F.TXG_TAG c g).width = 32 := rfl
@[simp] theorem F.SHAPE_B_width (c : Nat) (s : Nat) : (F.SHAPE_B c s).width = 6 := rfl
@[simp] theorem F.SHAPE_MODE_width (c : Nat) (s : Nat) : (F.SHAPE_MODE c s).width = 2 := rfl
@[simp] theorem F.SHAPE_C2_width (c : Nat) (s : Nat) : (F.SHAPE_C2 c s).width = 10 := rfl
@[simp] theorem F.SHAPE_C1_width (c : Nat) (s : Nat) : (F.SHAPE_C1 c s).width = 10 := rfl
@[simp] theorem F.SHAPE_C0_width (c : Nat) (s : Nat) : (F.SHAPE_C0 c s).width = 10 := rfl
@[simp] theorem F.SC_ATTEN_width (c : Nat) (s : Nat) : (F.SC_ATTEN c s).width = 11 := rfl
@[simp] theorem F.SHAPE_K_width (c : Nat) (s : Nat) : (F.SHAPE_K c s).width = 10 := rfl
@[simp] theorem F.SHAPE_ENTROPY_width (c : Nat) (s : Nat) : (F.SHAPE_ENTROPY c s).width = 16 := rfl
@[simp] theorem F.AGC_TARGET_width (c : Nat) : (F.AGC_TARGET c).width = 16 := rfl
@[simp] theorem F.AGC_MODE_width (c : Nat) : (F.AGC_MODE c).width = 2 := rfl
@[simp] theorem F.AGC_GAIN_width (c : Nat) (i : Nat) : (F.AGC_GAIN c i).width = 16 := rfl
@[simp] theorem F.RX_TRIM_width (c : Nat) (i : Nat) : (F.RX_TRIM c i).width = 8 := rfl
@[simp] theorem F.SEARCH_TIMEOUT_width (c : Nat) : (F.SEARCH_TIMEOUT c).width = 16 := rfl
@[simp] theorem F.ACQ_THR_width (c : Nat) : (F.ACQ_THR c).width = 16 := rfl
@[simp] theorem F.RX_SC_MASK_width (c : Nat) : (F.RX_SC_MASK c).width = 32 := rfl
@[simp] theorem F.RX_OVR_CNT_width (c : Nat) : (F.RX_OVR_CNT c).width = 64 := rfl
@[simp] theorem F.RX_FALSE_CNT_width (c : Nat) : (F.RX_FALSE_CNT c).width = 64 := rfl
@[simp] theorem F.Q_AVG_LOG2_width (c : Nat) : (F.Q_AVG_LOG2 c).width = 4 := rfl
@[simp] theorem F.MASK_SC_width (c : Nat) : (F.MASK_SC c).width = 5 := rfl
@[simp] theorem F.INTR_UNIT_width (c : Nat) : (F.INTR_UNIT c).width = 4 := rfl
@[simp] theorem F.LOS_UNIT_width (c : Nat) : (F.LOS_UNIT c).width = 4 := rfl
@[simp] theorem F.UNEXP_UNIT_width (c : Nat) : (F.UNEXP_UNIT c).width = 4 := rfl
@[simp] theorem F.FALSE_UNIT_width (c : Nat) : (F.FALSE_UNIT c).width = 4 := rfl
@[simp] theorem F.ACQ_UNIT_width (c : Nat) : (F.ACQ_UNIT c).width = 4 := rfl
@[simp] theorem F.SC_COUNT_width (c : Nat) (u : Nat) : (F.SC_COUNT c u).width = 6 := rfl
@[simp] theorem F.FIRST_SC_width (c : Nat) (u : Nat) : (F.FIRST_SC c u).width = 5 := rfl
@[simp] theorem F.ACQ_STATE_width (c : Nat) (u : Nat) : (F.ACQ_STATE c u).width = 3 := rfl
@[simp] theorem F.CD_MIN_width (c : Nat) (u : Nat) : (F.CD_MIN c u).width = 16 := rfl
@[simp] theorem F.CD_MAX_width (c : Nat) (u : Nat) : (F.CD_MAX c u).width = 16 := rfl
@[simp] theorem F.D_EST_width (c : Nat) (u : Nat) : (F.D_EST c u).width = 32 := rfl
@[simp] theorem F.FOFF_width (c : Nat) (u : Nat) : (F.FOFF c u).width = 16 := rfl
@[simp] theorem F.ACQ_POWER_width (c : Nat) (u : Nat) : (F.ACQ_POWER c u).width = 16 := rfl
@[simp] theorem F.ACQ_TAG_width (c : Nat) (u : Nat) : (F.ACQ_TAG c u).width = 32 := rfl
@[simp] theorem F.UNEXP_TAG_width (c : Nat) (u : Nat) : (F.UNEXP_TAG c u).width = 32 := rfl
@[simp] theorem F.INTR_TAG_width (c : Nat) (u : Nat) : (F.INTR_TAG c u).width = 32 := rfl
@[simp] theorem F.INTR_POWER_width (c : Nat) (u : Nat) : (F.INTR_POWER c u).width = 16 := rfl
@[simp] theorem F.PILOT_AVG_width (c : Nat) (u : Nat) : (F.PILOT_AVG c u).width = 4 := rfl
@[simp] theorem F.EQ_MU_width (c : Nat) (u : Nat) : (F.EQ_MU c u).width = 4 := rfl
@[simp] theorem F.NTAPS_width (c : Nat) (u : Nat) : (F.NTAPS c u).width = 5 := rfl
@[simp] theorem F.D_RES_width (c : Nat) (u : Nat) : (F.D_RES c u).width = 16 := rfl
@[simp] theorem F.NTAPS_EFF_width (c : Nat) (u : Nat) : (F.NTAPS_EFF c u).width = 5 := rfl
@[simp] theorem F.EQ_REINIT_CNT_width (c : Nat) (u : Nat) : (F.EQ_REINIT_CNT c u).width = 32 := rfl
@[simp] theorem F.U_SNR_width (c : Nat) (u : Nat) : (F.U_SNR c u).width = 16 := rfl
@[simp] theorem F.U_GMI_width (c : Nat) (u : Nat) : (F.U_GMI c u).width = 16 := rfl
@[simp] theorem F.U_Q_SEQ_width (c : Nat) (u : Nat) : (F.U_Q_SEQ c u).width = 16 := rfl
@[simp] theorem F.U_PILOT_ONLY_width (c : Nat) (u : Nat) : (F.U_PILOT_ONLY c u).width = 1 := rfl
@[simp] theorem F.U_VALID_width (c : Nat) (u : Nat) : (F.U_VALID c u).width = 1 := rfl
@[simp] theorem F.BER_ERR_width (c : Nat) (u : Nat) : (F.BER_ERR c u).width = 64 := rfl
@[simp] theorem F.BER_BITS_width (c : Nat) (u : Nat) : (F.BER_BITS c u).width = 64 := rfl
@[simp] theorem F.SC_SNR_width (c : Nat) (s : Nat) : (F.SC_SNR c s).width = 16 := rfl
@[simp] theorem F.SC_GMI_width (c : Nat) (s : Nat) : (F.SC_GMI c s).width = 16 := rfl
@[simp] theorem F.SC_EVM_width (c : Nat) (s : Nat) : (F.SC_EVM c s).width = 16 := rfl
@[simp] theorem F.EQ_DELAY_width (c : Nat) (s : Nat) : (F.EQ_DELAY c s).width = 16 := rfl
@[simp] theorem F.SC_Q_SEQ_width (c : Nat) (s : Nat) : (F.SC_Q_SEQ c s).width = 16 := rfl
@[simp] theorem F.SC_PILOT_ONLY_width (c : Nat) (s : Nat) : (F.SC_PILOT_ONLY c s).width = 1 := rfl
@[simp] theorem F.SC_VALID_width (c : Nat) (s : Nat) : (F.SC_VALID c s).width = 1 := rfl
@[simp] theorem F.ADAPT_LOG2_width : (F.ADAPT_LOG2).width = 5 := rfl
@[simp] theorem F.LEARN_MU_width : (F.LEARN_MU).width = 4 := rfl
@[simp] theorem F.CLEAR_ALL_width : (F.CLEAR_ALL).width = 1 := rfl
@[simp] theorem F.SNAP_REQ_width : (F.SNAP_REQ).width = 1 := rfl
@[simp] theorem F.LEARN_EN_width : (F.LEARN_EN).width = 1 := rfl
@[simp] theorem F.FTH_LEVEL_width : (F.FTH_LEVEL).width = 3 := rfl
@[simp] theorem F.START_SRC_width : (F.START_SRC).width = 2 := rfl
@[simp] theorem F.SNAP_BUSY_width : (F.SNAP_BUSY).width = 1 := rfl
@[simp] theorem F.FTH_CLEARING_width : (F.FTH_CLEARING).width = 1 := rfl
@[simp] theorem F.SNAP_PERIOD_width : (F.SNAP_PERIOD).width = 16 := rfl
@[simp] theorem F.FTH_UPDATE_CNT_width : (F.FTH_UPDATE_CNT).width = 32 := rfl
@[simp] theorem F.FTH_SAT_CNT_width : (F.FTH_SAT_CNT).width = 64 := rfl
@[simp] theorem F.FTH_SCALE_width (g : Nat) : (F.FTH_SCALE g).width = 4 := rfl
@[simp] theorem F.FTH_REACH_width (g : Nat) : (F.FTH_REACH g).width = 7 := rfl
@[simp] theorem F.PAGE_COUNT_width (g : Nat) : (F.PAGE_COUNT g).width = 7 := rfl
@[simp] theorem F.PAGE_BASE_width (g : Nat) : (F.PAGE_BASE g).width = 8 := rfl
@[simp] theorem F.ADAPT_EPOCH_width (g : Nat) : (F.ADAPT_EPOCH g).width = 32 := rfl
@[simp] theorem F.LEARN_TAG_width (g : Nat) : (F.LEARN_TAG g).width = 32 := rfl
@[simp] theorem F.FTH_GAIN_width (g : Nat) : (F.FTH_GAIN g).width = 16 := rfl
@[simp] theorem F.HR_VALID_width : (F.HR_VALID).width = 1 := rfl
@[simp] theorem F.HR_LIMIT_BUSHEL_width : (F.HR_LIMIT_BUSHEL).width = 4 := rfl
@[simp] theorem F.HEADROOM_width : (F.HEADROOM).width = 16 := rfl
@[simp] theorem F.WIN_LOG2_width : (F.WIN_LOG2).width = 5 := rfl
@[simp] theorem F.HR_LOWER_width : (F.HR_LOWER).width = 16 := rfl
@[simp] theorem F.HR_RAISE_width : (F.HR_RAISE).width = 16 := rfl
@[simp] theorem F.HR_THROTTLE_width : (F.HR_THROTTLE).width = 16 := rfl
@[simp] theorem F.SLACK_MIN_width (n : Nat) : (F.SLACK_MIN n).width = 9 := rfl
@[simp] theorem F.BUSHEL_OCC_width (n : Nat) : (F.BUSHEL_OCC n).width = 9 := rfl
@[simp] theorem F.BUSHEL_SAT_width (n : Nat) : (F.BUSHEL_SAT n).width = 32 := rfl
@[simp] theorem F.SLIP_TOKENS_width : (F.SLIP_TOKENS).width = 9 := rfl
@[simp] theorem F.FIRKIN_WAIT_width : (F.FIRKIN_WAIT).width = 16 := rfl
@[simp] theorem F.ITER_LEVEL_width : (F.ITER_LEVEL).width = 3 := rfl
@[simp] theorem F.POOL_BUSY_width : (F.POOL_BUSY).width = 6 := rfl
@[simp] theorem F.HUNT_LANE_width : (F.HUNT_LANE).width = 3 := rfl
@[simp] theorem F.OVF_FIRKIN_width : (F.OVF_FIRKIN).width = 13 := rfl
@[simp] theorem F.LATE_GRP_width : (F.LATE_GRP).width = 5 := rfl
@[simp] theorem F.OUTER_GRP_width : (F.OUTER_GRP).width = 5 := rfl
@[simp] theorem F.ERASED_GRP_width : (F.ERASED_GRP).width = 5 := rfl
@[simp] theorem F.AVG_ITER_width (g : Nat) : (F.AVG_ITER g).width = 7 := rfl
@[simp] theorem F.OUTER_EN_width (g : Nat) : (F.OUTER_EN g).width = 1 := rfl
@[simp] theorem F.FEC_RATE_width (g : Nat) : (F.FEC_RATE g).width = 2 := rfl
@[simp] theorem F.AVG_EFF_width (g : Nat) : (F.AVG_EFF g).width = 7 := rfl
@[simp] theorem F.FEC_BANK_width (g : Nat) : (F.FEC_BANK g).width = 16 := rfl
@[simp] theorem F.FEC_CW_width (g : Nat) : (F.FEC_CW g).width = 64 := rfl
@[simp] theorem F.FEC_ERASED_width (g : Nat) : (F.FEC_ERASED g).width = 64 := rfl
@[simp] theorem F.FEC_ITER_width (g : Nat) : (F.FEC_ITER g).width = 64 := rfl
@[simp] theorem F.OUTER_CORR_width (g : Nat) : (F.OUTER_CORR g).width = 64 := rfl
@[simp] theorem F.FEC_LATE_width (g : Nat) : (F.FEC_LATE g).width = 64 := rfl
@[simp] theorem F.BLK_LOST_width (g : Nat) : (F.BLK_LOST g).width = 64 := rfl
@[simp] theorem F.N_FIRKIN_width (l : Nat) : (F.N_FIRKIN l).width = 13 := rfl
@[simp] theorem F.CLI_SYNC_width (l : Nat) : (F.CLI_SYNC l).width = 1 := rfl
@[simp] theorem F.CLI_FRAMES_width (l : Nat) : (F.CLI_FRAMES l).width = 64 := rfl
@[simp] theorem F.CLI_DROP_width (l : Nat) : (F.CLI_DROP l).width = 64 := rfl
@[simp] theorem F.TX_OVERSIZE_width (l : Nat) : (F.TX_OVERSIZE l).width = 64 := rfl
@[simp] theorem F.CLI_HUNTS_width (l : Nat) : (F.CLI_HUNTS l).width = 32 := rfl
@[simp] theorem F.PEER_SAVE_width : (F.PEER_SAVE).width = 1 := rfl
@[simp] theorem F.PEER_STAGE_TAG_width : (F.PEER_STAGE_TAG).width = 32 := rfl
@[simp] theorem F.PEER_LOAD_SRC_width : (F.PEER_LOAD_SRC).width = 2 := rfl
@[simp] theorem F.SAVE_BUSY_width : (F.SAVE_BUSY).width = 1 := rfl
@[simp] theorem F.FREE_COUNT_width : (F.FREE_COUNT).width = 7 := rfl
@[simp] theorem F.REFUSED_ENTRY_width : (F.REFUSED_ENTRY).width = 6 := rfl
@[simp] theorem F.PEER_TAG_width (n : Nat) : (F.PEER_TAG n).width = 32 := rfl
@[simp] theorem F.PEER_KIND_width (n : Nat) : (F.PEER_KIND n).width = 2 := rfl
@[simp] theorem F.PEER_CARRIER_width (n : Nat) : (F.PEER_CARRIER n).width = 1 := rfl
@[simp] theorem F.PEER_LAST_width (n : Nat) : (F.PEER_LAST n).width = 5 := rfl
@[simp] theorem F.PEER_FIRST_width (n : Nat) : (F.PEER_FIRST n).width = 5 := rfl
@[simp] theorem F.PEER_INTR_width (n : Nat) : (F.PEER_INTR n).width = 1 := rfl
@[simp] theorem F.PEER_EVENTS_width (n : Nat) : (F.PEER_EVENTS n).width = 16 := rfl
@[simp] theorem F.CARRIED_MASK_width (n : Nat) : (F.CARRIED_MASK n).width = 32 := rfl
@[simp] theorem F.SC_ASSIGNED_width (k : Nat) : (F.SC_ASSIGNED k).width = 8 := rfl
@[simp] theorem F.SC_CAP_width (k : Nat) : (F.SC_CAP k).width = 8 := rfl
@[simp] theorem F.HK_CAL_START_width : (F.HK_CAL_START).width = 1 := rfl
@[simp] theorem F.HK_CAL_VALID_width : (F.HK_CAL_VALID).width = 1 := rfl
@[simp] theorem F.HK_CAL_BUSY_width : (F.HK_CAL_BUSY).width = 1 := rfl
@[simp] theorem F.HK_GAIN_width : (F.HK_GAIN).width = 16 := rfl
@[simp] theorem F.HK_OFFSET_width : (F.HK_OFFSET).width = 16 := rfl
@[simp] theorem F.OVR_SLOT_width : (F.OVR_SLOT).width = 5 := rfl
@[simp] theorem F.CLIP_CH_width : (F.CLIP_CH).width = 5 := rfl
@[simp] theorem F.RANGE_CH_width : (F.RANGE_CH).width = 5 := rfl
@[simp] theorem F.FAULT_CH_width : (F.FAULT_CH).width = 5 := rfl
@[simp] theorem F.HK_INPUT_width (i : Nat) : (F.HK_INPUT i).width = 5 := rfl
@[simp] theorem F.HK_OVR_width (i : Nat) : (F.HK_OVR i).width = 1 := rfl
@[simp] theorem F.HK_SETTLED_width (i : Nat) : (F.HK_SETTLED i).width = 1 := rfl
@[simp] theorem F.HK_DATA_width (i : Nat) : (F.HK_DATA i).width = 16 := rfl
@[simp] theorem F.BC_KI_width (n : Nat) : (F.BC_KI n).width = 4 := rfl
@[simp] theorem F.BC_SLOT_width (n : Nat) : (F.BC_SLOT n).width = 5 := rfl
@[simp] theorem F.LOOP_SIGN_width (n : Nat) : (F.LOOP_SIGN n).width = 1 := rfl
@[simp] theorem F.BC_HARM_width (n : Nat) : (F.BC_HARM n).width = 1 := rfl
@[simp] theorem F.BC_RANGE_width (n : Nat) : (F.BC_RANGE n).width = 1 := rfl
@[simp] theorem F.BC_MODE_width (n : Nat) : (F.BC_MODE n).width = 2 := rfl
@[simp] theorem F.PHASE_INC_width (n : Nat) : (F.PHASE_INC n).width = 32 := rfl
@[simp] theorem F.TONE_N_LOG2_width (n : Nat) : (F.TONE_N_LOG2 n).width = 4 := rfl
@[simp] theorem F.DITHER_AMP_width (n : Nat) : (F.DITHER_AMP n).width = 12 := rfl
@[simp] theorem F.BC_SLEW_width (n : Nat) : (F.BC_SLEW n).width = 16 := rfl
@[simp] theorem F.TONE_ROT_width (n : Nat) : (F.TONE_ROT n).width = 16 := rfl
@[simp] theorem F.TONE_TARGET_width (n : Nat) : (F.TONE_TARGET n).width = 16 := rfl
@[simp] theorem F.SETPOINT_width (n : Nat) : (F.SETPOINT n).width = 16 := rfl
@[simp] theorem F.BC_CODE_width (n : Nat) : (F.BC_CODE n).width = 16 := rfl
@[simp] theorem F.BC_TARGET_width (n : Nat) : (F.BC_TARGET n).width = 16 := rfl
@[simp] theorem F.TONE_I_width (n : Nat) : (F.TONE_I n).width = 16 := rfl
@[simp] theorem F.TONE_Q_width (n : Nat) : (F.TONE_Q n).width = 16 := rfl
@[simp] theorem F.TONE_SEQ_width (n : Nat) : (F.TONE_SEQ n).width = 16 := rfl
@[simp] theorem F.SAVED_RANGE_width (n : Nat) : (F.SAVED_RANGE n).width = 1 := rfl
@[simp] theorem F.SAVED_VALID_width (n : Nat) : (F.SAVED_VALID n).width = 1 := rfl
@[simp] theorem F.FAULT_CAUSE_width (n : Nat) : (F.FAULT_CAUSE n).width = 3 := rfl
@[simp] theorem F.BC_STATE_width (n : Nat) : (F.BC_STATE n).width = 3 := rfl
@[simp] theorem F.SAVED_width (n : Nat) : (F.SAVED n).width = 16 := rfl
@[simp] theorem F.LP_SRC_width : (F.LP_SRC).width = 1 := rfl
@[simp] theorem F.TX_CHANNEL_width (c : Nat) : (F.TX_CHANNEL c).width = 16 := rfl
@[simp] theorem F.TX_FINE_width (c : Nat) : (F.TX_FINE c).width = 16 := rfl
@[simp] theorem F.LO_CHANNEL_width (c : Nat) : (F.LO_CHANNEL c).width = 16 := rfl
@[simp] theorem F.LO_FINE_width (c : Nat) : (F.LO_FINE c).width = 16 := rfl
@[simp] theorem F.TX_POWER_width (c : Nat) : (F.TX_POWER c).width = 16 := rfl
@[simp] theorem F.LO_POWER_width (c : Nat) : (F.LO_POWER c).width = 16 := rfl
@[simp] theorem F.PORT_EN_width (c : Nat) : (F.PORT_EN c).width = 1 := rfl
@[simp] theorem F.LO_EN_width (c : Nat) : (F.LO_EN c).width = 1 := rfl
@[simp] theorem F.REFUSED_CMD_width (c : Nat) : (F.REFUSED_CMD c).width = 8 := rfl
@[simp] theorem F.LO_STATUS_width (c : Nat) : (F.LO_STATUS c).width = 4 := rfl
@[simp] theorem F.TX_LSTATUS_width (c : Nat) : (F.TX_LSTATUS c).width = 4 := rfl
@[simp] theorem F.TX_READ_POWER_width (c : Nat) : (F.TX_READ_POWER c).width = 16 := rfl
@[simp] theorem F.LO_READ_POWER_width (c : Nat) : (F.LO_READ_POWER c).width = 16 := rfl
@[simp] theorem F.N_MAX_width (c : Nat) : (F.N_MAX c).width = 16 := rfl
@[simp] theorem F.N_MIN_width (c : Nat) : (F.N_MIN c).width = 16 := rfl
@[simp] theorem F.PWR_LO_MAX_width (c : Nat) : (F.PWR_LO_MAX c).width = 16 := rfl
@[simp] theorem F.PWR_TX_MAX_width (c : Nat) : (F.PWR_TX_MAX c).width = 16 := rfl
@[simp] theorem F.TARGET_width (d : Nat) : (F.TARGET d).width = 2 := rfl
@[simp] theorem F.WAKE_STEP_width (d : Nat) : (F.WAKE_STEP d).width = 2 := rfl

end Sys2Proof.Machine
end

