-- ==== Sys2Proof/Laws/Table.lean ====
section
/-! SUPPORT. Sparse tables: a read after a write, and the canonical form that every table operation keeps. -/
namespace Sys2Proof.Machine

theorem tfind_tdel_self {α : Type} (t : Tab α) (i : Nat) : tfind (tdel t i) i = none := by
  induction t with
  | nil => rfl
  | cons e t ih =>
    obtain ⟨k, v⟩ := e
    by_cases h : i = k
    · simpa [tdel, h] using h ▸ ih
    · simpa [tdel, tfind, h] using ih

theorem tfind_tdel_ne {α : Type} (t : Tab α) {i j : Nat} (h : j ≠ i) : tfind (tdel t i) j = tfind t j := by
  induction t with
  | nil => rfl
  | cons e t ih =>
    obtain ⟨k, v⟩ := e
    by_cases hk : i = k
    · subst hk; simpa [tdel, tfind, h] using ih
    · by_cases hj : j = k
      · simp [tdel, tfind, hk, hj]
      · simpa [tdel, tfind, hk, hj] using ih

theorem tfind_tput_self {α : Type} (t : Tab α) (i : Nat) (x : α) : tfind (tput t i x) i = some x := by
  induction t with
  | nil => simp [tput, tfind]
  | cons e t ih =>
    obtain ⟨k, v⟩ := e
    by_cases h1 : i < k
    · simp [tput, tfind, h1]
    · by_cases h2 : i = k
      · simp [tput, tfind, h2]
      · simpa [tput, tfind, h1, h2] using ih

theorem tfind_tput_ne {α : Type} (t : Tab α) {i j : Nat} (x : α) (h : j ≠ i) : tfind (tput t i x) j = tfind t j := by
  induction t with
  | nil => simp [tput, tfind, h]
  | cons e t ih =>
    obtain ⟨k, v⟩ := e
    by_cases h1 : i < k
    · simp [tput, tfind, h1, h]
    · by_cases h2 : i = k
      · subst h2; simp [tput, tfind, h]
      · by_cases h3 : j = k
        · simp [tput, tfind, h1, h2, h3]
        · simpa [tput, tfind, h1, h2, h3] using ih

/-- A key reads as it was put. -/
@[simp] theorem tget_tput_self {α : Type} (t : Tab α) (i : Nat) (x d : α) : tget (tput t i x) i d = x := by
  simp [tget, tfind_tput_self]

theorem tget_tput_ne {α : Type} (t : Tab α) {i j : Nat} (x d : α) (h : j ≠ i) : tget (tput t i x) j d = tget t j d := by
  simp [tget, tfind_tput_ne t x h]

/-- An unlisted key reads as the default. -/
@[simp] theorem tget_tdel_self {α : Type} (t : Tab α) (i : Nat) (d : α) : tget (tdel t i) i d = d := by
  simp [tget, tfind_tdel_self]

theorem tget_tdel_ne {α : Type} (t : Tab α) {i j : Nat} (d : α) (h : j ≠ i) : tget (tdel t i) j d = tget t j d := by
  simp [tget, tfind_tdel_ne t h]

/-- A key reads as it was set. -/
@[simp] theorem tget_tset_self {α : Type} [DecidableEq α] (t : Tab α) (i : Nat) (x d : α) :
    tget (tset t i x d) i d = x := by
  unfold tset; split <;> simp_all

theorem tget_tset_ne {α : Type} [DecidableEq α] (t : Tab α) {i j : Nat} (x d d' : α) (h : j ≠ i) :
    tget (tset t i x d) j d' = tget t j d' := by
  unfold tset; split <;> simp [tget_tdel_ne, tget_tput_ne, h]

@[simp] theorem tget_nil {α : Type} (i : Nat) (d : α) : tget ([] : Tab α) i d = d := rfl

/-! ### Canonical form -/

/-- Every key of a table is above `k`. -/
def Laws.above {α : Type} (k : Nat) (t : Tab α) : Prop := ∀ e ∈ t, k < e.1

theorem trising_cons {α : Type} (k : Nat) (v : α) (t : Tab α) :
    trising ((k, v) :: t) = true ↔ Laws.above k t ∧ trising t = true := by
  induction t generalizing k v with
  | nil => simp [trising, Laws.above]
  | cons e t ih =>
    obtain ⟨k', v'⟩ := e
    simp only [trising, Bool.and_eq_true, decide_eq_true_eq, Laws.above, List.mem_cons, forall_eq_or_imp]
    constructor
    · rintro ⟨h, ht⟩
      exact ⟨⟨h, fun e he => Nat.lt_trans h (((ih k' v').1 ht).1 e he)⟩, ht⟩
    · rintro ⟨⟨h, -⟩, ht⟩
      exact ⟨h, ht⟩

theorem above_tdel {α : Type} {k : Nat} {t : Tab α} (i : Nat) (h : Laws.above k t) : Laws.above k (tdel t i) := by
  induction t with
  | nil => exact h
  | cons e t ih =>
    obtain ⟨k', v'⟩ := e
    have ht : Laws.above k t := fun e he => h e (List.mem_cons_of_mem _ he)
    by_cases hi : i = k'
    · simpa [tdel, hi] using hi ▸ ih ht
    · intro e he
      simp only [tdel, hi, if_false, List.mem_cons] at he
      rcases he with rfl | he
      · exact h _ (List.mem_cons_self ..)
      · exact ih ht e he

theorem above_tput {α : Type} {k : Nat} {t : Tab α} {i : Nat} (x : α) (hi : k < i) (h : Laws.above k t) :
    Laws.above k (tput t i x) := by
  induction t with
  | nil => intro e he; simp [tput] at he; subst he; exact hi
  | cons e t ih =>
    obtain ⟨k', v'⟩ := e
    have ht : Laws.above k t := fun e he => h e (List.mem_cons_of_mem _ he)
    have hk := h (k', v') (List.mem_cons_self ..)
    intro e he
    unfold tput at he
    split at he
    · simp only [List.mem_cons] at he; rcases he with rfl | rfl | he
      · exact hi
      · exact hk
      · exact ht e he
    · split at he
      · simp only [List.mem_cons] at he; rcases he with rfl | he
        · exact hi
        · exact ht e he
      · simp only [List.mem_cons] at he; rcases he with rfl | he
        · exact hk
        · exact ih ht e he

/-- Unlisting a key keeps the canonical form. -/
theorem trising_tdel {α : Type} {t : Tab α} (i : Nat) (h : trising t = true) : trising (tdel t i) = true := by
  induction t with
  | nil => exact h
  | cons e t ih =>
    obtain ⟨k, v⟩ := e
    obtain ⟨ha, ht⟩ := (trising_cons k v t).1 h
    by_cases hi : i = k
    · simpa [tdel, hi] using hi ▸ ih ht
    · simpa [tdel, hi, trising_cons] using ⟨above_tdel i ha, ih ht⟩

/-- Listing a key keeps the canonical form. -/
theorem trising_tput {α : Type} {t : Tab α} (i : Nat) (x : α) (h : trising t = true) : trising (tput t i x) = true := by
  induction t with
  | nil => rfl
  | cons e t ih =>
    obtain ⟨k, v⟩ := e
    obtain ⟨ha, ht⟩ := (trising_cons k v t).1 h
    unfold tput
    split
    · rename_i hi
      refine (trising_cons ..).2 ⟨?_, h⟩
      intro e he
      rcases List.mem_cons.1 he with rfl | he
      · exact hi
      · exact Nat.lt_trans hi (ha e he)
    · split
      · rename_i hi; subst hi; exact (trising_cons ..).2 ⟨ha, ht⟩
      · exact (trising_cons ..).2 ⟨above_tput x (by omega) ha, ih ht⟩

/-- Setting a key keeps the canonical form. -/
theorem trising_tset {α : Type} [DecidableEq α] {t : Tab α} (i : Nat) (x d : α) (h : trising t = true) :
    trising (tset t i x d) = true := by
  unfold tset; split
  · exact trising_tdel i h
  · exact trising_tput i x h

/-- A filter keeps the canonical form. -/
theorem trising_filter {α : Type} {t : Tab α} (p : Nat × α → Bool) (h : trising t = true) :
    trising (t.filter p) = true := by
  induction t with
  | nil => exact h
  | cons e t ih =>
    obtain ⟨k, v⟩ := e
    obtain ⟨ha, ht⟩ := (trising_cons k v t).1 h
    by_cases hp : p (k, v) = true
    · rw [List.filter_cons_of_pos hp]
      exact (trising_cons ..).2 ⟨fun e he => ha e (List.mem_filter.1 he).1, ih ht⟩
    · rw [List.filter_cons_of_neg hp]; exact ih ht

/-- No entry of a table holds the value that an unlisted key reads as. -/
def Laws.noDefault {α : Type} (d : α) (t : Tab α) : Prop := ∀ e ∈ t, e.2 ≠ d

theorem noDefault_tdel {α : Type} {d : α} {t : Tab α} (i : Nat) (h : Laws.noDefault d t) :
    Laws.noDefault d (tdel t i) := by
  induction t with
  | nil => exact h
  | cons e t ih =>
    obtain ⟨k, v⟩ := e
    have ht : Laws.noDefault d t := fun e he => h e (List.mem_cons_of_mem _ he)
    by_cases hi : i = k
    · simpa [tdel, hi] using hi ▸ ih ht
    · intro e he
      simp only [tdel, hi, if_false, List.mem_cons] at he
      rcases he with rfl | he
      · exact h _ (List.mem_cons_self ..)
      · exact ih ht e he

theorem noDefault_tput {α : Type} {d x : α} {t : Tab α} (i : Nat) (hx : x ≠ d) (h : Laws.noDefault d t) :
    Laws.noDefault d (tput t i x) := by
  induction t with
  | nil => intro e he; simp [tput] at he; subst he; exact hx
  | cons e t ih =>
    obtain ⟨k, v⟩ := e
    have ht : Laws.noDefault d t := fun e he => h e (List.mem_cons_of_mem _ he)
    have hk := h (k, v) (List.mem_cons_self ..)
    intro e he
    unfold tput at he
    split at he
    · simp only [List.mem_cons] at he; rcases he with rfl | rfl | he
      · exact hx
      · exact hk
      · exact ht e he
    · split at he
      · simp only [List.mem_cons] at he; rcases he with rfl | he
        · exact hx
        · exact ht e he
      · simp only [List.mem_cons] at he; rcases he with rfl | he
        · exact hk
        · exact ih ht e he

theorem noDefault_tset {α : Type} [DecidableEq α] {d : α} {t : Tab α} (i : Nat) (x : α) (h : Laws.noDefault d t) :
    Laws.noDefault d (tset t i x d) := by
  unfold tset; split
  · exact noDefault_tdel i h
  · exact noDefault_tput i ‹_› h

end Sys2Proof.Machine
end

