-- ==== Sys2Proof/Laws/State.lean ====
section
/-! SUPPORT. Reads after updates of the state: what every field reads as after it was set, and one lemma per component
for each update that leaves it. -/
namespace Sys2Proof.Machine

/-! ### Fields -/

/-- A field reads as it was set, to its width. -/
@[simp] theorem getF_setF_self (s : State) (f : Fld) (v : Nat) : getF (setF s f v) f = v % 2 ^ f.width := by
  simp [getF, setF]

/-- A field of another place reads as before. -/
theorem getF_setF_ne (s : State) {f g : Fld} (v : Nat) (h : g.key ≠ f.key) : getF (setF s f v) g = getF s g := by
  simp [getF, setF, tget_tset_ne, h]

@[simp] theorem getB_setB_self (s : State) (f : Fld) (b : Bool) (h : f.width ≠ 0) : getB (setB s f b) f = b := by
  have h1 : 1 % 2 ^ f.width = 1 := Nat.mod_eq_of_lt (Nat.one_lt_two_pow h)
  cases b <;> simp [getB, setB, h1]

theorem getF_setB_ne (s : State) {f g : Fld} (b : Bool) (h : g.key ≠ f.key) : getF (setB s f b) g = getF s g :=
  getF_setF_ne s _ h

theorem getF_setS_ne (s : State) {f g : Fld} (i : Int) (h : g.key ≠ f.key) : getF (setS s f i) g = getF s g :=
  getF_setF_ne s _ h

theorem getF_addF_ne (s : State) {f g : Fld} (n : Nat) (h : g.key ≠ f.key) : getF (addF s f n) g = getF s g :=
  getF_setF_ne s _ h

theorem getF_satF_ne (s : State) {f g : Fld} (n : Nat) (h : g.key ≠ f.key) : getF (satF s f n) g = getF s g :=
  getF_setF_ne s _ h

theorem getB_setF_ne (s : State) {f g : Fld} (v : Nat) (h : g.key ≠ f.key) : getB (setF s f v) g = getB s g := by
  simp [getB, getF_setF_ne s v h]

theorem getB_setB_ne (s : State) {f g : Fld} (b : Bool) (h : g.key ≠ f.key) : getB (setB s f b) g = getB s g :=
  getB_setF_ne s _ h

/-- Fields read from the register file alone. -/
theorem getF_of_regs {s t : State} (h : t.regs = s.regs) (f : Fld) : getF t f = getF s f := by simp [getF, h]

theorem getB_of_regs {s t : State} (h : t.regs = s.regs) (f : Fld) : getB t f = getB s f := by simp [getB, getF, h]

/-- Several fields set in order leave every other field. -/
theorem getF_setFs_ne (s : State) (l : List (Fld × Nat)) (g : Fld) (h : ∀ p ∈ l, g.key ≠ p.1.key) :
    getF (setFs s l) g = getF s g := by
  induction l generalizing s with
  | nil => rfl
  | cons p l ih =>
    exact (ih (setF s p.1 p.2) fun q hq => h q (List.mem_cons_of_mem _ hq)).trans
      (getF_setF_ne s p.2 (h p (List.mem_cons_self ..)))

@[simp] theorem setFs_nil (s : State) : setFs s [] = s := rfl
@[simp] theorem setFs_cons (s : State) (p : Fld × Nat) (l : List (Fld × Nat)) :
    setFs s (p :: l) = setFs (setF s p.1 p.2) l := rfl

/-! ### Domains and zones -/

@[simp] theorem domAt_setDom_self (s : State) {d : Nat} (x : DomSt) (h : d ≠ 0) : domAt (setDom s d x) d = x := by
  simp [domAt, setDom, h]

theorem domAt_setDom_ne (s : State) {d e : Nat} (x : DomSt) (h : e ≠ d) : domAt (setDom s d x) e = domAt s e := by
  simp [domAt, setDom, tget_tset_ne, h]

@[simp] theorem zoneAt_setZone_self (s : State) (z : Nat) (x : ZoneSt) : zoneAt (setZone s z x) z = x := by
  simp [zoneAt, setZone]

theorem zoneAt_setZone_ne (s : State) {y z : Nat} (x : ZoneSt) (h : y ≠ z) : zoneAt (setZone s z x) y = zoneAt s y := by
  simp [zoneAt, setZone, tget_tset_ne, h]

/-! ### Components -/

@[simp] theorem setF_pending (s : State) (f : Fld) (v : Nat) : (setF s f v).pending = s.pending := rfl
@[simp] theorem setF_ev (s : State) (f : Fld) (v : Nat) : (setF s f v).ev = s.ev := rfl
@[simp] theorem setF_ldg (s : State) (f : Fld) (v : Nat) : (setF s f v).ldg = s.ldg := rfl
@[simp] theorem setF_time (s : State) (f : Fld) (v : Nat) : (setF s f v).time = s.time := rfl
@[simp] theorem setF_mp (s : State) (f : Fld) (v : Nat) : (setF s f v).mp = s.mp := rfl
@[simp] theorem setF_pw (s : State) (f : Fld) (v : Nat) : (setF s f v).pw = s.pw := rfl
@[simp] theorem setF_ld (s : State) (f : Fld) (v : Nat) : (setF s f v).ld = s.ld := rfl
@[simp] theorem setF_zones (s : State) (f : Fld) (v : Nat) : (setF s f v).zones = s.zones := rfl
@[simp] theorem setF_st (s : State) (f : Fld) (v : Nat) : (setF s f v).st = s.st := rfl
@[simp] theorem setF_tx (s : State) (f : Fld) (v : Nat) : (setF s f v).tx = s.tx := rfl
@[simp] theorem setF_rx (s : State) (f : Fld) (v : Nat) : (setF s f v).rx = s.rx := rfl
@[simp] theorem setF_fth (s : State) (f : Fld) (v : Nat) : (setF s f v).fth = s.fth := rfl
@[simp] theorem setF_fec (s : State) (f : Fld) (v : Nat) : (setF s f v).fec = s.fec := rfl
@[simp] theorem setF_host (s : State) (f : Fld) (v : Nat) : (setF s f v).host = s.host := rfl
@[simp] theorem setF_bias (s : State) (f : Fld) (v : Nat) : (setF s f v).bias = s.bias := rfl
@[simp] theorem setF_cal (s : State) (f : Fld) (v : Nat) : (setF s f v).cal = s.cal := rfl
@[simp] theorem setF_lp (s : State) (f : Fld) (v : Nat) : (setF s f v).lp = s.lp := rfl
@[simp] theorem setF_prot (s : State) (f : Fld) (v : Nat) : (setF s f v).prot = s.prot := rfl
@[simp] theorem setF_avs (s : State) (f : Fld) (v : Nat) : (setF s f v).avs = s.avs := rfl
@[simp] theorem setF_therm (s : State) (f : Fld) (v : Nat) : (setF s f v).therm = s.therm := rfl
@[simp] theorem setF_fab (s : State) (f : Fld) (v : Nat) : (setF s f v).fab = s.fab := rfl
@[simp] theorem setF_chn (s : State) (f : Fld) (v : Nat) : (setF s f v).chn = s.chn := rfl
@[simp] theorem setF_stw (s : State) (f : Fld) (v : Nat) : (setF s f v).stw = s.stw := rfl
@[simp] theorem setF_bist (s : State) (f : Fld) (v : Nat) : (setF s f v).bist = s.bist := rfl
@[simp] theorem setF_sec (s : State) (f : Fld) (v : Nat) : (setF s f v).sec = s.sec := rfl
@[simp] theorem setF_freeCnt (s : State) (f : Fld) (v : Nat) : (setF s f v).freeCnt = s.freeCnt := rfl

@[simp] theorem setB_pending (s : State) (f : Fld) (b : Bool) : (setB s f b).pending = s.pending := rfl
@[simp] theorem setB_ev (s : State) (f : Fld) (b : Bool) : (setB s f b).ev = s.ev := rfl
@[simp] theorem setB_ldg (s : State) (f : Fld) (b : Bool) : (setB s f b).ldg = s.ldg := rfl
@[simp] theorem setB_time (s : State) (f : Fld) (b : Bool) : (setB s f b).time = s.time := rfl
@[simp] theorem setB_mp (s : State) (f : Fld) (b : Bool) : (setB s f b).mp = s.mp := rfl
@[simp] theorem setB_pw (s : State) (f : Fld) (b : Bool) : (setB s f b).pw = s.pw := rfl
@[simp] theorem setB_ld (s : State) (f : Fld) (b : Bool) : (setB s f b).ld = s.ld := rfl
@[simp] theorem setB_zones (s : State) (f : Fld) (b : Bool) : (setB s f b).zones = s.zones := rfl
@[simp] theorem setB_st (s : State) (f : Fld) (b : Bool) : (setB s f b).st = s.st := rfl
@[simp] theorem setB_tx (s : State) (f : Fld) (b : Bool) : (setB s f b).tx = s.tx := rfl
@[simp] theorem setB_rx (s : State) (f : Fld) (b : Bool) : (setB s f b).rx = s.rx := rfl
@[simp] theorem setB_fth (s : State) (f : Fld) (b : Bool) : (setB s f b).fth = s.fth := rfl
@[simp] theorem setB_fec (s : State) (f : Fld) (b : Bool) : (setB s f b).fec = s.fec := rfl
@[simp] theorem setB_host (s : State) (f : Fld) (b : Bool) : (setB s f b).host = s.host := rfl
@[simp] theorem setB_bias (s : State) (f : Fld) (b : Bool) : (setB s f b).bias = s.bias := rfl
@[simp] theorem setB_cal (s : State) (f : Fld) (b : Bool) : (setB s f b).cal = s.cal := rfl
@[simp] theorem setB_lp (s : State) (f : Fld) (b : Bool) : (setB s f b).lp = s.lp := rfl
@[simp] theorem setB_prot (s : State) (f : Fld) (b : Bool) : (setB s f b).prot = s.prot := rfl
@[simp] theorem setB_avs (s : State) (f : Fld) (b : Bool) : (setB s f b).avs = s.avs := rfl
@[simp] theorem setB_therm (s : State) (f : Fld) (b : Bool) : (setB s f b).therm = s.therm := rfl
@[simp] theorem setB_fab (s : State) (f : Fld) (b : Bool) : (setB s f b).fab = s.fab := rfl
@[simp] theorem setB_chn (s : State) (f : Fld) (b : Bool) : (setB s f b).chn = s.chn := rfl
@[simp] theorem setB_stw (s : State) (f : Fld) (b : Bool) : (setB s f b).stw = s.stw := rfl
@[simp] theorem setB_bist (s : State) (f : Fld) (b : Bool) : (setB s f b).bist = s.bist := rfl
@[simp] theorem setB_sec (s : State) (f : Fld) (b : Bool) : (setB s f b).sec = s.sec := rfl
@[simp] theorem setB_freeCnt (s : State) (f : Fld) (b : Bool) : (setB s f b).freeCnt = s.freeCnt := rfl

@[simp] theorem setS_pending (s : State) (f : Fld) (i : Int) : (setS s f i).pending = s.pending := rfl
@[simp] theorem setS_ev (s : State) (f : Fld) (i : Int) : (setS s f i).ev = s.ev := rfl
@[simp] theorem setS_ldg (s : State) (f : Fld) (i : Int) : (setS s f i).ldg = s.ldg := rfl
@[simp] theorem setS_time (s : State) (f : Fld) (i : Int) : (setS s f i).time = s.time := rfl
@[simp] theorem setS_mp (s : State) (f : Fld) (i : Int) : (setS s f i).mp = s.mp := rfl
@[simp] theorem setS_pw (s : State) (f : Fld) (i : Int) : (setS s f i).pw = s.pw := rfl
@[simp] theorem setS_ld (s : State) (f : Fld) (i : Int) : (setS s f i).ld = s.ld := rfl
@[simp] theorem setS_zones (s : State) (f : Fld) (i : Int) : (setS s f i).zones = s.zones := rfl
@[simp] theorem setS_st (s : State) (f : Fld) (i : Int) : (setS s f i).st = s.st := rfl
@[simp] theorem setS_tx (s : State) (f : Fld) (i : Int) : (setS s f i).tx = s.tx := rfl
@[simp] theorem setS_rx (s : State) (f : Fld) (i : Int) : (setS s f i).rx = s.rx := rfl
@[simp] theorem setS_fth (s : State) (f : Fld) (i : Int) : (setS s f i).fth = s.fth := rfl
@[simp] theorem setS_fec (s : State) (f : Fld) (i : Int) : (setS s f i).fec = s.fec := rfl
@[simp] theorem setS_host (s : State) (f : Fld) (i : Int) : (setS s f i).host = s.host := rfl
@[simp] theorem setS_bias (s : State) (f : Fld) (i : Int) : (setS s f i).bias = s.bias := rfl
@[simp] theorem setS_cal (s : State) (f : Fld) (i : Int) : (setS s f i).cal = s.cal := rfl
@[simp] theorem setS_lp (s : State) (f : Fld) (i : Int) : (setS s f i).lp = s.lp := rfl
@[simp] theorem setS_prot (s : State) (f : Fld) (i : Int) : (setS s f i).prot = s.prot := rfl
@[simp] theorem setS_avs (s : State) (f : Fld) (i : Int) : (setS s f i).avs = s.avs := rfl
@[simp] theorem setS_therm (s : State) (f : Fld) (i : Int) : (setS s f i).therm = s.therm := rfl
@[simp] theorem setS_fab (s : State) (f : Fld) (i : Int) : (setS s f i).fab = s.fab := rfl
@[simp] theorem setS_chn (s : State) (f : Fld) (i : Int) : (setS s f i).chn = s.chn := rfl
@[simp] theorem setS_stw (s : State) (f : Fld) (i : Int) : (setS s f i).stw = s.stw := rfl
@[simp] theorem setS_bist (s : State) (f : Fld) (i : Int) : (setS s f i).bist = s.bist := rfl
@[simp] theorem setS_sec (s : State) (f : Fld) (i : Int) : (setS s f i).sec = s.sec := rfl
@[simp] theorem setS_freeCnt (s : State) (f : Fld) (i : Int) : (setS s f i).freeCnt = s.freeCnt := rfl

@[simp] theorem addF_pending (s : State) (f : Fld) (n : Nat) : (addF s f n).pending = s.pending := rfl
@[simp] theorem addF_ev (s : State) (f : Fld) (n : Nat) : (addF s f n).ev = s.ev := rfl
@[simp] theorem addF_ldg (s : State) (f : Fld) (n : Nat) : (addF s f n).ldg = s.ldg := rfl
@[simp] theorem addF_time (s : State) (f : Fld) (n : Nat) : (addF s f n).time = s.time := rfl
@[simp] theorem addF_mp (s : State) (f : Fld) (n : Nat) : (addF s f n).mp = s.mp := rfl
@[simp] theorem addF_pw (s : State) (f : Fld) (n : Nat) : (addF s f n).pw = s.pw := rfl
@[simp] theorem addF_ld (s : State) (f : Fld) (n : Nat) : (addF s f n).ld = s.ld := rfl
@[simp] theorem addF_zones (s : State) (f : Fld) (n : Nat) : (addF s f n).zones = s.zones := rfl
@[simp] theorem addF_st (s : State) (f : Fld) (n : Nat) : (addF s f n).st = s.st := rfl
@[simp] theorem addF_tx (s : State) (f : Fld) (n : Nat) : (addF s f n).tx = s.tx := rfl
@[simp] theorem addF_rx (s : State) (f : Fld) (n : Nat) : (addF s f n).rx = s.rx := rfl
@[simp] theorem addF_fth (s : State) (f : Fld) (n : Nat) : (addF s f n).fth = s.fth := rfl
@[simp] theorem addF_fec (s : State) (f : Fld) (n : Nat) : (addF s f n).fec = s.fec := rfl
@[simp] theorem addF_host (s : State) (f : Fld) (n : Nat) : (addF s f n).host = s.host := rfl
@[simp] theorem addF_bias (s : State) (f : Fld) (n : Nat) : (addF s f n).bias = s.bias := rfl
@[simp] theorem addF_cal (s : State) (f : Fld) (n : Nat) : (addF s f n).cal = s.cal := rfl
@[simp] theorem addF_lp (s : State) (f : Fld) (n : Nat) : (addF s f n).lp = s.lp := rfl
@[simp] theorem addF_prot (s : State) (f : Fld) (n : Nat) : (addF s f n).prot = s.prot := rfl
@[simp] theorem addF_avs (s : State) (f : Fld) (n : Nat) : (addF s f n).avs = s.avs := rfl
@[simp] theorem addF_therm (s : State) (f : Fld) (n : Nat) : (addF s f n).therm = s.therm := rfl
@[simp] theorem addF_fab (s : State) (f : Fld) (n : Nat) : (addF s f n).fab = s.fab := rfl
@[simp] theorem addF_chn (s : State) (f : Fld) (n : Nat) : (addF s f n).chn = s.chn := rfl
@[simp] theorem addF_stw (s : State) (f : Fld) (n : Nat) : (addF s f n).stw = s.stw := rfl
@[simp] theorem addF_bist (s : State) (f : Fld) (n : Nat) : (addF s f n).bist = s.bist := rfl
@[simp] theorem addF_sec (s : State) (f : Fld) (n : Nat) : (addF s f n).sec = s.sec := rfl
@[simp] theorem addF_freeCnt (s : State) (f : Fld) (n : Nat) : (addF s f n).freeCnt = s.freeCnt := rfl

@[simp] theorem satF_pending (s : State) (f : Fld) (n : Nat) : (satF s f n).pending = s.pending := rfl
@[simp] theorem satF_ev (s : State) (f : Fld) (n : Nat) : (satF s f n).ev = s.ev := rfl
@[simp] theorem satF_ldg (s : State) (f : Fld) (n : Nat) : (satF s f n).ldg = s.ldg := rfl
@[simp] theorem satF_time (s : State) (f : Fld) (n : Nat) : (satF s f n).time = s.time := rfl
@[simp] theorem satF_mp (s : State) (f : Fld) (n : Nat) : (satF s f n).mp = s.mp := rfl
@[simp] theorem satF_pw (s : State) (f : Fld) (n : Nat) : (satF s f n).pw = s.pw := rfl
@[simp] theorem satF_ld (s : State) (f : Fld) (n : Nat) : (satF s f n).ld = s.ld := rfl
@[simp] theorem satF_zones (s : State) (f : Fld) (n : Nat) : (satF s f n).zones = s.zones := rfl
@[simp] theorem satF_st (s : State) (f : Fld) (n : Nat) : (satF s f n).st = s.st := rfl
@[simp] theorem satF_tx (s : State) (f : Fld) (n : Nat) : (satF s f n).tx = s.tx := rfl
@[simp] theorem satF_rx (s : State) (f : Fld) (n : Nat) : (satF s f n).rx = s.rx := rfl
@[simp] theorem satF_fth (s : State) (f : Fld) (n : Nat) : (satF s f n).fth = s.fth := rfl
@[simp] theorem satF_fec (s : State) (f : Fld) (n : Nat) : (satF s f n).fec = s.fec := rfl
@[simp] theorem satF_host (s : State) (f : Fld) (n : Nat) : (satF s f n).host = s.host := rfl
@[simp] theorem satF_bias (s : State) (f : Fld) (n : Nat) : (satF s f n).bias = s.bias := rfl
@[simp] theorem satF_cal (s : State) (f : Fld) (n : Nat) : (satF s f n).cal = s.cal := rfl
@[simp] theorem satF_lp (s : State) (f : Fld) (n : Nat) : (satF s f n).lp = s.lp := rfl
@[simp] theorem satF_prot (s : State) (f : Fld) (n : Nat) : (satF s f n).prot = s.prot := rfl
@[simp] theorem satF_avs (s : State) (f : Fld) (n : Nat) : (satF s f n).avs = s.avs := rfl
@[simp] theorem satF_therm (s : State) (f : Fld) (n : Nat) : (satF s f n).therm = s.therm := rfl
@[simp] theorem satF_fab (s : State) (f : Fld) (n : Nat) : (satF s f n).fab = s.fab := rfl
@[simp] theorem satF_chn (s : State) (f : Fld) (n : Nat) : (satF s f n).chn = s.chn := rfl
@[simp] theorem satF_stw (s : State) (f : Fld) (n : Nat) : (satF s f n).stw = s.stw := rfl
@[simp] theorem satF_bist (s : State) (f : Fld) (n : Nat) : (satF s f n).bist = s.bist := rfl
@[simp] theorem satF_sec (s : State) (f : Fld) (n : Nat) : (satF s f n).sec = s.sec := rfl
@[simp] theorem satF_freeCnt (s : State) (f : Fld) (n : Nat) : (satF s f n).freeCnt = s.freeCnt := rfl

@[simp] theorem drew_pending (s : State) : (drew s).pending = s.pending := rfl
@[simp] theorem drew_regs (s : State) : (drew s).regs = s.regs := rfl
@[simp] theorem drew_ev (s : State) : (drew s).ev = s.ev := rfl
@[simp] theorem drew_ldg (s : State) : (drew s).ldg = s.ldg := rfl
@[simp] theorem drew_time (s : State) : (drew s).time = s.time := rfl
@[simp] theorem drew_mp (s : State) : (drew s).mp = s.mp := rfl
@[simp] theorem drew_pw (s : State) : (drew s).pw = s.pw := rfl
@[simp] theorem drew_ld (s : State) : (drew s).ld = s.ld := rfl
@[simp] theorem drew_zones (s : State) : (drew s).zones = s.zones := rfl
@[simp] theorem drew_st (s : State) : (drew s).st = s.st := rfl
@[simp] theorem drew_tx (s : State) : (drew s).tx = s.tx := rfl
@[simp] theorem drew_rx (s : State) : (drew s).rx = s.rx := rfl
@[simp] theorem drew_fth (s : State) : (drew s).fth = s.fth := rfl
@[simp] theorem drew_fec (s : State) : (drew s).fec = s.fec := rfl
@[simp] theorem drew_host (s : State) : (drew s).host = s.host := rfl
@[simp] theorem drew_bias (s : State) : (drew s).bias = s.bias := rfl
@[simp] theorem drew_cal (s : State) : (drew s).cal = s.cal := rfl
@[simp] theorem drew_lp (s : State) : (drew s).lp = s.lp := rfl
@[simp] theorem drew_prot (s : State) : (drew s).prot = s.prot := rfl
@[simp] theorem drew_avs (s : State) : (drew s).avs = s.avs := rfl
@[simp] theorem drew_therm (s : State) : (drew s).therm = s.therm := rfl
@[simp] theorem drew_fab (s : State) : (drew s).fab = s.fab := rfl
@[simp] theorem drew_chn (s : State) : (drew s).chn = s.chn := rfl
@[simp] theorem drew_stw (s : State) : (drew s).stw = s.stw := rfl
@[simp] theorem drew_bist (s : State) : (drew s).bist = s.bist := rfl
@[simp] theorem drew_sec (s : State) : (drew s).sec = s.sec := rfl

@[simp] theorem setDom_pending (s : State) (d : Nat) (x : DomSt) : (setDom s d x).pending = s.pending := rfl
@[simp] theorem setDom_regs (s : State) (d : Nat) (x : DomSt) : (setDom s d x).regs = s.regs := rfl
@[simp] theorem setDom_ev (s : State) (d : Nat) (x : DomSt) : (setDom s d x).ev = s.ev := rfl
@[simp] theorem setDom_ldg (s : State) (d : Nat) (x : DomSt) : (setDom s d x).ldg = s.ldg := rfl
@[simp] theorem setDom_time (s : State) (d : Nat) (x : DomSt) : (setDom s d x).time = s.time := rfl
@[simp] theorem setDom_mp (s : State) (d : Nat) (x : DomSt) : (setDom s d x).mp = s.mp := rfl
@[simp] theorem setDom_ld (s : State) (d : Nat) (x : DomSt) : (setDom s d x).ld = s.ld := rfl
@[simp] theorem setDom_zones (s : State) (d : Nat) (x : DomSt) : (setDom s d x).zones = s.zones := rfl
@[simp] theorem setDom_st (s : State) (d : Nat) (x : DomSt) : (setDom s d x).st = s.st := rfl
@[simp] theorem setDom_tx (s : State) (d : Nat) (x : DomSt) : (setDom s d x).tx = s.tx := rfl
@[simp] theorem setDom_rx (s : State) (d : Nat) (x : DomSt) : (setDom s d x).rx = s.rx := rfl
@[simp] theorem setDom_fth (s : State) (d : Nat) (x : DomSt) : (setDom s d x).fth = s.fth := rfl
@[simp] theorem setDom_fec (s : State) (d : Nat) (x : DomSt) : (setDom s d x).fec = s.fec := rfl
@[simp] theorem setDom_host (s : State) (d : Nat) (x : DomSt) : (setDom s d x).host = s.host := rfl
@[simp] theorem setDom_bias (s : State) (d : Nat) (x : DomSt) : (setDom s d x).bias = s.bias := rfl
@[simp] theorem setDom_cal (s : State) (d : Nat) (x : DomSt) : (setDom s d x).cal = s.cal := rfl
@[simp] theorem setDom_lp (s : State) (d : Nat) (x : DomSt) : (setDom s d x).lp = s.lp := rfl
@[simp] theorem setDom_prot (s : State) (d : Nat) (x : DomSt) : (setDom s d x).prot = s.prot := rfl
@[simp] theorem setDom_avs (s : State) (d : Nat) (x : DomSt) : (setDom s d x).avs = s.avs := rfl
@[simp] theorem setDom_therm (s : State) (d : Nat) (x : DomSt) : (setDom s d x).therm = s.therm := rfl
@[simp] theorem setDom_fab (s : State) (d : Nat) (x : DomSt) : (setDom s d x).fab = s.fab := rfl
@[simp] theorem setDom_chn (s : State) (d : Nat) (x : DomSt) : (setDom s d x).chn = s.chn := rfl
@[simp] theorem setDom_stw (s : State) (d : Nat) (x : DomSt) : (setDom s d x).stw = s.stw := rfl
@[simp] theorem setDom_bist (s : State) (d : Nat) (x : DomSt) : (setDom s d x).bist = s.bist := rfl
@[simp] theorem setDom_sec (s : State) (d : Nat) (x : DomSt) : (setDom s d x).sec = s.sec := rfl
@[simp] theorem setDom_freeCnt (s : State) (d : Nat) (x : DomSt) : (setDom s d x).freeCnt = s.freeCnt := rfl

@[simp] theorem setZone_pending (s : State) (z : Nat) (x : ZoneSt) : (setZone s z x).pending = s.pending := rfl
@[simp] theorem setZone_regs (s : State) (z : Nat) (x : ZoneSt) : (setZone s z x).regs = s.regs := rfl
@[simp] theorem setZone_ev (s : State) (z : Nat) (x : ZoneSt) : (setZone s z x).ev = s.ev := rfl
@[simp] theorem setZone_ldg (s : State) (z : Nat) (x : ZoneSt) : (setZone s z x).ldg = s.ldg := rfl
@[simp] theorem setZone_time (s : State) (z : Nat) (x : ZoneSt) : (setZone s z x).time = s.time := rfl
@[simp] theorem setZone_mp (s : State) (z : Nat) (x : ZoneSt) : (setZone s z x).mp = s.mp := rfl
@[simp] theorem setZone_pw (s : State) (z : Nat) (x : ZoneSt) : (setZone s z x).pw = s.pw := rfl
@[simp] theorem setZone_ld (s : State) (z : Nat) (x : ZoneSt) : (setZone s z x).ld = s.ld := rfl
@[simp] theorem setZone_st (s : State) (z : Nat) (x : ZoneSt) : (setZone s z x).st = s.st := rfl
@[simp] theorem setZone_tx (s : State) (z : Nat) (x : ZoneSt) : (setZone s z x).tx = s.tx := rfl
@[simp] theorem setZone_rx (s : State) (z : Nat) (x : ZoneSt) : (setZone s z x).rx = s.rx := rfl
@[simp] theorem setZone_fth (s : State) (z : Nat) (x : ZoneSt) : (setZone s z x).fth = s.fth := rfl
@[simp] theorem setZone_fec (s : State) (z : Nat) (x : ZoneSt) : (setZone s z x).fec = s.fec := rfl
@[simp] theorem setZone_host (s : State) (z : Nat) (x : ZoneSt) : (setZone s z x).host = s.host := rfl
@[simp] theorem setZone_bias (s : State) (z : Nat) (x : ZoneSt) : (setZone s z x).bias = s.bias := rfl
@[simp] theorem setZone_cal (s : State) (z : Nat) (x : ZoneSt) : (setZone s z x).cal = s.cal := rfl
@[simp] theorem setZone_lp (s : State) (z : Nat) (x : ZoneSt) : (setZone s z x).lp = s.lp := rfl
@[simp] theorem setZone_prot (s : State) (z : Nat) (x : ZoneSt) : (setZone s z x).prot = s.prot := rfl
@[simp] theorem setZone_avs (s : State) (z : Nat) (x : ZoneSt) : (setZone s z x).avs = s.avs := rfl
@[simp] theorem setZone_therm (s : State) (z : Nat) (x : ZoneSt) : (setZone s z x).therm = s.therm := rfl
@[simp] theorem setZone_fab (s : State) (z : Nat) (x : ZoneSt) : (setZone s z x).fab = s.fab := rfl
@[simp] theorem setZone_chn (s : State) (z : Nat) (x : ZoneSt) : (setZone s z x).chn = s.chn := rfl
@[simp] theorem setZone_stw (s : State) (z : Nat) (x : ZoneSt) : (setZone s z x).stw = s.stw := rfl
@[simp] theorem setZone_bist (s : State) (z : Nat) (x : ZoneSt) : (setZone s z x).bist = s.bist := rfl
@[simp] theorem setZone_sec (s : State) (z : Nat) (x : ZoneSt) : (setZone s z x).sec = s.sec := rfl
@[simp] theorem setZone_freeCnt (s : State) (z : Nat) (x : ZoneSt) : (setZone s z x).freeCnt = s.freeCnt := rfl

@[simp] theorem setEv_pending (s : State) (b : EvBlk) (i : Nat) (e : EvSrc) : (setEv s b i e).pending = s.pending := rfl
@[simp] theorem setEv_regs (s : State) (b : EvBlk) (i : Nat) (e : EvSrc) : (setEv s b i e).regs = s.regs := rfl
@[simp] theorem setEv_ldg (s : State) (b : EvBlk) (i : Nat) (e : EvSrc) : (setEv s b i e).ldg = s.ldg := rfl
@[simp] theorem setEv_time (s : State) (b : EvBlk) (i : Nat) (e : EvSrc) : (setEv s b i e).time = s.time := rfl
@[simp] theorem setEv_mp (s : State) (b : EvBlk) (i : Nat) (e : EvSrc) : (setEv s b i e).mp = s.mp := rfl
@[simp] theorem setEv_pw (s : State) (b : EvBlk) (i : Nat) (e : EvSrc) : (setEv s b i e).pw = s.pw := rfl
@[simp] theorem setEv_ld (s : State) (b : EvBlk) (i : Nat) (e : EvSrc) : (setEv s b i e).ld = s.ld := rfl
@[simp] theorem setEv_zones (s : State) (b : EvBlk) (i : Nat) (e : EvSrc) : (setEv s b i e).zones = s.zones := rfl
@[simp] theorem setEv_st (s : State) (b : EvBlk) (i : Nat) (e : EvSrc) : (setEv s b i e).st = s.st := rfl
@[simp] theorem setEv_tx (s : State) (b : EvBlk) (i : Nat) (e : EvSrc) : (setEv s b i e).tx = s.tx := rfl
@[simp] theorem setEv_rx (s : State) (b : EvBlk) (i : Nat) (e : EvSrc) : (setEv s b i e).rx = s.rx := rfl
@[simp] theorem setEv_fth (s : State) (b : EvBlk) (i : Nat) (e : EvSrc) : (setEv s b i e).fth = s.fth := rfl
@[simp] theorem setEv_fec (s : State) (b : EvBlk) (i : Nat) (e : EvSrc) : (setEv s b i e).fec = s.fec := rfl
@[simp] theorem setEv_host (s : State) (b : EvBlk) (i : Nat) (e : EvSrc) : (setEv s b i e).host = s.host := rfl
@[simp] theorem setEv_bias (s : State) (b : EvBlk) (i : Nat) (e : EvSrc) : (setEv s b i e).bias = s.bias := rfl
@[simp] theorem setEv_cal (s : State) (b : EvBlk) (i : Nat) (e : EvSrc) : (setEv s b i e).cal = s.cal := rfl
@[simp] theorem setEv_lp (s : State) (b : EvBlk) (i : Nat) (e : EvSrc) : (setEv s b i e).lp = s.lp := rfl
@[simp] theorem setEv_prot (s : State) (b : EvBlk) (i : Nat) (e : EvSrc) : (setEv s b i e).prot = s.prot := rfl
@[simp] theorem setEv_avs (s : State) (b : EvBlk) (i : Nat) (e : EvSrc) : (setEv s b i e).avs = s.avs := rfl
@[simp] theorem setEv_therm (s : State) (b : EvBlk) (i : Nat) (e : EvSrc) : (setEv s b i e).therm = s.therm := rfl
@[simp] theorem setEv_fab (s : State) (b : EvBlk) (i : Nat) (e : EvSrc) : (setEv s b i e).fab = s.fab := rfl
@[simp] theorem setEv_chn (s : State) (b : EvBlk) (i : Nat) (e : EvSrc) : (setEv s b i e).chn = s.chn := rfl
@[simp] theorem setEv_stw (s : State) (b : EvBlk) (i : Nat) (e : EvSrc) : (setEv s b i e).stw = s.stw := rfl
@[simp] theorem setEv_bist (s : State) (b : EvBlk) (i : Nat) (e : EvSrc) : (setEv s b i e).bist = s.bist := rfl
@[simp] theorem setEv_sec (s : State) (b : EvBlk) (i : Nat) (e : EvSrc) : (setEv s b i e).sec = s.sec := rfl
@[simp] theorem setEv_freeCnt (s : State) (b : EvBlk) (i : Nat) (e : EvSrc) : (setEv s b i e).freeCnt = s.freeCnt := rfl

@[simp] theorem loseRec_pending (s : State) (n c : Nat) : (loseRec s n c).pending = s.pending := rfl
@[simp] theorem loseRec_regs (s : State) (n c : Nat) : (loseRec s n c).regs = s.regs := rfl
@[simp] theorem loseRec_ev (s : State) (n c : Nat) : (loseRec s n c).ev = s.ev := rfl
@[simp] theorem loseRec_time (s : State) (n c : Nat) : (loseRec s n c).time = s.time := rfl
@[simp] theorem loseRec_mp (s : State) (n c : Nat) : (loseRec s n c).mp = s.mp := rfl
@[simp] theorem loseRec_pw (s : State) (n c : Nat) : (loseRec s n c).pw = s.pw := rfl
@[simp] theorem loseRec_ld (s : State) (n c : Nat) : (loseRec s n c).ld = s.ld := rfl
@[simp] theorem loseRec_zones (s : State) (n c : Nat) : (loseRec s n c).zones = s.zones := rfl
@[simp] theorem loseRec_st (s : State) (n c : Nat) : (loseRec s n c).st = s.st := rfl
@[simp] theorem loseRec_tx (s : State) (n c : Nat) : (loseRec s n c).tx = s.tx := rfl
@[simp] theorem loseRec_rx (s : State) (n c : Nat) : (loseRec s n c).rx = s.rx := rfl
@[simp] theorem loseRec_fth (s : State) (n c : Nat) : (loseRec s n c).fth = s.fth := rfl
@[simp] theorem loseRec_fec (s : State) (n c : Nat) : (loseRec s n c).fec = s.fec := rfl
@[simp] theorem loseRec_host (s : State) (n c : Nat) : (loseRec s n c).host = s.host := rfl
@[simp] theorem loseRec_bias (s : State) (n c : Nat) : (loseRec s n c).bias = s.bias := rfl
@[simp] theorem loseRec_cal (s : State) (n c : Nat) : (loseRec s n c).cal = s.cal := rfl
@[simp] theorem loseRec_lp (s : State) (n c : Nat) : (loseRec s n c).lp = s.lp := rfl
@[simp] theorem loseRec_prot (s : State) (n c : Nat) : (loseRec s n c).prot = s.prot := rfl
@[simp] theorem loseRec_avs (s : State) (n c : Nat) : (loseRec s n c).avs = s.avs := rfl
@[simp] theorem loseRec_therm (s : State) (n c : Nat) : (loseRec s n c).therm = s.therm := rfl
@[simp] theorem loseRec_fab (s : State) (n c : Nat) : (loseRec s n c).fab = s.fab := rfl
@[simp] theorem loseRec_chn (s : State) (n c : Nat) : (loseRec s n c).chn = s.chn := rfl
@[simp] theorem loseRec_stw (s : State) (n c : Nat) : (loseRec s n c).stw = s.stw := rfl
@[simp] theorem loseRec_bist (s : State) (n c : Nat) : (loseRec s n c).bist = s.bist := rfl
@[simp] theorem loseRec_sec (s : State) (n c : Nat) : (loseRec s n c).sec = s.sec := rfl
@[simp] theorem loseRec_freeCnt (s : State) (n c : Nat) : (loseRec s n c).freeCnt = s.freeCnt := rfl

@[simp] theorem seqNext_pending (s : State) : (seqNext s).pending = s.pending := rfl
@[simp] theorem seqNext_regs (s : State) : (seqNext s).regs = s.regs := rfl
@[simp] theorem seqNext_ev (s : State) : (seqNext s).ev = s.ev := rfl
@[simp] theorem seqNext_time (s : State) : (seqNext s).time = s.time := rfl
@[simp] theorem seqNext_mp (s : State) : (seqNext s).mp = s.mp := rfl
@[simp] theorem seqNext_pw (s : State) : (seqNext s).pw = s.pw := rfl
@[simp] theorem seqNext_ld (s : State) : (seqNext s).ld = s.ld := rfl
@[simp] theorem seqNext_zones (s : State) : (seqNext s).zones = s.zones := rfl
@[simp] theorem seqNext_st (s : State) : (seqNext s).st = s.st := rfl
@[simp] theorem seqNext_tx (s : State) : (seqNext s).tx = s.tx := rfl
@[simp] theorem seqNext_rx (s : State) : (seqNext s).rx = s.rx := rfl
@[simp] theorem seqNext_fth (s : State) : (seqNext s).fth = s.fth := rfl
@[simp] theorem seqNext_fec (s : State) : (seqNext s).fec = s.fec := rfl
@[simp] theorem seqNext_host (s : State) : (seqNext s).host = s.host := rfl
@[simp] theorem seqNext_bias (s : State) : (seqNext s).bias = s.bias := rfl
@[simp] theorem seqNext_cal (s : State) : (seqNext s).cal = s.cal := rfl
@[simp] theorem seqNext_lp (s : State) : (seqNext s).lp = s.lp := rfl
@[simp] theorem seqNext_prot (s : State) : (seqNext s).prot = s.prot := rfl
@[simp] theorem seqNext_avs (s : State) : (seqNext s).avs = s.avs := rfl
@[simp] theorem seqNext_therm (s : State) : (seqNext s).therm = s.therm := rfl
@[simp] theorem seqNext_fab (s : State) : (seqNext s).fab = s.fab := rfl
@[simp] theorem seqNext_chn (s : State) : (seqNext s).chn = s.chn := rfl
@[simp] theorem seqNext_stw (s : State) : (seqNext s).stw = s.stw := rfl
@[simp] theorem seqNext_bist (s : State) : (seqNext s).bist = s.bist := rfl
@[simp] theorem seqNext_sec (s : State) : (seqNext s).sec = s.sec := rfl
@[simp] theorem seqNext_freeCnt (s : State) : (seqNext s).freeCnt = s.freeCnt := rfl

@[simp] theorem setFs_pending (s : State) (l : List (Fld × Nat)) : (setFs s l).pending = s.pending := by
  induction l generalizing s with
  | nil => rfl
  | cons p l ih => exact ih _
@[simp] theorem setFs_ev (s : State) (l : List (Fld × Nat)) : (setFs s l).ev = s.ev := by
  induction l generalizing s with
  | nil => rfl
  | cons p l ih => exact ih _
@[simp] theorem setFs_ldg (s : State) (l : List (Fld × Nat)) : (setFs s l).ldg = s.ldg := by
  induction l generalizing s with
  | nil => rfl
  | cons p l ih => exact ih _
@[simp] theorem setFs_time (s : State) (l : List (Fld × Nat)) : (setFs s l).time = s.time := by
  induction l generalizing s with
  | nil => rfl
  | cons p l ih => exact ih _
@[simp] theorem setFs_mp (s : State) (l : List (Fld × Nat)) : (setFs s l).mp = s.mp := by
  induction l generalizing s with
  | nil => rfl
  | cons p l ih => exact ih _
@[simp] theorem setFs_pw (s : State) (l : List (Fld × Nat)) : (setFs s l).pw = s.pw := by
  induction l generalizing s with
  | nil => rfl
  | cons p l ih => exact ih _
@[simp] theorem setFs_ld (s : State) (l : List (Fld × Nat)) : (setFs s l).ld = s.ld := by
  induction l generalizing s with
  | nil => rfl
  | cons p l ih => exact ih _
@[simp] theorem setFs_zones (s : State) (l : List (Fld × Nat)) : (setFs s l).zones = s.zones := by
  induction l generalizing s with
  | nil => rfl
  | cons p l ih => exact ih _
@[simp] theorem setFs_st (s : State) (l : List (Fld × Nat)) : (setFs s l).st = s.st := by
  induction l generalizing s with
  | nil => rfl
  | cons p l ih => exact ih _
@[simp] theorem setFs_tx (s : State) (l : List (Fld × Nat)) : (setFs s l).tx = s.tx := by
  induction l generalizing s with
  | nil => rfl
  | cons p l ih => exact ih _
@[simp] theorem setFs_rx (s : State) (l : List (Fld × Nat)) : (setFs s l).rx = s.rx := by
  induction l generalizing s with
  | nil => rfl
  | cons p l ih => exact ih _
@[simp] theorem setFs_fth (s : State) (l : List (Fld × Nat)) : (setFs s l).fth = s.fth := by
  induction l generalizing s with
  | nil => rfl
  | cons p l ih => exact ih _
@[simp] theorem setFs_fec (s : State) (l : List (Fld × Nat)) : (setFs s l).fec = s.fec := by
  induction l generalizing s with
  | nil => rfl
  | cons p l ih => exact ih _
@[simp] theorem setFs_host (s : State) (l : List (Fld × Nat)) : (setFs s l).host = s.host := by
  induction l generalizing s with
  | nil => rfl
  | cons p l ih => exact ih _
@[simp] theorem setFs_bias (s : State) (l : List (Fld × Nat)) : (setFs s l).bias = s.bias := by
  induction l generalizing s with
  | nil => rfl
  | cons p l ih => exact ih _
@[simp] theorem setFs_cal (s : State) (l : List (Fld × Nat)) : (setFs s l).cal = s.cal := by
  induction l generalizing s with
  | nil => rfl
  | cons p l ih => exact ih _
@[simp] theorem setFs_lp (s : State) (l : List (Fld × Nat)) : (setFs s l).lp = s.lp := by
  induction l generalizing s with
  | nil => rfl
  | cons p l ih => exact ih _
@[simp] theorem setFs_prot (s : State) (l : List (Fld × Nat)) : (setFs s l).prot = s.prot := by
  induction l generalizing s with
  | nil => rfl
  | cons p l ih => exact ih _
@[simp] theorem setFs_avs (s : State) (l : List (Fld × Nat)) : (setFs s l).avs = s.avs := by
  induction l generalizing s with
  | nil => rfl
  | cons p l ih => exact ih _
@[simp] theorem setFs_therm (s : State) (l : List (Fld × Nat)) : (setFs s l).therm = s.therm := by
  induction l generalizing s with
  | nil => rfl
  | cons p l ih => exact ih _
@[simp] theorem setFs_fab (s : State) (l : List (Fld × Nat)) : (setFs s l).fab = s.fab := by
  induction l generalizing s with
  | nil => rfl
  | cons p l ih => exact ih _
@[simp] theorem setFs_chn (s : State) (l : List (Fld × Nat)) : (setFs s l).chn = s.chn := by
  induction l generalizing s with
  | nil => rfl
  | cons p l ih => exact ih _
@[simp] theorem setFs_stw (s : State) (l : List (Fld × Nat)) : (setFs s l).stw = s.stw := by
  induction l generalizing s with
  | nil => rfl
  | cons p l ih => exact ih _
@[simp] theorem setFs_bist (s : State) (l : List (Fld × Nat)) : (setFs s l).bist = s.bist := by
  induction l generalizing s with
  | nil => rfl
  | cons p l ih => exact ih _
@[simp] theorem setFs_sec (s : State) (l : List (Fld × Nat)) : (setFs s l).sec = s.sec := by
  induction l generalizing s with
  | nil => rfl
  | cons p l ih => exact ih _
@[simp] theorem setFs_freeCnt (s : State) (l : List (Fld × Nat)) : (setFs s l).freeCnt = s.freeCnt := by
  induction l generalizing s with
  | nil => rfl
  | cons p l ih => exact ih _

end Sys2Proof.Machine
end

