-- ==== Sys2Proof/Laws/Store.lean ====
section
/-! SUPPORT. The flash: every operation keeps the canonical form; a byte reads as it was put, and the others as before. -/
namespace Sys2Proof.Machine

/-- The canonical form of the flash in two parts. -/
theorem flashWf_iff (cells : List Host.Cell) :
    flashWf cells = true ↔ trising cells = true ∧ ∀ c ∈ cells, c.2 ≠ erased := by
  simp [flashWf]

theorem mem_cellsFrom {a : Nat} {bs : List Byte} {c : Host.Cell} (h : c ∈ cellsFrom a bs) :
    a ≤ c.1 ∧ c.1 < a + bs.length ∧ c.2 ≠ erased := by
  induction bs generalizing a with
  | nil => simp [cellsFrom] at h
  | cons b bs ih =>
    unfold cellsFrom at h
    split at h
    · have := ih h; simp only [List.length_cons]; exact ⟨by omega, by omega, this.2.2⟩
    · rcases List.mem_cons.1 h with rfl | h
      · exact ⟨Nat.le_refl _, by simp, ‹_›⟩
      · have := ih h; simp only [List.length_cons]; exact ⟨by omega, by omega, this.2.2⟩

theorem trising_cellsFrom (a : Nat) (bs : List Byte) : trising (cellsFrom a bs) = true := by
  induction bs generalizing a with
  | nil => rfl
  | cons b bs ih =>
    unfold cellsFrom
    split
    · exact ih _
    · exact (trising_cons ..).2 ⟨fun e he => by have := mem_cellsFrom he; omega, ih _⟩

/-- Two tables in canonical form, the second above the first, are one table in canonical form. -/
theorem trising_append {α : Type} {t u : Tab α} (ht : trising t = true) (hu : trising u = true)
    (h : ∀ e ∈ t, ∀ f ∈ u, e.1 < f.1) : trising (t ++ u) = true := by
  induction t with
  | nil => exact hu
  | cons e t ih =>
    obtain ⟨k, v⟩ := e
    obtain ⟨ha, ht'⟩ := (trising_cons k v t).1 ht
    refine (trising_cons ..).2 ⟨fun x hx => ?_, ih ht' fun e he => h e (List.mem_cons_of_mem _ he)⟩
    rcases List.mem_append.1 hx with hx | hx
    · exact ha x hx
    · exact h _ (List.mem_cons_self ..) x hx

/-- Replacing bytes keeps the canonical form. -/
theorem flashPut_wf {cells : List Host.Cell} (a : Nat) (bs : List Byte) (h : flashWf cells = true) :
    flashWf (flashPut cells a bs) = true := by
  rw [flashWf_iff] at h ⊢
  unfold flashPut
  refine ⟨trising_append (trising_append (trising_filter _ h.1) (trising_cellsFrom a bs) ?_) (trising_filter _ h.1) ?_, ?_⟩
  · intro e he f hf
    have := mem_cellsFrom hf
    simp only [List.mem_filter, decide_eq_true_eq] at he; omega
  · intro e he f hf
    simp only [List.mem_filter, decide_eq_true_eq] at hf
    rcases List.mem_append.1 he with he | he
    · simp only [List.mem_filter, decide_eq_true_eq] at he; omega
    · have := mem_cellsFrom he; omega
  · intro c hc
    rcases List.mem_append.1 hc with hc | hc
    · rcases List.mem_append.1 hc with hc | hc
      · exact h.2 c (List.mem_filter.1 hc).1
      · exact (mem_cellsFrom hc).2.2
    · exact h.2 c (List.mem_filter.1 hc).1

/-- Erasing keeps the canonical form. -/
theorem flashErase_wf {cells : List Host.Cell} (a n : Nat) (h : flashWf cells = true) :
    flashWf (flashErase cells a n) = true := by
  rw [flashWf_iff] at h ⊢
  exact ⟨trising_filter _ h.1, fun c hc => h.2 c (List.mem_filter.1 hc).1⟩

/-- Programming keeps the canonical form. -/
theorem flashProgram_wf {cells : List Host.Cell} (a : Nat) (bs : List Byte) (h : flashWf cells = true) :
    flashWf (flashProgram cells a bs) = true := flashPut_wf _ _ h

theorem tfind_append {α : Type} (t u : Tab α) (i : Nat) :
    tfind (t ++ u) i = (tfind t i).or (tfind u i) := by
  induction t with
  | nil => rfl
  | cons e t ih => obtain ⟨k, v⟩ := e; by_cases h : i = k <;> simp [tfind, h, ih]

theorem tfind_filter {α : Type} (t : Tab α) (p : Nat → Bool) (i : Nat) :
    tfind (t.filter fun c => p c.1) i = if p i then tfind t i else none := by
  induction t with
  | nil => simp [tfind]
  | cons e t ih =>
    obtain ⟨k, v⟩ := e
    by_cases hp : p k = true
    · rw [List.filter_cons_of_pos (by simpa using hp)]
      by_cases h : i = k
      · subst h; simp [tfind, hp]
      · simp [tfind, h, ih]
    · rw [List.filter_cons_of_neg (by simpa using hp), ih]
      by_cases h : i = k
      · subst h; simp [hp]
      · simp [tfind, h]

theorem tfind_cellsFrom (a i : Nat) (bs : List Byte) :
    (tfind (cellsFrom a bs) i).getD erased = if a ≤ i then (bs[i - a]?).getD erased else erased := by
  induction bs generalizing a with
  | nil => simp [cellsFrom, tfind]
  | cons b bs ih =>
    rcases Nat.lt_trichotomy i a with h | h | h
    · have := ih (a + 1)
      rw [if_neg (by omega)] at this
      rw [if_neg (by omega)]
      unfold cellsFrom; split
      · exact this
      · simpa [tfind, show i ≠ a by omega] using this
    · subst h
      have := ih (i + 1)
      rw [if_neg (by omega)] at this
      unfold cellsFrom; split
      · rename_i hb; subst hb; simpa using this
      · simp [tfind]
    · have := ih (a + 1)
      rw [if_pos (by omega)] at this
      rw [if_pos (by omega), show i - a = (i - (a + 1)) + 1 by omega, List.getElem?_cons_succ]
      unfold cellsFrom; split
      · exact this
      · simpa [tfind, show i ≠ a by omega] using this

/-- A byte after bytes were put: the one put there, or the one there before. -/
theorem flashByte_flashPut (cells : List Host.Cell) (a i : Nat) (bs : List Byte) :
    flashByte (flashPut cells a bs) i =
      if a ≤ i ∧ i < a + bs.length then (bs[i - a]?).getD erased else flashByte cells i := by
  have e1 := tfind_filter cells (fun k => decide (k < a)) i
  have e2 := tfind_filter cells (fun k => decide (a + bs.length ≤ k)) i
  unfold flashByte flashPut tget
  rw [tfind_append, tfind_append, e1, e2]
  have hc := tfind_cellsFrom a i bs
  by_cases h1 : i < a
  · rw [if_neg (by omega)] at hc
    rw [if_pos (by simpa using h1), if_neg (by simp; omega), if_neg (by omega)]
    cases tfind cells i <;> cases hx : tfind (cellsFrom a bs) i <;> simp_all
  · rw [if_pos (by omega)] at hc
    rw [if_neg (by simpa using h1)]
    by_cases h2 : a + bs.length ≤ i
    · rw [if_pos (by simpa using h2), if_neg (by omega)]
      rw [List.getElem?_eq_none (by omega)] at hc
      have hn : tfind (cellsFrom a bs) i = none := by
        have : ∀ c ∈ cellsFrom a bs, c.1 ≠ i := fun c h => by have := mem_cellsFrom h; omega
        revert this; generalize cellsFrom a bs = l; intro hl
        induction l with
        | nil => rfl
        | cons e l ih =>
          obtain ⟨k, v⟩ := e
          have h0 : i ≠ k := fun hh => hl (k, v) (List.mem_cons_self ..) hh.symm
          simpa [tfind, h0] using ih fun c h => hl c (List.mem_cons_of_mem _ h)
      simp [hn]
    · rw [if_neg (by simpa using h2), if_pos (by omega)]
      simpa using hc

/-- A byte after an erase. -/
theorem flashByte_flashErase (cells : List Host.Cell) (a n i : Nat) :
    flashByte (flashErase cells a n) i = if a ≤ i ∧ i < a + n then erased else flashByte cells i := by
  have e := tfind_filter cells (fun k => decide (k < a) || decide (a + n ≤ k)) i
  unfold flashByte tget flashErase
  rw [e]
  by_cases h : a ≤ i ∧ i < a + n
  · rw [if_neg (by simp; omega), if_pos h]; rfl
  · rw [if_pos (by simp; omega), if_neg h]

end Sys2Proof.Machine
end

