-- ==== Sys2Proof/Laws/Keeps/Base.lean ====
section
/-! SUPPORT. `Keeps s t`: the queue is untouched from `s` to `t`, and the bounds of `Safety.Inv` stay. One lemma for each
operation of the model says that it keeps; this file holds the primitive ones. -/
namespace Sys2Proof.Machine

/-- The queue of commands is the same, and the bounds carry over. -/
structure Keeps (s t : State) : Prop where
  pending : t.pending = s.pending
  inv : Safety.Inv s → Safety.Inv t

theorem Keeps.refl (s : State) : Keeps s s := ⟨rfl, id⟩

variable {s0 s t : State}

/-- An update that leaves the queue and everything bounded alone. -/
theorem Keeps.of (h : Keeps s0 s) (hp : t.pending = s.pending) (hr : t.regs = s.regs)
    (hc : t.st.cells = s.st.cells) (hi : t.ldg.intake = s.ldg.intake) (hv : t.ldg.reserve = s.ldg.reserve)
    (hb : t.prot.buffer = s.prot.buffer) (hd : t.prot.cands = s.prot.cands) (hq : t.mp.queue = s.mp.queue)
    (hf : t.sec.fuses = s.sec.fuses) (hs : t.sec.shadow = s.sec.shadow) : Keeps s0 t :=
  ⟨hp.trans h.pending, fun i =>
    have j := h.inv i
    ⟨hr ▸ j.regs, hc ▸ j.flash, hi ▸ j.intake, hv ▸ j.reserve, hb ▸ j.buffer, hd ▸ j.cands, hq ▸ j.queue, hf ▸ j.fuses,
      hs ▸ j.shadow⟩⟩

/-- An update written as a literal state. -/
theorem Keeps.lit {pending : List Instr} {regs : Tab Nat} {ev : Tab EvSrc} {ldg : LedgerSt} {time : TimeSt} {mp : MpSt} {pw : PwSt} {ld : LoaderSt} {zones : Tab ZoneSt} {st : StoreSt} {tx : TxSt} {rx : RxSt} {fth : FathomSt} {fec : FecSt} {host : HostSt} {bias : BiasSt} {cal : CalSt} {lp : LaserPortSt} {prot : ProtSt} {avs : AvsSt} {therm : ThermSt} {fab : FabricSt} {chn : ChainSt} {stw : StwSt} {bist : BistSt} {sec : SecSt'} {freeCnt : Nat}
    (h : Keeps s0 s) (hp : pending = s.pending) (hr : regs = s.regs) (hc : st.cells = s.st.cells)
    (hi : ldg.intake = s.ldg.intake) (hv : ldg.reserve = s.ldg.reserve) (hb : prot.buffer = s.prot.buffer)
    (hd : prot.cands = s.prot.cands) (hq : mp.queue = s.mp.queue) (hf : sec.fuses = s.sec.fuses)
    (hs : sec.shadow = s.sec.shadow) :
    Keeps s0 ⟨pending, regs, ev, ldg, time, mp, pw, ld, zones, st, tx, rx, fth, fec, host, bias, cal, lp, prot, avs, therm, fab, chn, stw, bist, sec, freeCnt⟩ :=
  h.of hp hr hc hi hv hb hd hq hf hs

/-- An update that keeps the bounds of what it changes. -/
theorem Keeps.step (h : Keeps s0 s) (hp : t.pending = s.pending) (hj : Safety.Inv s → Safety.Inv t) : Keeps s0 t :=
  ⟨hp.trans h.pending, fun i => hj (h.inv i)⟩

theorem Keeps.fst_of {α : Type} {x : State × α} {b : α} (h : Keeps s0 x.1) (e : x = (t, b)) : Keeps s0 t := by
  subst e; exact h

theorem keeps_foldl {α : Type} {l : List α} {f : State → α → State} (h : Keeps s0 s)
    (hf : ∀ s x, Keeps s0 s → Keeps s0 (f s x)) : Keeps s0 (l.foldl f s) := by
  induction l generalizing s with
  | nil => exact h
  | cons x l ih => exact ih (hf s x h)

theorem keeps_each {α : Type} {l : List α} {f : State → α → State} (h : Keeps s0 s)
    (hf : ∀ s x, Keeps s0 s → Keeps s0 (f s x)) : Keeps s0 (each l f s) := keeps_foldl h hf

theorem keeps_onlyIf {c : Bool} {f : State → State} (h : Keeps s0 s)
    (hf : ∀ s, Keeps s0 s → Keeps s0 (f s)) : Keeps s0 (onlyIf c f s) := by
  unfold onlyIf; split
  · exact hf s h
  · exact h

theorem keeps_ite {c : Prop} [Decidable c] {a b : State} (ha : Keeps s0 a) (hb : Keeps s0 b) :
    Keeps s0 (if c then a else b) := by
  split
  · exact ha
  · exact hb

theorem keeps_setF {f : Fld} {v : Nat} (h : Keeps s0 s) : Keeps s0 (setF s f v) :=
  h.step rfl fun j => ⟨trising_tset _ _ _ j.regs, j.flash, j.intake, j.reserve, j.buffer, j.cands, j.queue, j.fuses, j.shadow⟩

theorem keeps_setCells {cells : List Host.Cell} (h : Keeps s0 s)
    (hc : flashWf s.st.cells = true → flashWf cells = true) : Keeps s0 (setCells s cells) :=
  h.step rfl fun j => ⟨j.regs, hc j.flash, j.intake, j.reserve, j.buffer, j.cands, j.queue, j.fuses, j.shadow⟩

end Sys2Proof.Machine
end

