-- ==== Sys2Proof/Laws/Keeps/Ops.lean ====
section
/-! SUPPORT. What the operations of Machine/Ops.lean keep. -/
set_option linter.all false
namespace Sys2Proof.Machine

theorem keeps_setB {s0 s : State} {a1 : Fld} {a2 : Bool} (h : Keeps s0 s) :
    Keeps s0 (setB s a1 a2) := by
  unfold setB
  try dsimp only
  repeat' with_reducible first
    | assumption | apply keeps_setF | apply keeps_ite
    | (split <;> try dsimp only)

theorem keeps_setS {s0 s : State} {a1 : Fld} {a2 : Int} (h : Keeps s0 s) :
    Keeps s0 (setS s a1 a2) := by
  unfold setS
  try dsimp only
  repeat' with_reducible first
    | assumption | apply keeps_setF

theorem keeps_addF {s0 s : State} {a1 : Fld} {a2 : Nat} (h : Keeps s0 s) :
    Keeps s0 (addF s a1 a2) := by
  unfold addF
  try dsimp only
  repeat' with_reducible first
    | assumption | apply keeps_setF

theorem keeps_satF {s0 s : State} {a1 : Fld} {a2 : Nat} (h : Keeps s0 s) :
    Keeps s0 (satF s a1 a2) := by
  unfold satF
  try dsimp only
  repeat' with_reducible first
    | assumption | apply keeps_setF

theorem keeps_setFs {s0 s : State} {a1 : List (Prod Fld Nat)} (h : Keeps s0 s) :
    Keeps s0 (setFs s a1) := by
  unfold setFs
  try dsimp only
  repeat' with_reducible first
    | assumption | apply keeps_setF | apply keeps_foldl
    | intro _ _ _
    | intro _ _

theorem keeps_drew {s0 s : State}  (h : Keeps s0 s) :
    Keeps s0 (drew s) := by
  unfold drew
  try dsimp only
  repeat' with_reducible first
    | assumption
    | (refine Keeps.lit ?_ rfl rfl rfl rfl rfl rfl rfl rfl rfl rfl; first | assumption)

theorem keeps_setDom {s0 s : State} {a1 : Nat} {a2 : DomSt} (h : Keeps s0 s) :
    Keeps s0 (setDom s a1 a2) := by
  unfold setDom
  try dsimp only
  repeat' with_reducible first
    | assumption
    | (refine Keeps.lit ?_ rfl rfl rfl rfl rfl rfl rfl rfl rfl rfl; first | assumption)

theorem keeps_setZone {s0 s : State} {a1 : Nat} {a2 : ZoneSt} (h : Keeps s0 s) :
    Keeps s0 (setZone s a1 a2) := by
  unfold setZone
  try dsimp only
  repeat' with_reducible first
    | assumption
    | (refine Keeps.lit ?_ rfl rfl rfl rfl rfl rfl rfl rfl rfl rfl; first | assumption)

theorem keeps_loseRec {s0 s : State} {a1 : Nat} {a2 : Nat} (h : Keeps s0 s) :
    Keeps s0 (loseRec s a1 a2) := by
  unfold loseRec
  try dsimp only
  repeat' with_reducible first
    | assumption
    | (refine Keeps.lit ?_ rfl rfl rfl rfl rfl rfl rfl rfl rfl rfl; first | assumption)

theorem keeps_seqNext {s0 s : State}  (h : Keeps s0 s) :
    Keeps s0 (seqNext s) := by
  unfold seqNext
  try dsimp only
  repeat' with_reducible first
    | assumption
    | (refine Keeps.lit ?_ rfl rfl rfl rfl rfl rfl rfl rfl rfl rfl; first | assumption)

theorem intake_lossPut (l : List LossRun) (s : State) :
    (l.foldl lossPut s).pending = s.pending ∧ (l.foldl lossPut s).ldg.intake.length = s.ldg.intake.length + l.length ∧
      l.foldl lossPut s = { s with ldg := (l.foldl lossPut s).ldg } := by
  induction l generalizing s with
  | nil => exact ⟨rfl, rfl, rfl⟩
  | cons r l ih =>
    obtain ⟨h1, h2, h3⟩ := ih (lossPut s r)
    refine ⟨h1, ?_, ?_⟩
    · rw [List.foldl_cons, h2]; simp [lossPut, intakePut, seqNext]; omega
    · rw [List.foldl_cons, h3]; rfl

theorem reserve_lossPut (l : List LossRun) (s : State) :
    (l.foldl lossPut s).ldg.reserve = s.ldg.reserve := by
  induction l generalizing s with
  | nil => rfl
  | cons r l ih => rw [List.foldl_cons, ih]; rfl

theorem keeps_flushLoss {s0 s : State} (h : Keeps s0 s) : Keeps s0 (flushLoss s) := by
  unfold flushLoss
  split
  · rename_i hc
    simp only [Bool.and_eq_true, decide_eq_true_eq] at hc
    obtain ⟨h1, h2, h3⟩ := intake_lossPut s.ldg.runs { s with ldg := { s.ldg with runs := [] } }
    have h4 := reserve_lossPut s.ldg.runs { s with ldg := { s.ldg with runs := [] } }
    refine h.step h1 fun j => ?_
    rw [h3]
    exact ⟨j.regs, j.flash, by rw [h2]; exact Nat.le_of_lt hc.2, by rw [h4]; exact j.reserve, j.buffer, j.cands, j.queue,
      j.fuses, j.shadow⟩
  · exact h

theorem keeps_offerR {s0 s : State} {typ extra : Nat} {payload : List Nat} (h : Keeps s0 s) :
    Keeps s0 (offerR s typ extra payload).1 := by
  unfold offerR
  dsimp only
  have h1 := keeps_seqNext (keeps_flushLoss h)
  split
  · exact keeps_loseRec h1
  · split
    · exact keeps_loseRec h1
    · split
      · exact Keeps.lit (keeps_loseRec h1) rfl rfl rfl rfl rfl rfl rfl rfl rfl rfl
      · rename_i hc
        refine h1.step rfl fun j => ⟨j.regs, j.flash, ?_, j.reserve, j.buffer, j.cands, j.queue, j.fuses, j.shadow⟩
        simp only [intakePut, List.length_append, List.length_cons, List.length_nil]
        omega

theorem keeps_offer {s0 s : State} {a1 : Nat} {a2 : Nat} {a3 : List Nat} (h : Keeps s0 s) :
    Keeps s0 (offer s a1 a2 a3) := by
  unfold offer
  try dsimp only
  repeat' with_reducible first
    | assumption | apply keeps_offerR

theorem keeps_offerDomain {s0 s : State} {a1 : Nat} {a2 : Nat} {a3 : Nat} (h : Keeps s0 s) :
    Keeps s0 (offerDomain s a1 a2 a3) := by
  unfold offerDomain
  try dsimp only
  repeat' with_reducible first
    | assumption | apply keeps_offer

theorem keeps_offerCommit {s0 s : State} {a1 : Nat} {a2 : Nat} {a3 : Bool} {a4 : Nat} {a5 : Nat} {a6 : Nat} {a7 : Nat} (h : Keeps s0 s) :
    Keeps s0 (offerCommit s a1 a2 a3 a4 a5 a6 a7) := by
  unfold offerCommit
  try dsimp only
  repeat' with_reducible first
    | assumption | apply keeps_offer | apply keeps_ite
    | (split <;> try dsimp only)

theorem keeps_offerPeer {s0 s : State} {a1 : Bool} {a2 : Nat} {a3 : Nat} {a4 : Nat} (h : Keeps s0 s) :
    Keeps s0 (offerPeer s a1 a2 a3 a4) := by
  unfold offerPeer
  try dsimp only
  repeat' with_reducible first
    | assumption | apply keeps_offer | apply keeps_ite
    | (split <;> try dsimp only)

theorem keeps_histAdd {s0 s : State} {a1 : Nat} {a2 : Int} {a3 : Int} {a4 : Int} (h : Keeps s0 s) :
    Keeps s0 (histAdd s a1 a2 a3 a4) := by
  unfold histAdd
  try dsimp only
  repeat' with_reducible first
    | assumption
    | (refine Keeps.lit ?_ rfl rfl rfl rfl rfl rfl rfl rfl rfl rfl; first | assumption)

theorem keeps_setMem {s0 s : State} {a1 : Nat} {a2 : MemSt} (h : Keeps s0 s) :
    Keeps s0 (setMem s a1 a2) := by
  unfold setMem
  try dsimp only
  repeat' with_reducible first
    | assumption | apply keeps_setF
    | (refine Keeps.lit ?_ rfl rfl rfl rfl rfl rfl rfl rfl rfl rfl; first | assumption | apply keeps_setF)

theorem keeps_unpoison {s0 s : State} {a0 : Nat} {a1 : List Nat} (h : Keeps s0 s) :
    Keeps s0 (unpoison a0 a1 s) := by
  unfold unpoison
  try dsimp only
  repeat' with_reducible first
    | assumption | apply keeps_setMem | apply keeps_ite
    | (refine Keeps.lit ?_ rfl rfl rfl rfl rfl rfl rfl rfl rfl rfl; first | assumption | apply keeps_setMem | apply keeps_ite)
    | (split <;> try dsimp only)
    | intro _ _

theorem keeps_reuseEntry {s0 s : State} {a0 : Nat} (h : Keeps s0 s) :
    Keeps s0 (reuseEntry a0 s) := by
  unfold reuseEntry
  try dsimp only
  repeat' with_reducible first
    | assumption | apply keeps_unpoison | apply keeps_drew | apply keeps_ite
    | (split <;> try dsimp only)

end Sys2Proof.Machine
end

