-- ==== Sys2Proof/Laws/Keeps/Flags.lean ====
section
/-! SUPPORT. What the operations of Machine/Flags.lean keep. -/
set_option linter.all false
namespace Sys2Proof.Machine

theorem keeps_setEv {s0 s : State} {a1 : EvBlk} {a2 : Nat} {a3 : EvSrc} (h : Keeps s0 s) :
    Keeps s0 (setEv s a1 a2 a3) := by
  unfold setEv
  try dsimp only
  repeat' with_reducible first
    | assumption
    | (refine Keeps.lit ?_ rfl rfl rfl rfl rfl rfl rfl rfl rfl rfl; first | assumption)

theorem keeps_sendPkt {s0 s : State} {a1 : Option Nat} {a2 : Nat} {a3 : Nat} {a4 : Nat} {a5 : List Byte} (h : Keeps s0 s) :
    Keeps s0 (sendPkt s a1 a2 a3 a4 a5) := by
  unfold sendPkt
  try dsimp only
  repeat' with_reducible first
    | assumption
    | (refine Keeps.lit ?_ rfl rfl rfl rfl rfl rfl rfl rfl rfl rfl; first | assumption)
    | (split <;> try dsimp only)

theorem keeps_eventMsg {s0 s : State} {a1 : LRec} (h : Keeps s0 s) :
    Keeps s0 (eventMsg s a1).1 := by
  unfold eventMsg
  try dsimp only
  repeat' with_reducible first
    | assumption | apply keeps_satF | apply keeps_sendPkt | apply keeps_ite
    | (split <;> try dsimp only)

theorem keeps_recordEvent {s0 s : State} {a1 : EvBlk} {a2 : Nat} {a3 : Nat} {a4 : Nat} {a5 : Nat} {a6 : Nat} (h : Keeps s0 s) :
    Keeps s0 (recordEvent s a1 a2 a3 a4 a5 a6).1 := by
  unfold recordEvent
  try dsimp only
  repeat' with_reducible first
    | assumption | apply keeps_addF | apply keeps_offerR | apply keeps_eventMsg
    | refine Keeps.fst_of ?_ (by assumption)
    | (split <;> try dsimp only)

theorem keeps_detectCore {s0 s : State} {a1 : EvBlk} {a2 : Nat} {a3 : Nat} {a4 : Bool} (h : Keeps s0 s) :
    Keeps s0 (detectCore s a1 a2 a3 a4).1 := by
  unfold detectCore
  try dsimp only
  repeat' with_reducible first
    | assumption | apply keeps_setFs | apply keeps_setB | apply keeps_setEv | apply keeps_recordEvent | apply keeps_onlyIf | apply keeps_ite
    | (refine Keeps.lit ?_ rfl rfl rfl rfl rfl rfl rfl rfl rfl rfl; first | assumption | apply keeps_setFs | apply keeps_setB | apply keeps_setEv | apply keeps_recordEvent | apply keeps_onlyIf | apply keeps_ite)
    | refine Keeps.fst_of ?_ (by assumption)
    | (split <;> try dsimp only)
    | intro _ _ _
    | intro _ _

end Sys2Proof.Machine
end

