-- ==== Sys2Proof/Laws/Keeps/Stops.lean ====
section
/-! SUPPORT. What the operations of Machine/Stops.lean keep. -/
set_option linter.all false
namespace Sys2Proof.Machine

theorem keeps_setLaser {s0 s : State} {a1 : Nat} {a2 : Nat} {a3 : LaserSt} (h : Keeps s0 s) :
    Keeps s0 (setLaser s a1 a2 a3) := by
  unfold setLaser
  try dsimp only
  repeat' with_reducible first
    | assumption
    | (refine Keeps.lit ?_ rfl rfl rfl rfl rfl rfl rfl rfl rfl rfl; first | assumption)

theorem keeps_laserSend {s0 s : State} {a1 : Nat} {a2 : Nat} {a3 : Nat} {a4 : Nat} (h : Keeps s0 s) :
    Keeps s0 (laserSend s a1 a2 a3 a4) := by
  unfold laserSend
  try dsimp only
  repeat' with_reducible first
    | assumption | apply keeps_setLaser | apply keeps_ite
    | (refine Keeps.lit ?_ rfl rfl rfl rfl rfl rfl rfl rfl rfl rfl; first | assumption | apply keeps_setLaser | apply keeps_ite)
    | (split <;> try dsimp only)

theorem keeps_laserOff {s0 s : State} {a1 : Nat} {a2 : Nat} (h : Keeps s0 s) :
    Keeps s0 (laserOff s a1 a2) := by
  unfold laserOff
  try dsimp only
  repeat' with_reducible first
    | assumption | apply keeps_laserSend | apply keeps_setLaser
    | (refine Keeps.lit ?_ rfl rfl rfl rfl rfl rfl rfl rfl rfl rfl; first | assumption | apply keeps_laserSend | apply keeps_setLaser)

theorem keeps_lasersOff {s0 s : State} {a1 : Nat} (h : Keeps s0 s) :
    Keeps s0 (lasersOff s a1) := by
  unfold lasersOff
  try dsimp only
  repeat' with_reducible first
    | assumption | apply keeps_laserOff

theorem keeps_txTimerOff {s0 s : State} {a1 : Nat} (h : Keeps s0 s) :
    Keeps s0 (txTimerOff s a1) := by
  unfold txTimerOff
  try dsimp only
  repeat' with_reducible first
    | assumption
    | (refine Keeps.lit ?_ rfl rfl rfl rfl rfl rfl rfl rfl rfl rfl; first | assumption)

theorem keeps_txTimerOn {s0 s : State} {a1 : Nat} (h : Keeps s0 s) :
    Keeps s0 (txTimerOn s a1) := by
  unfold txTimerOn
  try dsimp only
  repeat' with_reducible first
    | assumption
    | (refine Keeps.lit ?_ rfl rfl rfl rfl rfl rfl rfl rfl rfl rfl; first | assumption)

theorem keeps_txHeld {s0 s : State} {a0 : Nat} (h : Keeps s0 s) :
    Keeps s0 (txHeld a0 s) := by
  unfold txHeld
  try dsimp only
  repeat' with_reducible first
    | assumption | apply keeps_laserOff | apply keeps_setF | apply keeps_txTimerOff | apply keeps_onlyIf | apply keeps_ite
    | (split <;> try dsimp only)
    | intro _ _ _
    | intro _ _

theorem keeps_setChan {s0 s : State} {a1 : Nat} {a2 : BiasCh} (h : Keeps s0 s) :
    Keeps s0 (setChan s a1 a2) := by
  unfold setChan
  try dsimp only
  repeat' with_reducible first
    | assumption
    | (refine Keeps.lit ?_ rfl rfl rfl rfl rfl rfl rfl rfl rfl rfl; first | assumption)

theorem keeps_chanFault {s0 s : State} {a1 : Nat} (h : Keeps s0 s) :
    Keeps s0 (chanFault s a1) := by
  unfold chanFault
  try dsimp only
  repeat' with_reducible first
    | assumption | apply keeps_setChan
    | (refine Keeps.lit ?_ rfl rfl rfl rfl rfl rfl rfl rfl rfl rfl; first | assumption | apply keeps_setChan)

theorem keeps_setUnit {s0 s : State} {a1 : Nat} {a2 : Nat} {a3 : AcqU} (h : Keeps s0 s) :
    Keeps s0 (setUnit s a1 a2 a3) := by
  unfold setUnit
  try dsimp only
  repeat' with_reducible first
    | assumption
    | (refine Keeps.lit ?_ rfl rfl rfl rfl rfl rfl rfl rfl rfl rfl; first | assumption)

theorem keeps_agcUpdate {s0 s : State} {a0 : Nat} (h : Keeps s0 s) :
    Keeps s0 (agcUpdate a0 s) := by
  unfold agcUpdate
  try dsimp only
  repeat' with_reducible first
    | assumption | apply keeps_setF | apply keeps_ite
    | (refine Keeps.lit ?_ rfl rfl rfl rfl rfl rfl rfl rfl rfl rfl; first | assumption | apply keeps_setF | apply keeps_ite)
    | (split <;> try dsimp only)

theorem keeps_depart {s0 s : State} {a0 : Nat} {a1 : Nat} (h : Keeps s0 s) :
    Keeps s0 (depart a0 a1 s) := by
  unfold depart
  try dsimp only
  repeat' with_reducible first
    | assumption | apply keeps_offerPeer | apply keeps_setF | apply keeps_each | apply keeps_ite
    | (split <;> try dsimp only)
    | intro _ _ _
    | intro _ _

theorem keeps_unmask {s0 s : State} {a0 : Nat} {a1 : Nat} (h : Keeps s0 s) :
    Keeps s0 (unmask a0 a1 s) := by
  unfold unmask
  try dsimp only
  repeat' with_reducible first
    | assumption | apply keeps_setF | apply keeps_foldl | apply keeps_ite
    | (split <;> try dsimp only)
    | intro _ _ _
    | intro _ _

theorem keeps_unitQuiet {s0 s : State} {a0 : Nat} {a1 : Nat} (h : Keeps s0 s) :
    Keeps s0 (unitQuiet a0 a1 s) := by
  unfold unitQuiet
  try dsimp only
  repeat' with_reducible first
    | assumption | apply keeps_setB | apply keeps_each
    | (refine Keeps.lit ?_ rfl rfl rfl rfl rfl rfl rfl rfl rfl rfl; first | assumption | apply keeps_setB | apply keeps_each)
    | intro _ _ _
    | intro _ _

theorem keeps_unitLeave {s0 s : State} {a0 : Nat} {a1 : Nat} {a2 : Nat} (h : Keeps s0 s) :
    Keeps s0 (unitLeave a0 a1 a2 s) := by
  unfold unitLeave
  try dsimp only
  repeat' with_reducible first
    | assumption | apply keeps_unitQuiet | apply keeps_setF | apply keeps_unmask | apply keeps_depart | apply keeps_setUnit | apply keeps_agcUpdate | apply keeps_onlyIf | apply keeps_ite
    | (refine Keeps.lit ?_ rfl rfl rfl rfl rfl rfl rfl rfl rfl rfl; first | assumption | apply keeps_unitQuiet | apply keeps_setF | apply keeps_unmask | apply keeps_depart | apply keeps_setUnit | apply keeps_agcUpdate | apply keeps_onlyIf | apply keeps_ite)
    | (split <;> try dsimp only)
    | intro _ _ _
    | intro _ _

theorem keeps_unitIdle {s0 s : State} {a0 : Nat} {a1 : Nat} (h : Keeps s0 s) :
    Keeps s0 (unitIdle a0 a1 s) := by
  unfold unitIdle
  try dsimp only
  repeat' with_reducible first
    | assumption | apply keeps_unitLeave | apply keeps_ite
    | (split <;> try dsimp only)

theorem keeps_setCoef {s0 s : State} {a1 : Nat} {a2 : Nat} (h : Keeps s0 s) :
    Keeps s0 (setCoef s a1 a2) := by
  unfold setCoef
  try dsimp only
  repeat' with_reducible first
    | assumption
    | (refine Keeps.lit ?_ rfl rfl rfl rfl rfl rfl rfl rfl rfl rfl; first | assumption)

theorem keeps_adaptLane {s0 s : State} {a0 : Nat} {a1 : Nat} (h : Keeps s0 s) :
    Keeps s0 (adaptLane a0 a1 s) := by
  unfold adaptLane
  try dsimp only
  repeat' with_reducible first
    | assumption | apply keeps_drew | apply keeps_setCoef | apply keeps_setF | apply keeps_each | apply keeps_onlyIf
    | intro _ _ _
    | intro _ _

theorem keeps_adaptGroup {s0 s : State} {a0 : Nat} (h : Keeps s0 s) :
    Keeps s0 (adaptGroup a0 s) := by
  unfold adaptGroup
  try dsimp only
  repeat' with_reducible first
    | assumption | apply keeps_adaptLane | apply keeps_each
    | intro _ _ _
    | intro _ _

theorem keeps_holdStart {s0 s : State} {a0 : Nat} (h : Keeps s0 s) :
    Keeps s0 (holdStart a0 s) := by
  unfold holdStart
  try dsimp only
  repeat' with_reducible first
    | assumption
    | (refine Keeps.lit ?_ rfl rfl rfl rfl rfl rfl rfl rfl rfl rfl; first | assumption)

theorem keeps_holdSpent {s0 s : State} {a0 : Nat} (h : Keeps s0 s) :
    Keeps s0 (holdSpent a0 s) := by
  unfold holdSpent
  try dsimp only
  repeat' with_reducible first
    | assumption | apply keeps_drew | apply keeps_addF | apply keeps_ite
    | (split <;> try dsimp only)

theorem keeps_groupDown {s0 s : State} {a0 : Nat} (h : Keeps s0 s) :
    Keeps s0 (groupDown a0 s) := by
  unfold groupDown
  try dsimp only
  repeat' with_reducible first
    | assumption | apply keeps_holdSpent | apply keeps_adaptGroup | apply keeps_setF
    | (refine Keeps.lit ?_ rfl rfl rfl rfl rfl rfl rfl rfl rfl rfl; first | assumption | apply keeps_holdSpent | apply keeps_adaptGroup | apply keeps_setF)

theorem keeps_setResult {s0 s : State} {a1 : Nat} {a2 : Nat} (h : Keeps s0 s) :
    Keeps s0 (setResult s a1 a2) := by
  unfold setResult
  try dsimp only
  repeat' with_reducible first
    | assumption | apply keeps_setFs

theorem keeps_loadEnd {s0 s : State}  (h : Keeps s0 s) :
    Keeps s0 (loadEnd s) := by
  unfold loadEnd
  try dsimp only
  repeat' with_reducible first
    | assumption | apply keeps_setF
    | (refine Keeps.lit ?_ rfl rfl rfl rfl rfl rfl rfl rfl rfl rfl; first | assumption | apply keeps_setF)

theorem keeps_nextSection {s0 s : State}  (h : Keeps s0 s) :
    Keeps s0 (nextSection s) := by
  unfold nextSection
  try dsimp only
  repeat' with_reducible first
    | assumption | apply keeps_setF | apply keeps_loadEnd | apply keeps_ite
    | (refine Keeps.lit ?_ rfl rfl rfl rfl rfl rfl rfl rfl rfl rfl; first | assumption | apply keeps_setF | apply keeps_loadEnd | apply keeps_ite)
    | (split <;> try dsimp only)
    | intro _ _

theorem keeps_endSection {s0 s : State} {a0 : Nat} {a1 : Nat} (h : Keeps s0 s) :
    Keeps s0 (endSection a0 a1 s) := by
  unfold endSection
  try dsimp only
  repeat' with_reducible first
    | assumption | apply keeps_nextSection | apply keeps_setZone | apply keeps_setFs | apply keeps_setResult | apply keeps_offerCommit | apply keeps_onlyIf | apply keeps_ite
    | (refine Keeps.lit ?_ rfl rfl rfl rfl rfl rfl rfl rfl rfl rfl; first | assumption | apply keeps_nextSection | apply keeps_setZone | apply keeps_setFs | apply keeps_setResult | apply keeps_offerCommit | apply keeps_onlyIf | apply keeps_ite)
    | refine Keeps.fst_of ?_ (by assumption)
    | (split <;> try dsimp only)
    | intro _ _ _
    | intro _ _

end Sys2Proof.Machine
end

