-- ==== Sys2Proof/Laws/Keeps/Faults.lean ====
section
/-! SUPPORT. What the operations of Machine/Faults.lean keep. -/
set_option linter.all false
namespace Sys2Proof.Machine

theorem keeps_stopCarrier {s0 s : State} {a1 : Nat} (h : Keeps s0 s) :
    Keeps s0 (stopCarrier s a1) := by
  unfold stopCarrier
  try dsimp only
  repeat' with_reducible first
    | assumption | apply keeps_txHeld | apply keeps_setF | apply keeps_chanFault | apply keeps_lasersOff | apply keeps_unitIdle | apply keeps_each | apply keeps_onlyIf | apply keeps_ite
    | (refine Keeps.lit ?_ rfl rfl rfl rfl rfl rfl rfl rfl rfl rfl; first | assumption | apply keeps_txHeld | apply keeps_setF | apply keeps_chanFault | apply keeps_lasersOff | apply keeps_unitIdle | apply keeps_each | apply keeps_onlyIf | apply keeps_ite)
    | (split <;> try dsimp only)
    | intro _ _ _
    | intro _ _

theorem keeps_stopGroup {s0 s : State} {a1 : Nat} (h : Keeps s0 s) :
    Keeps s0 (stopGroup s a1) := by
  unfold stopGroup
  try dsimp only
  repeat' with_reducible first
    | assumption | apply keeps_groupDown | apply keeps_ite
    | (refine Keeps.lit ?_ rfl rfl rfl rfl rfl rfl rfl rfl rfl rfl; first | assumption | apply keeps_groupDown | apply keeps_ite)
    | (split <;> try dsimp only)

theorem keeps_stopSet {s0 s : State} {a0 : List Nat} {a1 : List Nat} (h : Keeps s0 s) :
    Keeps s0 (stopSet a0 a1 s) := by
  unfold stopSet
  try dsimp only
  repeat' with_reducible first
    | assumption | apply keeps_stopGroup | apply keeps_stopCarrier | apply keeps_each
    | intro _ _ _
    | intro _ _

theorem keeps_holdSteward {s0 s : State}  (h : Keeps s0 s) :
    Keeps s0 (holdSteward s) := by
  unfold holdSteward
  try dsimp only
  repeat' with_reducible first
    | assumption
    | (refine Keeps.lit ?_ rfl rfl rfl rfl rfl rfl rfl rfl rfl rfl; first | assumption)

theorem keeps_applyScope {s0 s : State} {a0 : EvBlk} {a1 : Nat} {a2 : Nat} (h : Keeps s0 s) :
    Keeps s0 (applyScope a0 a1 a2 s) := by
  unfold applyScope
  try dsimp only
  repeat' with_reducible first
    | assumption | apply keeps_stopSet | apply keeps_holdSteward | apply keeps_setF | apply keeps_setB | apply keeps_each | apply keeps_onlyIf | apply keeps_ite
    | (refine Keeps.lit ?_ rfl rfl rfl rfl rfl rfl rfl rfl rfl rfl; first | assumption | apply keeps_stopSet | apply keeps_holdSteward | apply keeps_setF | apply keeps_setB | apply keeps_each | apply keeps_onlyIf | apply keeps_ite)
    | (split <;> try dsimp only)
    | intro _ _ _
    | intro _ _

theorem keeps_carrierFault {s0 s : State} {a1 : Nat} (h : Keeps s0 s) :
    Keeps s0 (carrierFault s a1) := by
  unfold carrierFault
  try dsimp only
  repeat' with_reducible first
    | assumption | apply keeps_chanFault | apply keeps_txHeld | apply keeps_each
    | intro _ _ _
    | intro _ _

theorem keeps_graveFirst {s0 s : State} {a0 : EvBlk} {a1 : Nat} (h : Keeps s0 s) :
    Keeps s0 (graveFirst a0 a1 s) := by
  unfold graveFirst
  try dsimp only
  repeat' with_reducible first
    | assumption | apply keeps_setFs

theorem keeps_detectN {s0 s : State} {fuel : Nat} {b : EvBlk} {i info : Nat} {forced : Bool} (h : Keeps s0 s) :
    Keeps s0 (detectN fuel b i info forced s) := by
  induction fuel generalizing b i info forced s with
  | zero => exact keeps_detectCore h
  | succ fuel ih =>
    unfold detectN
    dsimp only
    repeat' with_reducible first
      | assumption | apply keeps_detectCore | apply keeps_onlyIf | apply keeps_each | apply ih | apply keeps_carrierFault
      | apply keeps_graveFirst | apply keeps_endSection | apply keeps_applyScope | apply keeps_ite
      | (refine Keeps.lit ?_ rfl rfl rfl rfl rfl rfl rfl rfl rfl rfl; first | assumption | apply keeps_onlyIf)
      | intro _ _ _
      | intro _ _

theorem keeps_detect {s0 s : State} {a0 : EvBlk} {a1 : Nat} {a2 : Nat} (h : Keeps s0 s) :
    Keeps s0 (detect a0 a1 a2 s) := by
  unfold detect
  try dsimp only
  repeat' with_reducible first
    | assumption | apply keeps_detectN

theorem keeps_settle {s0 s : State}  (h : Keeps s0 s) :
    Keeps s0 (settle s) := by
  unfold settle
  try dsimp only
  repeat' with_reducible first
    | assumption | apply keeps_detect | apply keeps_ite
    | (refine Keeps.lit ?_ rfl rfl rfl rfl rfl rfl rfl rfl rfl rfl; first | assumption | apply keeps_detect | apply keeps_ite)
    | (split <;> try dsimp only)

theorem keeps_histSample {s0 s : State} {a0 : Nat} {a1 : Int} {a2 : Int} {a3 : Int} (h : Keeps s0 s) :
    Keeps s0 (histSample a0 a1 a2 a3 s) := by
  unfold histSample
  try dsimp only
  repeat' with_reducible first
    | assumption | apply keeps_histAdd | apply keeps_detect | apply keeps_ite
    | (split <;> try dsimp only)

theorem keeps_sourceMark {s0 s : State} {a0 : EvBlk} {a1 a2 : Nat} (h : Keeps s0 s) :
    Keeps s0 (sourceMark a0 a1 a2 s) := by
  unfold sourceMark
  dsimp only
  refine keeps_onlyIf (keeps_each h fun _ _ => keeps_addF) fun s h => h.step rfl fun j =>
    ⟨j.regs, j.flash, j.intake, ?_, j.buffer, j.cands, j.queue, j.fuses, j.shadow⟩
  simpa using j.reserve

theorem keeps_execEventDetection {s0 s : State} {a0 : EvBlk} {a1 : Fin 32} {a2 : Word} (h : Keeps s0 s) :
    ∃ t, execEventDetection a0 a1 a2 s = .next t ∧ Keeps s0 t := by
  unfold execEventDetection
  refine ⟨_, rfl, ?_⟩
  try dsimp only
  repeat' with_reducible first
    | assumption | apply keeps_detect | apply keeps_sourceMark | apply keeps_onlyIf
    | intro _ _ _
    | intro _ _

theorem keeps_forceBits {s0 s : State} {a0 : EvBlk} {a1 : Nat} (h : Keeps s0 s) :
    Keeps s0 (forceBits a0 a1 s) := by
  unfold forceBits
  try dsimp only
  repeat' with_reducible first
    | assumption | apply keeps_detectN | apply keeps_drew | apply keeps_each | apply keeps_ite
    | (split <;> try dsimp only)
    | intro _ _ _
    | intro _ _

theorem keeps_execEvtForce {s0 s : State} {a0 : EvBlk} {a1 : Word} (h : Keeps s0 s) :
    ∃ t, execEvtForce a0 a1 s = .next t ∧ Keeps s0 t := by
  unfold execEvtForce
  refine ⟨_, rfl, ?_⟩
  try dsimp only
  repeat' with_reducible first
    | assumption | apply keeps_forceBits

theorem keeps_ackClass {s0 s : State} {a0 : EvBlk} {a1 : Nat} (h : Keeps s0 s) :
    Keeps s0 (ackClass a0 a1 s) := by
  unfold ackClass
  try dsimp only
  repeat' with_reducible first
    | assumption | apply keeps_setB

theorem keeps_execAckMinor {s0 s : State} {a0 : EvBlk} (h : Keeps s0 s) :
    ∃ t, execAckMinor a0 s = .next t ∧ Keeps s0 t := by
  unfold execAckMinor
  refine ⟨_, rfl, ?_⟩
  try dsimp only
  repeat' with_reducible first
    | assumption | apply keeps_ackClass

theorem keeps_execAckMajor {s0 s : State} {a0 : EvBlk} (h : Keeps s0 s) :
    ∃ t, execAckMajor a0 s = .next t ∧ Keeps s0 t := by
  unfold execAckMajor
  refine ⟨_, rfl, ?_⟩
  try dsimp only
  repeat' with_reducible first
    | assumption | apply keeps_ackClass

theorem keeps_execPromotionWindowExpiry {s0 s : State} {a0 : EvBlk} {a1 : Fin 32} (h : Keeps s0 s) :
    ∃ t, execPromotionWindowExpiry a0 a1 s = .next t ∧ Keeps s0 t := by
  unfold execPromotionWindowExpiry
  refine ⟨_, rfl, ?_⟩
  try dsimp only
  repeat' with_reducible first
    | assumption | apply keeps_setEv
    | (refine Keeps.lit ?_ rfl rfl rfl rfl rfl rfl rfl rfl rfl rfl; first | assumption | apply keeps_setEv)

theorem keeps_mergedRecord {s0 s : State} {a0 : EvBlk} {a1 : Nat} (h : Keeps s0 s) :
    Keeps s0 (mergedRecord a0 a1 s) := by
  unfold mergedRecord
  try dsimp only
  repeat' with_reducible first
    | assumption | apply keeps_setEv | apply keeps_recordEvent | apply keeps_settle | apply keeps_detect | apply keeps_onlyIf
    | (refine Keeps.lit ?_ rfl rfl rfl rfl rfl rfl rfl rfl rfl rfl; first | assumption | apply keeps_setEv | apply keeps_recordEvent | apply keeps_settle | apply keeps_detect | apply keeps_onlyIf)
    | refine Keeps.fst_of ?_ (by assumption)
    | (split <;> try dsimp only)
    | intro _ _ _
    | intro _ _

theorem keeps_execMergedRecord {s0 s : State} {a0 : EvBlk} {a1 : Fin 32} (h : Keeps s0 s) :
    ∃ t, execMergedRecord a0 a1 s = .next t ∧ Keeps s0 t := by
  unfold execMergedRecord
  refine ⟨_, rfl, ?_⟩
  try dsimp only
  repeat' with_reducible first
    | assumption | apply keeps_mergedRecord

end Sys2Proof.Machine
end

