-- ==== Sys2Proof/Laws/Keeps/Store.lean ====
section
/-! SUPPORT. What the operations of Machine/Store.lean keep. -/
set_option linter.all false
namespace Sys2Proof.Machine

theorem keeps_storeWant {s0 s : State} {a1 : Nat} (h : Keeps s0 s) :
    Keeps s0 (storeWant s a1) := by
  unfold storeWant
  try dsimp only
  repeat' with_reducible first
    | assumption
    | (refine Keeps.lit ?_ rfl rfl rfl rfl rfl rfl rfl rfl rfl rfl; first | assumption)

theorem keeps_storeDone {s0 s : State} {a1 : Nat} (h : Keeps s0 s) :
    Keeps s0 (storeDone s a1) := by
  unfold storeDone
  try dsimp only
  repeat' with_reducible first
    | assumption | apply keeps_setF | apply keeps_ite
    | (refine Keeps.lit ?_ rfl rfl rfl rfl rfl rfl rfl rfl rfl rfl; first | assumption | apply keeps_setF | apply keeps_ite)
    | (split <;> try dsimp only)

theorem keeps_execStoreTransferStart {s0 s : State}  (h : Keeps s0 s) :
    ∃ t, execStoreTransferStart s = .next t ∧ Keeps s0 t := by
  unfold execStoreTransferStart
  refine ⟨_, rfl, ?_⟩
  try dsimp only
  repeat' with_reducible first
    | assumption | apply keeps_setF | apply keeps_ite
    | (refine Keeps.lit ?_ rfl rfl rfl rfl rfl rfl rfl rfl rfl rfl; first | assumption | apply keeps_setF | apply keeps_ite)
    | (split <;> try dsimp only)

theorem keeps_recFailed {s0 s : State} {a0 : RecKind} {a1 : Nat} (h : Keeps s0 s) :
    Keeps s0 (recFailed a0 a1 s) := by
  unfold recFailed
  try dsimp only
  repeat' with_reducible first
    | assumption | apply keeps_detect | apply keeps_setB
    | (refine Keeps.lit ?_ rfl rfl rfl rfl rfl rfl rfl rfl rfl rfl; first | assumption | apply keeps_detect | apply keeps_setB)
    | (split <;> try dsimp only)

theorem keeps_recDone {s0 s : State} {a0 : RecKind} (h : Keeps s0 s) :
    Keeps s0 (recDone a0 s) := by
  unfold recDone
  try dsimp only
  repeat' with_reducible first
    | assumption | apply keeps_detect | apply keeps_setB
    | (refine Keeps.lit ?_ rfl rfl rfl rfl rfl rfl rfl rfl rfl rfl; first | assumption | apply keeps_detect | apply keeps_setB)
    | (split <;> try dsimp only)

theorem keeps_killSlot {s0 s : State} {a1 : RecKind} {a2 : Nat} (h : Keeps s0 s) : Keeps s0 (killSlot s a1 a2) :=
  keeps_setCells h fun w => flashErase_wf _ _ w

theorem keeps_startRec {s0 s : State} {a0 : RecKind} {a1 : List Byte} {a2 : Nat} (h : Keeps s0 s) :
    Keeps s0 (startRec a0 a1 a2 s) := by
  unfold startRec
  try dsimp only
  repeat' with_reducible first
    | assumption | apply keeps_recFailed | apply keeps_storeWant | apply keeps_ite
    | (refine Keeps.lit ?_ rfl rfl rfl rfl rfl rfl rfl rfl rfl rfl; first | assumption | apply keeps_recFailed | apply keeps_storeWant | apply keeps_ite)
    | (split <;> try dsimp only)

theorem keeps_bufferDone {s0 s : State} {a0 : RecKind} {a1 : List Byte} (h : Keeps s0 s) :
    Keeps s0 (bufferDone a0 a1 s) := by
  unfold bufferDone
  split
  · dsimp only
    refine keeps_setF (h.step rfl fun j => ⟨j.regs, j.flash, j.intake, j.reserve, ?_, j.cands, j.queue, j.fuses, j.shadow⟩)
    exact Nat.le_trans (List.length_filter_le _ _) j.buffer
  · exact h

theorem keeps_endRec {s0 s : State} {a0 : RecKind} {a1 : Bool} (h : Keeps s0 s) : Keeps s0 (endRec a0 a1 s) := by
  unfold endRec
  dsimp only
  split
  · exact h
  · rename_i w _
    have h1 : Keeps s0 (storeDone { s with st := { s.st with writes := s.st.writes.erase w } } (recRank a0)) :=
      keeps_storeDone (Keeps.lit h rfl rfl rfl rfl rfl rfl rfl rfl rfl rfl)
    split
    · exact keeps_recDone (keeps_bufferDone (keeps_setCells h1 fun x => flashPut_wf _ _ (flashErase_wf _ _ x)))
    · exact keeps_recFailed (keeps_killSlot h1)

theorem keeps_cutRecs {s0 s : State}  (h : Keeps s0 s) :
    Keeps s0 (cutRecs s) := by
  unfold cutRecs
  try dsimp only
  repeat' with_reducible first
    | assumption | apply keeps_endRec | apply keeps_each
    | intro _ _ _
    | intro _ _

theorem keeps_toFlash {s0 s : State} {a1 : State → State} (h1 : ∀ s, Keeps s0 s → Keeps s0 (a1 s)) (h : Keeps s0 s) :
    Keeps s0 (toFlash s a1) := by
  unfold toFlash
  try dsimp only
  repeat' with_reducible first
    | assumption | apply h1 | apply keeps_ite
    | (split <;> try dsimp only)
    | intro _ _ _
    | intro _ _

theorem keeps_execStoreRead {s0 s : State} {a0 : Word} {a1 : BitVec 13} (h : Keeps s0 s) :
    ∃ t, execStoreRead a0 a1 s = .next t ∧ Keeps s0 t := by
  unfold execStoreRead
  refine ⟨_, rfl, ?_⟩
  try dsimp only
  repeat' with_reducible first
    | assumption | apply keeps_toFlash
    | (refine Keeps.lit ?_ rfl rfl rfl rfl rfl rfl rfl rfl rfl rfl; first | assumption | apply keeps_toFlash)
    | intro _ _

theorem keeps_execPageProgram {s0 s : State} {a0 : Word} {a1 : List Byte} (h : Keeps s0 s) :
    ∃ t, execPageProgram a0 a1 s = .next t ∧ Keeps s0 t := by
  unfold execPageProgram
  refine ⟨_, rfl, ?_⟩
  try dsimp only
  repeat' with_reducible first
    | assumption | apply keeps_toFlash | refine keeps_setCells ?_ (flashErase_wf _ _) | refine keeps_setCells ?_ (flashProgram_wf _ _) | apply keeps_ite
    | (refine Keeps.lit ?_ rfl rfl rfl rfl rfl rfl rfl rfl rfl rfl; first | assumption | apply keeps_toFlash | refine keeps_setCells ?_ (flashErase_wf _ _) | refine keeps_setCells ?_ (flashProgram_wf _ _) | apply keeps_ite)
    | (split <;> try dsimp only)
    | intro _ _

theorem keeps_execBlockErase {s0 s : State} {a0 : Word} (h : Keeps s0 s) :
    ∃ t, execBlockErase a0 s = .next t ∧ Keeps s0 t := by
  unfold execBlockErase
  refine ⟨_, rfl, ?_⟩
  try dsimp only
  repeat' with_reducible first
    | assumption | apply keeps_toFlash | refine keeps_setCells ?_ (flashErase_wf _ _) | refine keeps_setCells ?_ (flashProgram_wf _ _) | apply keeps_ite
    | (refine Keeps.lit ?_ rfl rfl rfl rfl rfl rfl rfl rfl rfl rfl; first | assumption | apply keeps_toFlash | refine keeps_setCells ?_ (flashErase_wf _ _) | refine keeps_setCells ?_ (flashProgram_wf _ _) | apply keeps_ite)
    | (split <;> try dsimp only)
    | intro _ _

theorem keeps_execWriteEnable {s0 s : State}  (h : Keeps s0 s) :
    ∃ t, execWriteEnable s = .next t ∧ Keeps s0 t := by
  unfold execWriteEnable
  refine ⟨_, rfl, ?_⟩
  try dsimp only
  repeat' with_reducible first
    | assumption | apply keeps_toFlash
    | (refine Keeps.lit ?_ rfl rfl rfl rfl rfl rfl rfl rfl rfl rfl; first | assumption | apply keeps_toFlash)
    | intro _ _

theorem keeps_execStoreReadStatus {s0 s : State} {a0 : Bool} (h : Keeps s0 s) :
    ∃ t, execStoreReadStatus a0 s = .next t ∧ Keeps s0 t := by
  unfold execStoreReadStatus
  refine ⟨_, rfl, ?_⟩
  try dsimp only
  repeat' with_reducible first
    | assumption | apply keeps_ite
    | (refine Keeps.lit ?_ rfl rfl rfl rfl rfl rfl rfl rfl rfl rfl; first | assumption | apply keeps_ite)
    | (split <;> try dsimp only)

theorem keeps_execReadId {s0 s : State} {a0 : Byte} (h : Keeps s0 s) :
    ∃ t, execReadId a0 s = .next t ∧ Keeps s0 t := by
  unfold execReadId
  refine ⟨_, rfl, ?_⟩
  try dsimp only
  repeat' with_reducible first
    | assumption | apply keeps_toFlash | apply keeps_setF | apply keeps_detect | apply keeps_ite
    | (refine Keeps.lit ?_ rfl rfl rfl rfl rfl rfl rfl rfl rfl rfl; first | assumption | apply keeps_toFlash | apply keeps_setF | apply keeps_detect | apply keeps_ite)
    | (split <;> try dsimp only)
    | intro _ _

theorem keeps_execExtendedAddress {s0 s : State} {a0 : Byte} (h : Keeps s0 s) :
    ∃ t, execExtendedAddress a0 s = .next t ∧ Keeps s0 t := by
  unfold execExtendedAddress
  refine ⟨_, rfl, ?_⟩
  try dsimp only
  repeat' with_reducible first
    | assumption | apply keeps_toFlash
    | (refine Keeps.lit ?_ rfl rfl rfl rfl rfl rfl rfl rfl rfl rfl; first | assumption | apply keeps_toFlash)
    | intro _ _

end Sys2Proof.Machine
end

