-- ==== Sys2Proof/Laws/Keeps/Bias.lean ====
section
/-! SUPPORT. What the operations of Machine/Bias.lean keep. -/
set_option linter.all false
namespace Sys2Proof.Machine

theorem keeps_setChain {s0 s : State} {a1 : Nat} {a2 : Chain} (h : Keeps s0 s) :
    Keeps s0 (setChain s a1 a2) := by
  unfold setChain
  try dsimp only
  repeat' with_reducible first
    | assumption
    | (refine Keeps.lit ?_ rfl rfl rfl rfl rfl rfl rfl rfl rfl rfl; first | assumption)

theorem keeps_dropBlock {s0 s : State} {a0 : Nat} (h : Keeps s0 s) :
    Keeps s0 (dropBlock a0 s) := by
  unfold dropBlock
  try dsimp only
  repeat' with_reducible first
    | assumption | apply keeps_setChan
    | (refine Keeps.lit ?_ rfl rfl rfl rfl rfl rfl rfl rfl rfl rfl; first | assumption | apply keeps_setChan)
    | intro _ _

theorem keeps_restartChain {s0 s : State} {a0 : Nat} (h : Keeps s0 s) :
    Keeps s0 (restartChain a0 s) := by
  unfold restartChain
  try dsimp only
  repeat' with_reducible first
    | assumption | apply keeps_dropBlock | apply keeps_setChain | apply keeps_each
    | intro _ _ _
    | intro _ _

theorem keeps_chainOut {s0 s : State} {a0 : Nat} {a1 : Int} (h : Keeps s0 s) :
    Keeps s0 (chainOut a0 a1 s) := by
  unfold chainOut
  try dsimp only
  repeat' with_reducible first
    | assumption | apply keeps_setB | apply keeps_setS | apply keeps_setChain | apply keeps_onlyIf
    | (refine Keeps.lit ?_ rfl rfl rfl rfl rfl rfl rfl rfl rfl rfl; first | assumption | apply keeps_setB | apply keeps_setS | apply keeps_setChain | apply keeps_onlyIf)
    | intro _ _ _
    | intro _ _

theorem keeps_convertOne {s0 s : State} {a0 : Nat} {a1 : Int} (h : Keeps s0 s) :
    Keeps s0 (convertOne a0 a1 s) := by
  unfold convertOne
  try dsimp only
  repeat' with_reducible first
    | assumption | apply keeps_detect | apply keeps_setChain | apply keeps_chainOut | apply keeps_onlyIf
    | refine Keeps.fst_of ?_ (by assumption)
    | (split <;> try dsimp only)
    | intro _ _ _
    | intro _ _

theorem keeps_convertAll {s0 s : State} {a0 : List (List Int)} (h : Keeps s0 s) :
    Keeps s0 (convertAll a0 s) := by
  unfold convertAll
  try dsimp only
  repeat' with_reducible first
    | assumption | apply keeps_convertOne | apply keeps_each
    | intro _ _ _
    | intro _ _

theorem keeps_chanSafe {s0 s : State} {a0 : Nat} {a1 : Nat} (h : Keeps s0 s) :
    Keeps s0 (chanSafe a0 a1 s) := by
  unfold chanSafe
  try dsimp only
  repeat' with_reducible first
    | assumption | apply keeps_setFs | apply keeps_setChan | apply keeps_ite
    | (refine Keeps.lit ?_ rfl rfl rfl rfl rfl rfl rfl rfl rfl rfl; first | assumption | apply keeps_setFs | apply keeps_setChan | apply keeps_ite)
    | (split <;> try dsimp only)

theorem keeps_loopFault {s0 s : State} {a0 : Nat} {a1 : Nat} (h : Keeps s0 s) :
    Keeps s0 (loopFault a0 a1 s) := by
  unfold loopFault
  try dsimp only
  repeat' with_reducible first
    | assumption | apply keeps_detect | apply keeps_chanSafe

theorem keeps_enterSearch {s0 s : State} {a0 : Nat} (h : Keeps s0 s) :
    Keeps s0 (enterSearch a0 s) := by
  unfold enterSearch
  try dsimp only
  repeat' with_reducible first
    | assumption | apply keeps_setF | apply keeps_setS | apply keeps_setChan
    | (refine Keeps.lit ?_ rfl rfl rfl rfl rfl rfl rfl rfl rfl rfl; first | assumption | apply keeps_setF | apply keeps_setS | apply keeps_setChan)

theorem keeps_enterLoop {s0 s : State} {a0 : Nat} {a1 : Int} {a2 : Int} (h : Keeps s0 s) :
    Keeps s0 (enterLoop a0 a1 a2 s) := by
  unfold enterLoop
  try dsimp only
  repeat' with_reducible first
    | assumption | apply keeps_setF | apply keeps_setS | apply keeps_setChan
    | (refine Keeps.lit ?_ rfl rfl rfl rfl rfl rfl rfl rfl rfl rfl; first | assumption | apply keeps_setF | apply keeps_setS | apply keeps_setChan)

theorem keeps_modeStart {s0 s : State} {a0 : Nat} {a1 : Nat} (h : Keeps s0 s) :
    Keeps s0 (modeStart a0 a1 s) := by
  unfold modeStart
  try dsimp only
  repeat' with_reducible first
    | assumption | apply keeps_setF | apply keeps_enterLoop | apply keeps_enterSearch | apply keeps_ite
    | (split <;> try dsimp only)

theorem keeps_writeMode {s0 s : State} {a0 : Nat} {a1 : Nat} {a2 : Bool} (h : Keeps s0 s) :
    Keeps s0 (writeMode a0 a1 a2 s) := by
  unfold writeMode
  try dsimp only
  repeat' with_reducible first
    | assumption | apply keeps_setF | apply keeps_setChan | apply keeps_modeStart | apply keeps_ite
    | (refine Keeps.lit ?_ rfl rfl rfl rfl rfl rfl rfl rfl rfl rfl; first | assumption | apply keeps_setF | apply keeps_setChan | apply keeps_modeStart | apply keeps_ite)
    | (split <;> try dsimp only)

theorem keeps_setDet {s0 s : State} {a0 : Nat} {a1 : Fld} {a2 : Nat} (h : Keeps s0 s) :
    Keeps s0 (setDet a0 a1 a2 s) := by
  unfold setDet
  try dsimp only
  repeat' with_reducible first
    | assumption | apply keeps_dropBlock | apply keeps_setF | apply keeps_ite
    | (split <;> try dsimp only)

theorem keeps_applyWrite {s0 s : State} {a0 : Nat} {a1 : Bool} {a3 : Prod Nat Nat} (h : Keeps s0 s) :
    Keeps s0 (applyWrite a0 a1 s a3) := by
  unfold applyWrite
  try dsimp only
  repeat' with_reducible first
    | assumption | apply keeps_setFs | apply keeps_setDet | apply keeps_writeMode | apply keeps_setF | apply keeps_ite
    | (split <;> try dsimp only)

theorem keeps_rescale {s0 s : State} {a0 : Nat} {a1 : Nat} (h : Keeps s0 s) :
    Keeps s0 (rescale a0 a1 s) := by
  unfold rescale
  try dsimp only
  repeat' with_reducible first
    | assumption | apply keeps_setF | apply keeps_setS | apply keeps_setChan | apply keeps_detect | apply keeps_onlyIf | apply keeps_ite
    | (refine Keeps.lit ?_ rfl rfl rfl rfl rfl rfl rfl rfl rfl rfl; first | assumption | apply keeps_setF | apply keeps_setS | apply keeps_setChan | apply keeps_detect | apply keeps_onlyIf | apply keeps_ite)
    | (split <;> try dsimp only)
    | intro _ _ _
    | intro _ _

theorem keeps_applyPend {s0 s : State} {a0 : Nat} {a1 : Bool} (h : Keeps s0 s) :
    Keeps s0 (applyPend a0 a1 s) := by
  unfold applyPend
  try dsimp only
  repeat' with_reducible first
    | assumption | apply keeps_setChan | apply keeps_rescale | apply keeps_applyWrite | apply keeps_foldl
    | (refine Keeps.lit ?_ rfl rfl rfl rfl rfl rfl rfl rfl rfl rfl; first | assumption | apply keeps_setChan | apply keeps_rescale | apply keeps_applyWrite | apply keeps_foldl)
    | (split <;> try dsimp only)
    | intro _ _ _
    | intro _ _

theorem keeps_slewStep {s0 s : State} {a0 : Nat} (h : Keeps s0 s) :
    Keeps s0 (slewStep a0 s) := by
  unfold slewStep
  try dsimp only
  repeat' with_reducible first
    | assumption | apply keeps_setS

theorem keeps_searchFrame {s0 s : State} {a0 : Nat} (h : Keeps s0 s) :
    Keeps s0 (searchFrame a0 s) := by
  unfold searchFrame
  try dsimp only
  repeat' with_reducible first
    | assumption | apply keeps_setChan | apply keeps_ite
    | (refine Keeps.lit ?_ rfl rfl rfl rfl rfl rfl rfl rfl rfl rfl; first | assumption | apply keeps_setChan | apply keeps_ite)
    | (split <;> try dsimp only)

theorem keeps_driveCode {s0 s : State} {a0 : Nat} (h : Keeps s0 s) :
    Keeps s0 (driveCode a0 s) := by
  unfold driveCode
  try dsimp only
  repeat' with_reducible first
    | assumption | apply keeps_setChan | apply keeps_detect | apply keeps_ite
    | (refine Keeps.lit ?_ rfl rfl rfl rfl rfl rfl rfl rfl rfl rfl; first | assumption | apply keeps_setChan | apply keeps_detect | apply keeps_ite)
    | (split <;> try dsimp only)

theorem keeps_takeOutput {s0 s : State} {a0 : Nat} (h : Keeps s0 s) :
    Keeps s0 (takeOutput a0 s) := by
  unfold takeOutput
  try dsimp only
  repeat' with_reducible first
    | assumption | apply keeps_setChan
    | (refine Keeps.lit ?_ rfl rfl rfl rfl rfl rfl rfl rfl rfl rfl; first | assumption | apply keeps_setChan)
    | (split <;> try dsimp only)

theorem keeps_chanFrame {s0 s : State} {a1 : Nat} (h : Keeps s0 s) :
    Keeps s0 (chanFrame s a1) := by
  unfold chanFrame
  try dsimp only
  repeat' with_reducible first
    | assumption | apply keeps_setChan | apply keeps_chanSafe | apply keeps_driveCode | apply keeps_searchFrame | apply keeps_slewStep | apply keeps_takeOutput | apply keeps_applyPend | apply keeps_onlyIf | apply keeps_ite
    | (refine Keeps.lit ?_ rfl rfl rfl rfl rfl rfl rfl rfl rfl rfl; first | assumption | apply keeps_setChan | apply keeps_chanSafe | apply keeps_driveCode | apply keeps_searchFrame | apply keeps_slewStep | apply keeps_takeOutput | apply keeps_applyPend | apply keeps_onlyIf | apply keeps_ite)
    | (split <;> try dsimp only)
    | intro _ _ _
    | intro _ _

theorem keeps_hkApply {s0 s : State}  (h : Keeps s0 s) :
    Keeps s0 (hkApply s) := by
  unfold hkApply
  try dsimp only
  repeat' with_reducible first
    | assumption | apply keeps_setFs
    | (refine Keeps.lit ?_ rfl rfl rfl rfl rfl rfl rfl rfl rfl rfl; first | assumption | apply keeps_setFs)
    | (split <;> try dsimp only)

theorem keeps_execModulatorFrame {s0 s : State} {a0 : List (List Int)} (h : Keeps s0 s) :
    ∃ t, execModulatorFrame a0 s = .next t ∧ Keeps s0 t := by
  unfold execModulatorFrame
  refine ⟨_, rfl, ?_⟩
  try dsimp only
  repeat' with_reducible first
    | assumption | apply keeps_convertAll | apply keeps_chanFrame | apply keeps_hkApply | apply keeps_each | apply keeps_onlyIf
    | (refine Keeps.lit ?_ rfl rfl rfl rfl rfl rfl rfl rfl rfl rfl; first | assumption | apply keeps_convertAll | apply keeps_chanFrame | apply keeps_hkApply | apply keeps_each | apply keeps_onlyIf)
    | intro _ _ _
    | intro _ _

theorem keeps_integrate {s0 s : State} {a0 : Nat} (h : Keeps s0 s) :
    Keeps s0 (integrate a0 s) := by
  unfold integrate
  try dsimp only
  repeat' with_reducible first
    | assumption | apply keeps_setChan | apply keeps_setS | apply keeps_loopFault | apply keeps_ite
    | (refine Keeps.lit ?_ rfl rfl rfl rfl rfl rfl rfl rfl rfl rfl; first | assumption | apply keeps_setChan | apply keeps_setS | apply keeps_loopFault | apply keeps_ite)
    | (split <;> try dsimp only)

theorem keeps_searchBlock {s0 s : State} {a0 : Nat} {a1 : SearchSt} (h : Keeps s0 s) :
    Keeps s0 (searchBlock a0 a1 s) := by
  unfold searchBlock
  try dsimp only
  repeat' with_reducible first
    | assumption | apply keeps_setS | apply keeps_setChan | apply keeps_detect | apply keeps_enterLoop | apply keeps_loopFault | apply keeps_ite
    | (refine Keeps.lit ?_ rfl rfl rfl rfl rfl rfl rfl rfl rfl rfl; first | assumption | apply keeps_setS | apply keeps_setChan | apply keeps_detect | apply keeps_enterLoop | apply keeps_loopFault | apply keeps_ite)
    | (split <;> try dsimp only)

theorem keeps_toneBlock {s0 s : State} {a0 : Nat} {a1 : Int} {a2 : Int} (h : Keeps s0 s) :
    Keeps s0 (toneBlock a0 a1 a2 s) := by
  unfold toneBlock
  try dsimp only
  repeat' with_reducible first
    | assumption | apply keeps_setS | apply keeps_setChan | apply keeps_addF | apply keeps_loopFault | apply keeps_integrate | apply keeps_searchBlock | apply keeps_ite
    | (refine Keeps.lit ?_ rfl rfl rfl rfl rfl rfl rfl rfl rfl rfl; first | assumption | apply keeps_setS | apply keeps_setChan | apply keeps_addF | apply keeps_loopFault | apply keeps_integrate | apply keeps_searchBlock | apply keeps_ite)
    | (split <;> try dsimp only)

theorem keeps_execToneBlockEnd {s0 s : State} {a0 : Fin 24} {a1 : Int} {a2 : Int} (h : Keeps s0 s) :
    ∃ t, execToneBlockEnd a0 a1 a2 s = .next t ∧ Keeps s0 t := by
  unfold execToneBlockEnd
  refine ⟨_, rfl, ?_⟩
  try dsimp only
  repeat' with_reducible first
    | assumption | apply keeps_toneBlock | apply keeps_ite
    | (split <;> try dsimp only)

theorem keeps_hkSlotWrite {s0 s : State} {a0 : Nat} {a1 : Nat} (h : Keeps s0 s) :
    Keeps s0 (hkSlotWrite a0 a1 s) := by
  unfold hkSlotWrite
  try dsimp only
  repeat' with_reducible first
    | assumption | apply keeps_restartChain | apply keeps_setF | apply keeps_ite
    | (split <;> try dsimp only)

theorem keeps_execHkSlotWrite {s0 s : State} {a0 : Fin 32} {a1 : Word} (h : Keeps s0 s) :
    ∃ t, execHkSlotWrite a0 a1 s = .next t ∧ Keeps s0 t := by
  unfold execHkSlotWrite
  refine ⟨_, rfl, ?_⟩
  try dsimp only
  repeat' with_reducible first
    | assumption | apply keeps_hkSlotWrite

theorem keeps_keepTemp {s0 s : State} {a0 : Nat} (h : Keeps s0 s) :
    Keeps s0 (keepTemp a0 s) := by
  unfold keepTemp
  try dsimp only
  repeat' with_reducible first
    | assumption
    | (refine Keeps.lit ?_ rfl rfl rfl rfl rfl rfl rfl rfl rfl rfl; first | assumption)

theorem keeps_calStart {s0 s : State}  (h : Keeps s0 s) :
    Keeps s0 (calStart s) := by
  unfold calStart
  try dsimp only
  repeat' with_reducible first
    | assumption | apply keeps_dropBlock | apply keeps_keepTemp | apply keeps_setB | apply keeps_each | apply keeps_ite
    | (split <;> try dsimp only)
    | intro _ _ _
    | intro _ _

theorem keeps_execCalStart {s0 s : State}  (h : Keeps s0 s) :
    ∃ t, execCalStart s = .next t ∧ Keeps s0 t := by
  unfold execCalStart
  refine ⟨_, rfl, ?_⟩
  try dsimp only
  repeat' with_reducible first
    | assumption | apply keeps_calStart

theorem keeps_offerCalib {s0 s : State} {a0 : Nat} {a1 : Nat} {a2 : Nat} {a3 : Int} (h : Keeps s0 s) :
    Keeps s0 (offerCalib a0 a1 a2 a3 s) := by
  unfold offerCalib
  try dsimp only
  repeat' with_reducible first
    | assumption | apply keeps_settle | apply keeps_offer

theorem keeps_hkCalDone {s0 s : State} {a0 : Nat} {a1 : Nat} (h : Keeps s0 s) :
    Keeps s0 (hkCalDone a0 a1 s) := by
  unfold hkCalDone
  try dsimp only
  repeat' with_reducible first
    | assumption | apply keeps_setB | apply keeps_setFs | apply keeps_restartChain | apply keeps_offerCalib | apply keeps_detect | apply keeps_each | apply keeps_ite
    | (refine Keeps.lit ?_ rfl rfl rfl rfl rfl rfl rfl rfl rfl rfl; first | assumption | apply keeps_setB | apply keeps_setFs | apply keeps_restartChain | apply keeps_offerCalib | apply keeps_detect | apply keeps_each | apply keeps_ite)
    | (split <;> try dsimp only)
    | intro _ _ _
    | intro _ _

theorem keeps_biasLoad {s0 s : State} {a0 : Fin 2} (h : Keeps s0 s) :
    Keeps s0 (biasLoad a0 s) := by
  unfold biasLoad
  try dsimp only
  repeat' with_reducible first
    | assumption | apply keeps_setFs | apply keeps_each | apply keeps_ite
    | (split <;> try dsimp only)
    | intro _ _ _
    | intro _ _

theorem keeps_biasLeave {s0 s : State} {a0 : Nat} {a1 : Bool} (h : Keeps s0 s) :
    Keeps s0 (biasLeave a0 a1 s) := by
  unfold biasLeave
  try dsimp only
  repeat' with_reducible first
    | assumption | apply keeps_setChan | apply keeps_each | apply keeps_ite
    | (refine Keeps.lit ?_ rfl rfl rfl rfl rfl rfl rfl rfl rfl rfl; first | assumption | apply keeps_setChan | apply keeps_each | apply keeps_ite)
    | (split <;> try dsimp only)
    | intro _ _ _
    | intro _ _

end Sys2Proof.Machine
end

