-- ==== Sys2Proof/Laws/Keeps/Fuse.lean ====
section
/-! SUPPORT. What the operations of Machine/Fuse.lean keep. -/
set_option linter.all false
namespace Sys2Proof.Machine

theorem keeps_fuseFails {s0 s : State} {a1 : Nat} (h : Keeps s0 s) :
    Keeps s0 (fuseFails s a1) := by
  unfold fuseFails
  try dsimp only
  repeat' with_reducible first
    | assumption | apply keeps_detect | apply keeps_ite
    | (refine Keeps.lit ?_ rfl rfl rfl rfl rfl rfl rfl rfl rfl rfl; first | assumption | apply keeps_detect | apply keeps_ite)
    | (split <;> try dsimp only)

theorem keeps_fuseCheck {s0 s : State} {a0 : List FuseWord} (h : Keeps s0 s) : Keeps s0 (fuseCheck a0 s) := by
  unfold fuseCheck
  dsimp only
  refine keeps_settle (keeps_each (keeps_setB (h.step rfl fun j =>
    ⟨j.regs, j.flash, j.intake, j.reserve, j.buffer, j.cands, j.queue, ?_, j.shadow⟩)) fun _ _ => keeps_fuseFails)
  simp

theorem keeps_challengeDrop {s0 s : State}  (h : Keeps s0 s) :
    Keeps s0 (challengeDrop s) := by
  unfold challengeDrop
  try dsimp only
  repeat' with_reducible first
    | assumption | apply keeps_setF | apply keeps_each
    | (refine Keeps.lit ?_ rfl rfl rfl rfl rfl rfl rfl rfl rfl rfl; first | assumption | apply keeps_setF | apply keeps_each)
    | intro _ _ _
    | intro _ _

theorem keeps_challengeExpires {s0 s : State}  (h : Keeps s0 s) :
    Keeps s0 (challengeExpires s) := by
  unfold challengeExpires
  try dsimp only
  repeat' with_reducible first
    | assumption | apply keeps_setFs | apply keeps_challengeDrop | apply keeps_ite
    | (split <;> try dsimp only)

theorem keeps_laserRefuse {s0 s : State} {a0 : Nat} {a1 : Nat} (h : Keeps s0 s) :
    Keeps s0 (laserRefuse a0 a1 s) := by
  unfold laserRefuse
  try dsimp only
  repeat' with_reducible first
    | assumption | apply keeps_detect | apply keeps_setF

theorem keeps_laserOn {s0 s : State} {a1 : Nat} {a2 : Nat} (h : Keeps s0 s) :
    Keeps s0 (laserOn s a1 a2) := by
  unfold laserOn
  try dsimp only
  repeat' with_reducible first
    | assumption | apply keeps_laserRefuse | apply keeps_laserSend | apply keeps_setLaser | apply keeps_ite
    | (refine Keeps.lit ?_ rfl rfl rfl rfl rfl rfl rfl rfl rfl rfl; first | assumption | apply keeps_laserRefuse | apply keeps_laserSend | apply keeps_setLaser | apply keeps_ite)
    | (split <;> try dsimp only)

end Sys2Proof.Machine
end

