-- ==== Sys2Proof/Laws/Keeps/HostSignal.lean ====
section
/-! SUPPORT. What the operations of Machine/HostSignal.lean keep. -/
set_option linter.all false
namespace Sys2Proof.Machine

theorem keeps_laneSample {s0 s : State} {a0 : Nat} {a1 : Int} (h : Keeps s0 s) :
    Keeps s0 (laneSample a0 a1 s).1 := by
  unfold laneSample
  try dsimp only
  repeat' with_reducible first
    | assumption | apply keeps_ite
    | (refine Keeps.lit ?_ rfl rfl rfl rfl rfl rfl rfl rfl rfl rfl; first | assumption | apply keeps_ite)
    | (split <;> try dsimp only)

end Sys2Proof.Machine
end

