-- ==== Sys2Proof/Laws/Keeps/LineTx.lean ====
section
/-! SUPPORT. What the operations of Machine/LineTx.lean keep. -/
set_option linter.all false
namespace Sys2Proof.Machine

theorem keeps_queueBlk {s0 s : State} {a1 : Nat} {a2 : Nat} {a3 : List Word} (h : Keeps s0 s) :
    Keeps s0 (queueBlk s a1 a2 a3) := by
  unfold queueBlk
  try dsimp only
  repeat' with_reducible first
    | assumption | apply keeps_reuseEntry | apply keeps_ite
    | (refine Keeps.lit ?_ rfl rfl rfl rfl rfl rfl rfl rfl rfl rfl; first | assumption | apply keeps_reuseEntry | apply keeps_ite)
    | (split <;> try dsimp only)

theorem keeps_startRun {s0 s : State} {a0 : Nat} (h : Keeps s0 s) :
    Keeps s0 (startRun a0 s) := by
  unfold startRun
  try dsimp only
  repeat' with_reducible first
    | assumption
    | (refine Keeps.lit ?_ rfl rfl rfl rfl rfl rfl rfl rfl rfl rfl; first | assumption)
    | intro _ _

theorem keeps_fillSlot {s0 s : State} {a1 : Nat} {a2 : Nat} {a3 : Nat} (h : Keeps s0 s) :
    Keeps s0 (fillSlot s a1 a2 a3) := by
  unfold fillSlot
  try dsimp only
  repeat' with_reducible first
    | assumption | apply keeps_ite
    | (refine Keeps.lit ?_ rfl rfl rfl rfl rfl rfl rfl rfl rfl rfl; first | assumption | apply keeps_ite)
    | refine Keeps.fst_of ?_ (by assumption)
    | (split <;> try dsimp only)

theorem keeps_execBlockSlot {s0 s : State} {a0 : Fin 2} {a1 : Fin 32} (h : Keeps s0 s) :
    ∃ t, execBlockSlot a0 a1 s = .next t ∧ Keeps s0 t := by
  unfold execBlockSlot
  refine ⟨_, rfl, ?_⟩
  try dsimp only
  repeat' with_reducible first
    | assumption | apply keeps_fillSlot | apply keeps_ite
    | (split <;> try dsimp only)

theorem keeps_demapFresh {s0 s : State} {a0 : Nat} (h : Keeps s0 s) :
    Keeps s0 (demapFresh a0 s) := by
  unfold demapFresh
  try dsimp only
  repeat' with_reducible first
    | assumption
    | (refine Keeps.lit ?_ rfl rfl rfl rfl rfl rfl rfl rfl rfl rfl; first | assumption)

theorem keeps_cutChunk {s0 s : State} {a1 : Nat} {a2 : List ClientItem} (h : Keeps s0 s) :
    Keeps s0 (cutChunk s a1 a2) := by
  unfold cutChunk
  try dsimp only
  repeat' with_reducible first
    | assumption | apply keeps_addF | apply keeps_queueBlk
    | (refine Keeps.lit ?_ rfl rfl rfl rfl rfl rfl rfl rfl rfl rfl; first | assumption | apply keeps_addF | apply keeps_queueBlk)
    | (split <;> try dsimp only)

theorem keeps_execDemapperChunk {s0 s : State} {a0 : Fin 8} {a1 : List HostItem} (h : Keeps s0 s) :
    ∃ t, execDemapperChunk a0 a1 s = .next t ∧ Keeps s0 t := by
  unfold execDemapperChunk
  refine ⟨_, rfl, ?_⟩
  try dsimp only
  repeat' with_reducible first
    | assumption | apply keeps_cutChunk | apply keeps_ite
    | (refine Keeps.lit ?_ rfl rfl rfl rfl rfl rfl rfl rfl rfl rfl; first | assumption | apply keeps_cutChunk | apply keeps_ite)
    | (split <;> try dsimp only)

theorem keeps_execHoldGapBlock {s0 s : State} {a0 : Fin 8} (h : Keeps s0 s) :
    ∃ t, execHoldGapBlock a0 s = .next t ∧ Keeps s0 t := by
  unfold execHoldGapBlock
  refine ⟨_, rfl, ?_⟩
  try dsimp only
  repeat' with_reducible first
    | assumption | apply keeps_queueBlk | apply keeps_each | apply keeps_ite
    | (split <;> try dsimp only)
    | intro _ _ _
    | intro _ _

theorem keeps_sendHeaders {s0 s : State}  (h : Keeps s0 s) :
    Keeps s0 (sendHeaders s) := by
  unfold sendHeaders
  try dsimp only
  repeat' with_reducible first
    | assumption | apply keeps_foldl
    | (refine Keeps.lit ?_ rfl rfl rfl rfl rfl rfl rfl rfl rfl rfl; first | assumption | apply keeps_foldl)
    | intro _ _ _
    | intro _ _

theorem keeps_writeTxEnable {s0 s : State} {a0 : Nat} {a1 : Bool} (h : Keeps s0 s) :
    Keeps s0 (writeTxEnable a0 a1 s) := by
  unfold writeTxEnable
  try dsimp only
  repeat' with_reducible first
    | assumption | apply keeps_setF | apply keeps_txTimerOn | apply keeps_setB | apply keeps_txTimerOff | apply keeps_laserOff | apply keeps_ite
    | (split <;> try dsimp only)

theorem keeps_execTxEnable {s0 s : State} {a0 : Fin 2} {a1 : Bool} (h : Keeps s0 s) :
    ∃ t, execTxEnable a0 a1 s = .next t ∧ Keeps s0 t := by
  unfold execTxEnable
  refine ⟨_, rfl, ?_⟩
  try dsimp only
  repeat' with_reducible first
    | assumption | apply keeps_writeTxEnable

theorem keeps_execTxLocksPresent {s0 s : State} {a0 : Fin 2} (h : Keeps s0 s) :
    ∃ t, execTxLocksPresent a0 s = .next t ∧ Keeps s0 t := by
  unfold execTxLocksPresent
  refine ⟨_, rfl, ?_⟩
  try dsimp only
  repeat' with_reducible first
    | assumption | apply keeps_setB | apply keeps_setF | apply keeps_laserOn | apply keeps_ite
    | (split <;> try dsimp only)

theorem keeps_txUnlock {s0 s : State} {a0 : Nat} (h : Keeps s0 s) :
    Keeps s0 (txUnlock a0 s) := by
  unfold txUnlock
  try dsimp only
  repeat' with_reducible first
    | assumption | apply keeps_setF | apply keeps_laserOff | apply keeps_detect | apply keeps_txTimerOn | apply keeps_ite
    | (split <;> try dsimp only)

theorem keeps_execTxLockLost {s0 s : State} {a0 : Fin 2} {a1 : Bool} (h : Keeps s0 s) :
    ∃ t, execTxLockLost a0 a1 s = .next t ∧ Keeps s0 t := by
  unfold execTxLockLost
  refine ⟨_, rfl, ?_⟩
  try dsimp only
  repeat' with_reducible first
    | assumption | apply keeps_txUnlock | apply keeps_setB | apply keeps_ite
    | (split <;> try dsimp only)

theorem keeps_execTxTimeout {s0 s : State} {a0 : Fin 2} (h : Keeps s0 s) :
    ∃ t, execTxTimeout a0 s = .next t ∧ Keeps s0 t := by
  unfold execTxTimeout
  refine ⟨_, rfl, ?_⟩
  try dsimp only
  repeat' with_reducible first
    | assumption | apply keeps_laserOff | apply keeps_setFs | apply keeps_txTimerOff | apply keeps_detect | apply keeps_onlyIf | apply keeps_ite
    | (split <;> try dsimp only)
    | intro _ _ _
    | intro _ _

theorem keeps_txStart {s0 s : State} {a1 : Fin 2} (h : Keeps s0 s) :
    Keeps s0 (txStart s a1) := by
  unfold txStart
  try dsimp only
  repeat' with_reducible first
    | assumption | apply keeps_detect | apply keeps_setF | apply keeps_txTimerOff | apply keeps_ite
    | (split <;> try dsimp only)

end Sys2Proof.Machine
end

