-- ==== Sys2Proof/Laws/Keeps/LineSignal.lean ====
section
/-! SUPPORT. What the operations of Machine/LineSignal.lean keep. -/
set_option linter.all false
namespace Sys2Proof.Machine

theorem keeps_countClips {s0 s : State} {a1 : Nat} (h : Keeps s0 s) :
    Keeps s0 (countClips s a1) := by
  unfold countClips
  try dsimp only
  repeat' with_reducible first
    | assumption | apply keeps_addF | apply keeps_ite
    | (split <;> try dsimp only)

end Sys2Proof.Machine
end

