-- ==== Sys2Proof/Laws/Keeps/Laser.lean ====
section
/-! SUPPORT. What the operations of Machine/Laser.lean keep. -/
set_option linter.all false
namespace Sys2Proof.Machine

theorem keeps_chLockClear {s0 s : State} {a0 : Nat} {a1 : Nat} (h : Keeps s0 s) :
    Keeps s0 (chLockClear a0 a1 s) := by
  unfold chLockClear
  try dsimp only
  repeat' with_reducible first
    | assumption | apply keeps_txUnlock | apply keeps_setB | apply keeps_setF | apply keeps_ite
    | (split <;> try dsimp only)

theorem keeps_laserSet {s0 s : State} {a0 : Nat} {a1 : Nat} {a2 : Nat} {a3 : Nat} (h : Keeps s0 s) :
    Keeps s0 (laserSet a0 a1 a2 a3 s) := by
  unfold laserSet
  try dsimp only
  repeat' with_reducible first
    | assumption | apply keeps_laserSend | apply keeps_setF | apply keeps_chLockClear | apply keeps_laserRefuse | apply keeps_onlyIf | apply keeps_ite
    | (split <;> try dsimp only)
    | intro _ _ _
    | intro _ _

theorem keeps_laserWrite {s0 s : State} {a0 : Nat} {a1 : Nat} {a2 : Nat} {a3 : Nat} (h : Keeps s0 s) :
    Keeps s0 (laserWrite a0 a1 a2 a3 s) := by
  unfold laserWrite
  try dsimp only
  repeat' with_reducible first
    | assumption | apply keeps_laserSet | apply keeps_ite
    | (split <;> try dsimp only)

theorem keeps_laserResend {s0 s : State} {a0 : Nat} {a1 : Nat} {a2 : Nat} (h : Keeps s0 s) :
    Keeps s0 (laserResend a0 a1 a2 s) := by
  unfold laserResend
  try dsimp only
  repeat' with_reducible first
    | assumption | apply keeps_laserSend | apply keeps_laserRefuse | apply keeps_ite
    | (split <;> try dsimp only)

theorem keeps_portSettings {s0 s : State} {a0 : Nat} (h : Keeps s0 s) :
    Keeps s0 (portSettings a0 s) := by
  unfold portSettings
  try dsimp only
  repeat' with_reducible first
    | assumption | apply keeps_lasersOff | apply keeps_laserResend | apply keeps_laserOn | apply keeps_each | apply keeps_onlyIf
    | intro _ _ _
    | intro _ _

theorem keeps_portEnable {s0 s : State} {a0 : Nat} (h : Keeps s0 s) :
    Keeps s0 (portEnable a0 s) := by
  unfold portEnable
  try dsimp only
  repeat' with_reducible first
    | assumption | apply keeps_portSettings | apply keeps_setB | apply keeps_ite
    | (split <;> try dsimp only)

theorem keeps_execPortEnable {s0 s : State} {a0 : Fin 2} (h : Keeps s0 s) :
    ∃ t, execPortEnable a0 s = .next t ∧ Keeps s0 t := by
  unfold execPortEnable
  refine ⟨_, rfl, ?_⟩
  try dsimp only
  repeat' with_reducible first
    | assumption | apply keeps_portEnable

theorem keeps_portDisable {s0 s : State} {a0 : Nat} (h : Keeps s0 s) :
    Keeps s0 (portDisable a0 s) := by
  unfold portDisable
  try dsimp only
  repeat' with_reducible first
    | assumption | apply keeps_setLaser | apply keeps_setFs
    | (refine Keeps.lit ?_ rfl rfl rfl rfl rfl rfl rfl rfl rfl rfl; first | assumption | apply keeps_setLaser | apply keeps_setFs)

theorem keeps_loEnWrite {s0 s : State} {a0 : Nat} {a1 : Bool} (h : Keeps s0 s) :
    Keeps s0 (loEnWrite a0 a1 s) := by
  unfold loEnWrite
  try dsimp only
  repeat' with_reducible first
    | assumption | apply keeps_laserOff | apply keeps_setB | apply keeps_laserOn | apply keeps_laserRefuse | apply keeps_ite
    | (split <;> try dsimp only)

theorem keeps_portBlockWrite {s0 s : State} {a0 : Nat} {a1 : Nat} {a2 : Nat} (h : Keeps s0 s) :
    Keeps s0 (portBlockWrite a0 a1 a2 s) := by
  unfold portBlockWrite
  try dsimp only
  repeat' with_reducible first
    | assumption | apply keeps_laserWrite | apply keeps_loEnWrite | apply keeps_portEnable | apply keeps_portDisable | apply keeps_ite
    | (split <;> try dsimp only)

theorem keeps_execPortBlockWrite {s0 s : State} {a0 : Fin 2} {a1 : Fin 4} {a2 : Word} (h : Keeps s0 s) :
    ∃ t, execPortBlockWrite a0 a1 a2 s = .next t ∧ Keeps s0 t := by
  unfold execPortBlockWrite
  refine ⟨_, rfl, ?_⟩
  try dsimp only
  repeat' with_reducible first
    | assumption | apply keeps_portBlockWrite

theorem keeps_execSetChannel {s0 s : State} {a0 : Fin 2} {a1 : Laser} {a2 : BitVec 16} (h : Keeps s0 s) :
    ∃ t, execSetChannel a0 a1 a2 s = .next t ∧ Keeps s0 t := by
  unfold execSetChannel
  refine ⟨_, rfl, ?_⟩
  try dsimp only
  repeat' with_reducible first
    | assumption | apply keeps_laserSet | apply keeps_ite
    | (split <;> try dsimp only)

theorem keeps_execSetFine {s0 s : State} {a0 : Fin 2} {a1 : Laser} {a2 : BitVec 16} (h : Keeps s0 s) :
    ∃ t, execSetFine a0 a1 a2 s = .next t ∧ Keeps s0 t := by
  unfold execSetFine
  refine ⟨_, rfl, ?_⟩
  try dsimp only
  repeat' with_reducible first
    | assumption | apply keeps_laserSet | apply keeps_ite
    | (split <;> try dsimp only)

theorem keeps_execSetPower {s0 s : State} {a0 : Fin 2} {a1 : Laser} {a2 : BitVec 16} (h : Keeps s0 s) :
    ∃ t, execSetPower a0 a1 a2 s = .next t ∧ Keeps s0 t := by
  unfold execSetPower
  refine ⟨_, rfl, ?_⟩
  try dsimp only
  repeat' with_reducible first
    | assumption | apply keeps_laserSet | apply keeps_ite
    | (split <;> try dsimp only)

theorem keeps_execOutput {s0 s : State} {a0 : Fin 2} {a1 : Laser} {a2 : Bool} (h : Keeps s0 s) :
    ∃ t, execOutput a0 a1 a2 s = .next t ∧ Keeps s0 t := by
  unfold execOutput
  refine ⟨_, rfl, ?_⟩
  try dsimp only
  repeat' with_reducible first
    | assumption | apply keeps_laserOn | apply keeps_laserOff | apply keeps_ite
    | (split <;> try dsimp only)

theorem keeps_judgeStatus {s0 s : State} {a0 : Nat} {a1 : Nat} {a2 : Word} (h : Keeps s0 s) :
    Keeps s0 (judgeStatus a0 a1 a2 s) := by
  unfold judgeStatus
  try dsimp only
  repeat' with_reducible first
    | assumption | apply keeps_setF | apply keeps_setLaser | apply keeps_setB | apply keeps_detect | apply keeps_onlyIf | apply keeps_ite
    | (refine Keeps.lit ?_ rfl rfl rfl rfl rfl rfl rfl rfl rfl rfl; first | assumption | apply keeps_setF | apply keeps_setLaser | apply keeps_setB | apply keeps_detect | apply keeps_onlyIf | apply keeps_ite)
    | (split <;> try dsimp only)
    | intro _ _ _
    | intro _ _

theorem keeps_execLaserStatusPoll {s0 s : State} {a0 : Fin 2} {a1 : Word} {a2 : Word} (h : Keeps s0 s) :
    ∃ t, execLaserStatusPoll a0 a1 a2 s = .next t ∧ Keeps s0 t := by
  unfold execLaserStatusPoll
  refine ⟨_, rfl, ?_⟩
  try dsimp only
  repeat' with_reducible first
    | assumption | apply keeps_laserSend | apply keeps_judgeStatus | apply keeps_ite
    | (split <;> try dsimp only)

theorem keeps_execReadStatus {s0 s : State} {a0 : Fin 2} {a1 : Laser} {a2 : Word} (h : Keeps s0 s) :
    ∃ t, execReadStatus a0 a1 a2 s = .next t ∧ Keeps s0 t := by
  unfold execReadStatus
  refine ⟨_, rfl, ?_⟩
  try dsimp only
  repeat' with_reducible first
    | assumption | apply keeps_judgeStatus | apply keeps_laserSend | apply keeps_ite
    | (split <;> try dsimp only)

theorem keeps_takePower {s0 s : State} {a0 : Nat} {a1 : Nat} {a2 : Word} (h : Keeps s0 s) :
    Keeps s0 (takePower a0 a1 a2 s) := by
  unfold takePower
  try dsimp only
  repeat' with_reducible first
    | assumption | apply keeps_setF | apply keeps_ite
    | (split <;> try dsimp only)

theorem keeps_samplePower {s0 s : State} {a0 : Nat} {a1 : Nat} {a2 : Word} (h : Keeps s0 s) :
    Keeps s0 (samplePower a0 a1 a2 s) := by
  unfold samplePower
  try dsimp only
  repeat' with_reducible first
    | assumption | apply keeps_histSample | apply keeps_ite
    | (split <;> try dsimp only)

theorem keeps_execLaserPowerPoll {s0 s : State} {a0 : Fin 2} {a1 : Word} {a2 : Word} (h : Keeps s0 s) :
    ∃ t, execLaserPowerPoll a0 a1 a2 s = .next t ∧ Keeps s0 t := by
  unfold execLaserPowerPoll
  refine ⟨_, rfl, ?_⟩
  try dsimp only
  repeat' with_reducible first
    | assumption | apply keeps_laserSend | apply keeps_samplePower | apply keeps_takePower | apply keeps_ite
    | (split <;> try dsimp only)

theorem keeps_execReadPower {s0 s : State} {a0 : Fin 2} {a1 : Laser} {a2 : Word} (h : Keeps s0 s) :
    ∃ t, execReadPower a0 a1 a2 s = .next t ∧ Keeps s0 t := by
  unfold execReadPower
  refine ⟨_, rfl, ?_⟩
  try dsimp only
  repeat' with_reducible first
    | assumption | apply keeps_takePower | apply keeps_laserSend | apply keeps_ite
    | (split <;> try dsimp only)

theorem keeps_execReadFreqErr {s0 s : State} {a0 : Fin 2} {a1 : Laser} {a2 : Word} (h : Keeps s0 s) :
    ∃ t, execReadFreqErr a0 a1 a2 s = .next t ∧ Keeps s0 t := by
  unfold execReadFreqErr
  refine ⟨_, rfl, ?_⟩
  try dsimp only
  repeat' with_reducible first
    | assumption | apply keeps_laserSend | apply keeps_setLaser | apply keeps_ite
    | (refine Keeps.lit ?_ rfl rfl rfl rfl rfl rfl rfl rfl rfl rfl; first | assumption | apply keeps_laserSend | apply keeps_setLaser | apply keeps_ite)
    | (split <;> try dsimp only)

theorem keeps_portSeed {s0 s : State} {a0 : Nat} {a1 : ZContent} (h : Keeps s0 s) :
    Keeps s0 (portSeed a0 a1 s) := by
  unfold portSeed
  try dsimp only
  repeat' with_reducible first
    | assumption | apply keeps_laserWrite | apply keeps_portSettings | apply keeps_setB | apply keeps_portDisable | apply keeps_each | apply keeps_ite
    | (split <;> try dsimp only)
    | intro _ _ _
    | intro _ _

theorem keeps_portSeedWake {s0 s : State} {a0 : Nat} {a1 : ZContent} (h : Keeps s0 s) :
    Keeps s0 (portSeedWake a0 a1 s) := by
  unfold portSeedWake
  try dsimp only
  repeat' with_reducible first
    | assumption | apply keeps_setF | apply keeps_laserRefuse | apply keeps_ite
    | (split <;> try dsimp only)

theorem keeps_portWake {s0 s : State} {a0 : Nat} (h : Keeps s0 s) :
    Keeps s0 (portWake a0 s) := by
  unfold portWake
  try dsimp only
  repeat' with_reducible first
    | assumption | apply keeps_portSettings | apply keeps_ite
    | (split <;> try dsimp only)

end Sys2Proof.Machine
end

