-- ==== Sys2Proof/Laws/Keeps/Cal.lean ====
section
/-! SUPPORT. What the operations of Machine/Cal.lean keep. -/
set_option linter.all false
namespace Sys2Proof.Machine

theorem keeps_setPrio {s0 s : State} {a0 : Nat} {a1 : Bool} (h : Keeps s0 s) :
    Keeps s0 (setPrio a0 a1 s) := by
  unfold setPrio
  try dsimp only
  repeat' with_reducible first
    | assumption | apply keeps_setF | apply keeps_ite
    | (split <;> try dsimp only)

theorem keeps_fgStart {s0 s : State} {a0 : Nat} (h : Keeps s0 s) :
    Keeps s0 (fgStart a0 s) := by
  unfold fgStart
  try dsimp only
  repeat' with_reducible first
    | assumption | apply keeps_setB | apply keeps_keepTemp
    | (refine Keeps.lit ?_ rfl rfl rfl rfl rfl rfl rfl rfl rfl rfl; first | assumption | apply keeps_setB | apply keeps_keepTemp)

theorem keeps_calRefuse {s0 s : State} {a0 : Fld} {a1 : Nat} {a2 : Nat} (h : Keeps s0 s) :
    Keeps s0 (calRefuse a0 a1 a2 s) := by
  unfold calRefuse
  try dsimp only
  repeat' with_reducible first
    | assumption | apply keeps_detect | apply keeps_setF

theorem keeps_fgRequest {s0 s : State} {a0 : Nat} (h : Keeps s0 s) :
    Keeps s0 (fgRequest a0 s).1 := by
  unfold fgRequest
  try dsimp only
  repeat' with_reducible first
    | assumption | apply keeps_calRefuse | apply keeps_fgStart | apply keeps_ite
    | (split <;> try dsimp only)

theorem keeps_prioRequest {s0 s : State} {a0 : Nat} (h : Keeps s0 s) :
    Keeps s0 (prioRequest a0 s).1 := by
  unfold prioRequest
  try dsimp only
  repeat' with_reducible first
    | assumption | apply keeps_calRefuse | apply keeps_setPrio | apply keeps_keepTemp | apply keeps_ite
    | (split <;> try dsimp only)

theorem keeps_fgReqs {s0 s : State} {a0 : Nat} (h : Keeps s0 s) :
    Keeps s0 (fgReqs a0 s) := by
  unfold fgReqs
  try dsimp only
  repeat' with_reducible first
    | assumption | apply keeps_fgRequest | apply keeps_each | apply keeps_ite
    | (split <;> try dsimp only)
    | intro _ _ _
    | intro _ _

theorem keeps_execFgReq {s0 s : State} {a0 : BitVec 2} (h : Keeps s0 s) :
    ∃ t, execFgReq a0 s = .next t ∧ Keeps s0 t := by
  unfold execFgReq
  refine ⟨_, rfl, ?_⟩
  try dsimp only
  repeat' with_reducible first
    | assumption | apply keeps_fgReqs

theorem keeps_trigEnd {s0 s : State}  (h : Keeps s0 s) :
    Keeps s0 (trigEnd s) := by
  unfold trigEnd
  try dsimp only
  repeat' with_reducible first
    | assumption | apply keeps_ite
    | (refine Keeps.lit ?_ rfl rfl rfl rfl rfl rfl rfl rfl rfl rfl; first | assumption | apply keeps_ite)
    | (split <;> try dsimp only)

theorem keeps_trigCarriers {s0 s : State} {a0 : List Nat} (h : Keeps s0 s) :
    Keeps s0 (trigCarriers a0 s) := by
  unfold trigCarriers
  try dsimp only
  repeat' with_reducible first
    | assumption | apply keeps_trigEnd | apply keeps_prioRequest | apply keeps_fgRequest | apply keeps_each | apply keeps_ite
    | (refine Keeps.lit ?_ rfl rfl rfl rfl rfl rfl rfl rfl rfl rfl; first | assumption | apply keeps_trigEnd | apply keeps_prioRequest | apply keeps_fgRequest | apply keeps_each | apply keeps_ite)
    | refine Keeps.fst_of ?_ (by assumption)
    | (split <;> try dsimp only)
    | intro _ _ _
    | intro _ _

theorem keeps_trigStart {s0 s : State}  (h : Keeps s0 s) :
    Keeps s0 (trigStart s) := by
  unfold trigStart
  try dsimp only
  repeat' with_reducible first
    | assumption | apply keeps_setB | apply keeps_setS | apply keeps_calStart | apply keeps_trigCarriers | apply keeps_ite
    | (refine Keeps.lit ?_ rfl rfl rfl rfl rfl rfl rfl rfl rfl rfl; first | assumption | apply keeps_setB | apply keeps_setS | apply keeps_calStart | apply keeps_trigCarriers | apply keeps_ite)
    | (split <;> try dsimp only)

theorem keeps_execCalTrigger {s0 s : State}  (h : Keeps s0 s) :
    ∃ t, execCalTrigger s = .next t ∧ Keeps s0 t := by
  unfold execCalTrigger
  refine ⟨_, rfl, ?_⟩
  try dsimp only
  repeat' with_reducible first
    | assumption | apply keeps_trigStart | apply keeps_ite
    | (split <;> try dsimp only)

theorem keeps_fullReq {s0 s : State}  (h : Keeps s0 s) :
    Keeps s0 (fullReq s) := by
  unfold fullReq
  try dsimp only
  repeat' with_reducible first
    | assumption | apply keeps_trigStart | apply keeps_calRefuse | apply keeps_setF | apply keeps_drew | apply keeps_ite
    | (split <;> try dsimp only)

theorem keeps_execFullReq {s0 s : State}  (h : Keeps s0 s) :
    ∃ t, execFullReq s = .next t ∧ Keeps s0 t := by
  unfold execFullReq
  refine ⟨_, rfl, ?_⟩
  try dsimp only
  repeat' with_reducible first
    | assumption | apply keeps_fullReq

theorem keeps_execHkCalComplete {s0 s : State} {a0 : BitVec 16} {a1 : BitVec 16} (h : Keeps s0 s) :
    ∃ t, execHkCalComplete a0 a1 s = .next t ∧ Keeps s0 t := by
  unfold execHkCalComplete
  refine ⟨_, rfl, ?_⟩
  try dsimp only
  repeat' with_reducible first
    | assumption | apply keeps_hkCalDone | apply keeps_trigCarriers | apply keeps_ite
    | (split <;> try dsimp only)

theorem keeps_execWakeFgRunStart {s0 s : State} {a0 : Fin 2} (h : Keeps s0 s) :
    ∃ t, execWakeFgRunStart a0 s = .next t ∧ Keeps s0 t := by
  unfold execWakeFgRunStart
  refine ⟨_, rfl, ?_⟩
  try dsimp only
  repeat' with_reducible first
    | assumption | apply keeps_fgStart | apply keeps_ite
    | (split <;> try dsimp only)

theorem keeps_calLoad {s0 s : State} {a0 : Fin 2} (h : Keeps s0 s) :
    Keeps s0 (calLoad a0 s) := by
  unfold calLoad
  try dsimp only
  repeat' with_reducible first
    | assumption | apply keeps_detect | apply keeps_setF | apply keeps_setFs | apply keeps_each | apply keeps_ite
    | (refine Keeps.lit ?_ rfl rfl rfl rfl rfl rfl rfl rfl rfl rfl; first | assumption | apply keeps_detect | apply keeps_setF | apply keeps_setFs | apply keeps_each | apply keeps_ite)
    | (split <;> try dsimp only)
    | intro _ _ _
    | intro _ _

theorem keeps_calApply {s0 s : State} {a0 : Nat} {a1 : CalResult} (h : Keeps s0 s) :
    Keeps s0 (calApply a0 a1 s) := by
  unfold calApply
  try dsimp only
  repeat' with_reducible first
    | assumption | apply keeps_ite
    | (refine Keeps.lit ?_ rfl rfl rfl rfl rfl rfl rfl rfl rfl rfl; first | assumption | apply keeps_ite)
    | (split <;> try dsimp only)

theorem keeps_calBoundary {s0 s : State}  (h : Keeps s0 s) :
    Keeps s0 (calBoundary s) := by
  unfold calBoundary
  try dsimp only
  repeat' with_reducible first
    | assumption | apply keeps_foldl
    | (refine Keeps.lit ?_ rfl rfl rfl rfl rfl rfl rfl rfl rfl rfl; first | assumption | apply keeps_foldl)
    | intro _ _ _
    | intro _ _

theorem keeps_calOwed {s0 s : State} {a0 : Nat} (h : Keeps s0 s) :
    Keeps s0 (calOwed a0 s) := by
  unfold calOwed
  try dsimp only
  repeat' with_reducible first
    | assumption | apply keeps_trigEnd
    | (refine Keeps.lit ?_ rfl rfl rfl rfl rfl rfl rfl rfl rfl rfl; first | assumption | apply keeps_trigEnd)

theorem keeps_fgEnd {s0 s : State} {a0 : Fin 2} {a1 : Nat} (h : Keeps s0 s) :
    Keeps s0 (fgEnd a0 a1 s) := by
  unfold fgEnd
  try dsimp only
  repeat' with_reducible first
    | assumption | apply keeps_setB | apply keeps_setF | apply keeps_offerCalib | apply keeps_ite
    | (refine Keeps.lit ?_ rfl rfl rfl rfl rfl rfl rfl rfl rfl rfl; first | assumption | apply keeps_setB | apply keeps_setF | apply keeps_offerCalib | apply keeps_ite)
    | (split <;> try dsimp only)

theorem keeps_fgComplete {s0 s : State} {a0 : Fin 2} {a1 : CalResult} (h : Keeps s0 s) :
    Keeps s0 (fgComplete a0 a1 s) := by
  unfold fgComplete
  try dsimp only
  repeat' with_reducible first
    | assumption | apply keeps_fgEnd | apply keeps_calApply | apply keeps_calOwed | apply keeps_startRec | apply keeps_detect | apply keeps_ite
    | (split <;> try dsimp only)

theorem keeps_execFgRunComplete {s0 s : State} {a0 : Fin 2} {a1 : CalResult} (h : Keeps s0 s) :
    ∃ t, execFgRunComplete a0 a1 s = .next t ∧ Keeps s0 t := by
  unfold execFgRunComplete
  refine ⟨_, rfl, ?_⟩
  try dsimp only
  repeat' with_reducible first
    | assumption | apply keeps_fgComplete

theorem keeps_prioEnd {s0 s : State} {a0 : Fin 2} {a1 : Nat} (h : Keeps s0 s) :
    Keeps s0 (prioEnd a0 a1 s) := by
  unfold prioEnd
  try dsimp only
  repeat' with_reducible first
    | assumption | apply keeps_offerCalib | apply keeps_setF | apply keeps_setPrio

theorem keeps_bgComplete {s0 s : State} {a0 : Fin 2} {a1 : CalResult} (h : Keeps s0 s) :
    Keeps s0 (bgComplete a0 a1 s) := by
  unfold bgComplete
  try dsimp only
  repeat' with_reducible first
    | assumption | apply keeps_calApply | apply keeps_prioEnd | apply keeps_calOwed | apply keeps_startRec | apply keeps_detect | apply keeps_onlyIf | apply keeps_ite
    | (split <;> try dsimp only)
    | intro _ _ _
    | intro _ _

theorem keeps_execBgPassComplete {s0 s : State} {a0 : Fin 2} {a1 : CalResult} (h : Keeps s0 s) :
    ∃ t, execBgPassComplete a0 a1 s = .next t ∧ Keeps s0 t := by
  unfold execBgPassComplete
  refine ⟨_, rfl, ?_⟩
  try dsimp only
  repeat' with_reducible first
    | assumption | apply keeps_bgComplete

theorem keeps_fgAbort {s0 s : State} {a0 : Fin 2} (h : Keeps s0 s) :
    Keeps s0 (fgAbort a0 s) := by
  unfold fgAbort
  try dsimp only
  repeat' with_reducible first
    | assumption | apply keeps_calOwed | apply keeps_fgEnd | apply keeps_ite
    | (split <;> try dsimp only)

theorem keeps_prioAbort {s0 s : State} {a0 : Fin 2} (h : Keeps s0 s) :
    Keeps s0 (prioAbort a0 s) := by
  unfold prioAbort
  try dsimp only
  repeat' with_reducible first
    | assumption | apply keeps_calOwed | apply keeps_prioEnd | apply keeps_ite
    | (split <;> try dsimp only)

theorem keeps_hkAbort {s0 s : State}  (h : Keeps s0 s) :
    Keeps s0 (hkAbort s) := by
  unfold hkAbort
  try dsimp only
  repeat' with_reducible first
    | assumption | apply keeps_restartChain | apply keeps_setB | apply keeps_offerCalib | apply keeps_each | apply keeps_ite
    | (split <;> try dsimp only)
    | intro _ _ _
    | intro _ _

theorem keeps_calLeave {s0 s : State} {a0 : Fin 2} (h : Keeps s0 s) :
    Keeps s0 (calLeave a0 s) := by
  unfold calLeave
  try dsimp only
  repeat' with_reducible first
    | assumption | apply keeps_prioAbort | apply keeps_fgAbort | apply keeps_hkAbort | apply keeps_trigCarriers | apply keeps_ite
    | (split <;> try dsimp only)

theorem keeps_calWake {s0 s : State} {a0 : Fin 2} (h : Keeps s0 s) :
    Keeps s0 (calWake a0 s) := by
  unfold calWake
  try dsimp only
  repeat' with_reducible first
    | assumption | apply keeps_calLoad | apply keeps_setB | apply keeps_ite
    | (refine Keeps.lit ?_ rfl rfl rfl rfl rfl rfl rfl rfl rfl rfl; first | assumption | apply keeps_calLoad | apply keeps_setB | apply keeps_ite)
    | (split <;> try dsimp only)

theorem keeps_refLost {s0 s : State} {a0 : Bool} {a1 : Bool} (h : Keeps s0 s) :
    Keeps s0 (refLost a0 a1 s) := by
  unfold refLost
  try dsimp only
  repeat' with_reducible first
    | assumption | apply keeps_setB | apply keeps_hkAbort | apply keeps_prioAbort | apply keeps_fgAbort | apply keeps_detect | apply keeps_drew | apply keeps_onlyIf | apply keeps_ite
    | (refine Keeps.lit ?_ rfl rfl rfl rfl rfl rfl rfl rfl rfl rfl; first | assumption | apply keeps_setB | apply keeps_hkAbort | apply keeps_prioAbort | apply keeps_fgAbort | apply keeps_detect | apply keeps_drew | apply keeps_onlyIf | apply keeps_ite)
    | (split <;> try dsimp only)
    | intro _ _ _
    | intro _ _

theorem keeps_execRefLost {s0 s : State} {a0 : Bool} {a1 : Bool} (h : Keeps s0 s) :
    ∃ t, execRefLost a0 a1 s = .next t ∧ Keeps s0 t := by
  unfold execRefLost
  refine ⟨_, rfl, ?_⟩
  try dsimp only
  repeat' with_reducible first
    | assumption | apply keeps_refLost

theorem keeps_execRefPresent {s0 s : State}  (h : Keeps s0 s) :
    ∃ t, execRefPresent s = .next t ∧ Keeps s0 t := by
  unfold execRefPresent
  refine ⟨_, rfl, ?_⟩
  try dsimp only
  repeat' with_reducible first
    | assumption | apply keeps_setB | apply keeps_ite
    | (split <;> try dsimp only)

end Sys2Proof.Machine
end

