-- ==== Sys2Proof/Laws/Keeps/HostLanes.lean ====
section
/-! SUPPORT. What the operations of Machine/HostLanes.lean keep. -/
set_option linter.all false
namespace Sys2Proof.Machine

theorem keeps_initLane {s0 s : State} {a0 : Nat} {a1 : Nat} (h : Keeps s0 s) :
    Keeps s0 (initLane a0 a1 s) := by
  unfold initLane
  try dsimp only
  repeat' with_reducible first
    | assumption | apply keeps_setFs | apply keeps_setCoef | apply keeps_each
    | intro _ _ _
    | intro _ _

theorem keeps_initGroup {s0 s : State} {a0 : Nat} (h : Keeps s0 s) :
    Keeps s0 (initGroup a0 s) := by
  unfold initGroup
  try dsimp only
  repeat' with_reducible first
    | assumption | apply keeps_initLane | apply keeps_each
    | intro _ _ _
    | intro _ _

theorem keeps_setGroup {s0 s : State} {a1 : Nat} {a2 : Nat} (h : Keeps s0 s) :
    Keeps s0 (setGroup s a1 a2) := by
  unfold setGroup
  try dsimp only
  repeat' with_reducible first
    | assumption | apply keeps_setF

theorem keeps_groupUp {s0 s : State} {a0 : Nat} (h : Keeps s0 s) :
    Keeps s0 (groupUp a0 s) := by
  unfold groupUp
  try dsimp only
  repeat' with_reducible first
    | assumption | apply keeps_holdSpent | apply keeps_adaptGroup | apply keeps_demapFresh | apply keeps_setGroup | apply keeps_onlyIf
    | (refine Keeps.lit ?_ rfl rfl rfl rfl rfl rfl rfl rfl rfl rfl; first | assumption | apply keeps_holdSpent | apply keeps_adaptGroup | apply keeps_demapFresh | apply keeps_setGroup | apply keeps_onlyIf)
    | intro _ _ _
    | intro _ _

theorem keeps_groupToFull {s0 s : State} {a0 : Nat} (h : Keeps s0 s) :
    Keeps s0 (groupToFull a0 s) := by
  unfold groupToFull
  try dsimp only
  repeat' with_reducible first
    | assumption | apply keeps_setGroup | apply keeps_holdStart | apply keeps_adaptGroup | apply keeps_ite
    | (split <;> try dsimp only)

theorem keeps_fastToFull {s0 s : State} {a0 : Nat} (h : Keeps s0 s) :
    Keeps s0 (fastToFull a0 s) := by
  unfold fastToFull
  try dsimp only
  repeat' with_reducible first
    | assumption | apply keeps_setGroup | apply keeps_ite
    | (split <;> try dsimp only)

theorem keeps_onGroup {s0 s : State} {a1 : Nat} {a2 : State → State} (h2 : ∀ s, Keeps s0 s → Keeps s0 (a2 s)) (h : Keeps s0 s) :
    Keeps s0 (onGroup s a1 a2) := by
  unfold onGroup
  try dsimp only
  repeat' with_reducible first
    | assumption | apply h2 | apply keeps_ite
    | (split <;> try dsimp only)
    | intro _ _ _
    | intro _ _

theorem keeps_execGroupZoneStateChange {s0 s : State} {a0 : Fin 8} (h : Keeps s0 s) :
    ∃ t, execGroupZoneStateChange a0 s = .next t ∧ Keeps s0 t := by
  unfold execGroupZoneStateChange
  refine ⟨_, rfl, ?_⟩
  try dsimp only
  repeat' with_reducible first
    | assumption | apply keeps_groupDown | apply keeps_setGroup | apply keeps_holdStart | apply keeps_initGroup | apply keeps_ite
    | (split <;> try dsimp only)

theorem keeps_execGroupAligned {s0 s : State} {a0 : Fin 8} (h : Keeps s0 s) :
    ∃ t, execGroupAligned a0 s = .next t ∧ Keeps s0 t := by
  unfold execGroupAligned
  refine ⟨_, rfl, ?_⟩
  try dsimp only
  repeat' with_reducible first
    | assumption | apply keeps_onGroup | apply keeps_groupUp | apply keeps_ite
    | (split <;> try dsimp only)
    | intro _ _

theorem keeps_execHoldConfirmation {s0 s : State} {a0 : Fin 8} {a1 : Bool} (h : Keeps s0 s) :
    ∃ t, execHoldConfirmation a0 a1 s = .next t ∧ Keeps s0 t := by
  unfold execHoldConfirmation
  refine ⟨_, rfl, ?_⟩
  try dsimp only
  repeat' with_reducible first
    | assumption | apply keeps_onGroup | apply keeps_fastToFull | apply keeps_groupUp | apply keeps_ite
    | (split <;> try dsimp only)
    | intro _ _

theorem keeps_execHoldFastTimeout {s0 s : State} {a0 : Fin 8} (h : Keeps s0 s) :
    ∃ t, execHoldFastTimeout a0 s = .next t ∧ Keeps s0 t := by
  unfold execHoldFastTimeout
  refine ⟨_, rfl, ?_⟩
  try dsimp only
  repeat' with_reducible first
    | assumption | apply keeps_onGroup | apply keeps_fastToFull | apply keeps_ite
    | (split <;> try dsimp only)
    | intro _ _

theorem keeps_execHoldLong {s0 s : State} {a0 : Fin 8} (h : Keeps s0 s) :
    ∃ t, execHoldLong a0 s = .next t ∧ Keeps s0 t := by
  unfold execHoldLong
  refine ⟨_, rfl, ?_⟩
  try dsimp only
  repeat' with_reducible first
    | assumption | apply keeps_onGroup | apply keeps_detect | apply keeps_ite
    | (refine Keeps.lit ?_ rfl rfl rfl rfl rfl rfl rfl rfl rfl rfl; first | assumption | apply keeps_onGroup | apply keeps_detect | apply keeps_ite)
    | (split <;> try dsimp only)
    | intro _ _

theorem keeps_loopWrite {s0 s : State} {a0 : Nat} {a1 : Nat} (h : Keeps s0 s) :
    Keeps s0 (loopWrite a0 a1 s) := by
  unfold loopWrite
  try dsimp only
  repeat' with_reducible first
    | assumption | apply keeps_groupToFull | apply keeps_setF | apply keeps_ite
    | (refine Keeps.lit ?_ rfl rfl rfl rfl rfl rfl rfl rfl rfl rfl; first | assumption | apply keeps_groupToFull | apply keeps_setF | apply keeps_ite)
    | (split <;> try dsimp only)

theorem keeps_execLoop {s0 s : State} {a0 : Fin 8} {a1 : BitVec 2} (h : Keeps s0 s) :
    ∃ t, execLoop a0 a1 s = .next t ∧ Keeps s0 t := by
  unfold execLoop
  refine ⟨_, rfl, ?_⟩
  try dsimp only
  repeat' with_reducible first
    | assumption | apply keeps_loopWrite

theorem keeps_lockLost {s0 s : State} {a0 : Fin 8} {a1 : Nat} (h : Keeps s0 s) :
    Keeps s0 (lockLost a0 a1 s) := by
  unfold lockLost
  try dsimp only
  repeat' with_reducible first
    | assumption | apply keeps_setB | apply keeps_setGroup | apply keeps_holdStart | apply keeps_adaptGroup | apply keeps_detect | apply keeps_satF | apply keeps_ite
    | (split <;> try dsimp only)

theorem keeps_relock {s0 s : State} {a0 : Fin 8} {a1 : Nat} (h : Keeps s0 s) :
    Keeps s0 (relock a0 a1 s) := by
  unfold relock
  try dsimp only
  repeat' with_reducible first
    | assumption | apply keeps_setB | apply keeps_lockLost | apply keeps_ite
    | (split <;> try dsimp only)

theorem keeps_laneLost {s0 s : State} {a0 : Fin 8} {a1 : LossCause} {a2 : Nat} (h : Keeps s0 s) :
    Keeps s0 (laneLost a0 a1 a2 s) := by
  unfold laneLost
  try dsimp only
  repeat' with_reducible first
    | assumption | apply keeps_relock | apply keeps_setB
    | (split <;> try dsimp only)

theorem keeps_execLaneLockLost {s0 s : State} {a0 : Fin 8} {a1 : LossCause} (h : Keeps s0 s) :
    ∃ t, execLaneLockLost a0 a1 s = .next t ∧ Keeps s0 t := by
  unfold execLaneLockLost
  refine ⟨_, rfl, ?_⟩
  try dsimp only
  repeat' with_reducible first
    | assumption | apply keeps_laneLost
    | (split <;> try dsimp only)

theorem keeps_judgeFreq {s0 s : State} {a0 : Nat} {a1 : Nat} {a2 : Int} (h : Keeps s0 s) :
    Keeps s0 (judgeFreq a0 a1 a2 s) := by
  unfold judgeFreq
  try dsimp only
  repeat' with_reducible first
    | assumption | apply keeps_setB | apply keeps_fastToFull | apply keeps_ite
    | (split <;> try dsimp only)

theorem keeps_execLaneLocked {s0 s : State} {a0 : Fin 8} {a1 : Int} (h : Keeps s0 s) :
    ∃ t, execLaneLocked a0 a1 s = .next t ∧ Keeps s0 t := by
  unfold execLaneLocked
  refine ⟨_, rfl, ?_⟩
  try dsimp only
  repeat' with_reducible first
    | assumption | apply keeps_setFs | apply keeps_setB | apply keeps_judgeFreq | apply keeps_relock | apply keeps_onlyIf
    | (split <;> try dsimp only)
    | intro _ _ _
    | intro _ _

theorem keeps_execSignalDetect {s0 s : State} {a0 : Fin 8} {a1 : Int} (h : Keeps s0 s) :
    ∃ t, execSignalDetect a0 a1 s = .next t ∧ Keeps s0 t := by
  unfold execSignalDetect
  refine ⟨_, rfl, ?_⟩
  try dsimp only
  repeat' with_reducible first
    | assumption | apply keeps_judgeFreq | apply keeps_relock | apply keeps_setB
    | (split <;> try dsimp only)

theorem keeps_laneRestart {s0 s : State} {a0 : Nat} (h : Keeps s0 s) :
    Keeps s0 (laneRestart a0 s) := by
  unfold laneRestart
  try dsimp only
  repeat' with_reducible first
    | assumption | apply keeps_initLane
    | (split <;> try dsimp only)

theorem keeps_execRestart {s0 s : State} {a0 : Fin 8} (h : Keeps s0 s) :
    ∃ t, execRestart a0 s = .next t ∧ Keeps s0 t := by
  unfold execRestart
  refine ⟨_, rfl, ?_⟩
  try dsimp only
  repeat' with_reducible first
    | assumption | apply keeps_laneRestart

theorem keeps_execAdaptDone {s0 s : State} {a0 : Fin 8} (h : Keeps s0 s) :
    ∃ t, execAdaptDone a0 s = .next t ∧ Keeps s0 t := by
  unfold execAdaptDone
  refine ⟨_, rfl, ?_⟩
  try dsimp only
  repeat' with_reducible first
    | assumption | apply keeps_detect | apply keeps_setB | apply keeps_ite
    | (split <;> try dsimp only)
    | intro _ _

theorem keeps_setInner {s0 s : State} {a1 : Nat} {a2 : InnerSt} (h : Keeps s0 s) :
    Keeps s0 (setInner s a1 a2) := by
  unfold setInner
  try dsimp only
  repeat' with_reducible first
    | assumption
    | (refine Keeps.lit ?_ rfl rfl rfl rfl rfl rfl rfl rfl rfl rfl; first | assumption)

theorem keeps_innerCount {s0 s : State} {a0 : Fin 8} {a1 : Option Nat} (h : Keeps s0 s) :
    Keeps s0 (innerCount a0 a1 s) := by
  unfold innerCount
  try dsimp only
  repeat' with_reducible first
    | assumption | apply keeps_addF | apply keeps_detect
    | (split <;> try dsimp only)

theorem keeps_innerFrame {s0 s : State} {a0 : Fin 8} {a1 : List Bool} (h : Keeps s0 s) :
    Keeps s0 (innerFrame a0 a1 s) := by
  unfold innerFrame
  try dsimp only
  repeat' with_reducible first
    | assumption | apply keeps_setB | apply keeps_setInner | apply keeps_innerCount | apply keeps_ite
    | (split <;> try dsimp only)

theorem keeps_execInnerFrame {s0 s : State} {a0 : Fin 8} {a1 : BitVec 448} (h : Keeps s0 s) :
    ∃ t, execInnerFrame a0 a1 s = .next t ∧ Keeps s0 t := by
  unfold execInnerFrame
  refine ⟨_, rfl, ?_⟩
  try dsimp only
  repeat' with_reducible first
    | assumption | apply keeps_relock | apply keeps_innerFrame | apply keeps_ite
    | (split <;> try dsimp only)

theorem keeps_patSymbol {s0 s : State} {a0 : Fin 8} {a1 : Nat} {a2 : List Nat} {a3 : Nat} {a5 : Nat} (h : Keeps s0 s) :
    Keeps s0 (patSymbol a0 a1 a2 a3 s a5) := by
  unfold patSymbol
  try dsimp only
  repeat' with_reducible first
    | assumption | apply keeps_addF | apply keeps_detect | apply keeps_setB | apply keeps_foldl | apply keeps_ite
    | (refine Keeps.lit ?_ rfl rfl rfl rfl rfl rfl rfl rfl rfl rfl; first | assumption | apply keeps_addF | apply keeps_detect | apply keeps_setB | apply keeps_foldl | apply keeps_ite)
    | refine Keeps.fst_of ?_ (by assumption)
    | (split <;> try dsimp only)
    | intro _ _ _
    | intro _ _

theorem keeps_laneInput {s0 s : State} {a0 : Fin 8} {a2 : Int} (h : Keeps s0 s) :
    Keeps s0 (laneInput a0 s a2) := by
  unfold laneInput
  try dsimp only
  repeat' with_reducible first
    | assumption | apply keeps_laneSample | apply keeps_patSymbol | apply keeps_ite
    | refine Keeps.fst_of ?_ (by assumption)
    | (split <;> try dsimp only)

theorem keeps_execPatternCheck {s0 s : State} {a0 : Fin 8} {a1 : List Int} (h : Keeps s0 s) :
    ∃ t, execPatternCheck a0 a1 s = .next t ∧ Keeps s0 t := by
  unfold execPatternCheck
  refine ⟨_, rfl, ?_⟩
  try dsimp only
  repeat' with_reducible first
    | assumption | apply keeps_laneInput | apply keeps_each | apply keeps_ite
    | (split <;> try dsimp only)
    | intro _ _ _
    | intro _ _

theorem keeps_rsTake {s0 s : State} {a0 : Nat} {a1 : List Nat} (h : Keeps s0 s) :
    Keeps s0 (rsTake a0 a1 s) := by
  unfold rsTake
  try dsimp only
  repeat' with_reducible first
    | assumption | apply keeps_addF | apply keeps_detect
    | (refine Keeps.lit ?_ rfl rfl rfl rfl rfl rfl rfl rfl rfl rfl; first | assumption | apply keeps_addF | apply keeps_detect)
    | (split <;> try dsimp only)

theorem keeps_execHostRsCodeword {s0 s : State} {a0 : Fin 8} {a1 : List (BitVec 10)} (h : Keeps s0 s) :
    ∃ t, execHostRsCodeword a0 a1 s = .next t ∧ Keeps s0 t := by
  unfold execHostRsCodeword
  refine ⟨_, rfl, ?_⟩
  try dsimp only
  repeat' with_reducible first
    | assumption | apply keeps_rsTake | apply keeps_ite
    | (split <;> try dsimp only)

end Sys2Proof.Machine
end

