-- ==== Sys2Proof/Laws/Keeps/Peers.lean ====
section
/-! SUPPORT. What the operations of Machine/Peers.lean keep. -/
set_option linter.all false
namespace Sys2Proof.Machine

theorem keeps_peerCount {s0 s : State}  (h : Keeps s0 s) :
    Keeps s0 (peerCount s) := by
  unfold peerCount
  try dsimp only
  repeat' with_reducible first
    | assumption | apply keeps_setF

theorem keeps_peerMasks {s0 s : State}  (h : Keeps s0 s) :
    Keeps s0 (peerMasks s) := by
  unfold peerMasks
  try dsimp only
  repeat' with_reducible first
    | assumption | apply keeps_setF | apply keeps_each
    | intro _ _ _
    | intro _ _

theorem keeps_peerPut {s0 s : State} {a1 : Nat} {a2 : Nat} {a3 : Nat} {a4 : Nat} {a5 : Nat} {a6 : Nat} (h : Keeps s0 s) :
    Keeps s0 (peerPut s a1 a2 a3 a4 a5 a6) := by
  unfold peerPut
  try dsimp only
  repeat' with_reducible first
    | assumption | apply keeps_setFs | apply keeps_unpoison

theorem keeps_peerClaim {s0 s : State} {a0 : Nat} {a1 : Nat} {a2 : Nat} {a3 : Nat} {a4 : Bool} (h : Keeps s0 s) :
    Keeps s0 (peerClaim a0 a1 a2 a3 a4 s) := by
  unfold peerClaim
  try dsimp only
  repeat' with_reducible first
    | assumption | apply keeps_peerPut | apply keeps_setFs | apply keeps_peerCount | apply keeps_setF | apply keeps_ite
    | (split <;> try dsimp only)

theorem keeps_peerReport {s0 s : State} {a0 : Nat} {a1 : Nat} {a2 : Nat} {a3 : Bool} (h : Keeps s0 s) :
    Keeps s0 (peerReport a0 a1 a2 a3 s) := by
  unfold peerReport
  try dsimp only
  repeat' with_reducible first
    | assumption | apply keeps_setB | apply keeps_satF | apply keeps_peerClaim | apply keeps_detect | apply keeps_onlyIf | apply keeps_ite
    | (split <;> try dsimp only)
    | intro _ _ _
    | intro _ _

theorem keeps_arrive {s0 s : State} {a0 : Nat} {a1 : Nat} {a2 : Nat} (h : Keeps s0 s) :
    Keeps s0 (arrive a0 a1 a2 s) := by
  unfold arrive
  try dsimp only
  repeat' with_reducible first
    | assumption | apply keeps_settle | apply keeps_offerPeer | apply keeps_setF | apply keeps_satF | apply keeps_each | apply keeps_ite
    | (split <;> try dsimp only)
    | intro _ _ _
    | intro _ _

theorem keeps_peerCtrlWrite {s0 s : State} {a0 : Nat} {a1 : Nat} (h : Keeps s0 s) :
    Keeps s0 (peerCtrlWrite a0 a1 s) := by
  unfold peerCtrlWrite
  try dsimp only
  repeat' with_reducible first
    | assumption | apply keeps_detect | apply keeps_peerPut | apply keeps_setFs | apply keeps_peerCount | apply keeps_onlyIf | apply keeps_ite
    | (split <;> try dsimp only)
    | intro _ _ _
    | intro _ _

theorem keeps_execPeerCtrlWrite {s0 s : State} {a0 : Fin 64} {a1 : Word} (h : Keeps s0 s) :
    ∃ t, execPeerCtrlWrite a0 a1 s = .next t ∧ Keeps s0 t := by
  unfold execPeerCtrlWrite
  refine ⟨_, rfl, ?_⟩
  try dsimp only
  repeat' with_reducible first
    | assumption | apply keeps_peerCtrlWrite

theorem keeps_peerSave {s0 s : State}  (h : Keeps s0 s) :
    Keeps s0 (peerSave s) := by
  unfold peerSave
  try dsimp only
  repeat' with_reducible first
    | assumption | apply keeps_startRec | apply keeps_setB | apply keeps_ite
    | (split <;> try dsimp only)

theorem keeps_execPeerSave {s0 s : State}  (h : Keeps s0 s) :
    ∃ t, execPeerSave s = .next t ∧ Keeps s0 t := by
  unfold execPeerSave
  refine ⟨_, rfl, ?_⟩
  try dsimp only
  repeat' with_reducible first
    | assumption | apply keeps_peerSave

theorem keeps_peerLoad {s0 s : State}  (h : Keeps s0 s) :
    Keeps s0 (peerLoad s) := by
  unfold peerLoad
  try dsimp only
  repeat' with_reducible first
    | assumption | apply keeps_detect | apply keeps_setFs | apply keeps_peerPut | apply keeps_peerCount | apply keeps_peerMasks | apply keeps_setF | apply keeps_each | apply keeps_ite
    | (split <;> try dsimp only)
    | intro _ _ _
    | intro _ _

end Sys2Proof.Machine
end

