-- ==== Sys2Proof/Laws/Keeps/Fathom.lean ====
section
/-! SUPPORT. What the operations of Machine/Fathom.lean keep. -/
set_option linter.all false
namespace Sys2Proof.Machine

theorem keeps_clearPages {s0 s : State} {a0 : List Nat} (h : Keeps s0 s) :
    Keeps s0 (clearPages a0 s) := by
  unfold clearPages
  try dsimp only
  repeat' with_reducible first
    | assumption | apply keeps_setMem | apply keeps_ite
    | (refine Keeps.lit ?_ rfl rfl rfl rfl rfl rfl rfl rfl rfl rfl; first | assumption | apply keeps_setMem | apply keeps_ite)
    | (split <;> try dsimp only)
    | intro _ _

theorem keeps_setEntry {s0 s : State} {a1 : Nat} {a2 : Nat} (h : Keeps s0 s) :
    Keeps s0 (setEntry s a1 a2) := by
  unfold setEntry
  try dsimp only
  repeat' with_reducible first
    | assumption
    | (refine Keeps.lit ?_ rfl rfl rfl rfl rfl rfl rfl rfl rfl rfl; first | assumption)

theorem keeps_bumpEpoch {s0 s : State} {a1 : Nat} (h : Keeps s0 s) :
    Keeps s0 (bumpEpoch s a1) := by
  unfold bumpEpoch
  try dsimp only
  repeat' with_reducible first
    | assumption | apply keeps_addF

theorem keeps_fthAlign {s0 s : State} {a0 : Nat} {a1 : Nat} (h : Keeps s0 s) :
    Keeps s0 (fthAlign a0 a1 s) := by
  unfold fthAlign
  try dsimp only
  repeat' with_reducible first
    | assumption | apply keeps_setF | apply keeps_bumpEpoch | apply keeps_clearPages | apply keeps_detect | apply keeps_ite
    | (split <;> try dsimp only)

theorem keeps_execFathomPageClear {s0 s : State}  (h : Keeps s0 s) :
    ∃ t, execFathomPageClear s = .next t ∧ Keeps s0 t := by
  unfold execFathomPageClear
  refine ⟨_, rfl, ?_⟩
  try dsimp only
  repeat' with_reducible first
    | assumption | apply keeps_clearPages | apply keeps_bumpEpoch | apply keeps_detect | apply keeps_setB | apply keeps_each | apply keeps_ite
    | (refine Keeps.lit ?_ rfl rfl rfl rfl rfl rfl rfl rfl rfl rfl; first | assumption | apply keeps_clearPages | apply keeps_bumpEpoch | apply keeps_detect | apply keeps_setB | apply keeps_each | apply keeps_ite)
    | (split <;> try dsimp only)
    | intro _ _ _
    | intro _ _

theorem keeps_clearAll {s0 s : State}  (h : Keeps s0 s) :
    Keeps s0 (clearAll s) := by
  unfold clearAll
  try dsimp only
  repeat' with_reducible first
    | assumption | apply keeps_bumpEpoch | apply keeps_clearPages | apply keeps_each | apply keeps_ite
    | (split <;> try dsimp only)
    | intro _ _ _
    | intro _ _

theorem keeps_execClearAll {s0 s : State}  (h : Keeps s0 s) :
    ∃ t, execClearAll s = .next t ∧ Keeps s0 t := by
  unfold execClearAll
  refine ⟨_, rfl, ?_⟩
  try dsimp only
  repeat' with_reducible first
    | assumption | apply keeps_clearAll

theorem keeps_putFields {s0 s : State} {a0 : List (Prod Fld Nat)} (h : Keeps s0 s) :
    Keeps s0 (putFields a0 s) := by
  unfold putFields
  try dsimp only
  repeat' with_reducible first
    | assumption | apply keeps_setFs
    | intro _ _

theorem keeps_fathomSwitch {s0 s : State} {a0 : List Nat} {a1 : ZContent} (h : Keeps s0 s) :
    Keeps s0 (fathomSwitch a0 a1 s) := by
  unfold fathomSwitch
  try dsimp only
  repeat' with_reducible first
    | assumption | apply keeps_putFields | apply keeps_setB | apply keeps_ite
    | (refine Keeps.lit ?_ rfl rfl rfl rfl rfl rfl rfl rfl rfl rfl; first | assumption | apply keeps_putFields | apply keeps_setB | apply keeps_ite)
    | (split <;> try dsimp only)
    | intro _ _

theorem keeps_learnEntry {s0 s : State} {a1 : Prod Nat (Prod Int Int)} (h : Keeps s0 s) :
    Keeps s0 (learnEntry s a1) := by
  unfold learnEntry
  try dsimp only
  repeat' with_reducible first
    | assumption | apply keeps_setEntry | apply keeps_addF | apply keeps_ite
    | (split <;> try dsimp only)

theorem keeps_learnUpdate {s0 s : State}  (h : Keeps s0 s) :
    Keeps s0 (learnUpdate s) := by
  unfold learnUpdate
  try dsimp only
  repeat' with_reducible first
    | assumption | apply keeps_learnEntry | apply keeps_addF | apply keeps_each
    | (refine Keeps.lit ?_ rfl rfl rfl rfl rfl rfl rfl rfl rfl rfl; first | assumption | apply keeps_learnEntry | apply keeps_addF | apply keeps_each)
    | intro _ _ _
    | intro _ _

theorem keeps_fthBoundary {s0 s : State}  (h : Keeps s0 s) :
    Keeps s0 (fthBoundary s) := by
  unfold fthBoundary
  try dsimp only
  repeat' with_reducible first
    | assumption | apply keeps_learnUpdate | apply keeps_ite
    | (split <;> try dsimp only)

theorem keeps_snapStart {s0 s : State}  (h : Keeps s0 s) :
    Keeps s0 (snapStart s) := by
  unfold snapStart
  try dsimp only
  repeat' with_reducible first
    | assumption | apply keeps_setB | apply keeps_startRec | apply keeps_ite
    | (refine Keeps.lit ?_ rfl rfl rfl rfl rfl rfl rfl rfl rfl rfl; first | assumption | apply keeps_setB | apply keeps_startRec | apply keeps_ite)
    | (split <;> try dsimp only)

theorem keeps_execSnapReq {s0 s : State}  (h : Keeps s0 s) :
    ∃ t, execSnapReq s = .next t ∧ Keeps s0 t := by
  unfold execSnapReq
  refine ⟨_, rfl, ?_⟩
  try dsimp only
  repeat' with_reducible first
    | assumption | apply keeps_snapStart

theorem keeps_execSnapshotPeriodic {s0 s : State}  (h : Keeps s0 s) :
    ∃ t, execSnapshotPeriodic s = .next t ∧ Keeps s0 t := by
  unfold execSnapshotPeriodic
  refine ⟨_, rfl, ?_⟩
  try dsimp only
  repeat' with_reducible first
    | assumption | apply keeps_snapStart | apply keeps_ite
    | (split <;> try dsimp only)

theorem keeps_copyPage {s0 s : State} {a0 : SnapSt} (h : Keeps s0 s) :
    Keeps s0 (copyPage a0 s) := by
  unfold copyPage
  try dsimp only
  repeat' with_reducible first
    | assumption | apply keeps_ite
    | (refine Keeps.lit ?_ rfl rfl rfl rfl rfl rfl rfl rfl rfl rfl; first | assumption | apply keeps_ite)
    | (split <;> try dsimp only)

theorem keeps_endSnap {s0 s : State} {a0 : Bool} (h : Keeps s0 s) :
    Keeps s0 (endSnap a0 s) := by
  unfold endSnap
  try dsimp only
  repeat' with_reducible first
    | assumption | apply keeps_endRec | apply keeps_ite
    | (refine Keeps.lit ?_ rfl rfl rfl rfl rfl rfl rfl rfl rfl rfl; first | assumption | apply keeps_endRec | apply keeps_ite)
    | (split <;> try dsimp only)
    | intro _ _

theorem keeps_execSnapshotDone {s0 s : State} {a0 : Bool} (h : Keeps s0 s) :
    ∃ t, execSnapshotDone a0 s = .next t ∧ Keeps s0 t := by
  unfold execSnapshotDone
  refine ⟨_, rfl, ?_⟩
  try dsimp only
  repeat' with_reducible first
    | assumption | apply keeps_endSnap

theorem keeps_execRecordWriteComplete {s0 s : State} {a0 : RecKind} {a1 : Bool} (h : Keeps s0 s) :
    ∃ t, execRecordWriteComplete a0 a1 s = .next t ∧ Keeps s0 t := by
  unfold execRecordWriteComplete
  refine ⟨_, rfl, ?_⟩
  try dsimp only
  repeat' with_reducible first
    | assumption | apply keeps_endSnap | apply keeps_endRec | apply keeps_ite
    | (split <;> try dsimp only)

theorem keeps_loadPage {s0 s : State} {a0 : Nat} {a2 : Nat} (h : Keeps s0 s) :
    Keeps s0 (loadPage a0 s a2) := by
  unfold loadPage
  try dsimp only
  repeat' with_reducible first
    | assumption | apply keeps_clearPages | apply keeps_ite
    | (refine Keeps.lit ?_ rfl rfl rfl rfl rfl rfl rfl rfl rfl rfl; first | assumption | apply keeps_clearPages | apply keeps_ite)
    | (split <;> try dsimp only)
    | intro _ _

theorem keeps_loadGroup {s0 s : State} {a0 : Nat} {a2 : Nat} (h : Keeps s0 s) :
    Keeps s0 (loadGroup a0 s a2) := by
  unfold loadGroup
  try dsimp only
  repeat' with_reducible first
    | assumption | apply keeps_loadPage | apply keeps_setFs | apply keeps_clearPages | apply keeps_each | apply keeps_ite
    | (split <;> try dsimp only)
    | intro _ _ _
    | intro _ _

theorem keeps_fthTags {s0 s : State}  (h : Keeps s0 s) :
    Keeps s0 (fthTags s) := by
  unfold fthTags
  try dsimp only
  repeat' with_reducible first
    | assumption | apply keeps_fthAlign | apply keeps_each | apply keeps_ite
    | (split <;> try dsimp only)
    | intro _ _ _
    | intro _ _

theorem keeps_execSnapshotLoadDone {s0 s : State}  (h : Keeps s0 s) :
    ∃ t, execSnapshotLoadDone s = .next t ∧ Keeps s0 t := by
  unfold execSnapshotLoadDone
  refine ⟨_, rfl, ?_⟩
  try dsimp only
  repeat' with_reducible first
    | assumption | apply keeps_setB | apply keeps_fthTags | apply keeps_setF | apply keeps_loadGroup | apply keeps_clearPages | apply keeps_detect | apply keeps_each | apply keeps_ite
    | (refine Keeps.lit ?_ rfl rfl rfl rfl rfl rfl rfl rfl rfl rfl; first | assumption | apply keeps_setB | apply keeps_fthTags | apply keeps_setF | apply keeps_loadGroup | apply keeps_clearPages | apply keeps_detect | apply keeps_each | apply keeps_ite)
    | (split <;> try dsimp only)
    | intro _ _ _
    | intro _ _

end Sys2Proof.Machine
end

