-- ==== Sys2Proof/Laws/Keeps/RxSignal.lean ====
section
/-! SUPPORT. What the operations of Machine/RxSignal.lean keep. -/
set_option linter.all false
namespace Sys2Proof.Machine

theorem keeps_learnFrom {s0 s : State} {a0 : Nat} {a1 : Nat} {a2 : List (Prod Nat (Prod Cx Cx))} (h : Keeps s0 s) :
    Keeps s0 (learnFrom a0 a1 a2 s) := by
  unfold learnFrom
  try dsimp only
  repeat' with_reducible first
    | assumption | apply keeps_foldl | apply keeps_ite
    | (refine Keeps.lit ?_ rfl rfl rfl rfl rfl rfl rfl rfl rfl rfl; first | assumption | apply keeps_foldl | apply keeps_ite)
    | (split <;> try dsimp only)
    | intro _ _ _
    | intro _ _

end Sys2Proof.Machine
end

