-- ==== Sys2Proof/Laws/Keeps/LineRx.lean ====
section
/-! SUPPORT. What the operations of Machine/LineRx.lean keep. -/
set_option linter.all false
namespace Sys2Proof.Machine

theorem keeps_execOffsetUpdate {s0 s : State} {a0 : Fin 2} {a1 : Fin 4} {a2 : Int} (h : Keeps s0 s) :
    ∃ t, execOffsetUpdate a0 a1 a2 s = .next t ∧ Keeps s0 t := by
  unfold execOffsetUpdate
  refine ⟨_, rfl, ?_⟩
  try dsimp only
  repeat' with_reducible first
    | assumption | apply keeps_setS | apply keeps_ite
    | (split <;> try dsimp only)

theorem keeps_execAgcSlowUpdate {s0 s : State} {a0 : Fin 2} {a1 : List Nat} (h : Keeps s0 s) :
    ∃ t, execAgcSlowUpdate a0 a1 s = .next t ∧ Keeps s0 t := by
  unfold execAgcSlowUpdate
  refine ⟨_, rfl, ?_⟩
  try dsimp only
  repeat' with_reducible first
    | assumption | apply keeps_drew | apply keeps_setF | apply keeps_each | apply keeps_ite
    | (split <;> try dsimp only)
    | intro _ _ _
    | intro _ _

theorem keeps_execAgcFastUpdate {s0 s : State} {a0 : Fin 2} {a1 : List Nat} (h : Keeps s0 s) :
    ∃ t, execAgcFastUpdate a0 a1 s = .next t ∧ Keeps s0 t := by
  unfold execAgcFastUpdate
  refine ⟨_, rfl, ?_⟩
  try dsimp only
  repeat' with_reducible first
    | assumption | apply keeps_drew | apply keeps_setF | apply keeps_each | apply keeps_ite
    | (split <;> try dsimp only)
    | intro _ _ _
    | intro _ _

theorem keeps_execAgcReplacementEnd {s0 s : State} {a0 : Fin 2} (h : Keeps s0 s) :
    ∃ t, execAgcReplacementEnd a0 s = .next t ∧ Keeps s0 t := by
  unfold execAgcReplacementEnd
  refine ⟨_, rfl, ?_⟩
  try dsimp only
  repeat' with_reducible first
    | assumption | apply keeps_agcUpdate | apply keeps_ite
    | (refine Keeps.lit ?_ rfl rfl rfl rfl rfl rfl rfl rfl rfl rfl; first | assumption | apply keeps_agcUpdate | apply keeps_ite)
    | (split <;> try dsimp only)

theorem keeps_resetTaps {s0 s : State} {a1 : Nat} {a2 : Nat} {a3 : Nat} (h : Keeps s0 s) :
    Keeps s0 (resetTaps s a1 a2 a3) := by
  unfold resetTaps
  try dsimp only
  repeat' with_reducible first
    | assumption
    | (refine Keeps.lit ?_ rfl rfl rfl rfl rfl rfl rfl rfl rfl rfl; first | assumption)

theorem keeps_tapRestart {s0 s : State} {a0 : Nat} {a1 : Nat} {a3 : Nat} (h : Keeps s0 s) :
    Keeps s0 (tapRestart a0 a1 s a3) := by
  unfold tapRestart
  try dsimp only
  repeat' with_reducible first
    | assumption | apply keeps_satF | apply keeps_resetTaps
    | (refine Keeps.lit ?_ rfl rfl rfl rfl rfl rfl rfl rfl rfl rfl; first | assumption | apply keeps_satF | apply keeps_resetTaps)

theorem keeps_refitTaps {s0 s : State} {a0 : Nat} {a1 : Nat} {a2 : Nat} (h : Keeps s0 s) :
    Keeps s0 (refitTaps a0 a1 a2 s) := by
  unfold refitTaps
  try dsimp only
  repeat' with_reducible first
    | assumption | apply keeps_foldl | apply keeps_ite
    | (refine Keeps.lit ?_ rfl rfl rfl rfl rfl rfl rfl rfl rfl rfl; first | assumption | apply keeps_foldl | apply keeps_ite)
    | (split <;> try dsimp only)
    | intro _ _ _
    | intro _ _

theorem keeps_execEqTapUpdate {s0 s : State} {a0 : Fin 2} {a1 : Fin 32} {a2 : RxSyms} (h : Keeps s0 s) :
    ∃ t, execEqTapUpdate a0 a1 a2 s = .next t ∧ Keeps s0 t := by
  unfold execEqTapUpdate
  refine ⟨_, rfl, ?_⟩
  try dsimp only
  repeat' with_reducible first
    | assumption
    | (refine Keeps.lit ?_ rfl rfl rfl rfl rfl rfl rfl rfl rfl rfl; first | assumption)
    | (split <;> try dsimp only)

theorem keeps_enterScan {s0 s : State} {a0 : Nat} {a1 : Nat} (h : Keeps s0 s) :
    Keeps s0 (enterScan a0 a1 s) := by
  unfold enterScan
  try dsimp only
  repeat' with_reducible first
    | assumption | apply keeps_unitLeave | apply keeps_setUnit
    | (refine Keeps.lit ?_ rfl rfl rfl rfl rfl rfl rfl rfl rfl rfl; first | assumption | apply keeps_unitLeave | apply keeps_setUnit)

theorem keeps_execUnitEnabled {s0 s : State} {a0 : Fin 2} {a1 : Fin 16} (h : Keeps s0 s) :
    ∃ t, execUnitEnabled a0 a1 s = .next t ∧ Keeps s0 t := by
  unfold execUnitEnabled
  refine ⟨_, rfl, ?_⟩
  try dsimp only
  repeat' with_reducible first
    | assumption | apply keeps_enterScan | apply keeps_ite
    | (split <;> try dsimp only)

theorem keeps_execUnitDisabled {s0 s : State} {a0 : Fin 2} {a1 : Fin 16} (h : Keeps s0 s) :
    ∃ t, execUnitDisabled a0 a1 s = .next t ∧ Keeps s0 t := by
  unfold execUnitDisabled
  refine ⟨_, rfl, ?_⟩
  try dsimp only
  repeat' with_reducible first
    | assumption | apply keeps_settle | apply keeps_unitIdle | apply keeps_ite
    | (split <;> try dsimp only)

theorem keeps_searchStart {s0 s : State} {a0 : Nat} {a1 : Nat} (h : Keeps s0 s) :
    Keeps s0 (searchStart a0 a1 s) := by
  unfold searchStart
  try dsimp only
  repeat' with_reducible first
    | assumption | apply keeps_setUnit
    | (refine Keeps.lit ?_ rfl rfl rfl rfl rfl rfl rfl rfl rfl rfl; first | assumption | apply keeps_setUnit)

theorem keeps_execCdScanStep {s0 s : State} {a0 : Fin 2} {a1 : Fin 16} {a2 : Int} (h : Keeps s0 s) :
    ∃ t, execCdScanStep a0 a1 a2 s = .next t ∧ Keeps s0 t := by
  unfold execCdScanStep
  refine ⟨_, rfl, ?_⟩
  try dsimp only
  repeat' with_reducible first
    | assumption | apply keeps_setUnit | apply keeps_setS | apply keeps_searchStart | apply keeps_unitLeave | apply keeps_ite
    | (refine Keeps.lit ?_ rfl rfl rfl rfl rfl rfl rfl rfl rfl rfl; first | assumption | apply keeps_setUnit | apply keeps_setS | apply keeps_searchStart | apply keeps_unitLeave | apply keeps_ite)
    | (split <;> try dsimp only)

theorem keeps_setCand {s0 s : State} {a0 : Nat} {a1 : Nat} {a2 : Peak} {a3 : List (Prod Peak (List HdrSc))} (h : Keeps s0 s) :
    Keeps s0 (setCand a0 a1 a2 a3 s) := by
  unfold setCand
  try dsimp only
  repeat' with_reducible first
    | assumption | apply keeps_setS | apply keeps_setUnit
    | (refine Keeps.lit ?_ rfl rfl rfl rfl rfl rfl rfl rfl rfl rfl; first | assumption | apply keeps_setS | apply keeps_setUnit)

theorem keeps_execCandidateDeclared {s0 s : State} {a0 : Fin 2} {a1 : Fin 16} {a2 : Peak} (h : Keeps s0 s) :
    ∃ t, execCandidateDeclared a0 a1 a2 s = .next t ∧ Keeps s0 t := by
  unfold execCandidateDeclared
  refine ⟨_, rfl, ?_⟩
  try dsimp only
  repeat' with_reducible first
    | assumption | apply keeps_agcUpdate | apply keeps_setF | apply keeps_setCand | apply keeps_ite
    | (split <;> try dsimp only)

theorem keeps_firstCheck {s0 s : State} {a0 : Nat} {a1 : Nat} {a2 : List HdrSc} (h : Keeps s0 s) :
    Keeps s0 (firstCheck a0 a1 a2 s) := by
  unfold firstCheck
  try dsimp only
  repeat' with_reducible first
    | assumption | apply keeps_setUnit | apply keeps_ite
    | (refine Keeps.lit ?_ rfl rfl rfl rfl rfl rfl rfl rfl rfl rfl; first | assumption | apply keeps_setUnit | apply keeps_ite)
    | (split <;> try dsimp only)

theorem keeps_replaceCand {s0 s : State} {a0 : Nat} {a1 : Nat} {a2 : Peak} {a3 : List HdrSc} (h : Keeps s0 s) :
    Keeps s0 (replaceCand a0 a1 a2 a3 s) := by
  unfold replaceCand
  try dsimp only
  repeat' with_reducible first
    | assumption | apply keeps_firstCheck | apply keeps_setCand | apply keeps_setF | apply keeps_ite
    | (refine Keeps.lit ?_ rfl rfl rfl rfl rfl rfl rfl rfl rfl rfl; first | assumption | apply keeps_firstCheck | apply keeps_setCand | apply keeps_setF | apply keeps_ite)
    | (split <;> try dsimp only)

theorem keeps_intruder {s0 s : State} {a0 : Fin 2} {a1 : Fin 16} {a2 : Nat} {a3 : Int} (h : Keeps s0 s) :
    Keeps s0 (intruder a0 a1 a2 a3 s) := by
  unfold intruder
  try dsimp only
  repeat' with_reducible first
    | assumption | apply keeps_setUnit | apply keeps_setS | apply keeps_setF | apply keeps_peerReport | apply keeps_detect | apply keeps_ite
    | (refine Keeps.lit ?_ rfl rfl rfl rfl rfl rfl rfl rfl rfl rfl; first | assumption | apply keeps_setUnit | apply keeps_setS | apply keeps_setF | apply keeps_peerReport | apply keeps_detect | apply keeps_ite)
    | (split <;> try dsimp only)

theorem keeps_verifyPeak {s0 s : State} {a0 : Nat} {a1 : Nat} {a2 : Peak} {a3 : List HdrSc} (h : Keeps s0 s) :
    Keeps s0 (verifyPeak a0 a1 a2 a3 s) := by
  unfold verifyPeak
  try dsimp only
  repeat' with_reducible first
    | assumption | apply keeps_replaceCand | apply keeps_setUnit | apply keeps_ite
    | (refine Keeps.lit ?_ rfl rfl rfl rfl rfl rfl rfl rfl rfl rfl; first | assumption | apply keeps_replaceCand | apply keeps_setUnit | apply keeps_ite)
    | (split <;> try dsimp only)

theorem keeps_execSecondCorrelatorPeak {s0 s : State} {a0 : Fin 2} {a1 : Fin 16} {a2 : Peak} {a3 : List HdrSc} (h : Keeps s0 s) :
    ∃ t, execSecondCorrelatorPeak a0 a1 a2 a3 s = .next t ∧ Keeps s0 t := by
  unfold execSecondCorrelatorPeak
  refine ⟨_, rfl, ?_⟩
  try dsimp only
  repeat' with_reducible first
    | assumption | apply keeps_verifyPeak | apply keeps_intruder | apply keeps_ite
    | (split <;> try dsimp only)

theorem keeps_execSearchTimeout {s0 s : State} {a0 : Fin 2} {a1 : Fin 16} (h : Keeps s0 s) :
    ∃ t, execSearchTimeout a0 a1 s = .next t ∧ Keeps s0 t := by
  unfold execSearchTimeout
  refine ⟨_, rfl, ?_⟩
  try dsimp only
  repeat' with_reducible first
    | assumption | apply keeps_enterScan | apply keeps_ite
    | (split <;> try dsimp only)

theorem keeps_resetBank {s0 s : State} {a0 : Nat} (h : Keeps s0 s) :
    Keeps s0 (resetBank a0 s) := by
  unfold resetBank
  try dsimp only
  repeat' with_reducible first
    | assumption | apply keeps_setF | apply keeps_ite
    | (split <;> try dsimp only)

theorem keeps_enterAlign {s0 s : State} {a0 : Fin 2} {a1 : Fin 16} {a2 : Nat} (h : Keeps s0 s) :
    Keeps s0 (enterAlign a0 a1 a2 s) := by
  unfold enterAlign
  try dsimp only
  repeat' with_reducible first
    | assumption | apply keeps_setFs | apply keeps_setUnit | apply keeps_resetTaps | apply keeps_agcUpdate | apply keeps_fthAlign | apply keeps_resetBank | apply keeps_arrive | apply keeps_detect | apply keeps_each
    | (refine Keeps.lit ?_ rfl rfl rfl rfl rfl rfl rfl rfl rfl rfl; first | assumption | apply keeps_setFs | apply keeps_setUnit | apply keeps_resetTaps | apply keeps_agcUpdate | apply keeps_fthAlign | apply keeps_resetBank | apply keeps_arrive | apply keeps_detect | apply keeps_each)
    | intro _ _ _
    | intro _ _

theorem keeps_runBegins {s0 s : State} {a0 : Nat} {a1 : Nat} (h : Keeps s0 s) :
    Keeps s0 (runBegins a0 a1 s) := by
  unfold runBegins
  try dsimp only
  repeat' with_reducible first
    | assumption | apply keeps_setUnit
    | (refine Keeps.lit ?_ rfl rfl rfl rfl rfl rfl rfl rfl rfl rfl; first | assumption | apply keeps_setUnit)
    | intro _ _

theorem keeps_enterCarry {s0 s : State} {a0 : Nat} {a1 : Nat} (h : Keeps s0 s) :
    Keeps s0 (enterCarry a0 a1 s) := by
  unfold enterCarry
  try dsimp only
  repeat' with_reducible first
    | assumption | apply keeps_runBegins | apply keeps_setF
    | (refine Keeps.lit ?_ rfl rfl rfl rfl rfl rfl rfl rfl rfl rfl; first | assumption | apply keeps_runBegins | apply keeps_setF)
    | intro _ _

theorem keeps_verifyFail {s0 s : State} {a0 : Fin 2} {a1 : Fin 16} {a2 : List Hdr} (h : Keeps s0 s) :
    Keeps s0 (verifyFail a0 a1 a2 s) := by
  unfold verifyFail
  try dsimp only
  repeat' with_reducible first
    | assumption | apply keeps_setF | apply keeps_setUnit | apply keeps_peerReport | apply keeps_detect | apply keeps_addF | apply keeps_ite
    | (refine Keeps.lit ?_ rfl rfl rfl rfl rfl rfl rfl rfl rfl rfl; first | assumption | apply keeps_setF | apply keeps_setUnit | apply keeps_peerReport | apply keeps_detect | apply keeps_addF | apply keeps_ite)
    | (split <;> try dsimp only)
    | intro _ _

theorem keeps_verifyHeader {s0 s : State} {a0 : Fin 2} {a1 : Fin 16} {a2 : List HdrSc} (h : Keeps s0 s) :
    Keeps s0 (verifyHeader a0 a1 a2 s) := by
  unfold verifyHeader
  try dsimp only
  repeat' with_reducible first
    | assumption | apply keeps_setUnit | apply keeps_enterCarry | apply keeps_enterAlign | apply keeps_verifyFail | apply keeps_firstCheck | apply keeps_setCand | apply keeps_unitLeave | apply keeps_onlyIf | apply keeps_ite
    | (refine Keeps.lit ?_ rfl rfl rfl rfl rfl rfl rfl rfl rfl rfl; first | assumption | apply keeps_setUnit | apply keeps_enterCarry | apply keeps_enterAlign | apply keeps_verifyFail | apply keeps_firstCheck | apply keeps_setCand | apply keeps_unitLeave | apply keeps_onlyIf | apply keeps_ite)
    | (split <;> try dsimp only)
    | intro _ _ _
    | intro _ _

theorem keeps_maskStep {s0 s : State} {a0 : Fin 2} {a1 : Fin 16} {a2 : List Nat} {a4 : Nat} (h : Keeps s0 s) :
    Keeps s0 (maskStep a0 a1 a2 s a4) := by
  unfold maskStep
  try dsimp only
  repeat' with_reducible first
    | assumption | apply keeps_setF | apply keeps_setUnit | apply keeps_detect | apply keeps_resetTaps | apply keeps_ite
    | (refine Keeps.lit ?_ rfl rfl rfl rfl rfl rfl rfl rfl rfl rfl; first | assumption | apply keeps_setF | apply keeps_setUnit | apply keeps_detect | apply keeps_resetTaps | apply keeps_ite)
    | (split <;> try dsimp only)

theorem keeps_foffStep {s0 s : State} {a0 : Nat} {a1 : Nat} {a2 : HdrMeas} (h : Keeps s0 s) :
    Keeps s0 (foffStep a0 a1 a2 s) := by
  unfold foffStep
  try dsimp only
  repeat' with_reducible first
    | assumption | apply keeps_setS | apply keeps_setUnit | apply keeps_ite
    | (refine Keeps.lit ?_ rfl rfl rfl rfl rfl rfl rfl rfl rfl rfl; first | assumption | apply keeps_setS | apply keeps_setUnit | apply keeps_ite)
    | (split <;> try dsimp only)
    | intro _ _

theorem keeps_delayStep {s0 s : State} {a0 : Nat} {a1 : Nat} (h : Keeps s0 s) :
    Keeps s0 (delayStep a0 a1 s) := by
  unfold delayStep
  try dsimp only
  repeat' with_reducible first
    | assumption | apply keeps_setS | apply keeps_each | apply keeps_ite
    | (split <;> try dsimp only)
    | intro _ _ _
    | intro _ _

theorem keeps_collapseStep {s0 s : State} {a0 : Nat} {a1 : Nat} {a3 : Nat} (h : Keeps s0 s) :
    Keeps s0 (collapseStep a0 a1 s a3) := by
  unfold collapseStep
  try dsimp only
  repeat' with_reducible first
    | assumption | apply keeps_tapRestart | apply keeps_ite
    | (split <;> try dsimp only)

theorem keeps_measStep {s0 s : State} {a0 : Nat} {a1 : Nat} {a2 : HdrMeas} (h : Keeps s0 s) :
    Keeps s0 (measStep a0 a1 a2 s) := by
  unfold measStep
  try dsimp only
  repeat' with_reducible first
    | assumption | apply keeps_delayStep | apply keeps_foffStep | apply keeps_setF | apply keeps_collapseStep | apply keeps_each
    | intro _ _ _
    | intro _ _

theorem keeps_setAcc {s0 s : State} {a1 : Nat} {a2 : QAcc} (h : Keeps s0 s) :
    Keeps s0 (setAcc s a1 a2) := by
  unfold setAcc
  try dsimp only
  repeat' with_reducible first
    | assumption
    | (refine Keeps.lit ?_ rfl rfl rfl rfl rfl rfl rfl rfl rfl rfl; first | assumption)

theorem keeps_takeKnown {s0 s : State} {a0 : Nat} {a1 : Nat} {a3 : Prod Nat RxSyms} (h : Keeps s0 s) :
    Keeps s0 (takeKnown a0 a1 s a3) := by
  unfold takeKnown
  try dsimp only
  repeat' with_reducible first
    | assumption | apply keeps_setAcc | apply keeps_foldl | apply keeps_ite
    | (refine Keeps.lit ?_ rfl rfl rfl rfl rfl rfl rfl rfl rfl rfl; first | assumption | apply keeps_setAcc | apply keeps_foldl | apply keeps_ite)
    | (split <;> try dsimp only)
    | intro _ _ _
    | intro _ _

theorem keeps_intervalStep {s0 s : State} {a0 : Nat} {a1 : Nat} {a2 : Nat} (h : Keeps s0 s) :
    Keeps s0 (intervalStep a0 a1 a2 s) := by
  unfold intervalStep
  try dsimp only
  repeat' with_reducible first
    | assumption | apply keeps_foldl | apply keeps_ite
    | (refine Keeps.lit ?_ rfl rfl rfl rfl rfl rfl rfl rfl rfl rfl; first | assumption | apply keeps_foldl | apply keeps_ite)
    | (split <;> try dsimp only)
    | intro _ _ _
    | intro _ _

theorem keeps_headerFresh {s0 s : State} {a0 : Nat} {a1 : Nat} {a2 : HdrMeas} (h : Keeps s0 s) :
    Keeps s0 (headerFresh a0 a1 a2 s) := by
  unfold headerFresh
  try dsimp only
  repeat' with_reducible first
    | assumption | apply keeps_setUnit | apply keeps_setF | apply keeps_foldl | apply keeps_ite
    | (refine Keeps.lit ?_ rfl rfl rfl rfl rfl rfl rfl rfl rfl rfl; first | assumption | apply keeps_setUnit | apply keeps_setF | apply keeps_foldl | apply keeps_ite)
    | (split <;> try dsimp only)
    | intro _ _ _
    | intro _ _

theorem keeps_ageAway {s0 s : State}  (h : Keeps s0 s) :
    Keeps s0 (ageAway s) := by
  unfold ageAway
  try dsimp only
  repeat' with_reducible first
    | assumption | apply keeps_ite
    | (refine Keeps.lit ?_ rfl rfl rfl rfl rfl rfl rfl rfl rfl rfl; first | assumption | apply keeps_ite)
    | (split <;> try dsimp only)

theorem keeps_loseSignal {s0 s : State} {a0 : Fin 2} {a1 : Fin 16} (h : Keeps s0 s) :
    Keeps s0 (loseSignal a0 a1 s) := by
  unfold loseSignal
  try dsimp only
  repeat' with_reducible first
    | assumption | apply keeps_searchStart | apply keeps_settle | apply keeps_unitLeave | apply keeps_detect

theorem keeps_stayHeader {s0 s : State} {a0 : Fin 2} {a1 : Fin 16} {a2 : List HdrSc} {a3 : HdrMeas} (h : Keeps s0 s) :
    Keeps s0 (stayHeader a0 a1 a2 a3 s) := by
  unfold stayHeader
  try dsimp only
  repeat' with_reducible first
    | assumption | apply keeps_takeKnown | apply keeps_setUnit | apply keeps_maskStep | apply keeps_headerFresh | apply keeps_intervalStep | apply keeps_measStep | apply keeps_loseSignal | apply keeps_enterCarry | apply keeps_setS | apply keeps_runBegins | apply keeps_each | apply keeps_onlyIf | apply keeps_ite
    | (refine Keeps.lit ?_ rfl rfl rfl rfl rfl rfl rfl rfl rfl rfl; first | assumption | apply keeps_takeKnown | apply keeps_setUnit | apply keeps_maskStep | apply keeps_headerFresh | apply keeps_intervalStep | apply keeps_measStep | apply keeps_loseSignal | apply keeps_enterCarry | apply keeps_setS | apply keeps_runBegins | apply keeps_each | apply keeps_onlyIf | apply keeps_ite)
    | (split <;> try dsimp only)
    | intro _ _ _
    | intro _ _

theorem keeps_groupsSwitch {s0 s : State} {a0 : Nat} {a1 : List Nat} {a2 : ZContent} (h : Keeps s0 s) :
    Keeps s0 (groupsSwitch a0 a1 a2 s) := by
  unfold groupsSwitch
  try dsimp only
  repeat' with_reducible first
    | assumption | apply keeps_fathomSwitch | apply keeps_ite
    | (split <;> try dsimp only)

theorem keeps_headerSwitch {s0 s : State} {a0 : Nat} {a1 : Nat} (h : Keeps s0 s) :
    Keeps s0 (headerSwitch a0 a1 s) := by
  unfold headerSwitch
  try dsimp only
  repeat' with_reducible first
    | assumption | apply keeps_groupsSwitch | apply keeps_setZone | apply keeps_each | apply keeps_ite
    | (refine Keeps.lit ?_ rfl rfl rfl rfl rfl rfl rfl rfl rfl rfl; first | assumption | apply keeps_groupsSwitch | apply keeps_setZone | apply keeps_each | apply keeps_ite)
    | (split <;> try dsimp only)
    | intro _ _ _
    | intro _ _

theorem keeps_headerEnd {s0 s : State} {a0 : Nat} {a1 : Nat} {a2 : State} (h : Keeps s0 s) :
    Keeps s0 (headerEnd a0 a1 a2 s) := by
  unfold headerEnd
  try dsimp only
  repeat' with_reducible first
    | assumption | apply keeps_unitLeave | apply keeps_unitQuiet | apply keeps_ite
    | (split <;> try dsimp only)

theorem keeps_execRxHeader {s0 s : State} {a0 : Fin 2} {a1 : Fin 16} {a2 : List HdrSc} {a3 : HdrMeas} (h : Keeps s0 s) :
    ∃ t, execRxHeader a0 a1 a2 a3 s = .next t ∧ Keeps s0 t := by
  unfold execRxHeader
  refine ⟨_, rfl, ?_⟩
  try dsimp only
  repeat' with_reducible first
    | assumption | apply keeps_headerEnd | apply keeps_headerSwitch | apply keeps_verifyHeader | apply keeps_stayHeader | apply keeps_ite
    | (split <;> try dsimp only)

theorem keeps_scInterval {s0 s : State} {a0 : Nat} {a1 : Nat} {a2 : Bool} {a3 : List QSample} {a5 : Nat} (h : Keeps s0 s) :
    Keeps s0 (scInterval a0 a1 a2 a3 s a5) := by
  unfold scInterval
  try dsimp only
  repeat' with_reducible first
    | assumption | apply keeps_setS | apply keeps_setFs | apply keeps_addF | apply keeps_ite
    | (split <;> try dsimp only)

theorem keeps_unitHist {s0 s : State} {a0 : Nat} {a1 : Int} {a2 : Nat} {a3 : Int} (h : Keeps s0 s) :
    Keeps s0 (unitHist a0 a1 a2 a3 s) := by
  unfold unitHist
  try dsimp only
  repeat' with_reducible first
    | assumption | apply keeps_histSample | apply keeps_ite
    | (refine Keeps.lit ?_ rfl rfl rfl rfl rfl rfl rfl rfl rfl rfl; first | assumption | apply keeps_histSample | apply keeps_ite)
    | refine Keeps.fst_of ?_ (by assumption)
    | (split <;> try dsimp only)

theorem keeps_execQualityIntervalEnd {s0 s : State} {a0 : Fin 2} {a1 : Fin 16} {a2 : QUnit} {a3 : List QSample} (h : Keeps s0 s) :
    ∃ t, execQualityIntervalEnd a0 a1 a2 a3 s = .next t ∧ Keeps s0 t := by
  unfold execQualityIntervalEnd
  refine ⟨_, rfl, ?_⟩
  try dsimp only
  repeat' with_reducible first
    | assumption | apply keeps_scInterval | apply keeps_setS | apply keeps_setFs | apply keeps_addF | apply keeps_unitHist | apply keeps_each | apply keeps_ite
    | (refine Keeps.lit ?_ rfl rfl rfl rfl rfl rfl rfl rfl rfl rfl; first | assumption | apply keeps_scInterval | apply keeps_setS | apply keeps_setFs | apply keeps_addF | apply keeps_unitHist | apply keeps_each | apply keeps_ite)
    | (split <;> try dsimp only)
    | intro _ _ _
    | intro _ _

end Sys2Proof.Machine
end

