-- ==== Sys2Proof/Laws/Keeps/Fec.lean ====
section
/-! SUPPORT. What the operations of Machine/Fec.lean keep. -/
set_option linter.all false
namespace Sys2Proof.Machine

theorem keeps_debit {s0 s : State} {a1 : Nat} (h : Keeps s0 s) :
    Keeps s0 (debit s a1) := by
  unfold debit
  try dsimp only
  repeat' with_reducible first
    | assumption | apply keeps_setS

theorem keeps_setPool {s0 s : State} {a1 : List Cw} (h : Keeps s0 s) :
    Keeps s0 (setPool s a1) := by
  unfold setPool
  try dsimp only
  repeat' with_reducible first
    | assumption
    | (refine Keeps.lit ?_ rfl rfl rfl rfl rfl rfl rfl rfl rfl rfl; first | assumption)

theorem keeps_cwSet {s0 s : State} {a1 : Cw} (h : Keeps s0 s) :
    Keeps s0 (cwSet s a1) := by
  unfold cwSet
  try dsimp only
  repeat' with_reducible first
    | assumption | apply keeps_setPool | apply keeps_ite
    | (split <;> try dsimp only)
    | intro _ _

theorem keeps_drewN {s0 s : State} {a1 : Nat} (h : Keeps s0 s) :
    Keeps s0 (drewN s a1) := by
  unfold drewN
  try dsimp only
  repeat' with_reducible first
    | assumption
    | (refine Keeps.lit ?_ rfl rfl rfl rfl rfl rfl rfl rfl rfl rfl; first | assumption)

theorem keeps_holdDecisions {s0 s : State} {a0 : Nat} {a1 : Nat} {a2 : List (Prod Nat (Prod Cx Cx))} (h : Keeps s0 s) :
    Keeps s0 (holdDecisions a0 a1 a2 s) := by
  unfold holdDecisions
  try dsimp only
  repeat' with_reducible first
    | assumption | apply keeps_foldl
    | (refine Keeps.lit ?_ rfl rfl rfl rfl rfl rfl rfl rfl rfl rfl; first | assumption | apply keeps_foldl)
    | intro _ _ _
    | intro _ _

theorem keeps_enterPool {s0 s : State} {a0 : Nat} {a1 : Nat} {a2 : RxSyms} {a3 : List Nat} (h : Keeps s0 s) :
    Keeps s0 (enterPool a0 a1 a2 a3 s) := by
  unfold enterPool
  try dsimp only
  repeat' with_reducible first
    | assumption | apply keeps_holdDecisions | apply keeps_drewN | apply keeps_setS | apply keeps_addF | apply keeps_ite
    | (refine Keeps.lit ?_ rfl rfl rfl rfl rfl rfl rfl rfl rfl rfl; first | assumption | apply keeps_holdDecisions | apply keeps_drewN | apply keeps_setS | apply keeps_addF | apply keeps_ite)
    | (split <;> try dsimp only)

theorem keeps_execCodewordEntersPool {s0 s : State} {a0 : Fin 32} {a1 : Fin 32} {a2 : RxSyms} {a3 : List Nat} (h : Keeps s0 s) :
    ∃ t, execCodewordEntersPool a0 a1 a2 a3 s = .next t ∧ Keeps s0 t := by
  unfold execCodewordEntersPool
  refine ⟨_, rfl, ?_⟩
  try dsimp only
  repeat' with_reducible first
    | assumption | apply keeps_enterPool | apply keeps_ite
    | (split <;> try dsimp only)

theorem keeps_execEngineAssign {s0 s : State}  (h : Keeps s0 s) :
    ∃ t, execEngineAssign s = .next t ∧ Keeps s0 t := by
  unfold execEngineAssign
  refine ⟨_, rfl, ?_⟩
  try dsimp only
  repeat' with_reducible first
    | assumption | apply keeps_debit | apply keeps_cwSet | apply keeps_ite
    | (refine Keeps.lit ?_ rfl rfl rfl rfl rfl rfl rfl rfl rfl rfl; first | assumption | apply keeps_debit | apply keeps_cwSet | apply keeps_ite)
    | (split <;> try dsimp only)
    | intro _ _

theorem keeps_firkinCount {s0 s : State} {a1 : Nat} {a2 : Nat} {a3 : Nat} (h : Keeps s0 s) :
    Keeps s0 (firkinCount s a1 a2 a3) := by
  unfold firkinCount
  try dsimp only
  repeat' with_reducible first
    | assumption
    | (refine Keeps.lit ?_ rfl rfl rfl rfl rfl rfl rfl rfl rfl rfl; first | assumption)

theorem keeps_setRxq {s0 s : State} {a1 : Nat} {a2 : List QEnt} (h : Keeps s0 s) :
    Keeps s0 (setRxq s a1 a2) := by
  unfold setRxq
  try dsimp only
  repeat' with_reducible first
    | assumption
    | (refine Keeps.lit ?_ rfl rfl rfl rfl rfl rfl rfl rfl rfl rfl; first | assumption)

theorem keeps_setE {s0 s : State} {a1 : Nat} {a2 : Nat} (h : Keeps s0 s) :
    Keeps s0 (setE s a1 a2) := by
  unfold setE
  try dsimp only
  repeat' with_reducible first
    | assumption
    | (refine Keeps.lit ?_ rfl rfl rfl rfl rfl rfl rfl rfl rfl rfl; first | assumption)

theorem keeps_pushLost {s0 s : State} {a1 : Nat} {a2 : Nat} {a3 : Nat} (h : Keeps s0 s) :
    Keeps s0 (pushLost s a1 a2 a3) := by
  unfold pushLost
  try dsimp only
  repeat' with_reducible first
    | assumption | apply keeps_reuseEntry | apply keeps_firkinCount | apply keeps_setRxq | apply keeps_onlyIf | apply keeps_ite
    | (split <;> try dsimp only)
    | intro _ _ _
    | intro _ _

theorem keeps_pushBlk {s0 s : State} {a1 : Blk} (h : Keeps s0 s) :
    Keeps s0 (pushBlk s a1) := by
  unfold pushBlk
  try dsimp only
  repeat' with_reducible first
    | assumption | apply keeps_reuseEntry | apply keeps_firkinCount | apply keeps_setRxq | apply keeps_ite
    | (split <;> try dsimp only)

theorem keeps_overflow {s0 s : State} {a1 : Nat} (h : Keeps s0 s) :
    Keeps s0 (overflow s a1) := by
  unfold overflow
  try dsimp only
  repeat' with_reducible first
    | assumption | apply keeps_detect | apply keeps_firkinCount

theorem keeps_arriveBlk {s0 s : State} {a0 : Blk} (h : Keeps s0 s) :
    Keeps s0 (arriveBlk a0 s) := by
  unfold arriveBlk
  try dsimp only
  repeat' with_reducible first
    | assumption | apply keeps_firkinCount | apply keeps_overflow | apply keeps_setE | apply keeps_pushBlk | apply keeps_pushLost | apply keeps_ite
    | (split <;> try dsimp only)

theorem keeps_execFirkinWaitExpiry {s0 s : State} {a0 : Fin 8192} (h : Keeps s0 s) :
    ∃ t, execFirkinWaitExpiry a0 s = .next t ∧ Keeps s0 t := by
  unfold execFirkinWaitExpiry
  refine ⟨_, rfl, ?_⟩
  try dsimp only
  repeat' with_reducible first
    | assumption | apply keeps_setE | apply keeps_pushLost | apply keeps_ite
    | (split <;> try dsimp only)

theorem keeps_commitMark {s0 s : State} {a1 : Nat} (h : Keeps s0 s) :
    Keeps s0 (commitMark s a1) := by
  unfold commitMark
  try dsimp only
  repeat' with_reducible first
    | assumption | apply keeps_firkinCount | apply keeps_ite
    | (refine Keeps.lit ?_ rfl rfl rfl rfl rfl rfl rfl rfl rfl rfl; first | assumption | apply keeps_firkinCount | apply keeps_ite)
    | (split <;> try dsimp only)

theorem keeps_takeBlk {s0 s : State} {a0 : Nat} {a1 : Nat} {a2 : List Bool} {a3 : Bool} (h : Keeps s0 s) :
    Keeps s0 (takeBlk a0 a1 a2 a3 s) := by
  unfold takeBlk
  try dsimp only
  repeat' with_reducible first
    | assumption | apply keeps_addF | apply keeps_arriveBlk | apply keeps_ite
    | refine Keeps.fst_of ?_ (by assumption)
    | (split <;> try dsimp only)

theorem keeps_cutBlks {s0 s : State} {a0 : Nat} {a1 : Nat} {a2 : Nat} (h : Keeps s0 s) :
    Keeps s0 (cutBlks a0 a1 a2 s) := by
  induction a2 generalizing s a0 a1 with
  | zero => exact h
  | succ n ih =>
    unfold cutBlks
    try dsimp only
    repeat' with_reducible first
      | assumption | apply ih | apply keeps_takeBlk | apply keeps_ite
      | (refine Keeps.lit ?_ rfl rfl rfl rfl rfl rfl rfl rfl rfl rfl; first | assumption | apply ih | apply keeps_takeBlk | apply keeps_ite)
      | (split <;> try dsimp only)

theorem keeps_takeCodeword {s0 s : State} {a0 : Cw} {a1 : Bool} (h : Keeps s0 s) :
    Keeps s0 (takeCodeword a0 a1 s) := by
  unfold takeCodeword
  try dsimp only
  repeat' with_reducible first
    | assumption | apply keeps_learnFrom | apply keeps_setAcc | apply keeps_ite
    | (refine Keeps.lit ?_ rfl rfl rfl rfl rfl rfl rfl rfl rfl rfl; first | assumption | apply keeps_learnFrom | apply keeps_setAcc | apply keeps_ite)
    | (split <;> try dsimp only)

theorem keeps_releaseCw {s0 s : State} {a0 : Cw} {a1 : Bool} (h : Keeps s0 s) :
    Keeps s0 (releaseCw a0 a1 s) := by
  unfold releaseCw
  try dsimp only
  repeat' with_reducible first
    | assumption | apply keeps_takeCodeword | apply keeps_detect | apply keeps_addF | apply keeps_cutBlks | apply keeps_ite
    | (refine Keeps.lit ?_ rfl rfl rfl rfl rfl rfl rfl rfl rfl rfl; first | assumption | apply keeps_takeCodeword | apply keeps_detect | apply keeps_addF | apply keeps_cutBlks | apply keeps_ite)
    | (split <;> try dsimp only)

theorem keeps_releaseDone {s0 s : State} {a0 : Nat} {a1 : Nat} (h : Keeps s0 s) :
    Keeps s0 (releaseDone a0 a1 s) := by
  induction a1 generalizing s a0 with
  | zero => exact h
  | succ n ih =>
    unfold releaseDone
    try dsimp only
    repeat' with_reducible first
      | assumption | apply ih | apply keeps_setPool | apply keeps_releaseCw | apply keeps_ite
      | (refine Keeps.lit ?_ rfl rfl rfl rfl rfl rfl rfl rfl rfl rfl; first | assumption | apply ih | apply keeps_setPool | apply keeps_releaseCw | apply keeps_ite)
      | (split <;> try dsimp only)

theorem keeps_cwDone {s0 s : State} {a0 : Cw} (h : Keeps s0 s) :
    Keeps s0 (cwDone a0 s) := by
  unfold cwDone
  try dsimp only
  repeat' with_reducible first
    | assumption | apply keeps_cwSet | apply keeps_releaseDone | apply keeps_ite
    | (refine Keeps.lit ?_ rfl rfl rfl rfl rfl rfl rfl rfl rfl rfl; first | assumption | apply keeps_cwSet | apply keeps_releaseDone | apply keeps_ite)
    | (split <;> try dsimp only)

theorem keeps_execDecoderIteration {s0 s : State} {a0 : Nat} {a1 : List Bool} (h : Keeps s0 s) :
    ∃ t, execDecoderIteration a0 a1 s = .next t ∧ Keeps s0 t := by
  unfold execDecoderIteration
  refine ⟨_, rfl, ?_⟩
  try dsimp only
  repeat' with_reducible first
    | assumption | apply keeps_addF | apply keeps_drewN | apply keeps_debit | apply keeps_cwSet | apply keeps_cwDone | apply keeps_ite
    | (refine Keeps.lit ?_ rfl rfl rfl rfl rfl rfl rfl rfl rfl rfl; first | assumption | apply keeps_addF | apply keeps_drewN | apply keeps_debit | apply keeps_cwSet | apply keeps_cwDone | apply keeps_ite)
    | (split <;> try dsimp only)

theorem keeps_execCodewordDeadline {s0 s : State} {a0 : Nat} (h : Keeps s0 s) :
    ∃ t, execCodewordDeadline a0 s = .next t ∧ Keeps s0 t := by
  unfold execCodewordDeadline
  refine ⟨_, rfl, ?_⟩
  try dsimp only
  repeat' with_reducible first
    | assumption | apply keeps_cwDone | apply keeps_detect | apply keeps_addF | apply keeps_ite
    | (split <;> try dsimp only)

theorem keeps_outerDecode {s0 s : State} {a0 : Nat} {a1 : Nat} {a2 : List Cw} (h : Keeps s0 s) :
    Keeps s0 (outerDecode a0 a1 a2 s) := by
  unfold outerDecode
  try dsimp only
  repeat' with_reducible first
    | assumption | apply keeps_addF | apply keeps_detect | apply keeps_releaseCw | apply keeps_each | apply keeps_ite
    | (refine Keeps.lit ?_ rfl rfl rfl rfl rfl rfl rfl rfl rfl rfl; first | assumption | apply keeps_addF | apply keeps_detect | apply keeps_releaseCw | apply keeps_each | apply keeps_ite)
    | (split <;> try dsimp only)
    | intro _ _ _
    | intro _ _

theorem keeps_execOuterBlockDecode {s0 s : State} {a0 : Fin 2} {a1 : Fin 32} (h : Keeps s0 s) :
    ∃ t, execOuterBlockDecode a0 a1 s = .next t ∧ Keeps s0 t := by
  unfold execOuterBlockDecode
  refine ⟨_, rfl, ?_⟩
  try dsimp only
  repeat' with_reducible first
    | assumption | apply keeps_outerDecode | apply keeps_setPool | apply keeps_ite
    | (split <;> try dsimp only)
    | intro _ _

theorem keeps_setMap {s0 s : State} {a1 : Nat} {a2 : MapSt} (h : Keeps s0 s) :
    Keeps s0 (setMap s a1 a2) := by
  unfold setMap
  try dsimp only
  repeat' with_reducible first
    | assumption
    | (refine Keeps.lit ?_ rfl rfl rfl rfl rfl rfl rfl rfl rfl rfl; first | assumption)

theorem keeps_itemOut {s0 s : State} {a0 : Nat} {a1 : ClientItem} (h : Keeps s0 s) :
    Keeps s0 (itemOut a0 a1 s) := by
  unfold itemOut
  try dsimp only
  repeat' with_reducible first
    | assumption | apply keeps_ite
    | (refine Keeps.lit ?_ rfl rfl rfl rfl rfl rfl rfl rfl rfl rfl; first | assumption | apply keeps_ite)
    | (split <;> try dsimp only)

theorem keeps_deliver {s0 s : State} {a0 : Nat} {a1 : Nat} {a2 : Nat} {a3 : Bool} {a4 : List Byte} (h : Keeps s0 s) :
    Keeps s0 (deliver a0 a1 a2 a3 a4 s) := by
  unfold deliver
  try dsimp only
  repeat' with_reducible first
    | assumption | apply keeps_addF | apply keeps_itemOut | apply keeps_ite
    | (split <;> try dsimp only)

theorem keeps_toHunt {s0 s : State} {a0 : Nat} (h : Keeps s0 s) :
    Keeps s0 (toHunt a0 s) := by
  unfold toHunt
  try dsimp only
  repeat' with_reducible first
    | assumption | apply keeps_setMap | apply keeps_satF | apply keeps_setB | apply keeps_detect
    | (refine Keeps.lit ?_ rfl rfl rfl rfl rfl rfl rfl rfl rfl rfl; first | assumption | apply keeps_setMap | apply keeps_satF | apply keeps_setB | apply keeps_detect)

theorem keeps_readItems {s0 s : State} {a0 : Nat} {a1 : Nat} (h : Keeps s0 s) :
    Keeps s0 (readItems a0 a1 s) := by
  induction a1 generalizing s a0 with
  | zero => exact h
  | succ n ih =>
    unfold readItems
    try dsimp only
    repeat' with_reducible first
      | assumption | apply ih | apply keeps_setMap | apply keeps_deliver | apply keeps_toHunt | apply keeps_ite
      | (refine Keeps.lit ?_ rfl rfl rfl rfl rfl rfl rfl rfl rfl rfl; first | assumption | apply ih | apply keeps_setMap | apply keeps_deliver | apply keeps_toHunt | apply keeps_ite)
      | (split <;> try dsimp only)

theorem keeps_mapData {s0 s : State} {a0 : Nat} {a1 : List Word} (h : Keeps s0 s) :
    Keeps s0 (mapData a0 a1 s) := by
  unfold mapData
  try dsimp only
  repeat' with_reducible first
    | assumption | apply keeps_readItems | apply keeps_setMap | apply keeps_setB | apply keeps_ite
    | (refine Keeps.lit ?_ rfl rfl rfl rfl rfl rfl rfl rfl rfl rfl; first | assumption | apply keeps_readItems | apply keeps_setMap | apply keeps_setB | apply keeps_ite)
    | (split <;> try dsimp only)

theorem keeps_mapGap {s0 s : State} {a0 : Nat} (h : Keeps s0 s) :
    Keeps s0 (mapGap a0 s) := by
  unfold mapGap
  try dsimp only
  repeat' with_reducible first
    | assumption | apply keeps_toHunt | apply keeps_addF | apply keeps_setMap | apply keeps_ite
    | (refine Keeps.lit ?_ rfl rfl rfl rfl rfl rfl rfl rfl rfl rfl; first | assumption | apply keeps_toHunt | apply keeps_addF | apply keeps_setMap | apply keeps_ite)
    | (split <;> try dsimp only)
    | intro _ _

theorem keeps_firkinCapture {s0 s : State} {a0 : Nat} {a1 : Nat} {a2 : List Byte} (h : Keeps s0 s) :
    Keeps s0 (firkinCapture a0 a1 a2 s) := by
  unfold firkinCapture
  try dsimp only
  repeat' with_reducible first
    | assumption | apply keeps_sendPkt | apply keeps_detect | apply keeps_ite
    | (refine Keeps.lit ?_ rfl rfl rfl rfl rfl rfl rfl rfl rfl rfl; first | assumption | apply keeps_sendPkt | apply keeps_detect | apply keeps_ite)
    | (split <;> try dsimp only)

theorem keeps_commitAhead {s0 s : State} {a1 : Nat} (h : Keeps s0 s) :
    Keeps s0 (commitAhead s a1) := by
  unfold commitAhead
  try dsimp only
  repeat' with_reducible first
    | assumption
    | (refine Keeps.lit ?_ rfl rfl rfl rfl rfl rfl rfl rfl rfl rfl; first | assumption)
    | (split <;> try dsimp only)

theorem keeps_takeEntry {s0 s : State} {a0 : Nat} {a1 : Nat} {a2 : Nat} (h : Keeps s0 s) :
    Keeps s0 (takeEntry a0 a1 a2 s) := by
  unfold takeEntry
  try dsimp only
  repeat' with_reducible first
    | assumption | apply keeps_setMap | apply keeps_mapGap | apply keeps_firkinCapture | apply keeps_mapData | apply keeps_commitAhead | apply keeps_setRxq | apply keeps_ite
    | (refine Keeps.lit ?_ rfl rfl rfl rfl rfl rfl rfl rfl rfl rfl; first | assumption | apply keeps_setMap | apply keeps_mapGap | apply keeps_firkinCapture | apply keeps_mapData | apply keeps_commitAhead | apply keeps_setRxq | apply keeps_ite)
    | (split <;> try dsimp only)

theorem keeps_execMapperChunk {s0 s : State} {a0 : Fin 8} (h : Keeps s0 s) :
    ∃ t, execMapperChunk a0 s = .next t ∧ Keeps s0 t := by
  unfold execMapperChunk
  refine ⟨_, rfl, ?_⟩
  try dsimp only
  repeat' with_reducible first
    | assumption | apply keeps_takeEntry | apply keeps_ite
    | (refine Keeps.lit ?_ rfl rfl rfl rfl rfl rfl rfl rfl rfl rfl; first | assumption | apply keeps_takeEntry | apply keeps_ite)
    | (split <;> try dsimp only)

end Sys2Proof.Machine
end

