-- ==== Sys2Proof/Laws/Keeps/Ledger.lean ====
section
/-! SUPPORT. What the operations of Machine/Ledger.lean keep. -/
set_option linter.all false
namespace Sys2Proof.Machine

theorem keeps_grainTick {s0 s : State}  (h : Keeps s0 s) :
    Keeps s0 (grainTick s) := by
  unfold grainTick
  try dsimp only
  repeat' with_reducible first
    | assumption | apply keeps_setB | apply keeps_histSample | apply keeps_onlyIf | apply keeps_ite
    | (refine Keeps.lit ?_ rfl rfl rfl rfl rfl rfl rfl rfl rfl rfl; first | assumption | apply keeps_setB | apply keeps_histSample | apply keeps_onlyIf | apply keeps_ite)
    | (split <;> try dsimp only)
    | intro _ _ _
    | intro _ _

theorem keeps_execGrainTick {s0 s : State}  (h : Keeps s0 s) :
    ∃ t, execGrainTick s = .next t ∧ Keeps s0 t := by
  unfold execGrainTick
  refine ⟨_, rfl, ?_⟩
  try dsimp only
  repeat' with_reducible first
    | assumption | apply keeps_grainTick

theorem keeps_trimMeasurement {s0 s : State} {a0 : Nat} {a1 : Int} (h : Keeps s0 s) :
    Keeps s0 (trimMeasurement a0 a1 s) := by
  unfold trimMeasurement
  try dsimp only
  repeat' with_reducible first
    | assumption | apply keeps_setFs | apply keeps_detect | apply keeps_setB | apply keeps_onlyIf
    | (refine Keeps.lit ?_ rfl rfl rfl rfl rfl rfl rfl rfl rfl rfl; first | assumption | apply keeps_setFs | apply keeps_detect | apply keeps_setB | apply keeps_onlyIf)
    | intro _ _ _
    | intro _ _

theorem keeps_execTrimMeasurement {s0 s : State} {a0 : BitVec 16} {a1 : Int} (h : Keeps s0 s) :
    ∃ t, execTrimMeasurement a0 a1 s = .next t ∧ Keeps s0 t := by
  unfold execTrimMeasurement
  refine ⟨_, rfl, ?_⟩
  try dsimp only
  repeat' with_reducible first
    | assumption | apply keeps_trimMeasurement

theorem keeps_timeUntrimmed {s0 s : State}  (h : Keeps s0 s) :
    Keeps s0 (timeUntrimmed s) := by
  unfold timeUntrimmed
  try dsimp only
  repeat' with_reducible first
    | assumption | apply keeps_setFs | apply keeps_detect | apply keeps_onlyIf
    | (refine Keeps.lit ?_ rfl rfl rfl rfl rfl rfl rfl rfl rfl rfl; first | assumption | apply keeps_setFs | apply keeps_detect | apply keeps_onlyIf)
    | intro _ _ _
    | intro _ _

theorem keeps_execTimeUntrimmed {s0 s : State}  (h : Keeps s0 s) :
    ∃ t, execTimeUntrimmed s = .next t ∧ Keeps s0 t := by
  unfold execTimeUntrimmed
  refine ⟨_, rfl, ?_⟩
  try dsimp only
  repeat' with_reducible first
    | assumption | apply keeps_timeUntrimmed

theorem keeps_setHist {s0 s : State} {a1 : Nat} {a2 : Hist} (h : Keeps s0 s) :
    Keeps s0 (setHist s a1 a2) := by
  unfold setHist
  try dsimp only
  repeat' with_reducible first
    | assumption
    | (refine Keeps.lit ?_ rfl rfl rfl rfl rfl rfl rfl rfl rfl rfl; first | assumption)

theorem keeps_checkpoint {s0 s : State} {a0 : Nat} {a1 : Nat} (h : Keeps s0 s) :
    Keeps s0 (checkpoint a0 a1 s) := by
  unfold checkpoint
  try dsimp only
  repeat' with_reducible first
    | assumption | apply keeps_startRec | apply keeps_ite
    | (split <;> try dsimp only)

theorem keeps_execCheckpointPeriodic {s0 s : State}  (h : Keeps s0 s) :
    ∃ t, execCheckpointPeriodic s = .next t ∧ Keeps s0 t := by
  unfold execCheckpointPeriodic
  refine ⟨_, rfl, ?_⟩
  try dsimp only
  repeat' with_reducible first
    | assumption | apply keeps_checkpoint

theorem keeps_ckptReq {s0 s : State}  (h : Keeps s0 s) :
    Keeps s0 (ckptReq s) := by
  unfold ckptReq
  try dsimp only
  repeat' with_reducible first
    | assumption | apply keeps_checkpoint | apply keeps_ite
    | (split <;> try dsimp only)

theorem keeps_execCkptReq {s0 s : State}  (h : Keeps s0 s) :
    ∃ t, execCkptReq s = .next t ∧ Keeps s0 t := by
  unfold execCkptReq
  refine ⟨_, rfl, ?_⟩
  try dsimp only
  repeat' with_reducible first
    | assumption | apply keeps_ckptReq

theorem keeps_execCheckpointRetry {s0 s : State}  (h : Keeps s0 s) :
    ∃ t, execCheckpointRetry s = .next t ∧ Keeps s0 t := by
  unfold execCheckpointRetry
  refine ⟨_, rfl, ?_⟩
  try dsimp only
  repeat' with_reducible first
    | assumption | apply keeps_checkpoint | apply keeps_ite
    | (split <;> try dsimp only)

theorem keeps_lifeLoad {s0 s : State} {a0 : Nat} (h : Keeps s0 s) :
    Keeps s0 (lifeLoad a0 s) := by
  unfold lifeLoad
  try dsimp only
  repeat' with_reducible first
    | assumption | apply keeps_setHist | apply keeps_each
    | (refine Keeps.lit ?_ rfl rfl rfl rfl rfl rfl rfl rfl rfl rfl; first | assumption | apply keeps_setHist | apply keeps_each)
    | intro _ _ _
    | intro _ _

theorem keeps_timeRestore {s0 s : State}  (h : Keeps s0 s) :
    Keeps s0 (timeRestore s) := by
  unfold timeRestore
  try dsimp only
  repeat' with_reducible first
    | assumption | apply keeps_offer | apply keeps_setB | apply keeps_drew | apply keeps_detect
    | (refine Keeps.lit ?_ rfl rfl rfl rfl rfl rfl rfl rfl rfl rfl; first | assumption | apply keeps_offer | apply keeps_setB | apply keeps_drew | apply keeps_detect)
    | (split <;> try dsimp only)

theorem keeps_ldgWake {s0 s : State} {a0 : Bool} (h : Keeps s0 s) : Keeps s0 (ldgWake a0 s) := by
  unfold ldgWake
  dsimp only
  have h1 : Keeps s0 { s with ldg := { s.ldg with intake := [], region := [], hist := [] } } :=
    h.step rfl fun j => ⟨j.regs, j.flash, Nat.zero_le _, j.reserve, j.buffer, j.cands, j.queue, j.fuses, j.shadow⟩
  repeat' with_reducible first
    | assumption | apply keeps_settle | apply keeps_checkpoint | apply keeps_flushLoss | apply keeps_timeRestore
    | apply keeps_lifeLoad | apply keeps_ite
    | split

theorem keeps_ldgLeave {s0 s : State} (h : Keeps s0 s) : Keeps s0 (ldgLeave s) :=
  keeps_foldl (h.step rfl fun j =>
    ⟨j.regs, j.flash, Nat.zero_le _, j.reserve, j.buffer, j.cands, j.queue, j.fuses, j.shadow⟩) fun _ _ => keeps_loseRec

theorem keeps_loseAny {s0 s : State} {a0 : Nat} {a2 : LRec} (h : Keeps s0 s) :
    Keeps s0 (loseAny a0 s a2) := by
  unfold loseAny
  try dsimp only
  repeat' with_reducible first
    | assumption | apply keeps_loseRec | apply keeps_ite
    | (refine Keeps.lit ?_ rfl rfl rfl rfl rfl rfl rfl rfl rfl rfl; first | assumption | apply keeps_loseRec | apply keeps_ite)
    | (split <;> try dsimp only)
    | intro _ _

theorem keeps_ringStore {s0 s : State} {a0 : LRec} (h : Keeps s0 s) :
    Keeps s0 (ringStore a0 s) := by
  unfold ringStore
  try dsimp only
  repeat' with_reducible first
    | assumption | apply keeps_setF | apply keeps_detect | apply keeps_ite
    | (refine Keeps.lit ?_ rfl rfl rfl rfl rfl rfl rfl rfl rfl rfl; first | assumption | apply keeps_setF | apply keeps_detect | apply keeps_ite)
    | (split <;> try dsimp only)

theorem keeps_ringStop {s0 s : State} {a0 : LRec} (h : Keeps s0 s) : Keeps s0 (ringStop a0 s) := by
  unfold ringStop
  dsimp only
  refine keeps_detect (keeps_setB (keeps_foldl (h.step rfl fun j =>
    ⟨j.regs, j.flash, Nat.zero_le _, j.reserve, j.buffer, j.cands, j.queue, j.fuses, j.shadow⟩) fun _ _ => keeps_loseAny))

theorem keeps_reserveStore {s0 s : State} {a0 : LRec} (h : Keeps s0 s) : Keeps s0 (reserveStore a0 s) := by
  unfold reserveStore
  dsimp only
  split
  · rename_i hn
    have h1 : Keeps s0 { s with ldg := { s.ldg with reserve := s.ldg.reserve ++ [reserveEntry a0] } } :=
      h.step rfl fun j => ⟨j.regs, j.flash, j.intake, by simp; omega, j.buffer, j.cands, j.queue, j.fuses, j.shadow⟩
    split
    · exact keeps_detect h1
    · split
      · exact keeps_detect h1
      · exact h1
  · split
    · rename_i hn
      refine keeps_detect (keeps_setB (keeps_seqNext (h.step rfl fun j =>
        ⟨j.regs, j.flash, j.intake, ?_, j.buffer, j.cands, j.queue, j.fuses, j.shadow⟩)))
      simp; omega
    · refine h.step rfl fun j => ⟨j.regs, j.flash, j.intake, ?_, j.buffer, j.cands, j.queue, j.fuses, j.shadow⟩
      have := j.reserve
      simp; omega

theorem keeps_recordStore {s0 s : State} (h : Keeps s0 s) : Keeps s0 (recordStore s) := by
  unfold recordStore
  dsimp only
  split
  · exact h
  · have h1 : Keeps s0 (if s.ldg.intake.isEmpty then flushLoss s else s) := keeps_ite (keeps_flushLoss h) h
    generalize (if s.ldg.intake.isEmpty then flushLoss s else s) = u at h1
    split
    · exact h1
    · rename_i r rest hu
      have h2 : Keeps s0 { u with ldg := { u.ldg with intake := rest } } :=
        h1.step rfl fun j => ⟨j.regs, j.flash, by have := j.intake; rw [hu, List.length_cons] at this; exact Nat.le_of_succ_le this,
          j.reserve, j.buffer, j.cands, j.queue, j.fuses, j.shadow⟩
      exact keeps_settle (keeps_ite (keeps_reserveStore h2) (keeps_ite (keeps_ringStore h2) (keeps_ringStop h2)))

theorem keeps_execRecordStore {s0 s : State}  (h : Keeps s0 s) :
    ∃ t, execRecordStore s = .next t ∧ Keeps s0 t := by
  unfold execRecordStore
  refine ⟨_, rfl, ?_⟩
  try dsimp only
  repeat' with_reducible first
    | assumption | apply keeps_recordStore

theorem keeps_ldgFree {s0 s : State} {a0 : Nat} (h : Keeps s0 s) :
    Keeps s0 (ldgFree a0 s) := by
  unfold ldgFree
  try dsimp only
  repeat' with_reducible first
    | assumption | apply keeps_detect | apply keeps_flushLoss | apply keeps_setFs | apply keeps_ite
    | (refine Keeps.lit ?_ rfl rfl rfl rfl rfl rfl rfl rfl rfl rfl; first | assumption | apply keeps_detect | apply keeps_flushLoss | apply keeps_setFs | apply keeps_ite)
    | (split <;> try dsimp only)
    | intro _ _

theorem keeps_execLdgFree {s0 s : State} {a0 : Word} (h : Keeps s0 s) :
    ∃ t, execLdgFree a0 s = .next t ∧ Keeps s0 t := by
  unfold execLdgFree
  refine ⟨_, rfl, ?_⟩
  try dsimp only
  repeat' with_reducible first
    | assumption | apply keeps_ldgFree

theorem keeps_resClear {s0 s : State} (h : Keeps s0 s) : Keeps s0 (resClear s) :=
  keeps_ite (h.step rfl fun j =>
    ⟨j.regs, j.flash, j.intake, Nat.zero_le _, j.buffer, j.cands, j.queue, j.fuses, j.shadow⟩) h

theorem keeps_execResClear {s0 s : State}  (h : Keeps s0 s) :
    ∃ t, execResClear s = .next t ∧ Keeps s0 t := by
  unfold execResClear
  refine ⟨_, rfl, ?_⟩
  try dsimp only
  repeat' with_reducible first
    | assumption | apply keeps_resClear

theorem keeps_regionClose {s0 s : State} {good : List (Nat × LRec)} {lost first : List LRec} {last : Nat}
    (hf : first.length ≤ 256) (h : Keeps s0 s) : Keeps s0 (regionClose good lost first last s) := by
  unfold regionClose
  have h1 : Keeps s0 { s with ldg := { s.ldg with region := good, intake := first, runs := [] } } :=
    h.step rfl fun j => ⟨j.regs, j.flash, hf, j.reserve, j.buffer, j.cands, j.queue, j.fuses, j.shadow⟩
  exact keeps_detect (keeps_flushLoss (keeps_setFs (Keeps.lit (keeps_foldl h1 fun _ _ => keeps_loseAny)
    rfl rfl rfl rfl rfl rfl rfl rfl rfl rfl)))

theorem keeps_regionFail {s0 s : State} {a0 : Nat} (h : Keeps s0 s) : Keeps s0 (regionFail a0 s) := by
  unfold regionFail
  have hf : (s.ldg.intake.getLast?.filter isUncorr6).toList.length ≤ 256 := by
    cases (s.ldg.intake.getLast?.filter isUncorr6) <;> simp
  split
  · exact h
  · dsimp only
    split
    · exact keeps_regionClose hf h
    · exact keeps_regionClose hf (keeps_drew h)

theorem keeps_histFail {s0 s : State} {a0 : Nat} (h : Keeps s0 s) :
    Keeps s0 (histFail a0 s) := by
  unfold histFail
  try dsimp only
  repeat' with_reducible first
    | assumption | apply keeps_setHist | apply keeps_detect | apply keeps_ite
    | (refine Keeps.lit ?_ rfl rfl rfl rfl rfl rfl rfl rfl rfl rfl; first | assumption | apply keeps_setHist | apply keeps_detect | apply keeps_ite)
    | (split <;> try dsimp only)

theorem keeps_ledgerRowFail {s0 s : State} {a0 : Nat} (h : Keeps s0 s) :
    Keeps s0 (ledgerRowFail a0 s) := by
  unfold ledgerRowFail
  try dsimp only
  repeat' with_reducible first
    | assumption | apply keeps_regionFail | apply keeps_histFail | apply keeps_ite
    | (split <;> try dsimp only)

theorem keeps_intervalEnd {s0 s : State}  (h : Keeps s0 s) :
    Keeps s0 (intervalEnd s) := by
  unfold intervalEnd
  try dsimp only
  repeat' with_reducible first
    | assumption | apply keeps_detect | apply keeps_addF
    | (refine Keeps.lit ?_ rfl rfl rfl rfl rfl rfl rfl rfl rfl rfl; first | assumption | apply keeps_detect | apply keeps_addF)
    | intro _ _

theorem keeps_execHistogramIntervalEnd {s0 s : State}  (h : Keeps s0 s) :
    ∃ t, execHistogramIntervalEnd s = .next t ∧ Keeps s0 t := by
  unfold execHistogramIntervalEnd
  refine ⟨_, rfl, ?_⟩
  try dsimp only
  repeat' with_reducible first
    | assumption | apply keeps_intervalEnd | apply keeps_ite
    | (split <;> try dsimp only)

end Sys2Proof.Machine
end

