-- ==== Sys2Proof/Laws/Keeps/Memory.lean ====
section
/-! SUPPORT. What the operations of Machine/Memory.lean keep. -/
set_option linter.all false
namespace Sys2Proof.Machine

theorem keeps_addCand {s0 s : State} {a0 a1 a2 : Nat} (h : Keeps s0 s) : Keeps s0 (addCand a0 a1 a2 s) := by
  unfold addCand
  split
  · exact h
  · split
    · exact keeps_detect h
    · have h1 : Keeps s0 { s with prot := { s.prot with cands := s.prot.cands ++ [(a0, a1, a2)] } } :=
        h.step rfl fun j => ⟨j.regs, j.flash, j.intake, j.reserve, j.buffer, by simp; omega, j.queue, j.fuses, j.shadow⟩
      exact keeps_ite (keeps_startRec (keeps_detect h1)) (keeps_detect h1)

theorem keeps_bufferCand {s0 s : State} {a0 a1 : Nat} (h : Keeps s0 s) : Keeps s0 (bufferCand a0 a1 s) := by
  unfold bufferCand
  split
  · exact h
  · rename_i hc
    refine keeps_setF (h.step rfl fun j => ⟨j.regs, j.flash, j.intake, j.reserve, ?_, j.cands, j.queue, j.fuses, j.shadow⟩)
    simp only [Bool.or_eq_true, decide_eq_true_eq, not_or] at hc
    simp; omega

theorem keeps_poisonWord {s0 s : State} {a0 : Nat} {a1 : Nat} (h : Keeps s0 s) :
    Keeps s0 (poisonWord a0 a1 s) := by
  unfold poisonWord
  try dsimp only
  repeat' with_reducible first
    | assumption | apply keeps_detect | apply keeps_setMem | apply keeps_onlyIf | apply keeps_ite
    | (refine Keeps.lit ?_ rfl rfl rfl rfl rfl rfl rfl rfl rfl rfl; first | assumption | apply keeps_detect | apply keeps_setMem | apply keeps_onlyIf | apply keeps_ite)
    | (split <;> try dsimp only)
    | intro _ _ _
    | intro _ _

theorem keeps_rxqLost {s0 s : State} {a0 : Nat} (h : Keeps s0 s) :
    Keeps s0 (rxqLost a0 s) := by
  unfold rxqLost
  try dsimp only
  repeat' with_reducible first
    | assumption | apply keeps_foldl | apply keeps_ite
    | (refine Keeps.lit ?_ rfl rfl rfl rfl rfl rfl rfl rfl rfl rfl; first | assumption | apply keeps_foldl | apply keeps_ite)
    | refine Keeps.fst_of ?_ (by assumption)
    | (split <;> try dsimp only)
    | intro _ _ _
    | intro _ _

theorem keeps_txqDrop {s0 s : State} {a0 : Nat} (h : Keeps s0 s) :
    Keeps s0 (txqDrop a0 s) := by
  unfold txqDrop
  try dsimp only
  repeat' with_reducible first
    | assumption | apply keeps_detect | apply keeps_firkinCount | apply keeps_foldl | apply keeps_ite
    | (refine Keeps.lit ?_ rfl rfl rfl rfl rfl rfl rfl rfl rfl rfl; first | assumption | apply keeps_detect | apply keeps_firkinCount | apply keeps_foldl | apply keeps_ite)
    | (split <;> try dsimp only)
    | intro _ _ _
    | intro _ _

theorem keeps_tapReinit {s0 s : State} {a0 : Nat} {a1 : Nat} (h : Keeps s0 s) :
    Keeps s0 (tapReinit a0 a1 s) := by
  unfold tapReinit
  try dsimp only
  repeat' with_reducible first
    | assumption | apply keeps_tapRestart
    | (split <;> try dsimp only)

theorem keeps_cancelZone {s0 s : State} {a0 : Nat} {a1 : Nat} {a2 : Nat} (h : Keeps s0 s) :
    Keeps s0 (cancelZone a0 a1 a2 s) := by
  induction a0 generalizing s a1 a2 with
  | zero => exact h
  | succ n ih =>
    unfold cancelZone
    dsimp only
    refine keeps_ite (keeps_detect (keeps_endSection h)) (keeps_ite ?_ h)
    exact keeps_each (keeps_detect (keeps_endSection h)) fun _ _ hu => ih hu

theorem keeps_cancel {s0 s : State} {a0 : Nat} {a1 : Nat} (h : Keeps s0 s) :
    Keeps s0 (cancel a0 a1 s) := by
  unfold cancel
  try dsimp only
  repeat' with_reducible first
    | assumption | apply keeps_cancelZone

theorem keeps_shadowWord {s0 s : State} {a0 : Nat} (h : Keeps s0 s) :
    Keeps s0 (shadowWord a0 s) := by
  unfold shadowWord
  try dsimp only
  repeat' with_reducible first
    | assumption | apply keeps_drew | apply keeps_cancel | apply keeps_poisonWord
    | (split <;> try dsimp only)

theorem keeps_memAction {s0 s : State} {a0 : Nat} {a1 : Nat} (h : Keeps s0 s) :
    Keeps s0 (memAction a0 a1 s) := by
  unfold memAction
  try dsimp only
  repeat' with_reducible first
    | assumption | apply keeps_poisonWord | apply keeps_setEntry | apply keeps_rxqLost | apply keeps_drew | apply keeps_txqDrop | apply keeps_tapReinit | apply keeps_shadowWord | apply keeps_peerCount | apply keeps_setF | apply keeps_each | apply keeps_ite
    | (split <;> try dsimp only)
    | intro _ _ _
    | intro _ _

theorem keeps_memUncorr {s0 s : State} {a0 : Nat} {a1 : Nat} {a2 : List Nat} {a3 : Bool} (h : Keeps s0 s) :
    Keeps s0 (memUncorr a0 a1 a2 a3 s) := by
  unfold memUncorr
  try dsimp only
  repeat' with_reducible first
    | assumption | apply keeps_addF | apply keeps_detect | apply keeps_memAction | apply keeps_ledgerRowFail | apply keeps_storeWant | apply keeps_addCand | apply keeps_each | apply keeps_onlyIf | apply keeps_ite
    | (split <;> try dsimp only)
    | intro _ _ _
    | intro _ _

theorem keeps_noteFix {s0 s : State} {a0 : Nat} {a1 : Nat} {a2 : Nat} {a4 : Nat} (h : Keeps s0 s) :
    Keeps s0 (noteFix a0 a1 a2 s a4) := by
  unfold noteFix
  try dsimp only
  repeat' with_reducible first
    | assumption | apply keeps_setMem | apply keeps_addCand | apply keeps_ite
    | (refine Keeps.lit ?_ rfl rfl rfl rfl rfl rfl rfl rfl rfl rfl; first | assumption | apply keeps_setMem | apply keeps_addCand | apply keeps_ite)
    | refine Keeps.fst_of ?_ (by assumption)
    | (split <;> try dsimp only)

theorem keeps_memFixed {s0 s : State} {a0 : Nat} {a1 : Nat} {a3 : Prod Nat (List Nat)} (h : Keeps s0 s) :
    Keeps s0 (memFixed a0 a1 s a3) := by
  unfold memFixed
  try dsimp only
  repeat' with_reducible first
    | assumption | apply keeps_addF | apply keeps_detect | apply keeps_drew | apply keeps_onlyIf
    | intro _ _ _
    | intro _ _

theorem keeps_scrubVisit {s0 s : State} {a0 : Nat} {a1 : List Nat} (h : Keeps s0 s) :
    Keeps s0 (scrubVisit a0 a1 s) := by
  unfold scrubVisit
  try dsimp only
  repeat' with_reducible first
    | assumption | apply keeps_memFixed | apply keeps_noteFix | apply keeps_memUncorr | apply keeps_setMem | apply keeps_addF | apply keeps_onlyIf | apply keeps_foldl | apply keeps_ite
    | (refine Keeps.lit ?_ rfl rfl rfl rfl rfl rfl rfl rfl rfl rfl; first | assumption | apply keeps_memFixed | apply keeps_noteFix | apply keeps_memUncorr | apply keeps_setMem | apply keeps_addF | apply keeps_onlyIf | apply keeps_foldl | apply keeps_ite)
    | (split <;> try dsimp only)
    | intro _ _ _
    | intro _ _

theorem keeps_execScrubVisit {s0 s : State} {a0 : Fin 11} {a1 : List Nat} (h : Keeps s0 s) :
    ∃ t, execScrubVisit a0 a1 s = .next t ∧ Keeps s0 t := by
  unfold execScrubVisit
  refine ⟨_, rfl, ?_⟩
  try dsimp only
  repeat' with_reducible first
    | assumption | apply keeps_scrubVisit

theorem keeps_execScrubLate {s0 s : State} {a0 : Fin 11} (h : Keeps s0 s) :
    ∃ t, execScrubLate a0 s = .next t ∧ Keeps s0 t := by
  unfold execScrubLate
  refine ⟨_, rfl, ?_⟩
  try dsimp only
  repeat' with_reducible first
    | assumption | apply keeps_detect | apply keeps_ite
    | (split <;> try dsimp only)

theorem keeps_tripletRestore {s0 s : State} {a0 : Nat} {a1 : Bool} (h : Keeps s0 s) :
    Keeps s0 (tripletRestore a0 a1 s) := by
  unfold tripletRestore
  try dsimp only
  repeat' with_reducible first
    | assumption | apply keeps_setEntry | apply keeps_detect | apply keeps_unpoison | apply keeps_storeDone | apply keeps_each | apply keeps_ite
    | (split <;> try dsimp only)
    | intro _ _ _
    | intro _ _

theorem keeps_execTripletRestoreDone {s0 s : State} {a0 : Byte} {a1 : Bool} (h : Keeps s0 s) :
    ∃ t, execTripletRestoreDone a0 a1 s = .next t ∧ Keeps s0 t := by
  unfold execTripletRestoreDone
  refine ⟨_, rfl, ?_⟩
  try dsimp only
  repeat' with_reducible first
    | assumption | apply keeps_tripletRestore

theorem keeps_stwRestart {s0 s : State}  (h : Keeps s0 s) :
    Keeps s0 (stwRestart s) := by
  unfold stwRestart
  try dsimp only
  repeat' with_reducible first
    | assumption | apply keeps_setFs | apply keeps_ite
    | (refine Keeps.lit ?_ rfl rfl rfl rfl rfl rfl rfl rfl rfl rfl; first | assumption | apply keeps_setFs | apply keeps_ite)
    | (split <;> try dsimp only)

theorem keeps_stwReinit {s0 s : State}  (h : Keeps s0 s) :
    Keeps s0 (stwReinit s) := by
  unfold stwReinit
  try dsimp only
  repeat' with_reducible first
    | assumption | apply keeps_setMem | apply keeps_stwRestart

theorem keeps_execFetchTrap {s0 s : State} {a0 : BitVec 14} (h : Keeps s0 s) :
    ∃ t, execFetchTrap a0 s = .next t ∧ Keeps s0 t := by
  unfold execFetchTrap
  refine ⟨_, rfl, ?_⟩
  try dsimp only
  repeat' with_reducible first
    | assumption | apply keeps_detect | apply keeps_ite
    | (refine Keeps.lit ?_ rfl rfl rfl rfl rfl rfl rfl rfl rfl rfl; first | assumption | apply keeps_detect | apply keeps_ite)
    | (split <;> try dsimp only)

theorem keeps_execStewardLoadTrap {s0 s : State} {a0 : BitVec 15} (h : Keeps s0 s) :
    ∃ t, execStewardLoadTrap a0 s = .next t ∧ Keeps s0 t := by
  unfold execStewardLoadTrap
  refine ⟨_, rfl, ?_⟩
  try dsimp only
  repeat' with_reducible first
    | assumption | apply keeps_stwReinit | apply keeps_detect | apply keeps_ite
    | (split <;> try dsimp only)

theorem keeps_mapRow {s0 s : State} {a0 : Nat} {a2 : Nat} (h : Keeps s0 s) :
    Keeps s0 (mapRow a0 s a2) := by
  unfold mapRow
  try dsimp only
  repeat' with_reducible first
    | assumption | apply keeps_detect | apply keeps_setF | apply keeps_setMem | apply keeps_ite
    | (refine Keeps.lit ?_ rfl rfl rfl rfl rfl rfl rfl rfl rfl rfl; first | assumption | apply keeps_detect | apply keeps_setF | apply keeps_setMem | apply keeps_ite)
    | (split <;> try dsimp only)

theorem keeps_memWake {s0 s : State} {a0 : Nat} (h : Keeps s0 s) :
    Keeps s0 (memWake a0 s) := by
  unfold memWake
  try dsimp only
  repeat' with_reducible first
    | assumption | apply keeps_setMem | apply keeps_detect | apply keeps_mapRow | apply keeps_each | apply keeps_onlyIf | apply keeps_foldl | apply keeps_ite
    | (refine Keeps.lit ?_ rfl rfl rfl rfl rfl rfl rfl rfl rfl rfl; first | assumption | apply keeps_setMem | apply keeps_detect | apply keeps_mapRow | apply keeps_each | apply keeps_onlyIf | apply keeps_foldl | apply keeps_ite)
    | (split <;> try dsimp only)
    | intro _ _ _
    | intro _ _
  all_goals
    rename_i hu
    refine Keeps.step hu rfl fun j =>
      ⟨j.regs, j.flash, j.intake, j.reserve, j.buffer, ?_, j.queue, j.fuses, j.shadow⟩
    exact Nat.le_trans (List.length_take_le ..) (Nat.le_refl _)

theorem keeps_memResume {s0 s : State} {a0 : Nat} (h : Keeps s0 s) :
    Keeps s0 (memResume a0 s) := by
  unfold memResume
  try dsimp only
  repeat' with_reducible first
    | assumption | apply keeps_setMem | apply keeps_each
    | (refine Keeps.lit ?_ rfl rfl rfl rfl rfl rfl rfl rfl rfl rfl; first | assumption | apply keeps_setMem | apply keeps_each)
    | intro _ _ _
    | intro _ _

end Sys2Proof.Machine
end

