-- ==== Sys2Proof/Laws/Keeps/Zones.lean ====
section
/-! SUPPORT. What the operations of Machine/Zones.lean keep. -/
set_option linter.all false
namespace Sys2Proof.Machine

theorem keeps_txReassign {s0 s : State} {a0 : Nat} {a2 : Nat} (h : Keeps s0 s) :
    Keeps s0 (txReassign a0 s a2) := by
  unfold txReassign
  try dsimp only
  repeat' with_reducible first
    | assumption | apply keeps_detect | apply keeps_firkinCount | apply keeps_ite
    | (refine Keeps.lit ?_ rfl rfl rfl rfl rfl rfl rfl rfl rfl rfl; first | assumption | apply keeps_detect | apply keeps_firkinCount | apply keeps_ite)
    | (split <;> try dsimp only)
    | intro _ _

theorem keeps_lineTo {s0 s : State} {a0 : Nat} {a1 : ZContent} (h : Keeps s0 s) :
    Keeps s0 (lineTo a0 a1 s) := by
  unfold lineTo
  try dsimp only
  repeat' with_reducible first
    | assumption | apply keeps_txReassign | apply keeps_each | apply keeps_ite
    | (refine Keeps.lit ?_ rfl rfl rfl rfl rfl rfl rfl rfl rfl rfl; first | assumption | apply keeps_txReassign | apply keeps_each | apply keeps_ite)
    | (split <;> try dsimp only)
    | intro _ _ _
    | intro _ _

theorem keeps_rxLineTo {s0 s : State} {a0 : Nat} {a1 : ZContent} (h : Keeps s0 s) :
    Keeps s0 (rxLineTo a0 a1 s) := by
  unfold rxLineTo
  try dsimp only
  repeat' with_reducible first
    | assumption | apply keeps_commitMark | apply keeps_each | apply keeps_ite
    | (refine Keeps.lit ?_ rfl rfl rfl rfl rfl rfl rfl rfl rfl rfl; first | assumption | apply keeps_commitMark | apply keeps_each | apply keeps_ite)
    | (split <;> try dsimp only)
    | intro _ _ _
    | intro _ _

theorem keeps_releaseScs {s0 s : State} {a0 : Nat} {a1 : Nat} {a2 : List Nat} {a3 : List Nat} (h : Keeps s0 s) :
    Keeps s0 (releaseScs a0 a1 a2 a3 s) := by
  unfold releaseScs
  try dsimp only
  repeat' with_reducible first
    | assumption | apply keeps_setFs
    | intro _ _

theorem keeps_peerTx {s0 s : State} {a0 : Nat} {a1 : Nat} {a2 : ZContent} (h : Keeps s0 s) :
    Keeps s0 (peerTx a0 a1 a2 s) := by
  unfold peerTx
  try dsimp only
  repeat' with_reducible first
    | assumption | apply keeps_releaseScs | apply keeps_lineTo | apply keeps_putFields | apply keeps_startRun
    | (refine Keeps.lit ?_ rfl rfl rfl rfl rfl rfl rfl rfl rfl rfl; first | assumption | apply keeps_releaseScs | apply keeps_lineTo | apply keeps_putFields | apply keeps_startRun)

theorem keeps_peerRx {s0 s : State} {a0 : Nat} {a1 : ZContent} (h : Keeps s0 s) :
    Keeps s0 (peerRx a0 a1 s) := by
  unfold peerRx
  try dsimp only
  repeat' with_reducible first
    | assumption | apply keeps_unitIdle | apply keeps_refitTaps | apply keeps_resetBank | apply keeps_putFields | apply keeps_enterScan | apply keeps_settle | apply keeps_rxLineTo | apply keeps_onlyIf
    | intro _ _ _
    | intro _ _

theorem keeps_mapperHunt {s0 s : State} {a0 : Nat} (h : Keeps s0 s) :
    Keeps s0 (mapperHunt a0 s) := by
  unfold mapperHunt
  try dsimp only
  repeat' with_reducible first
    | assumption | apply keeps_toHunt | apply keeps_setMap | apply keeps_ite
    | (refine Keeps.lit ?_ rfl rfl rfl rfl rfl rfl rfl rfl rfl rfl; first | assumption | apply keeps_toHunt | apply keeps_setMap | apply keeps_ite)
    | (split <;> try dsimp only)

theorem keeps_mapperReset {s0 s : State} {a0 : Nat} (h : Keeps s0 s) :
    Keeps s0 (mapperReset a0 s) := by
  unfold mapperReset
  try dsimp only
  repeat' with_reducible first
    | assumption | apply keeps_mapperHunt | apply keeps_setMap | apply keeps_ite
    | (refine Keeps.lit ?_ rfl rfl rfl rfl rfl rfl rfl rfl rfl rfl; first | assumption | apply keeps_mapperHunt | apply keeps_setMap | apply keeps_ite)
    | (split <;> try dsimp only)

theorem keeps_releaseLanes {s0 s : State} {a0 : Nat} {a1 : List Nat} {a2 : List Nat} (h : Keeps s0 s) :
    Keeps s0 (releaseLanes a0 a1 a2 s) := by
  unfold releaseLanes
  try dsimp only
  repeat' with_reducible first
    | assumption | apply keeps_putFields
    | intro _ _

theorem keeps_relockGroup {s0 s : State} {a0 : Nat} (h : Keeps s0 s) :
    Keeps s0 (relockGroup a0 s) := by
  unfold relockGroup
  try dsimp only
  repeat' with_reducible first
    | assumption | apply keeps_relock | apply keeps_each
    | intro _ _ _
    | intro _ _

theorem keeps_groupSwitch {s0 s : State} {a0 : Nat} {a1 : ZContent} (h : Keeps s0 s) :
    Keeps s0 (groupSwitch a0 a1 s) := by
  unfold groupSwitch
  try dsimp only
  repeat' with_reducible first
    | assumption | apply keeps_releaseLanes | apply keeps_adaptGroup | apply keeps_putFields | apply keeps_setZone | apply keeps_initGroup | apply keeps_groupToFull | apply keeps_mapperReset | apply keeps_relockGroup | apply keeps_onlyIf | apply keeps_ite
    | (refine Keeps.lit ?_ rfl rfl rfl rfl rfl rfl rfl rfl rfl rfl; first | assumption | apply keeps_releaseLanes | apply keeps_adaptGroup | apply keeps_putFields | apply keeps_setZone | apply keeps_initGroup | apply keeps_groupToFull | apply keeps_mapperReset | apply keeps_relockGroup | apply keeps_onlyIf | apply keeps_ite)
    | (split <;> try dsimp only)
    | intro _ _ _
    | intro _ _

theorem keeps_zoneTx {s0 s : State} {a0 : Nat} {a1 : Nat} {a2 : ZContent} (h : Keeps s0 s) :
    Keeps s0 (zoneTx a0 a1 a2 s) := by
  unfold zoneTx
  try dsimp only
  repeat' with_reducible first
    | assumption | apply keeps_putFields | apply keeps_portSeed | apply keeps_peerTx | apply keeps_onlyIf | apply keeps_ite
    | (split <;> try dsimp only)
    | intro _ _ _
    | intro _ _

theorem keeps_zoneRx {s0 s : State} {a0 : Nat} {a1 : ZContent} (h : Keeps s0 s) :
    Keeps s0 (zoneRx a0 a1 s) := by
  unfold zoneRx
  try dsimp only
  repeat' with_reducible first
    | assumption | apply keeps_fathomSwitch | apply keeps_groupSwitch | apply keeps_peerRx | apply keeps_setZone | apply keeps_ite
    | (refine Keeps.lit ?_ rfl rfl rfl rfl rfl rfl rfl rfl rfl rfl; first | assumption | apply keeps_fathomSwitch | apply keeps_groupSwitch | apply keeps_peerRx | apply keeps_setZone | apply keeps_ite)
    | (split <;> try dsimp only)

end Sys2Proof.Machine
end

