-- ==== Sys2Proof/Laws/Keeps/Loader.lean ====
section
/-! SUPPORT. What the operations of Machine/Loader.lean keep. -/
set_option linter.all false
namespace Sys2Proof.Machine

theorem keeps_imageFail {s0 s : State} {a0 : Nat} {a1 : Nat} (h : Keeps s0 s) :
    Keeps s0 (imageFail a0 a1 s) := by
  unfold imageFail
  try dsimp only
  repeat' with_reducible first
    | assumption | apply keeps_setFs | apply keeps_detect | apply keeps_offerCommit

theorem keeps_secRefuse {s0 s : State} {a0 : SecHdr} {a1 : Nat} (h : Keeps s0 s) :
    Keeps s0 (secRefuse a0 a1 s) := by
  unfold secRefuse
  try dsimp only
  repeat' with_reducible first
    | assumption | apply keeps_setF | apply keeps_setFs | apply keeps_detect | apply keeps_offerCommit | apply keeps_onlyIf | apply keeps_ite
    | (split <;> try dsimp only)
    | intro _ _ _
    | intro _ _

theorem keeps_imageCancel {s0 s : State} {a0 : Nat} (h : Keeps s0 s) :
    Keeps s0 (imageCancel a0 s) := by
  unfold imageCancel
  try dsimp only
  repeat' with_reducible first
    | assumption | apply keeps_cancel | apply keeps_imageFail | apply keeps_each
    | (refine Keeps.lit ?_ rfl rfl rfl rfl rfl rfl rfl rfl rfl rfl; first | assumption | apply keeps_cancel | apply keeps_imageFail | apply keeps_each)
    | (split <;> try dsimp only)
    | intro _ _ _
    | intro _ _

theorem keeps_ldTrim {s0 s : State}  (h : Keeps s0 s) :
    Keeps s0 (ldTrim s) := by
  unfold ldTrim
  try dsimp only
  repeat' with_reducible first
    | assumption
    | (refine Keeps.lit ?_ rfl rfl rfl rfl rfl rfl rfl rfl rfl rfl; first | assumption)

theorem keeps_feed {s0 s : State} {a0 : List Byte} (h : Keeps s0 s) :
    Keeps s0 (feed a0 s) := by
  unfold feed
  try dsimp only
  repeat' with_reducible first
    | assumption | apply keeps_ldTrim
    | (refine Keeps.lit ?_ rfl rfl rfl rfl rfl rfl rfl rfl rfl rfl; first | assumption | apply keeps_ldTrim)
    | (split <;> try dsimp only)

theorem keeps_cfgLoadData {s0 s : State} {a0 : Nat} (h : Keeps s0 s) :
    Keeps s0 (cfgLoadData a0 s) := by
  unfold cfgLoadData
  try dsimp only
  repeat' with_reducible first
    | assumption | apply keeps_feed | apply keeps_ite
    | (split <;> try dsimp only)

theorem keeps_execCfgLoadData {s0 s : State} {a0 : Word} (h : Keeps s0 s) :
    ∃ t, execCfgLoadData a0 s = .next t ∧ Keeps s0 t := by
  unfold execCfgLoadData
  refine ⟨_, rfl, ?_⟩
  try dsimp only
  repeat' with_reducible first
    | assumption | apply keeps_cfgLoadData

theorem keeps_loadStart {s0 s : State} {a0 : Nat} (h : Keeps s0 s) :
    Keeps s0 (loadStart a0 s) := by
  unfold loadStart
  try dsimp only
  repeat' with_reducible first
    | assumption | apply keeps_setF | apply keeps_storeWant | apply keeps_ite
    | (refine Keeps.lit ?_ rfl rfl rfl rfl rfl rfl rfl rfl rfl rfl; first | assumption | apply keeps_setF | apply keeps_storeWant | apply keeps_ite)
    | (split <;> try dsimp only)

theorem keeps_execLoadStart {s0 s : State} {a0 : BitVec 3} (h : Keeps s0 s) :
    ∃ t, execLoadStart a0 s = .next t ∧ Keeps s0 t := by
  unfold execLoadStart
  refine ⟨_, rfl, ?_⟩
  try dsimp only
  repeat' with_reducible first
    | assumption | apply keeps_loadStart

theorem keeps_abortZone {s0 s : State} {a0 : Nat} (h : Keeps s0 s) :
    Keeps s0 (abortZone a0 s) := by
  unfold abortZone
  try dsimp only
  repeat' with_reducible first
    | assumption | apply keeps_setF | apply keeps_cancel | apply keeps_ite
    | (split <;> try dsimp only)

theorem keeps_execAbort {s0 s : State} {a0 : Byte} (h : Keeps s0 s) :
    ∃ t, execAbort a0 s = .next t ∧ Keeps s0 t := by
  unfold execAbort
  refine ⟨_, rfl, ?_⟩
  try dsimp only
  repeat' with_reducible first
    | assumption | apply keeps_abortZone

theorem keeps_storeRead {s0 s : State}  (h : Keeps s0 s) :
    Keeps s0 (storeRead s) := by
  unfold storeRead
  try dsimp only
  repeat' with_reducible first
    | assumption | apply keeps_storeDone | apply keeps_loadEnd | apply keeps_imageFail | apply keeps_secRefuse | apply keeps_nextSection | apply keeps_ite
    | (refine Keeps.lit ?_ rfl rfl rfl rfl rfl rfl rfl rfl rfl rfl; first | assumption | apply keeps_storeDone | apply keeps_loadEnd | apply keeps_imageFail | apply keeps_secRefuse | apply keeps_nextSection | apply keeps_ite)
    | (split <;> try dsimp only)
    | intro _ _

theorem keeps_execStoreImageReadDone {s0 s : State}  (h : Keeps s0 s) :
    ∃ t, execStoreImageReadDone s = .next t ∧ Keeps s0 t := by
  unfold execStoreImageReadDone
  refine ⟨_, rfl, ?_⟩
  try dsimp only
  repeat' with_reducible first
    | assumption | apply keeps_storeRead

theorem keeps_forgetImages {s0 s : State}  (h : Keeps s0 s) :
    Keeps s0 (forgetImages s) := by
  unfold forgetImages
  try dsimp only
  repeat' with_reducible first
    | assumption
    | (refine Keeps.lit ?_ rfl rfl rfl rfl rfl rfl rfl rfl rfl rfl; first | assumption)
    | intro _ _

theorem keeps_takeBytes {s0 s : State} {a0 : Nat} (h : Keeps s0 s) :
    Keeps s0 (takeBytes a0 s) := by
  unfold takeBytes
  try dsimp only
  repeat' with_reducible first
    | assumption
    | (refine Keeps.lit ?_ rfl rfl rfl rfl rfl rfl rfl rfl rfl rfl; first | assumption)

theorem keeps_imageHeader {s0 s : State}  (h : Keeps s0 s) :
    Keeps s0 (imageHeader s) := by
  unfold imageHeader
  try dsimp only
  repeat' with_reducible first
    | assumption | apply keeps_ldTrim | apply keeps_takeBytes | apply keeps_imageFail | apply keeps_forgetImages | apply keeps_ite
    | (refine Keeps.lit ?_ rfl rfl rfl rfl rfl rfl rfl rfl rfl rfl; first | assumption | apply keeps_ldTrim | apply keeps_takeBytes | apply keeps_imageFail | apply keeps_forgetImages | apply keeps_ite)
    | (split <;> try dsimp only)

theorem keeps_execImageHeader {s0 s : State}  (h : Keeps s0 s) :
    ∃ t, execImageHeader s = .next t ∧ Keeps s0 t := by
  unfold execImageHeader
  refine ⟨_, rfl, ?_⟩
  try dsimp only
  repeat' with_reducible first
    | assumption | apply keeps_imageHeader

theorem keeps_sectionHeader {s0 s : State}  (h : Keeps s0 s) :
    Keeps s0 (sectionHeader s) := by
  unfold sectionHeader
  try dsimp only
  repeat' with_reducible first
    | assumption | apply keeps_ldTrim | apply keeps_imageCancel | apply keeps_takeBytes | apply keeps_secRefuse | apply keeps_nextSection | apply keeps_setFs | apply keeps_ite
    | (refine Keeps.lit ?_ rfl rfl rfl rfl rfl rfl rfl rfl rfl rfl; first | assumption | apply keeps_ldTrim | apply keeps_imageCancel | apply keeps_takeBytes | apply keeps_secRefuse | apply keeps_nextSection | apply keeps_setFs | apply keeps_ite)
    | (split <;> try dsimp only)
    | intro _ _

theorem keeps_execSectionHeader {s0 s : State}  (h : Keeps s0 s) :
    ∃ t, execSectionHeader s = .next t ∧ Keeps s0 t := by
  unfold execSectionHeader
  refine ⟨_, rfl, ?_⟩
  try dsimp only
  repeat' with_reducible first
    | assumption | apply keeps_sectionHeader

theorem keeps_takeRecord {s0 s : State} {a0 : SecSt} {a1 : ZContent} {a2 : Nat} (h : Keeps s0 s) :
    Keeps s0 (takeRecord a0 a1 a2 s) := by
  unfold takeRecord
  try dsimp only
  repeat' with_reducible first
    | assumption | apply keeps_takeBytes
    | (refine Keeps.lit ?_ rfl rfl rfl rfl rfl rfl rfl rfl rfl rfl; first | assumption | apply keeps_takeBytes)

theorem keeps_recordStaged {s0 s : State}  (h : Keeps s0 s) :
    Keeps s0 (recordStaged s) := by
  unfold recordStaged
  try dsimp only
  repeat' with_reducible first
    | assumption | apply keeps_cancel | apply keeps_takeRecord | apply keeps_ite
    | (split <;> try dsimp only)

theorem keeps_execRecordStaged {s0 s : State}  (h : Keeps s0 s) :
    ∃ t, execRecordStaged s = .next t ∧ Keeps s0 t := by
  unfold execRecordStaged
  refine ⟨_, rfl, ?_⟩
  try dsimp only
  repeat' with_reducible first
    | assumption | apply keeps_recordStaged

theorem keeps_sectionEnd {s0 s : State}  (h : Keeps s0 s) :
    Keeps s0 (sectionEnd s) := by
  unfold sectionEnd
  try dsimp only
  repeat' with_reducible first
    | assumption | apply keeps_cancel | apply keeps_takeRecord | apply keeps_setF | apply keeps_setZone | apply keeps_ite
    | (refine Keeps.lit ?_ rfl rfl rfl rfl rfl rfl rfl rfl rfl rfl; first | assumption | apply keeps_cancel | apply keeps_takeRecord | apply keeps_setF | apply keeps_setZone | apply keeps_ite)
    | (split <;> try dsimp only)
    | intro _ _

theorem keeps_execSectionEnd {s0 s : State}  (h : Keeps s0 s) :
    ∃ t, execSectionEnd s = .next t ∧ Keeps s0 t := by
  unfold execSectionEnd
  refine ⟨_, rfl, ?_⟩
  try dsimp only
  repeat' with_reducible first
    | assumption | apply keeps_sectionEnd

theorem keeps_copyComplete {s0 s : State} {a0 : Nat} (h : Keeps s0 s) :
    Keeps s0 (copyComplete a0 s) := by
  unfold copyComplete
  try dsimp only
  repeat' with_reducible first
    | assumption | apply keeps_cancel | apply keeps_addF | apply keeps_setZone | apply keeps_setFs | apply keeps_nextSection | apply keeps_ite
    | (refine Keeps.lit ?_ rfl rfl rfl rfl rfl rfl rfl rfl rfl rfl; first | assumption | apply keeps_cancel | apply keeps_addF | apply keeps_setZone | apply keeps_setFs | apply keeps_nextSection | apply keeps_ite)
    | (split <;> try dsimp only)

theorem keeps_execCopyComplete {s0 s : State} {a0 : Byte} (h : Keeps s0 s) :
    ∃ t, execCopyComplete a0 s = .next t ∧ Keeps s0 t := by
  unfold execCopyComplete
  refine ⟨_, rfl, ?_⟩
  try dsimp only
  repeat' with_reducible first
    | assumption | apply keeps_copyComplete

theorem keeps_imageEnd {s0 s : State}  (h : Keeps s0 s) :
    Keeps s0 (imageEnd s) := by
  unfold imageEnd
  try dsimp only
  repeat' with_reducible first
    | assumption | apply keeps_ldTrim | apply keeps_loadEnd | apply keeps_imageCancel | apply keeps_ite
    | (split <;> try dsimp only)

theorem keeps_execImageEnd {s0 s : State}  (h : Keeps s0 s) :
    ∃ t, execImageEnd s = .next t ∧ Keeps s0 t := by
  unfold execImageEnd
  refine ⟨_, rfl, ?_⟩
  try dsimp only
  repeat' with_reducible first
    | assumption | apply keeps_imageEnd

theorem keeps_loadTimeout {s0 s : State}  (h : Keeps s0 s) :
    Keeps s0 (loadTimeout s) := by
  unfold loadTimeout
  try dsimp only
  repeat' with_reducible first
    | assumption | apply keeps_loadEnd | apply keeps_imageCancel | apply keeps_cancel | apply keeps_ite
    | (split <;> try dsimp only)

theorem keeps_execLoadTimeout {s0 s : State}  (h : Keeps s0 s) :
    ∃ t, execLoadTimeout s = .next t ∧ Keeps s0 t := by
  unfold execLoadTimeout
  refine ⟨_, rfl, ?_⟩
  try dsimp only
  repeat' with_reducible first
    | assumption | apply keeps_loadTimeout

end Sys2Proof.Machine
end

