-- ==== Sys2Proof/Laws/Keeps/Commit.lean ====
section
/-! SUPPORT. What the operations of Machine/Commit.lean keep. -/
set_option linter.all false
namespace Sys2Proof.Machine

theorem keeps_zoneDone {s0 s : State} {a0 : Nat} (h : Keeps s0 s) :
    Keeps s0 (zoneDone a0 s) := by
  unfold zoneDone
  try dsimp only
  repeat' with_reducible first
    | assumption | apply keeps_setZone | apply keeps_setFs | apply keeps_setResult | apply keeps_setF | apply keeps_detect | apply keeps_offerCommit | apply keeps_onlyIf
    | (refine Keeps.lit ?_ rfl rfl rfl rfl rfl rfl rfl rfl rfl rfl; first | assumption | apply keeps_setZone | apply keeps_setFs | apply keeps_setResult | apply keeps_setF | apply keeps_detect | apply keeps_offerCommit | apply keeps_onlyIf)
    | (split <;> try dsimp only)
    | intro _ _ _
    | intro _ _

theorem keeps_rxDone {s0 s : State} {a0 : Nat} (h : Keeps s0 s) :
    Keeps s0 (rxDone a0 s) := by
  unfold rxDone
  try dsimp only
  repeat' with_reducible first
    | assumption | apply keeps_zoneDone | apply keeps_zoneRx
    | (split <;> try dsimp only)

theorem keeps_firmwareSwitch {s0 s : State}  (h : Keeps s0 s) :
    Keeps s0 (firmwareSwitch s) := by
  unfold firmwareSwitch
  try dsimp only
  repeat' with_reducible first
    | assumption | apply keeps_stwRestart | apply keeps_setMem
    | (refine Keeps.lit ?_ rfl rfl rfl rfl rfl rfl rfl rfl rfl rfl; first | assumption | apply keeps_stwRestart | apply keeps_setMem)

theorem keeps_commitTx {s0 s : State} {a0 : Nat} (h : Keeps s0 s) :
    Keeps s0 (commitTx a0 s) := by
  unfold commitTx
  try dsimp only
  repeat' with_reducible first
    | assumption | apply keeps_setF | apply keeps_setB | apply keeps_setZone | apply keeps_firmwareSwitch | apply keeps_rxDone | apply keeps_zoneTx | apply keeps_groupsSwitch | apply keeps_setUnit | apply keeps_ite
    | (refine Keeps.lit ?_ rfl rfl rfl rfl rfl rfl rfl rfl rfl rfl; first | assumption | apply keeps_setF | apply keeps_setB | apply keeps_setZone | apply keeps_firmwareSwitch | apply keeps_rxDone | apply keeps_zoneTx | apply keeps_groupsSwitch | apply keeps_setUnit | apply keeps_ite)
    | (split <;> try dsimp only)
    | intro _ _

theorem keeps_furlongBoundary {s0 s : State}  (h : Keeps s0 s) :
    Keeps s0 (furlongBoundary s) := by
  unfold furlongBoundary
  try dsimp only
  repeat' with_reducible first
    | assumption | apply keeps_ageAway | apply keeps_addF | apply keeps_countClips | apply keeps_commitTx | apply keeps_startRun | apply keeps_sendHeaders | apply keeps_txStart | apply keeps_fthBoundary | apply keeps_calBoundary | apply keeps_each | apply keeps_onlyIf | apply keeps_ite
    | (split <;> try dsimp only)
    | intro _ _ _
    | intro _ _

theorem keeps_execLocalFurlongBoundary {s0 s : State}  (h : Keeps s0 s) :
    ∃ t, execLocalFurlongBoundary s = .next t ∧ Keeps s0 t := by
  unfold execLocalFurlongBoundary
  refine ⟨_, rfl, ?_⟩
  try dsimp only
  repeat' with_reducible first
    | assumption | apply keeps_furlongBoundary

theorem keeps_execRxCommitSwitch {s0 s : State} {a0 : Byte} (h : Keeps s0 s) :
    ∃ t, execRxCommitSwitch a0 s = .next t ∧ Keeps s0 t := by
  unfold execRxCommitSwitch
  refine ⟨_, rfl, ?_⟩
  try dsimp only
  repeat' with_reducible first
    | assumption | apply keeps_rxDone | apply keeps_ite
    | (split <;> try dsimp only)

theorem keeps_execCommitTimeout {s0 s : State} {a0 : Byte} (h : Keeps s0 s) :
    ∃ t, execCommitTimeout a0 s = .next t ∧ Keeps s0 t := by
  unfold execCommitTimeout
  refine ⟨_, rfl, ?_⟩
  try dsimp only
  repeat' with_reducible first
    | assumption | apply keeps_rxDone | apply keeps_detect | apply keeps_ite
    | (split <;> try dsimp only)

theorem keeps_execLaneGroupCommit {s0 s : State} {a0 : Byte} (h : Keeps s0 s) :
    ∃ t, execLaneGroupCommit a0 s = .next t ∧ Keeps s0 t := by
  unfold execLaneGroupCommit
  refine ⟨_, rfl, ?_⟩
  try dsimp only
  repeat' with_reducible first
    | assumption | apply keeps_rxDone | apply keeps_setB | apply keeps_ite
    | (split <;> try dsimp only)

theorem keeps_restartDone {s0 s : State}  (h : Keeps s0 s) :
    Keeps s0 (restartDone s) := by
  unfold restartDone
  try dsimp only
  repeat' with_reducible first
    | assumption | apply keeps_detect | apply keeps_rxDone | apply keeps_ite
    | (refine Keeps.lit ?_ rfl rfl rfl rfl rfl rfl rfl rfl rfl rfl; first | assumption | apply keeps_detect | apply keeps_rxDone | apply keeps_ite)
    | (split <;> try dsimp only)

theorem keeps_execStewardRestartComplete {s0 s : State}  (h : Keeps s0 s) :
    ∃ t, execStewardRestartComplete s = .next t ∧ Keeps s0 t := by
  unfold execStewardRestartComplete
  refine ⟨_, rfl, ?_⟩
  try dsimp only
  repeat' with_reducible first
    | assumption | apply keeps_restartDone

theorem keeps_zoneStop {s0 s : State} {a0 : Nat} (h : Keeps s0 s) :
    Keeps s0 (zoneStop a0 s) := by
  unfold zoneStop
  try dsimp only
  repeat' with_reducible first
    | assumption | apply keeps_putFields | apply keeps_groupDown | apply keeps_peerTx | apply keeps_settle | apply keeps_unitIdle | apply keeps_zoneRx | apply keeps_ite
    | (split <;> try dsimp only)

theorem keeps_revertEnd {s0 s : State} {a0 : Nat} {a1 : Nat} {a2 : Nat} {a3 : Nat} (h : Keeps s0 s) :
    Keeps s0 (revertEnd a0 a1 a2 a3 s) := by
  unfold revertEnd
  try dsimp only
  repeat' with_reducible first
    | assumption | apply keeps_detect | apply keeps_offerCommit | apply keeps_setResult

theorem keeps_revertSwitch {s0 s : State} {a0 : Nat} (h : Keeps s0 s) :
    Keeps s0 (revertSwitch a0 s) := by
  unfold revertSwitch
  try dsimp only
  repeat' with_reducible first
    | assumption | apply keeps_setZone | apply keeps_zoneRx | apply keeps_zoneTx | apply keeps_startRun | apply keeps_revertEnd | apply keeps_setFs | apply keeps_zoneStop | apply keeps_onlyIf | apply keeps_ite
    | (refine Keeps.lit ?_ rfl rfl rfl rfl rfl rfl rfl rfl rfl rfl; first | assumption | apply keeps_setZone | apply keeps_zoneRx | apply keeps_zoneTx | apply keeps_startRun | apply keeps_revertEnd | apply keeps_setFs | apply keeps_zoneStop | apply keeps_onlyIf | apply keeps_ite)
    | (split <;> try dsimp only)
    | intro _ _ _
    | intro _ _

theorem keeps_execRevertSwitch {s0 s : State} {a0 : Byte} (h : Keeps s0 s) :
    ∃ t, execRevertSwitch a0 s = .next t ∧ Keeps s0 t := by
  unfold execRevertSwitch
  refine ⟨_, rfl, ?_⟩
  try dsimp only
  repeat' with_reducible first
    | assumption | apply keeps_revertSwitch | apply keeps_ite
    | (split <;> try dsimp only)

theorem keeps_reloadDone {s0 s : State} {a0 : Nat} (h : Keeps s0 s) :
    Keeps s0 (reloadDone a0 s) := by
  unfold reloadDone
  try dsimp only
  repeat' with_reducible first
    | assumption | apply keeps_storeDone | apply keeps_detect | apply keeps_unpoison | apply keeps_stwRestart | apply keeps_ite
    | (split <;> try dsimp only)

theorem keeps_execReloadDone {s0 s : State} {a0 : BitVec 14} (h : Keeps s0 s) :
    ∃ t, execReloadDone a0 s = .next t ∧ Keeps s0 t := by
  unfold execReloadDone
  refine ⟨_, rfl, ?_⟩
  try dsimp only
  repeat' with_reducible first
    | assumption | apply keeps_reloadDone

end Sys2Proof.Machine
end

