-- ==== Sys2Proof/Laws/Keeps/Power.lean ====
section
/-! SUPPORT. What the operations of Machine/Power.lean keep. -/
set_option linter.all false
namespace Sys2Proof.Machine

theorem keeps_regReset {s0 s : State} {a0 : Nat} (h : Keeps s0 s) : Keeps s0 (regReset a0 s) :=
  h.step rfl fun j =>
    ⟨trising_filter _ j.regs, j.flash, j.intake, j.reserve, j.buffer, j.cands, j.queue, j.fuses, j.shadow⟩

theorem keeps_evtReset {s0 s : State} {a0 : Nat} {a2 : EvBlk} (h : Keeps s0 s) :
    Keeps s0 (evtReset a0 s a2) := by
  unfold evtReset
  try dsimp only
  repeat' with_reducible first
    | assumption | apply keeps_setEv | apply keeps_setB | apply keeps_each | apply keeps_ite
    | (refine Keeps.lit ?_ rfl rfl rfl rfl rfl rfl rfl rfl rfl rfl; first | assumption | apply keeps_setEv | apply keeps_setB | apply keeps_each | apply keeps_ite)
    | (split <;> try dsimp only)
    | intro _ _ _
    | intro _ _

theorem keeps_mgmtReset {s0 s : State}  (h : Keeps s0 s) :
    Keeps s0 (mgmtReset s) := by
  unfold mgmtReset
  try dsimp only
  repeat' with_reducible first
    | assumption
    | (refine Keeps.lit ?_ rfl rfl rfl rfl rfl rfl rfl rfl rfl rfl; first | assumption)

theorem keeps_hostReset {s0 s : State} {a0 : Nat} (h : Keeps s0 s) :
    Keeps s0 (hostReset a0 s) := by
  unfold hostReset
  try dsimp only
  repeat' with_reducible first
    | assumption
    | (refine Keeps.lit ?_ rfl rfl rfl rfl rfl rfl rfl rfl rfl rfl; first | assumption)

theorem keeps_fabReset {s0 s : State} {a0 : Nat} (h : Keeps s0 s) :
    Keeps s0 (fabReset a0 s) := by
  unfold fabReset
  try dsimp only
  repeat' with_reducible first
    | assumption
    | (refine Keeps.lit ?_ rfl rfl rfl rfl rfl rfl rfl rfl rfl rfl; first | assumption)
    | intro _ _

theorem keeps_lineReset {s0 s : State} {a0 : Nat} (h : Keeps s0 s) :
    Keeps s0 (lineReset a0 s) := by
  unfold lineReset
  try dsimp only
  repeat' with_reducible first
    | assumption | apply keeps_restartChain | apply keeps_each | apply keeps_ite
    | (refine Keeps.lit ?_ rfl rfl rfl rfl rfl rfl rfl rfl rfl rfl; first | assumption | apply keeps_restartChain | apply keeps_each | apply keeps_ite)
    | (split <;> try dsimp only)
    | intro _ _ _
    | intro _ _

theorem keeps_fecReset {s0 s : State}  (h : Keeps s0 s) :
    Keeps s0 (fecReset s) := by
  unfold fecReset
  try dsimp only
  repeat' with_reducible first
    | assumption | apply keeps_setF
    | (refine Keeps.lit ?_ rfl rfl rfl rfl rfl rfl rfl rfl rfl rfl; first | assumption | apply keeps_setF)

theorem keeps_tableReset {s0 s : State}  (h : Keeps s0 s) :
    Keeps s0 (tableReset s) := by
  unfold tableReset
  try dsimp only
  repeat' with_reducible first
    | assumption | apply keeps_setB
    | (refine Keeps.lit ?_ rfl rfl rfl rfl rfl rfl rfl rfl rfl rfl; first | assumption | apply keeps_setB)

theorem keeps_chainReset {s0 s : State}  (h : Keeps s0 s) :
    Keeps s0 (chainReset s) := by
  unfold chainReset
  try dsimp only
  repeat' with_reducible first
    | assumption
    | (refine Keeps.lit ?_ rfl rfl rfl rfl rfl rfl rfl rfl rfl rfl; first | assumption)

theorem keeps_domReset {s0 s : State} {a0 : Nat} (h : Keeps s0 s) :
    Keeps s0 (domReset a0 s) := by
  unfold domReset
  try dsimp only
  repeat' with_reducible first
    | assumption | apply keeps_evtReset | apply keeps_regReset | apply keeps_mgmtReset | apply keeps_hostReset | apply keeps_lineReset | apply keeps_fabReset | apply keeps_fecReset | apply keeps_tableReset | apply keeps_chainReset | apply keeps_foldl | apply keeps_ite
    | (refine Keeps.lit ?_ rfl rfl rfl rfl rfl rfl rfl rfl rfl rfl; first | assumption | apply keeps_evtReset | apply keeps_regReset | apply keeps_mgmtReset | apply keeps_hostReset | apply keeps_lineReset | apply keeps_fabReset | apply keeps_fecReset | apply keeps_tableReset | apply keeps_chainReset | apply keeps_foldl | apply keeps_ite)
    | (split <;> try dsimp only)
    | intro _ _ _
    | intro _ _

theorem keeps_loadBanks {s0 s : State} {a0 : Nat} {a1 : Nat} {a2 : ZContent} (h : Keeps s0 s) :
    Keeps s0 (loadBanks a0 a1 a2 s) := by
  unfold loadBanks
  try dsimp only
  repeat' with_reducible first
    | assumption | apply keeps_setFs | apply keeps_portSeedWake | apply keeps_ite
    | (refine Keeps.lit ?_ rfl rfl rfl rfl rfl rfl rfl rfl rfl rfl; first | assumption | apply keeps_setFs | apply keeps_portSeedWake | apply keeps_ite)
    | (split <;> try dsimp only)
    | intro _ _

theorem keeps_loadZone {s0 s : State} {a0 : Nat} {a2 : Nat} (h : Keeps s0 s) :
    Keeps s0 (loadZone a0 s a2) := by
  unfold loadZone
  try dsimp only
  repeat' with_reducible first
    | assumption | apply keeps_loadBanks | apply keeps_setZone
    | (refine Keeps.lit ?_ rfl rfl rfl rfl rfl rfl rfl rfl rfl rfl; first | assumption | apply keeps_loadBanks | apply keeps_setZone)
    | (split <;> try dsimp only)

theorem keeps_recordLoad {s0 s : State} {a0 : Nat} (h : Keeps s0 s) :
    Keeps s0 (recordLoad a0 s) := by
  unfold recordLoad
  try dsimp only
  repeat' with_reducible first
    | assumption | apply keeps_biasLoad | apply keeps_calWake | apply keeps_ite
    | (split <;> try dsimp only)

theorem keeps_loadStep {s0 s : State} {a0 : Nat} {a1 : Bool} (h : Keeps s0 s) :
    Keeps s0 (loadStep a0 a1 s) := by
  unfold loadStep
  try dsimp only
  repeat' with_reducible first
    | assumption | apply keeps_setDom | apply keeps_loadZone | apply keeps_recordLoad | apply keeps_foldl | apply keeps_ite
    | (split <;> try dsimp only)
    | intro _ _ _
    | intro _ _

theorem keeps_storeFuses {s0 s : State}  (h : Keeps s0 s) :
    Keeps s0 (storeFuses s) := by
  unfold storeFuses
  try dsimp only
  repeat' with_reducible first
    | assumption | apply keeps_setFs | apply keeps_ite
    | (split <;> try dsimp only)

theorem keeps_wakeInit {s0 s : State} {a0 : Nat} (h : Keeps s0 s) :
    Keeps s0 (wakeInit a0 s) := by
  unfold wakeInit
  try dsimp only
  repeat' with_reducible first
    | assumption | apply keeps_memWake | apply keeps_domReset | apply keeps_storeFuses | apply keeps_ite
    | (split <;> try dsimp only)

theorem keeps_retentionWake {s0 s : State} {a0 : Nat} (h : Keeps s0 s) :
    Keeps s0 (retentionWake a0 s) := by
  unfold retentionWake
  try dsimp only
  repeat' with_reducible first
    | assumption | apply keeps_restartChain | apply keeps_memResume | apply keeps_each | apply keeps_onlyIf
    | intro _ _ _
    | intro _ _

theorem keeps_wakeAfter {s0 s : State} {a0 : Nat} {a1 : Bool} {a2 : Bool} (h : Keeps s0 s) :
    Keeps s0 (wakeAfter a0 a1 a2 s) := by
  unfold wakeAfter
  try dsimp only
  repeat' with_reducible first
    | assumption | apply keeps_wakeInit | apply keeps_retentionWake | apply keeps_setB | apply keeps_loadStep | apply keeps_setDom | apply keeps_onlyIf | apply keeps_ite
    | (split <;> try dsimp only)
    | intro _ _ _
    | intro _ _

theorem keeps_wakeNext {s0 s : State} {a0 : Nat} {a1 : Nat} (h : Keeps s0 s) :
    Keeps s0 (wakeNext a0 a1 s) := by
  unfold wakeNext
  try dsimp only
  repeat' with_reducible first
    | assumption | apply keeps_setDom | apply keeps_wakeAfter | apply keeps_ite
    | (split <;> try dsimp only)

theorem keeps_execWakePowerGood {s0 s : State} {a0 : Dom} (h : Keeps s0 s) :
    ∃ t, execWakePowerGood a0 s = .next t ∧ Keeps s0 t := by
  unfold execWakePowerGood
  refine ⟨_, rfl, ?_⟩
  try dsimp only
  repeat' with_reducible first
    | assumption | apply keeps_wakeNext

theorem keeps_execWakeClockPresent {s0 s : State} {a0 : Dom} (h : Keeps s0 s) :
    ∃ t, execWakeClockPresent a0 s = .next t ∧ Keeps s0 t := by
  unfold execWakeClockPresent
  refine ⟨_, rfl, ?_⟩
  try dsimp only
  repeat' with_reducible first
    | assumption | apply keeps_wakeNext

theorem keeps_execWakePllLock {s0 s : State} {a0 : Dom} (h : Keeps s0 s) :
    ∃ t, execWakePllLock a0 s = .next t ∧ Keeps s0 t := by
  unfold execWakePllLock
  refine ⟨_, rfl, ?_⟩
  try dsimp only
  repeat' with_reducible first
    | assumption | apply keeps_wakeNext

theorem keeps_wakeStart {s0 s : State} {a0 : Nat} {a1 : Bool} {a2 : Bool} (h : Keeps s0 s) :
    Keeps s0 (wakeStart a0 a1 a2 s) := by
  unfold wakeStart
  try dsimp only
  repeat' with_reducible first
    | assumption | apply keeps_detect | apply keeps_setDom | apply keeps_ite
    | (split <;> try dsimp only)

theorem keeps_retentionLost {s0 s : State} {a0 : Nat} (h : Keeps s0 s) :
    Keeps s0 (retentionLost a0 s) := by
  unfold retentionLost
  try dsimp only
  repeat' with_reducible first
    | assumption | apply keeps_ldgLeave | apply keeps_setF | apply keeps_biasLeave | apply keeps_ite
    | (split <;> try dsimp only)

theorem keeps_wakeFail {s0 s : State} {a0 : Nat} {a1 : Nat} (h : Keeps s0 s) :
    Keeps s0 (wakeFail a0 a1 s) := by
  unfold wakeFail
  try dsimp only
  repeat' with_reducible first
    | assumption | apply keeps_setF | apply keeps_setDom | apply keeps_retentionLost | apply keeps_offerDomain | apply keeps_detect | apply keeps_onlyIf | apply keeps_ite
    | (refine Keeps.lit ?_ rfl rfl rfl rfl rfl rfl rfl rfl rfl rfl; first | assumption | apply keeps_setF | apply keeps_setDom | apply keeps_retentionLost | apply keeps_offerDomain | apply keeps_detect | apply keeps_onlyIf | apply keeps_ite)
    | (split <;> try dsimp only)
    | intro _ _ _
    | intro _ _

theorem keeps_execWakeStepTimeout {s0 s : State} {a0 : Dom} (h : Keeps s0 s) :
    ∃ t, execWakeStepTimeout a0 s = .next t ∧ Keeps s0 t := by
  unfold execWakeStepTimeout
  refine ⟨_, rfl, ?_⟩
  try dsimp only
  repeat' with_reducible first
    | assumption | apply keeps_settle | apply keeps_wakeFail | apply keeps_ite
    | (split <;> try dsimp only)

theorem keeps_wakeRetry {s0 s : State} {a0 : Nat} (h : Keeps s0 s) :
    Keeps s0 (wakeRetry a0 s) := by
  unfold wakeRetry
  try dsimp only
  repeat' with_reducible first
    | assumption | apply keeps_wakeStart | apply keeps_ite
    | (refine Keeps.lit ?_ rfl rfl rfl rfl rfl rfl rfl rfl rfl rfl; first | assumption | apply keeps_wakeStart | apply keeps_ite)
    | (split <;> try dsimp only)

theorem keeps_execWakeRetry {s0 s : State} {a0 : Dom} (h : Keeps s0 s) :
    ∃ t, execWakeRetry a0 s = .next t ∧ Keeps s0 t := by
  unfold execWakeRetry
  refine ⟨_, rfl, ?_⟩
  try dsimp only
  repeat' with_reducible first
    | assumption | apply keeps_wakeRetry

theorem keeps_zonesLeave {s0 s : State} {a0 : Nat} (h : Keeps s0 s) :
    Keeps s0 (zonesLeave a0 s) := by
  unfold zonesLeave
  try dsimp only
  repeat' with_reducible first
    | assumption | apply keeps_cancel | apply keeps_loadEnd | apply keeps_each | apply keeps_ite
    | (split <;> try dsimp only)
    | intro _ _ _
    | intro _ _

theorem keeps_bushelsLeave {s0 s : State} {a0 : Nat} (h : Keeps s0 s) :
    Keeps s0 (bushelsLeave a0 s) := by
  unfold bushelsLeave
  try dsimp only
  repeat' with_reducible first
    | assumption
    | (refine Keeps.lit ?_ rfl rfl rfl rfl rfl rfl rfl rfl rfl rfl; first | assumption)
    | intro _ _

theorem keeps_blocksLeave {s0 s : State} {a0 : Nat} (h : Keeps s0 s) :
    Keeps s0 (blocksLeave a0 s) := by
  unfold blocksLeave
  try dsimp only
  repeat' with_reducible first
    | assumption | apply keeps_bushelsLeave | apply keeps_zonesLeave | apply keeps_challengeExpires | apply keeps_groupDown | apply keeps_settle | apply keeps_unitIdle | apply keeps_calLeave | apply keeps_prioAbort | apply keeps_setPool | apply keeps_endSnap | apply keeps_setFs | apply keeps_chainReset | apply keeps_detect | apply keeps_each | apply keeps_onlyIf | apply keeps_ite
    | (refine Keeps.lit ?_ rfl rfl rfl rfl rfl rfl rfl rfl rfl rfl; first | assumption | apply keeps_bushelsLeave | apply keeps_zonesLeave | apply keeps_challengeExpires | apply keeps_groupDown | apply keeps_settle | apply keeps_unitIdle | apply keeps_calLeave | apply keeps_prioAbort | apply keeps_setPool | apply keeps_endSnap | apply keeps_setFs | apply keeps_chainReset | apply keeps_detect | apply keeps_each | apply keeps_onlyIf | apply keeps_ite)
    | (split <;> try dsimp only)
    | intro _ _ _
    | intro _ _

theorem keeps_quiesce {s0 s : State} {a0 : Nat} (h : Keeps s0 s) :
    Keeps s0 (quiesce a0 s) := by
  unfold quiesce
  try dsimp only
  repeat' with_reducible first
    | assumption | apply keeps_blocksLeave | apply keeps_lasersOff | apply keeps_writeTxEnable | apply keeps_ite
    | (split <;> try dsimp only)

theorem keeps_isolate {s0 s : State} {a0 : Nat} {a1 : Bool} (h : Keeps s0 s) :
    Keeps s0 (isolate a0 a1 s) := by
  unfold isolate
  try dsimp only
  repeat' with_reducible first
    | assumption | apply keeps_cutRecs | apply keeps_ldgLeave | apply keeps_setFs | apply keeps_txTimerOff | apply keeps_biasLeave | apply keeps_setB | apply keeps_setF | apply keeps_setDom | apply keeps_ite
    | (refine Keeps.lit ?_ rfl rfl rfl rfl rfl rfl rfl rfl rfl rfl; first | assumption | apply keeps_cutRecs | apply keeps_ldgLeave | apply keeps_setFs | apply keeps_txTimerOff | apply keeps_biasLeave | apply keeps_setB | apply keeps_setF | apply keeps_setDom | apply keeps_ite)
    | (split <;> try dsimp only)

theorem keeps_forceOff {s0 s : State} {a0 : Nat} (h : Keeps s0 s) :
    Keeps s0 (forceOff a0 s) := by
  unfold forceOff
  try dsimp only
  repeat' with_reducible first
    | assumption | apply keeps_settle | apply keeps_offerDomain | apply keeps_isolate | apply keeps_blocksLeave | apply keeps_onlyIf
    | (split <;> try dsimp only)
    | intro _ _ _
    | intro _ _

theorem keeps_offFromRetention {s0 s : State} {a0 : Nat} (h : Keeps s0 s) :
    Keeps s0 (offFromRetention a0 s) := by
  unfold offFromRetention
  try dsimp only
  repeat' with_reducible first
    | assumption | apply keeps_settle | apply keeps_offerDomain | apply keeps_setDom | apply keeps_retentionLost

theorem keeps_resume {s0 s : State} {a0 : Nat} (h : Keeps s0 s) :
    Keeps s0 (resume a0 s) := by
  unfold resume
  try dsimp only
  repeat' with_reducible first
    | assumption | apply keeps_settle | apply keeps_flushLoss | apply keeps_peerMasks | apply keeps_portWake | apply keeps_setB | apply keeps_fthTags | apply keeps_ite
    | (split <;> try dsimp only)

theorem keeps_abandon {s0 s : State} {a0 : Nat} (h : Keeps s0 s) :
    Keeps s0 (abandon a0 s) := by
  unfold abandon
  try dsimp only
  repeat' with_reducible first
    | assumption | apply keeps_memResume | apply keeps_setDom | apply keeps_detect | apply keeps_resume | apply keeps_setB | apply keeps_onlyIf
    | intro _ _ _
    | intro _ _

theorem keeps_tryAgain {s0 s : State} {a0 : Nat} (h : Keeps s0 s) :
    Keeps s0 (tryAgain a0 s) := by
  unfold tryAgain
  try dsimp only
  repeat' with_reducible first
    | assumption
    | (refine Keeps.lit ?_ rfl rfl rfl rfl rfl rfl rfl rfl rfl rfl; first | assumption)

theorem keeps_control {s0 s : State} {a0 : Nat} (h : Keeps s0 s) :
    Keeps s0 (control a0 s) := by
  unfold control
  try dsimp only
  repeat' with_reducible first
    | assumption | apply keeps_wakeStart | apply keeps_offFromRetention | apply keeps_setDom | apply keeps_abandon | apply keeps_setF | apply keeps_ite
    | (refine Keeps.lit ?_ rfl rfl rfl rfl rfl rfl rfl rfl rfl rfl; first | assumption | apply keeps_wakeStart | apply keeps_offFromRetention | apply keeps_setDom | apply keeps_abandon | apply keeps_setF | apply keeps_ite)
    | (split <;> try dsimp only)

theorem keeps_pwrTargetWrite {s0 s : State} {a0 : Nat} (h : Keeps s0 s) :
    Keeps s0 (pwrTargetWrite a0 s) := by
  unfold pwrTargetWrite
  try dsimp only
  repeat' with_reducible first
    | assumption | apply keeps_detect | apply keeps_setFs | apply keeps_settle | apply keeps_control | apply keeps_tryAgain | apply keeps_each | apply keeps_onlyIf
    | (split <;> try dsimp only)
    | intro _ _ _
    | intro _ _

theorem keeps_execPwrTargetWrite {s0 s : State} {a0 : Word} (h : Keeps s0 s) :
    ∃ t, execPwrTargetWrite a0 s = .next t ∧ Keeps s0 t := by
  unfold execPwrTargetWrite
  refine ⟨_, rfl, ?_⟩
  try dsimp only
  repeat' with_reducible first
    | assumption | apply keeps_pwrTargetWrite

theorem keeps_wakeTarget {s0 s : State} {a0 : Nat} (h : Keeps s0 s) :
    Keeps s0 (wakeTarget a0 s) := by
  unfold wakeTarget
  try dsimp only
  repeat' with_reducible first
    | assumption | apply keeps_detect | apply keeps_control | apply keeps_tryAgain | apply keeps_setF | apply keeps_ite
    | (split <;> try dsimp only)

theorem keeps_addressMatch {s0 s : State}  (h : Keeps s0 s) :
    Keeps s0 (addressMatch s) := by
  unfold addressMatch
  try dsimp only
  repeat' with_reducible first
    | assumption | apply keeps_wakeTarget | apply keeps_detect | apply keeps_each | apply keeps_ite
    | (split <;> try dsimp only)
    | intro _ _ _
    | intro _ _

theorem keeps_execAddressMatchWake {s0 s : State}  (h : Keeps s0 s) :
    ∃ t, execAddressMatchWake s = .next t ∧ Keeps s0 t := by
  unfold execAddressMatchWake
  refine ⟨_, rfl, ?_⟩
  try dsimp only
  repeat' with_reducible first
    | assumption | apply keeps_settle | apply keeps_addressMatch

theorem keeps_execWakePin {s0 s : State} {a0 : Bool} (h : Keeps s0 s) :
    ∃ t, execWakePin a0 s = .next t ∧ Keeps s0 t := by
  unfold execWakePin
  refine ⟨_, rfl, ?_⟩
  try dsimp only
  repeat' with_reducible first
    | assumption | apply keeps_settle | apply keeps_detect | apply keeps_wakeTarget | apply keeps_setB | apply keeps_each
    | intro _ _ _
    | intro _ _

theorem keeps_mgmtUp {s0 s : State}  (h : Keeps s0 s) :
    Keeps s0 (mgmtUp s) := by
  unfold mgmtUp
  try dsimp only
  repeat' with_reducible first
    | assumption | apply keeps_peerLoad | apply keeps_ldgWake
    | (refine Keeps.lit ?_ rfl rfl rfl rfl rfl rfl rfl rfl rfl rfl; first | assumption | apply keeps_peerLoad | apply keeps_ldgWake)

theorem keeps_headroomInvalid {s0 s : State} {a0 : Nat} (h : Keeps s0 s) :
    Keeps s0 (headroomInvalid a0 s) := by
  unfold headroomInvalid
  try dsimp only
  repeat' with_reducible first
    | assumption | apply keeps_setB | apply keeps_detect | apply keeps_ite
    | (refine Keeps.lit ?_ rfl rfl rfl rfl rfl rfl rfl rfl rfl rfl; first | assumption | apply keeps_setB | apply keeps_detect | apply keeps_ite)
    | (split <;> try dsimp only)
    | intro _ _

theorem keeps_domainUp {s0 s : State} {a0 : Nat} {a1 : Bool} (h : Keeps s0 s) :
    Keeps s0 (domainUp a0 a1 s) := by
  unfold domainUp
  try dsimp only
  repeat' with_reducible first
    | assumption | apply keeps_setDom | apply keeps_offerDomain | apply keeps_setF | apply keeps_mgmtUp | apply keeps_chainReset | apply keeps_startRun | apply keeps_mapperHunt | apply keeps_resume | apply keeps_stopCarrier | apply keeps_settle | apply keeps_control | apply keeps_headroomInvalid | apply keeps_each | apply keeps_onlyIf | apply keeps_ite
    | (split <;> try dsimp only)
    | intro _ _ _
    | intro _ _

theorem keeps_wakeComplete {s0 s : State} {a0 : Nat} (h : Keeps s0 s) :
    Keeps s0 (wakeComplete a0 s) := by
  unfold wakeComplete
  try dsimp only
  repeat' with_reducible first
    | assumption | apply keeps_loadStep | apply keeps_domainUp | apply keeps_ite
    | (split <;> try dsimp only)

theorem keeps_execWakeComplete {s0 s : State} {a0 : Dom} (h : Keeps s0 s) :
    ∃ t, execWakeComplete a0 s = .next t ∧ Keeps s0 t := by
  unfold execWakeComplete
  refine ⟨_, rfl, ?_⟩
  try dsimp only
  repeat' with_reducible first
    | assumption | apply keeps_wakeComplete

theorem keeps_saves {s0 s : State} {a0 : Nat} (h : Keeps s0 s) :
    Keeps s0 (saves a0 s) := by
  unfold saves
  try dsimp only
  repeat' with_reducible first
    | assumption | apply keeps_startRec | apply keeps_checkpoint | apply keeps_onlyIf
    | intro _ _ _
    | intro _ _

theorem keeps_domainEntry {s0 s : State} {a0 : Nat} (h : Keeps s0 s) :
    Keeps s0 (domainEntry a0 s) := by
  unfold domainEntry
  try dsimp only
  repeat' with_reducible first
    | assumption | apply keeps_quiesce | apply keeps_setDom | apply keeps_settle | apply keeps_saves | apply keeps_ite
    | (split <;> try dsimp only)

theorem keeps_execDomainEntry {s0 s : State} {a0 : Dom} (h : Keeps s0 s) :
    ∃ t, execDomainEntry a0 s = .next t ∧ Keeps s0 t := by
  unfold execDomainEntry
  refine ⟨_, rfl, ?_⟩
  try dsimp only
  repeat' with_reducible first
    | assumption | apply keeps_domainEntry

theorem keeps_afterSaves {s0 s : State} {a0 : Nat} (h : Keeps s0 s) :
    Keeps s0 (afterSaves a0 s) := by
  unfold afterSaves
  try dsimp only
  repeat' with_reducible first
    | assumption | apply keeps_setDom | apply keeps_ite
    | (split <;> try dsimp only)

theorem keeps_execEntrySavesDone {s0 s : State} {a0 : Dom} (h : Keeps s0 s) :
    ∃ t, execEntrySavesDone a0 s = .next t ∧ Keeps s0 t := by
  unfold execEntrySavesDone
  refine ⟨_, rfl, ?_⟩
  try dsimp only
  repeat' with_reducible first
    | assumption | apply keeps_afterSaves | apply keeps_ite
    | (split <;> try dsimp only)

theorem keeps_saveTimeout {s0 s : State} {a0 : Nat} (h : Keeps s0 s) :
    Keeps s0 (saveTimeout a0 s) := by
  unfold saveTimeout
  try dsimp only
  repeat' with_reducible first
    | assumption | apply keeps_endRec | apply keeps_afterSaves | apply keeps_detect | apply keeps_each
    | (split <;> try dsimp only)
    | intro _ _ _
    | intro _ _

theorem keeps_execSaveTimeout {s0 s : State} {a0 : Dom} (h : Keeps s0 s) :
    ∃ t, execSaveTimeout a0 s = .next t ∧ Keeps s0 t := by
  unfold execSaveTimeout
  refine ⟨_, rfl, ?_⟩
  try dsimp only
  repeat' with_reducible first
    | assumption | apply keeps_saveTimeout

theorem keeps_entryEnd {s0 s : State} {a0 : Nat} (h : Keeps s0 s) :
    Keeps s0 (entryEnd a0 s) := by
  unfold entryEnd
  try dsimp only
  repeat' with_reducible first
    | assumption | apply keeps_isolate | apply keeps_settle | apply keeps_offerDomain | apply keeps_setF | apply keeps_control | apply keeps_ite
    | (split <;> try dsimp only)

theorem keeps_execEntryIsolateAndSwitch {s0 s : State} {a0 : Dom} (h : Keeps s0 s) :
    ∃ t, execEntryIsolateAndSwitch a0 s = .next t ∧ Keeps s0 t := by
  unfold execEntryIsolateAndSwitch
  refine ⟨_, rfl, ?_⟩
  try dsimp only
  repeat' with_reducible first
    | assumption | apply keeps_entryEnd

theorem keeps_powerOn {s0 s : State} (h : Keeps s0 s) : Keeps s0 (powerOn s) := by
  unfold powerOn
  exact keeps_setF (h.step rfl fun j =>
    ⟨rfl, j.flash, Nat.zero_le _, Nat.zero_le _, Nat.zero_le _, Nat.zero_le _, Nat.zero_le _, j.fuses, j.fuses⟩)

theorem keeps_supplyFails {s0 s : State} {a1 : Nat} (h : Keeps s0 s) :
    Keeps s0 (supplyFails s a1) := by
  unfold supplyFails
  try dsimp only
  repeat' with_reducible first
    | assumption | apply keeps_forceOff | apply keeps_setF | apply keeps_settle | apply keeps_wakeFail
    | (split <;> try dsimp only)

theorem keeps_execSupplyLoss {s0 s : State} {a0 : Supply} (h : Keeps s0 s) :
    ∃ t, execSupplyLoss a0 s = .next t ∧ Keeps s0 t := by
  unfold execSupplyLoss
  refine ⟨_, rfl, ?_⟩
  try dsimp only
  repeat' with_reducible first
    | assumption | apply keeps_powerOn | apply keeps_supplyFails | apply keeps_foldl | apply keeps_ite
    | (refine Keeps.lit ?_ rfl rfl rfl rfl rfl rfl rfl rfl rfl rfl; first | assumption | apply keeps_powerOn | apply keeps_supplyFails | apply keeps_foldl | apply keeps_ite)
    | (split <;> try dsimp only)
    | intro _ _ _
    | intro _ _

theorem keeps_execAonPowerOnReset {s0 s : State} {a0 : Bool} {a1 : Bool} (h : Keeps s0 s) :
    ∃ t, execAonPowerOnReset a0 a1 s = .next t ∧ Keeps s0 t := by
  unfold execAonPowerOnReset
  refine ⟨_, rfl, ?_⟩
  try dsimp only
  repeat' with_reducible first
    | assumption | apply keeps_powerOn | apply keeps_fuseCheck | apply keeps_ite
    | (refine Keeps.lit ?_ rfl rfl rfl rfl rfl rfl rfl rfl rfl rfl; first | assumption | apply keeps_powerOn | apply keeps_fuseCheck | apply keeps_ite)
    | (split <;> try dsimp only)

end Sys2Proof.Machine
end

