-- ==== Sys2Proof/Laws/Keeps/Boot.lean ====
section
/-! SUPPORT. What the operations of Machine/Boot.lean keep. -/
set_option linter.all false
namespace Sys2Proof.Machine

theorem keeps_bootZone {s0 s : State} {a0 : Nat} {a2 : Accepted} (h : Keeps s0 s) :
    Keeps s0 (bootZone a0 s a2) := by
  unfold bootZone
  try dsimp only
  repeat' with_reducible first
    | assumption | apply keeps_setZone | apply keeps_setFs | apply keeps_setResult | apply keeps_detect | apply keeps_offerCommit
    | (refine Keeps.lit ?_ rfl rfl rfl rfl rfl rfl rfl rfl rfl rfl; first | assumption | apply keeps_setZone | apply keeps_setFs | apply keeps_setResult | apply keeps_detect | apply keeps_offerCommit)

theorem keeps_bootApply {s0 s : State} {a0 : Nat} {a1 : List Accepted} (h : Keeps s0 s) :
    Keeps s0 (bootApply a0 a1 s) := by
  unfold bootApply
  try dsimp only
  repeat' with_reducible first
    | assumption | apply keeps_setF | apply keeps_bootZone | apply keeps_wakeTarget | apply keeps_each | apply keeps_foldl
    | (refine Keeps.lit ?_ rfl rfl rfl rfl rfl rfl rfl rfl rfl rfl; first | assumption | apply keeps_setF | apply keeps_bootZone | apply keeps_wakeTarget | apply keeps_each | apply keeps_foldl)
    | intro _ _ _
    | intro _ _

theorem keeps_bootCheck {s0 s u : State} {slot : Nat} (h : Keeps s0 s) (e : bootCheck s slot = .error u) : Keeps s0 u := by
  unfold bootCheck at e
  split at e
  · cases e; exact keeps_imageFail h
  · split at e
    · cases e; exact keeps_secRefuse h
    · cases e

theorem keeps_bootTry {s0 s : State} {l : List Nat} {first : Bool} (h : Keeps s0 s) : Keeps s0 (bootTry l first s) := by
  induction l generalizing s first with
  | nil => exact keeps_detect (keeps_setB h)
  | cons slot rest ih =>
    unfold bootTry
    split
    · exact keeps_bootApply h
    · rename_i u e
      exact ih (keeps_ite (keeps_detect (keeps_setB (keeps_bootCheck h e))) (keeps_bootCheck h e))

theorem keeps_imageSelection {s0 s : State}  (h : Keeps s0 s) :
    Keeps s0 (imageSelection s) := by
  unfold imageSelection
  try dsimp only
  repeat' with_reducible first
    | assumption | apply keeps_settle | apply keeps_bootTry | apply keeps_ite
    | (refine Keeps.lit ?_ rfl rfl rfl rfl rfl rfl rfl rfl rfl rfl; first | assumption | apply keeps_settle | apply keeps_bootTry | apply keeps_ite)
    | (split <;> try dsimp only)

theorem keeps_execImageSelection {s0 s : State}  (h : Keeps s0 s) :
    ∃ t, execImageSelection s = .next t ∧ Keeps s0 t := by
  unfold execImageSelection
  refine ⟨_, rfl, ?_⟩
  try dsimp only
  repeat' with_reducible first
    | assumption | apply keeps_imageSelection

end Sys2Proof.Machine
end

