-- ==== Sys2Proof/Laws/Keeps/Throttle.lean ====
section
/-! SUPPORT. What the operations of Machine/Throttle.lean keep. -/
set_option linter.all false
namespace Sys2Proof.Machine

theorem keeps_throttle {s0 s : State}  (h : Keeps s0 s) :
    Keeps s0 (throttle s) := by
  unfold throttle
  try dsimp only
  repeat' with_reducible first
    | assumption | apply keeps_setFs | apply keeps_offer | apply keeps_settle | apply keeps_detect | apply keeps_onlyIf | apply keeps_ite
    | (split <;> try dsimp only)
    | intro _ _ _
    | intro _ _

theorem keeps_floorWrite {s0 s : State} {a0 : Nat} (h : Keeps s0 s) :
    Keeps s0 (floorWrite a0 s) := by
  unfold floorWrite
  try dsimp only
  repeat' with_reducible first
    | assumption | apply keeps_throttle | apply keeps_setF

theorem keeps_avsAsk {s0 s : State} {a0 : Nat} (h : Keeps s0 s) :
    Keeps s0 (avsAsk a0 s) := by
  unfold avsAsk
  try dsimp only
  repeat' with_reducible first
    | assumption | apply keeps_setF
    | (refine Keeps.lit ?_ rfl rfl rfl rfl rfl rfl rfl rfl rfl rfl; first | assumption | apply keeps_setF)

theorem keeps_avsRaise {s0 s : State}  (h : Keeps s0 s) :
    Keeps s0 (avsRaise s) := by
  unfold avsRaise
  try dsimp only
  repeat' with_reducible first
    | assumption | apply keeps_detect | apply keeps_avsAsk | apply keeps_ite
    | (refine Keeps.lit ?_ rfl rfl rfl rfl rfl rfl rfl rfl rfl rfl; first | assumption | apply keeps_detect | apply keeps_avsAsk | apply keeps_ite)
    | (split <;> try dsimp only)

theorem keeps_avsLower {s0 s : State}  (h : Keeps s0 s) :
    Keeps s0 (avsLower s) := by
  unfold avsLower
  try dsimp only
  repeat' with_reducible first
    | assumption | apply keeps_avsAsk | apply keeps_ite
    | (refine Keeps.lit ?_ rfl rfl rfl rfl rfl rfl rfl rfl rfl rfl; first | assumption | apply keeps_avsAsk | apply keeps_ite)
    | (split <;> try dsimp only)

theorem keeps_avsRequest {s0 s : State}  (h : Keeps s0 s) :
    Keeps s0 (avsRequest s) := by
  unfold avsRequest
  try dsimp only
  repeat' with_reducible first
    | assumption | apply keeps_avsRaise | apply keeps_avsLower | apply keeps_ite
    | (refine Keeps.lit ?_ rfl rfl rfl rfl rfl rfl rfl rfl rfl rfl; first | assumption | apply keeps_avsRaise | apply keeps_avsLower | apply keeps_ite)
    | (split <;> try dsimp only)

theorem keeps_execAvsRequest {s0 s : State}  (h : Keeps s0 s) :
    ∃ t, execAvsRequest s = .next t ∧ Keeps s0 t := by
  unfold execAvsRequest
  refine ⟨_, rfl, ?_⟩
  try dsimp only
  repeat' with_reducible first
    | assumption | apply keeps_avsRequest

theorem keeps_avsFail {s0 s : State}  (h : Keeps s0 s) :
    Keeps s0 (avsFail s) := by
  unfold avsFail
  try dsimp only
  repeat' with_reducible first
    | assumption | apply keeps_detect | apply keeps_setB | apply keeps_ite
    | (refine Keeps.lit ?_ rfl rfl rfl rfl rfl rfl rfl rfl rfl rfl; first | assumption | apply keeps_detect | apply keeps_setB | apply keeps_ite)
    | (split <;> try dsimp only)

theorem keeps_execVoutCommand {s0 s : State} {a0 : Bool} (h : Keeps s0 s) :
    ∃ t, execVoutCommand a0 s = .next t ∧ Keeps s0 t := by
  unfold execVoutCommand
  refine ⟨_, rfl, ?_⟩
  try dsimp only
  repeat' with_reducible first
    | assumption | apply keeps_avsFail | apply keeps_ite
    | (refine Keeps.lit ?_ rfl rfl rfl rfl rfl rfl rfl rfl rfl rfl; first | assumption | apply keeps_avsFail | apply keeps_ite)
    | (split <;> try dsimp only)

theorem keeps_execStatusWord {s0 s : State} {a0 : Bool} {a1 : BitVec 16} (h : Keeps s0 s) :
    ∃ t, execStatusWord a0 a1 s = .next t ∧ Keeps s0 t := by
  unfold execStatusWord
  refine ⟨_, rfl, ?_⟩
  try dsimp only
  repeat' with_reducible first
    | assumption | apply keeps_avsFail | apply keeps_setF | apply keeps_ite
    | (refine Keeps.lit ?_ rfl rfl rfl rfl rfl rfl rfl rfl rfl rfl; first | assumption | apply keeps_avsFail | apply keeps_setF | apply keeps_ite)
    | (split <;> try dsimp only)

theorem keeps_readVout {s0 s : State} {a0 : Nat} (h : Keeps s0 s) :
    Keeps s0 (readVout a0 s) := by
  unfold readVout
  try dsimp only
  repeat' with_reducible first
    | assumption | apply keeps_setF | apply keeps_detect | apply keeps_ite
    | (refine Keeps.lit ?_ rfl rfl rfl rfl rfl rfl rfl rfl rfl rfl; first | assumption | apply keeps_setF | apply keeps_detect | apply keeps_ite)
    | (split <;> try dsimp only)

theorem keeps_execReadVout {s0 s : State} {a0 : Bool} {a1 : BitVec 16} (h : Keeps s0 s) :
    ∃ t, execReadVout a0 a1 s = .next t ∧ Keeps s0 t := by
  unfold execReadVout
  refine ⟨_, rfl, ?_⟩
  try dsimp only
  repeat' with_reducible first
    | assumption | apply keeps_readVout | apply keeps_avsFail | apply keeps_ite
    | (split <;> try dsimp only)

theorem keeps_execAvsRequestTimeout {s0 s : State}  (h : Keeps s0 s) :
    ∃ t, execAvsRequestTimeout s = .next t ∧ Keeps s0 t := by
  unfold execAvsRequestTimeout
  refine ⟨_, rfl, ?_⟩
  try dsimp only
  repeat' with_reducible first
    | assumption | apply keeps_avsFail | apply keeps_ite
    | (split <;> try dsimp only)

theorem keeps_execAvsStretchTimeout {s0 s : State}  (h : Keeps s0 s) :
    ∃ t, execAvsStretchTimeout s = .next t ∧ Keeps s0 t := by
  unfold execAvsStretchTimeout
  refine ⟨_, rfl, ?_⟩
  try dsimp only
  repeat' with_reducible first
    | assumption | apply keeps_avsFail | apply keeps_ite
    | (split <;> try dsimp only)

theorem keeps_avsEnWrite {s0 s : State} {a0 : Bool} (h : Keeps s0 s) :
    Keeps s0 (avsEnWrite a0 s) := by
  unfold avsEnWrite
  try dsimp only
  repeat' with_reducible first
    | assumption | apply keeps_setB | apply keeps_ite
    | (split <;> try dsimp only)

theorem keeps_execAvsEnWrite {s0 s : State} {a0 : Bool} (h : Keeps s0 s) :
    ∃ t, execAvsEnWrite a0 s = .next t ∧ Keeps s0 t := by
  unfold execAvsEnWrite
  refine ⟨_, rfl, ?_⟩
  try dsimp only
  repeat' with_reducible first
    | assumption | apply keeps_avsEnWrite

theorem keeps_thReq {s0 s : State} {a0 : Nat} (h : Keeps s0 s) :
    Keeps s0 (thReq a0 s) := by
  unfold thReq
  try dsimp only
  repeat' with_reducible first
    | assumption | apply keeps_setF | apply keeps_throttle | apply keeps_detect | apply keeps_onlyIf
    | intro _ _ _
    | intro _ _

theorem keeps_thRise {s0 s : State}  (h : Keeps s0 s) :
    Keeps s0 (thRise s) := by
  unfold thRise
  try dsimp only
  repeat' with_reducible first
    | assumption | apply keeps_thReq

theorem keeps_thermThreshold {s0 s : State} {a0 : Bool} {a1 : Nat} (h : Keeps s0 s) :
    Keeps s0 (thermThreshold a0 a1 s) := by
  unfold thermThreshold
  try dsimp only
  repeat' with_reducible first
    | assumption | apply keeps_setFs | apply keeps_detect | apply keeps_ite
    | (split <;> try dsimp only)

theorem keeps_execThermThresholdWrite {s0 s : State} {a0 : Bool} {a1 : Word} (h : Keeps s0 s) :
    ∃ t, execThermThresholdWrite a0 a1 s = .next t ∧ Keeps s0 t := by
  unfold execThermThresholdWrite
  refine ⟨_, rfl, ?_⟩
  try dsimp only
  repeat' with_reducible first
    | assumption | apply keeps_thermThreshold

theorem keeps_execThermalThrottleRise {s0 s : State}  (h : Keeps s0 s) :
    ∃ t, execThermalThrottleRise s = .next t ∧ Keeps s0 t := by
  unfold execThermalThrottleRise
  refine ⟨_, rfl, ?_⟩
  try dsimp only
  repeat' with_reducible first
    | assumption | apply keeps_thRise | apply keeps_ite
    | (split <;> try dsimp only)

theorem keeps_execThermalThrottleFall {s0 s : State}  (h : Keeps s0 s) :
    ∃ t, execThermalThrottleFall s = .next t ∧ Keeps s0 t := by
  unfold execThermalThrottleFall
  refine ⟨_, rfl, ?_⟩
  try dsimp only
  repeat' with_reducible first
    | assumption | apply keeps_thReq | apply keeps_ite
    | (split <;> try dsimp only)

theorem keeps_shutDomain {s0 s : State} {a1 : Nat} (h : Keeps s0 s) :
    Keeps s0 (shutDomain s a1) := by
  unfold shutDomain
  try dsimp only
  repeat' with_reducible first
    | assumption | apply keeps_setFs | apply keeps_forceOff | apply keeps_lasersOff | apply keeps_writeTxEnable | apply keeps_settle | apply keeps_offerDomain | apply keeps_setDom | apply keeps_offFromRetention | apply keeps_onlyIf
    | (refine Keeps.lit ?_ rfl rfl rfl rfl rfl rfl rfl rfl rfl rfl; first | assumption | apply keeps_setFs | apply keeps_forceOff | apply keeps_lasersOff | apply keeps_writeTxEnable | apply keeps_settle | apply keeps_offerDomain | apply keeps_setDom | apply keeps_offFromRetention | apply keeps_onlyIf)
    | (split <;> try dsimp only)
    | intro _ _ _
    | intro _ _

theorem keeps_shutTable {s0 s : State}  (h : Keeps s0 s) :
    Keeps s0 (shutTable s) := by
  unfold shutTable
  try dsimp only
  repeat' with_reducible first
    | assumption | apply keeps_setF | apply keeps_settle | apply keeps_offerDomain | apply keeps_isolate | apply keeps_quiesce | apply keeps_blocksLeave | apply keeps_setDom | apply keeps_onlyIf
    | (refine Keeps.lit ?_ rfl rfl rfl rfl rfl rfl rfl rfl rfl rfl; first | assumption | apply keeps_setF | apply keeps_settle | apply keeps_offerDomain | apply keeps_isolate | apply keeps_quiesce | apply keeps_blocksLeave | apply keeps_setDom | apply keeps_onlyIf)
    | (split <;> try dsimp only)
    | intro _ _ _
    | intro _ _

theorem keeps_shutdown {s0 s : State}  (h : Keeps s0 s) :
    Keeps s0 (shutdown s) := by
  unfold shutdown
  try dsimp only
  repeat' with_reducible first
    | assumption | apply keeps_lasersOff | apply keeps_shutDomain | apply keeps_shutTable | apply keeps_detect | apply keeps_setF | apply keeps_setB | apply keeps_foldl | apply keeps_ite
    | (split <;> try dsimp only)
    | intro _ _ _
    | intro _ _

theorem keeps_execShutdownCountExpiry {s0 s : State}  (h : Keeps s0 s) :
    ∃ t, execShutdownCountExpiry s = .next t ∧ Keeps s0 t := by
  unfold execShutdownCountExpiry
  refine ⟨_, rfl, ?_⟩
  try dsimp only
  repeat' with_reducible first
    | assumption | apply keeps_setF

theorem keeps_tempWarn {s0 s : State} {a0 : Int} (h : Keeps s0 s) :
    Keeps s0 (tempWarn a0 s) := by
  unfold tempWarn
  try dsimp only
  repeat' with_reducible first
    | assumption | apply keeps_detect | apply keeps_ite
    | (refine Keeps.lit ?_ rfl rfl rfl rfl rfl rfl rfl rfl rfl rfl; first | assumption | apply keeps_detect | apply keeps_ite)
    | (split <;> try dsimp only)

theorem keeps_tempThrottle {s0 s : State} {a0 : Int} (h : Keeps s0 s) :
    Keeps s0 (tempThrottle a0 s) := by
  unfold tempThrottle
  try dsimp only
  repeat' with_reducible first
    | assumption | apply keeps_thRise | apply keeps_ite
    | (refine Keeps.lit ?_ rfl rfl rfl rfl rfl rfl rfl rfl rfl rfl; first | assumption | apply keeps_thRise | apply keeps_ite)
    | (split <;> try dsimp only)

theorem keeps_tempShut {s0 s : State} {a0 : Int} (h : Keeps s0 s) :
    Keeps s0 (tempShut a0 s) := by
  unfold tempShut
  try dsimp only
  repeat' with_reducible first
    | assumption | apply keeps_shutDomain | apply keeps_shutdown | apply keeps_setB | apply keeps_ite
    | (split <;> try dsimp only)

theorem keeps_newTemp {s0 s : State} {a0 : Int} {a1 : Nat} (h : Keeps s0 s) :
    Keeps s0 (newTemp a0 a1 s) := by
  unfold newTemp
  try dsimp only
  repeat' with_reducible first
    | assumption | apply keeps_setF | apply keeps_setS | apply keeps_tempShut | apply keeps_tempThrottle | apply keeps_tempWarn

theorem keeps_tempFall {s0 s : State}  (h : Keeps s0 s) :
    Keeps s0 (tempFall s) := by
  unfold tempFall
  try dsimp only
  repeat' with_reducible first
    | assumption | apply keeps_newTemp | apply keeps_setF | apply keeps_ite
    | (split <;> try dsimp only)

theorem keeps_tempReading {s0 s : State} {a0 : Int} (h : Keeps s0 s) :
    Keeps s0 (tempReading a0 s) := by
  unfold tempReading
  try dsimp only
  repeat' with_reducible first
    | assumption | apply keeps_setS | apply keeps_tempFall | apply keeps_detect | apply keeps_setB | apply keeps_newTemp | apply keeps_ite
    | (refine Keeps.lit ?_ rfl rfl rfl rfl rfl rfl rfl rfl rfl rfl; first | assumption | apply keeps_setS | apply keeps_tempFall | apply keeps_detect | apply keeps_setB | apply keeps_newTemp | apply keeps_ite)
    | (split <;> try dsimp only)

theorem keeps_execTempReading {s0 s : State} {a0 : Int} (h : Keeps s0 s) :
    ∃ t, execTempReading a0 s = .next t ∧ Keeps s0 t := by
  unfold execTempReading
  refine ⟨_, rfl, ?_⟩
  try dsimp only
  repeat' with_reducible first
    | assumption | apply keeps_tempReading

theorem keeps_hostTempWrite {s0 s : State} {a0 : Nat} (h : Keeps s0 s) :
    Keeps s0 (hostTempWrite a0 s) := by
  unfold hostTempWrite
  try dsimp only
  repeat' with_reducible first
    | assumption | apply keeps_setFs | apply keeps_newTemp | apply keeps_ite
    | (split <;> try dsimp only)

theorem keeps_execHostTempWrite {s0 s : State} {a0 : Word} (h : Keeps s0 s) :
    ∃ t, execHostTempWrite a0 s = .next t ∧ Keeps s0 t := by
  unfold execHostTempWrite
  refine ⟨_, rfl, ?_⟩
  try dsimp only
  repeat' with_reducible first
    | assumption | apply keeps_hostTempWrite

theorem keeps_execHostStale {s0 s : State}  (h : Keeps s0 s) :
    ∃ t, execHostStale s = .next t ∧ Keeps s0 t := by
  unfold execHostStale
  refine ⟨_, rfl, ?_⟩
  try dsimp only
  repeat' with_reducible first
    | assumption | apply keeps_tempFall | apply keeps_setB | apply keeps_ite
    | (split <;> try dsimp only)

theorem keeps_execSensorReadingOld {s0 s : State}  (h : Keeps s0 s) :
    ∃ t, execSensorReadingOld s = .next t ∧ Keeps s0 t := by
  unfold execSensorReadingOld
  refine ⟨_, rfl, ?_⟩
  try dsimp only
  repeat' with_reducible first
    | assumption | apply keeps_tempFall
    | (refine Keeps.lit ?_ rfl rfl rfl rfl rfl rfl rfl rfl rfl rfl; first | assumption | apply keeps_tempFall)

theorem keeps_execHostTempStale {s0 s : State}  (h : Keeps s0 s) :
    ∃ t, execHostTempStale s = .next t ∧ Keeps s0 t := by
  unfold execHostTempStale
  refine ⟨_, rfl, ?_⟩
  try dsimp only
  repeat' with_reducible first
    | assumption | apply keeps_setF | apply keeps_throttle | apply keeps_detect | apply keeps_ite
    | (refine Keeps.lit ?_ rfl rfl rfl rfl rfl rfl rfl rfl rfl rfl; first | assumption | apply keeps_setF | apply keeps_throttle | apply keeps_detect | apply keeps_ite)
    | (split <;> try dsimp only)

end Sys2Proof.Machine
end

