-- ==== Sys2Proof/Laws/Keeps/Fabric.lean ====
section
/-! SUPPORT. What the operations of Machine/Fabric.lean keep. -/
set_option linter.all false
namespace Sys2Proof.Machine

theorem keeps_setBushel {s0 s : State} {a1 : Nat} {a2 : Bushel} (h : Keeps s0 s) :
    Keeps s0 (setBushel s a1 a2) := by
  unfold setBushel
  try dsimp only
  repeat' with_reducible first
    | assumption
    | (refine Keeps.lit ?_ rfl rfl rfl rfl rfl rfl rfl rfl rfl rfl; first | assumption)

theorem keeps_headroomPath {s0 s : State}  (h : Keeps s0 s) :
    Keeps s0 (headroomPath s) := by
  unfold headroomPath
  try dsimp only
  repeat' with_reducible first
    | assumption | apply keeps_setF | apply keeps_detect | apply keeps_throttle | apply keeps_onlyIf | apply keeps_ite
    | (refine Keeps.lit ?_ rfl rfl rfl rfl rfl rfl rfl rfl rfl rfl; first | assumption | apply keeps_setF | apply keeps_detect | apply keeps_throttle | apply keeps_onlyIf | apply keeps_ite)
    | (split <;> try dsimp only)
    | intro _ _ _
    | intro _ _

theorem keeps_headroomReport {s0 s : State}  (h : Keeps s0 s) :
    Keeps s0 (headroomReport s) := by
  unfold headroomReport
  try dsimp only
  repeat' with_reducible first
    | assumption | apply keeps_setFs | apply keeps_ite
    | (split <;> try dsimp only)
    | intro _ _

theorem keeps_windowEnd {s0 s : State} {a0 : Nat} {a1 : Nat} {a2 : Nat} (h : Keeps s0 s) :
    Keeps s0 (windowEnd a0 a1 a2 s) := by
  unfold windowEnd
  try dsimp only
  repeat' with_reducible first
    | assumption | apply keeps_setFs | apply keeps_drew | apply keeps_setBushel | apply keeps_histSample | apply keeps_headroomPath | apply keeps_headroomReport | apply keeps_ite
    | (refine Keeps.lit ?_ rfl rfl rfl rfl rfl rfl rfl rfl rfl rfl; first | assumption | apply keeps_setFs | apply keeps_drew | apply keeps_setBushel | apply keeps_histSample | apply keeps_headroomPath | apply keeps_headroomReport | apply keeps_ite)
    | (split <;> try dsimp only)

theorem keeps_execHeadroomWindowEnd {s0 s : State} {a0 : Fin 12} {a1 : Nat} {a2 : Nat} (h : Keeps s0 s) :
    ∃ t, execHeadroomWindowEnd a0 a1 a2 s = .next t ∧ Keeps s0 t := by
  unfold execHeadroomWindowEnd
  refine ⟨_, rfl, ?_⟩
  try dsimp only
  repeat' with_reducible first
    | assumption | apply keeps_windowEnd

theorem keeps_winWrite {s0 s : State} {a0 : Nat} (h : Keeps s0 s) :
    Keeps s0 (winWrite a0 s) := by
  unfold winWrite
  try dsimp only
  repeat' with_reducible first
    | assumption | apply keeps_setBushel | apply keeps_setF | apply keeps_foldl | apply keeps_ite
    | (refine Keeps.lit ?_ rfl rfl rfl rfl rfl rfl rfl rfl rfl rfl; first | assumption | apply keeps_setBushel | apply keeps_setF | apply keeps_foldl | apply keeps_ite)
    | (split <;> try dsimp only)
    | intro _ _ _
    | intro _ _

theorem keeps_hrThreshold {s0 s : State} {a0 : Bool} {a1 : Nat} (h : Keeps s0 s) :
    Keeps s0 (hrThreshold a0 a1 s) := by
  unfold hrThreshold
  try dsimp only
  repeat' with_reducible first
    | assumption | apply keeps_setFs | apply keeps_detect | apply keeps_ite
    | (split <;> try dsimp only)

theorem keeps_execHrThresholdWrite {s0 s : State} {a0 : Bool} {a1 : Word} (h : Keeps s0 s) :
    ∃ t, execHrThresholdWrite a0 a1 s = .next t ∧ Keeps s0 t := by
  unfold execHrThresholdWrite
  refine ⟨_, rfl, ?_⟩
  try dsimp only
  repeat' with_reducible first
    | assumption | apply keeps_hrThreshold

theorem keeps_hostSlip {s0 s : State} {a0 : Nat} {a1 : Nat} (h : Keeps s0 s) :
    Keeps s0 (hostSlip a0 a1 s) := by
  unfold hostSlip
  try dsimp only
  repeat' with_reducible first
    | assumption | apply keeps_lockLost | apply keeps_ite
    | (split <;> try dsimp only)

theorem keeps_slipLine {s0 s : State} {a0 : Nat} (h : Keeps s0 s) :
    Keeps s0 (slipLine a0 s) := by
  unfold slipLine
  try dsimp only
  repeat' with_reducible first
    | assumption | apply keeps_ite
    | (refine Keeps.lit ?_ rfl rfl rfl rfl rfl rfl rfl rfl rfl rfl; first | assumption | apply keeps_ite)
    | (split <;> try dsimp only)

theorem keeps_slipToken {s0 s : State} {a0 : Nat} {a1 : Nat} {a2 : Nat} (h : Keeps s0 s) :
    Keeps s0 (slipToken a0 a1 a2 s) := by
  unfold slipToken
  try dsimp only
  repeat' with_reducible first
    | assumption | apply keeps_setF | apply keeps_hostSlip | apply keeps_detect | apply keeps_ite
    | (split <;> try dsimp only)

theorem keeps_execBushelSlip {s0 s : State} {a0 : BushelTok} (h : Keeps s0 s) :
    ∃ t, execBushelSlip a0 s = .next t ∧ Keeps s0 t := by
  unfold execBushelSlip
  refine ⟨_, rfl, ?_⟩
  try dsimp only
  repeat' with_reducible first
    | assumption | apply keeps_slipToken | apply keeps_slipLine | apply keeps_setBushel | apply keeps_ite
    | (refine Keeps.lit ?_ rfl rfl rfl rfl rfl rfl rfl rfl rfl rfl; first | assumption | apply keeps_slipToken | apply keeps_slipLine | apply keeps_setBushel | apply keeps_ite)
    | (split <;> try dsimp only)

theorem keeps_execSlipRecovery {s0 s : State} {a0 : BushelTok} (h : Keeps s0 s) :
    ∃ t, execSlipRecovery a0 s = .next t ∧ Keeps s0 t := by
  unfold execSlipRecovery
  refine ⟨_, rfl, ?_⟩
  try dsimp only
  repeat' with_reducible first
    | assumption | apply keeps_slipLine | apply keeps_setBushel | apply keeps_ite
    | (refine Keeps.lit ?_ rfl rfl rfl rfl rfl rfl rfl rfl rfl rfl; first | assumption | apply keeps_slipLine | apply keeps_setBushel | apply keeps_ite)
    | (split <;> try dsimp only)

theorem keeps_execFillToken {s0 s : State} {a0 : FillReq} (h : Keeps s0 s) :
    ∃ t, execFillToken a0 s = .next t ∧ Keeps s0 t := by
  unfold execFillToken
  refine ⟨_, rfl, ?_⟩
  try dsimp only
  repeat' with_reducible first
    | assumption | apply keeps_slipToken | apply keeps_setBushel | apply keeps_ite
    | (refine Keeps.lit ?_ rfl rfl rfl rfl rfl rfl rfl rfl rfl rfl; first | assumption | apply keeps_slipToken | apply keeps_setBushel | apply keeps_ite)
    | (split <;> try dsimp only)

end Sys2Proof.Machine
end

