-- ==== Sys2Proof/Laws/Keeps/Chain.lean ====
section
/-! SUPPORT. What the operations of Machine/Chain.lean keep. -/
set_option linter.all false
namespace Sys2Proof.Machine

theorem keeps_takeSeq {s0 s : State} {a0 : Nat} (h : Keeps s0 s) :
    Keeps s0 (takeSeq a0 s) := by
  unfold takeSeq
  try dsimp only
  repeat' with_reducible first
    | assumption | apply keeps_detect | apply keeps_ite
    | (refine Keeps.lit ?_ rfl rfl rfl rfl rfl rfl rfl rfl rfl rfl; first | assumption | apply keeps_detect | apply keeps_ite)
    | (split <;> try dsimp only)

theorem keeps_inbound {s0 s : State} {a0 : Nat} {a1 : Packet} {a3 : State → State} (h3 : ∀ s, Keeps s0 s → Keeps s0 (a3 s)) (h : Keeps s0 s) :
    Keeps s0 (inbound a0 a1 s a3) := by
  unfold inbound
  try dsimp only
  repeat' with_reducible first
    | assumption | apply keeps_detect | apply keeps_takeSeq | apply h3 | apply keeps_ite
    | (split <;> try dsimp only)
    | intro _ _ _
    | intro _ _

theorem keeps_inStream {s0 s : State} {a0 : Nat} {a1 : Nat} {a2 : Packet} {a4 : State → State} (h4 : ∀ s, Keeps s0 s → Keeps s0 (a4 s)) (h : Keeps s0 s) :
    Keeps s0 (inStream a0 a1 a2 s a4) := by
  unfold inStream
  try dsimp only
  repeat' with_reducible first
    | assumption | apply keeps_inbound | apply keeps_detect | apply h4 | apply keeps_ite
    | (refine Keeps.lit ?_ rfl rfl rfl rfl rfl rfl rfl rfl rfl rfl; first | assumption | apply keeps_inbound | apply keeps_detect | apply h4 | apply keeps_ite)
    | (split <;> try dsimp only)
    | intro _ _ _
    | intro _ _

theorem keeps_execBadPacket {s0 s : State} {a0 : Byte} {a1 : BitVec 16} {a2 : Packet} (h : Keeps s0 s) :
    ∃ t, execBadPacket a0 a1 a2 s = .next t ∧ Keeps s0 t := by
  unfold execBadPacket
  refine ⟨_, rfl, ?_⟩
  try dsimp only
  repeat' with_reducible first
    | assumption | apply keeps_detect | apply keeps_takeSeq | apply keeps_ite
    | (split <;> try dsimp only)

theorem keeps_takeCredit {s0 s : State} {a0 : List Byte} (h : Keeps s0 s) :
    Keeps s0 (takeCredit a0 s) := by
  unfold takeCredit
  try dsimp only
  repeat' with_reducible first
    | assumption | apply keeps_foldl
    | (refine Keeps.lit ?_ rfl rfl rfl rfl rfl rfl rfl rfl rfl rfl; first | assumption | apply keeps_foldl)
    | intro _ _ _
    | intro _ _

theorem keeps_execCredit {s0 s : State} {a0 : Packet} (h : Keeps s0 s) :
    ∃ t, execCredit a0 s = .next t ∧ Keeps s0 t := by
  unfold execCredit
  refine ⟨_, rfl, ?_⟩
  try dsimp only
  repeat' with_reducible first
    | assumption | apply keeps_inbound | apply keeps_takeCredit | apply keeps_ite
    | (split <;> try dsimp only)
    | intro _ _

theorem keeps_creditSend {s0 s : State}  (h : Keeps s0 s) :
    Keeps s0 (creditSend s) := by
  unfold creditSend
  try dsimp only
  repeat' with_reducible first
    | assumption | apply keeps_sendPkt | apply keeps_foldl | apply keeps_ite
    | (refine Keeps.lit ?_ rfl rfl rfl rfl rfl rfl rfl rfl rfl rfl; first | assumption | apply keeps_sendPkt | apply keeps_foldl | apply keeps_ite)
    | (split <;> try dsimp only)
    | intro _ _ _
    | intro _ _

theorem keeps_execCreditSend {s0 s : State}  (h : Keeps s0 s) :
    ∃ t, execCreditSend s = .next t ∧ Keeps s0 t := by
  unfold execCreditSend
  refine ⟨_, rfl, ?_⟩
  try dsimp only
  repeat' with_reducible first
    | assumption | apply keeps_creditSend

theorem keeps_execLinkUp {s0 s : State}  (h : Keeps s0 s) :
    ∃ t, execLinkUp s = .next t ∧ Keeps s0 t := by
  unfold execLinkUp
  refine ⟨_, rfl, ?_⟩
  try dsimp only
  repeat' with_reducible first
    | assumption | apply keeps_detect | apply keeps_setB | apply keeps_ite
    | (refine Keeps.lit ?_ rfl rfl rfl rfl rfl rfl rfl rfl rfl rfl; first | assumption | apply keeps_detect | apply keeps_setB | apply keeps_ite)
    | (split <;> try dsimp only)

theorem keeps_snapInFail {s0 s : State}  (h : Keeps s0 s) :
    Keeps s0 (snapInFail s) := by
  unfold snapInFail
  try dsimp only
  repeat' with_reducible first
    | assumption | apply keeps_killSlot | apply keeps_storeDone | apply keeps_detect | apply keeps_setB | apply keeps_onlyIf
    | (refine Keeps.lit ?_ rfl rfl rfl rfl rfl rfl rfl rfl rfl rfl; first | assumption | apply keeps_killSlot | apply keeps_storeDone | apply keeps_detect | apply keeps_setB | apply keeps_onlyIf)
    | intro _ _ _
    | intro _ _

theorem keeps_linkDown {s0 s : State}  (h : Keeps s0 s) :
    Keeps s0 (linkDown s) := by
  unfold linkDown
  try dsimp only
  repeat' with_reducible first
    | assumption | apply keeps_setFs | apply keeps_detect | apply keeps_snapInFail | apply keeps_ite
    | (refine Keeps.lit ?_ rfl rfl rfl rfl rfl rfl rfl rfl rfl rfl; first | assumption | apply keeps_setFs | apply keeps_detect | apply keeps_snapInFail | apply keeps_ite)
    | (split <;> try dsimp only)

theorem keeps_execRxLockLost {s0 s : State}  (h : Keeps s0 s) :
    ∃ t, execRxLockLost s = .next t ∧ Keeps s0 t := by
  unfold execRxLockLost
  refine ⟨_, rfl, ?_⟩
  try dsimp only
  repeat' with_reducible first
    | assumption | apply keeps_linkDown | apply keeps_detect | apply keeps_ite
    | (refine Keeps.lit ?_ rfl rfl rfl rfl rfl rfl rfl rfl rfl rfl; first | assumption | apply keeps_linkDown | apply keeps_detect | apply keeps_ite)
    | (split <;> try dsimp only)

theorem keeps_execCreditTimeout {s0 s : State}  (h : Keeps s0 s) :
    ∃ t, execCreditTimeout s = .next t ∧ Keeps s0 t := by
  unfold execCreditTimeout
  refine ⟨_, rfl, ?_⟩
  try dsimp only
  repeat' with_reducible first
    | assumption | apply keeps_linkDown | apply keeps_ite
    | (split <;> try dsimp only)

theorem keeps_execStreamStall {s0 s : State} {a0 : Fin 8} (h : Keeps s0 s) :
    ∃ t, execStreamStall a0 s = .next t ∧ Keeps s0 t := by
  unfold execStreamStall
  refine ⟨_, rfl, ?_⟩
  try dsimp only
  repeat' with_reducible first
    | assumption | apply keeps_detect | apply keeps_ite
    | (split <;> try dsimp only)

theorem keeps_drainReq {s0 s : State}  (h : Keeps s0 s) :
    Keeps s0 (drainReq s) := by
  unfold drainReq
  try dsimp only
  repeat' with_reducible first
    | assumption | apply keeps_ite
    | (refine Keeps.lit ?_ rfl rfl rfl rfl rfl rfl rfl rfl rfl rfl; first | assumption | apply keeps_ite)
    | (split <;> try dsimp only)
    | intro _ _

theorem keeps_execDrainReq {s0 s : State}  (h : Keeps s0 s) :
    ∃ t, execDrainReq s = .next t ∧ Keeps s0 t := by
  unfold execDrainReq
  refine ⟨_, rfl, ?_⟩
  try dsimp only
  repeat' with_reducible first
    | assumption | apply keeps_drainReq

theorem keeps_ledgerPacket {s0 s : State} {a1 : DrainSt} (h : Keeps s0 s) :
    Keeps s0 (ledgerPacket s a1) := by
  unfold ledgerPacket
  try dsimp only
  repeat' with_reducible first
    | assumption | apply keeps_sendPkt | apply keeps_detect | apply keeps_ite
    | (refine Keeps.lit ?_ rfl rfl rfl rfl rfl rfl rfl rfl rfl rfl; first | assumption | apply keeps_sendPkt | apply keeps_detect | apply keeps_ite)
    | (split <;> try dsimp only)
    | intro _ _

theorem keeps_execLedger {s0 s : State}  (h : Keeps s0 s) :
    ∃ t, execLedger s = .next t ∧ Keeps s0 t := by
  unfold execLedger
  refine ⟨_, rfl, ?_⟩
  try dsimp only
  repeat' with_reducible first
    | assumption | apply keeps_ledgerPacket | apply keeps_ite
    | (split <;> try dsimp only)

theorem keeps_capTrigger {s0 s : State}  (h : Keeps s0 s) :
    Keeps s0 (capTrigger s) := by
  unfold capTrigger
  try dsimp only
  repeat' with_reducible first
    | assumption
    | (refine Keeps.lit ?_ rfl rfl rfl rfl rfl rfl rfl rfl rfl rfl; first | assumption)

theorem keeps_capStart {s0 s : State}  (h : Keeps s0 s) :
    Keeps s0 (capStart s) := by
  unfold capStart
  try dsimp only
  repeat' with_reducible first
    | assumption | apply keeps_detect | apply keeps_setB | apply keeps_capTrigger | apply keeps_ite
    | (refine Keeps.lit ?_ rfl rfl rfl rfl rfl rfl rfl rfl rfl rfl; first | assumption | apply keeps_detect | apply keeps_setB | apply keeps_capTrigger | apply keeps_ite)
    | (split <;> try dsimp only)

theorem keeps_execCapStart {s0 s : State}  (h : Keeps s0 s) :
    ∃ t, execCapStart s = .next t ∧ Keeps s0 t := by
  unfold execCapStart
  refine ⟨_, rfl, ?_⟩
  try dsimp only
  repeat' with_reducible first
    | assumption | apply keeps_capStart

theorem keeps_execCaptureTrigger {s0 s : State}  (h : Keeps s0 s) :
    ∃ t, execCaptureTrigger s = .next t ∧ Keeps s0 t := by
  unfold execCaptureTrigger
  refine ⟨_, rfl, ?_⟩
  try dsimp only
  repeat' with_reducible first
    | assumption | apply keeps_capTrigger | apply keeps_detect | apply keeps_ite
    | (split <;> try dsimp only)

theorem keeps_captureDone {s0 s : State} {a0 : List (BitVec 56)} (h : Keeps s0 s) :
    Keeps s0 (captureDone a0 s) := by
  unfold captureDone
  try dsimp only
  repeat' with_reducible first
    | assumption | apply keeps_unpoison | apply keeps_setFs | apply keeps_detect | apply keeps_foldl | apply keeps_ite
    | (refine Keeps.lit ?_ rfl rfl rfl rfl rfl rfl rfl rfl rfl rfl; first | assumption | apply keeps_unpoison | apply keeps_setFs | apply keeps_detect | apply keeps_foldl | apply keeps_ite)
    | (split <;> try dsimp only)
    | intro _ _ _
    | intro _ _

theorem keeps_execCaptureDone {s0 s : State} {a0 : List (BitVec 56)} (h : Keeps s0 s) :
    ∃ t, execCaptureDone a0 s = .next t ∧ Keeps s0 t := by
  unfold execCaptureDone
  refine ⟨_, rfl, ?_⟩
  try dsimp only
  repeat' with_reducible first
    | assumption | apply keeps_captureDone

theorem keeps_capturePacket {s0 s : State}  (h : Keeps s0 s) :
    Keeps s0 (capturePacket s) := by
  unfold capturePacket
  try dsimp only
  repeat' with_reducible first
    | assumption | apply keeps_sendPkt | apply keeps_detect | apply keeps_setB | apply keeps_ite
    | (refine Keeps.lit ?_ rfl rfl rfl rfl rfl rfl rfl rfl rfl rfl; first | assumption | apply keeps_sendPkt | apply keeps_detect | apply keeps_setB | apply keeps_ite)
    | (split <;> try dsimp only)

theorem keeps_execCapture {s0 s : State}  (h : Keeps s0 s) :
    ∃ t, execCapture s = .next t ∧ Keeps s0 t := by
  unfold execCapture
  refine ⟨_, rfl, ?_⟩
  try dsimp only
  repeat' with_reducible first
    | assumption | apply keeps_capturePacket

theorem keeps_execConfig {s0 s : State} {a0 : Packet} (h : Keeps s0 s) :
    ∃ t, execConfig a0 s = .next t ∧ Keeps s0 t := by
  unfold execConfig
  refine ⟨_, rfl, ?_⟩
  try dsimp only
  repeat' with_reducible first
    | assumption | apply keeps_inStream | apply keeps_feed | apply keeps_detect | apply keeps_ite
    | (split <;> try dsimp only)
    | intro _ _

theorem keeps_snapInStart {s0 s : State}  (h : Keeps s0 s) :
    Keeps s0 (snapInStart s) := by
  unfold snapInStart
  try dsimp only
  repeat' with_reducible first
    | assumption | apply keeps_storeWant | apply keeps_setB | refine keeps_setCells ?_ (flashErase_wf _ _) | refine keeps_setCells ?_ (flashProgram_wf _ _) | apply keeps_ite
    | (refine Keeps.lit ?_ rfl rfl rfl rfl rfl rfl rfl rfl rfl rfl; first | assumption | apply keeps_storeWant | apply keeps_setB | refine keeps_setCells ?_ (flashErase_wf _ _) | refine keeps_setCells ?_ (flashProgram_wf _ _) | apply keeps_ite)
    | (split <;> try dsimp only)

theorem keeps_snapInData {s0 s : State} {a0 : List Byte} {a1 : Bool} (h : Keeps s0 s) :
    Keeps s0 (snapInData a0 a1 s) := by
  unfold snapInData
  try dsimp only
  repeat' with_reducible first
    | assumption | apply keeps_snapInFail | apply keeps_detect | refine keeps_setCells ?_ (flashErase_wf _ _) | refine keeps_setCells ?_ (flashProgram_wf _ _) | apply keeps_ite
    | (refine Keeps.lit ?_ rfl rfl rfl rfl rfl rfl rfl rfl rfl rfl; first | assumption | apply keeps_snapInFail | apply keeps_detect | refine keeps_setCells ?_ (flashErase_wf _ _) | refine keeps_setCells ?_ (flashProgram_wf _ _) | apply keeps_ite)
    | (split <;> try dsimp only)

theorem keeps_snapIn {s0 s : State} {a0 : Packet} (h : Keeps s0 s) :
    Keeps s0 (snapIn a0 s) := by
  unfold snapIn
  try dsimp only
  repeat' with_reducible first
    | assumption | apply keeps_snapInFail | apply keeps_snapInData | apply keeps_snapInStart | apply keeps_onlyIf | apply keeps_ite
    | (split <;> try dsimp only)
    | intro _ _ _
    | intro _ _

theorem keeps_execSnapshot {s0 s : State} {a0 : Packet} (h : Keeps s0 s) :
    ∃ t, execSnapshot a0 s = .next t ∧ Keeps s0 t := by
  unfold execSnapshot
  refine ⟨_, rfl, ?_⟩
  try dsimp only
  repeat' with_reducible first
    | assumption | apply keeps_inStream | apply keeps_snapIn
    | intro _ _

theorem keeps_storeIn {s0 s : State} {a0 : Packet} (h : Keeps s0 s) :
    Keeps s0 (storeIn a0 s) := by
  unfold storeIn
  try dsimp only
  repeat' with_reducible first
    | assumption | apply keeps_detect | apply keeps_setB | apply keeps_storeWant | refine keeps_setCells ?_ (flashErase_wf _ _) | refine keeps_setCells ?_ (flashProgram_wf _ _) | apply keeps_ite
    | (split <;> try dsimp only)

theorem keeps_execStore {s0 s : State} {a0 : Packet} (h : Keeps s0 s) :
    ∃ t, execStore a0 s = .next t ∧ Keeps s0 t := by
  unfold execStore
  refine ⟨_, rfl, ?_⟩
  try dsimp only
  repeat' with_reducible first
    | assumption | apply keeps_inStream | apply keeps_storeIn
    | intro _ _

end Sys2Proof.Machine
end

