-- ==== Sys2Proof/Laws/Keeps/Steward.lean ====
section
/-! SUPPORT. What the operations of Machine/Steward.lean keep. -/
set_option linter.all false
namespace Sys2Proof.Machine

theorem keeps_doorbell {s0 s : State}  (h : Keeps s0 s) :
    Keeps s0 (doorbell s) := by
  unfold doorbell
  try dsimp only
  repeat' with_reducible first
    | assumption | apply keeps_detect | apply keeps_setB | apply keeps_ite
    | (split <;> try dsimp only)

theorem keeps_execDoorbell {s0 s : State}  (h : Keeps s0 s) :
    ∃ t, execDoorbell s = .next t ∧ Keeps s0 t := by
  unfold execDoorbell
  refine ⟨_, rfl, ?_⟩
  try dsimp only
  repeat' with_reducible first
    | assumption | apply keeps_doorbell

theorem keeps_execMboxResponse {s0 s : State} {a0 : Word} {a1 : Word} {a2 : Word} {a3 : Word} {a4 : Byte} (h : Keeps s0 s) :
    ∃ t, execMboxResponse a0 a1 a2 a3 a4 s = .next t ∧ Keeps s0 t := by
  unfold execMboxResponse
  refine ⟨_, rfl, ?_⟩
  try dsimp only
  repeat' with_reducible first
    | assumption | apply keeps_detect | apply keeps_setFs | apply keeps_ite
    | (split <;> try dsimp only)

theorem keeps_execWatchdogExpiry {s0 s : State}  (h : Keeps s0 s) :
    ∃ t, execWatchdogExpiry s = .next t ∧ Keeps s0 t := by
  unfold execWatchdogExpiry
  refine ⟨_, rfl, ?_⟩
  try dsimp only
  repeat' with_reducible first
    | assumption | apply keeps_detect | apply keeps_stwReinit | apply keeps_ite
    | (split <;> try dsimp only)

theorem keeps_dmaStart {s0 s : State} {a0 : Nat} (h : Keeps s0 s) :
    Keeps s0 (dmaStart a0 s) := by
  unfold dmaStart
  try dsimp only
  repeat' with_reducible first
    | assumption | apply keeps_setF | apply keeps_storeWant | apply keeps_setFs | apply keeps_onlyIf | apply keeps_ite
    | (refine Keeps.lit ?_ rfl rfl rfl rfl rfl rfl rfl rfl rfl rfl; first | assumption | apply keeps_setF | apply keeps_storeWant | apply keeps_setFs | apply keeps_onlyIf | apply keeps_ite)
    | (split <;> try dsimp only)
    | intro _ _ _
    | intro _ _

theorem keeps_execDmaStart {s0 s : State} {a0 : Fin 8} (h : Keeps s0 s) :
    ∃ t, execDmaStart a0 s = .next t ∧ Keeps s0 t := by
  unfold execDmaStart
  refine ⟨_, rfl, ?_⟩
  try dsimp only
  repeat' with_reducible first
    | assumption | apply keeps_dmaStart

theorem keeps_dmaWrite {s0 s : State} {a0 : Nat} {a1 : Nat} {a2 : List Byte} (h : Keeps s0 s) :
    Keeps s0 (dmaWrite a0 a1 a2 s) := by
  unfold dmaWrite
  try dsimp only
  repeat' with_reducible first
    | assumption | apply keeps_unpoison | apply keeps_setEntry | apply keeps_each | refine keeps_setCells ?_ (flashErase_wf _ _) | refine keeps_setCells ?_ (flashProgram_wf _ _) | apply keeps_ite
    | (refine Keeps.lit ?_ rfl rfl rfl rfl rfl rfl rfl rfl rfl rfl; first | assumption | apply keeps_unpoison | apply keeps_setEntry | apply keeps_each | refine keeps_setCells ?_ (flashErase_wf _ _) | refine keeps_setCells ?_ (flashProgram_wf _ _) | apply keeps_ite)
    | (split <;> try dsimp only)
    | intro _ _ _
    | intro _ _

theorem keeps_dmaDrew {s0 s : State} {a0 : Nat} {a1 : Nat} (h : Keeps s0 s) :
    Keeps s0 (dmaDrew a0 a1 s) := by
  unfold dmaDrew
  try dsimp only
  repeat' with_reducible first
    | assumption | apply keeps_drew | apply keeps_onlyIf
    | intro _ _ _
    | intro _ _

theorem keeps_dmaWord {s0 s : State} {a0 : DmaRun} {a2 : Nat} (h : Keeps s0 s) :
    Keeps s0 (dmaWord a0 s a2) := by
  unfold dmaWord
  try dsimp only
  repeat' with_reducible first
    | assumption | apply keeps_dmaWrite | apply keeps_dmaDrew

theorem keeps_dmaGather {s0 s : State} {r : DmaRun} {l : List Nat} {bs : List Byte} (h : Keeps s0 s) :
    Keeps s0 (l.foldl (fun (x : State × List Byte) i =>
      (dmaDrew r.srcSpace (wordAddr r.srcSpace r.src i) x.1,
        x.2 ++ dmaRead x.1 r.srcSpace (wordAddr r.srcSpace r.src i))) (s, bs)).1 := by
  induction l generalizing s bs with
  | nil => exact h
  | cons i l ih => exact ih (keeps_dmaDrew h)

theorem keeps_dmaBytes {s0 s : State} {a0 : DmaRun} {a1 : Nat} (h : Keeps s0 s) : Keeps s0 (dmaBytes a0 a1 s).1 :=
  keeps_dmaGather h

theorem keeps_dmaPackets {s0 s : State} {a0 : List Byte} (h : Keeps s0 s) :
    Keeps s0 (dmaPackets a0 s) := by
  unfold dmaPackets
  try dsimp only
  repeat' with_reducible first
    | assumption | apply keeps_sendPkt | apply keeps_foldl | apply keeps_ite
    | (split <;> try dsimp only)
    | intro _ _ _
    | intro _ _

theorem keeps_dmaCopy {s0 s : State} {a0 : DmaRun} {a1 : Nat} (h : Keeps s0 s) :
    Keeps s0 (dmaCopy a0 a1 s) := by
  unfold dmaCopy
  try dsimp only
  repeat' with_reducible first
    | assumption | apply keeps_dmaBytes | apply keeps_dmaPackets | apply keeps_dmaWord | apply keeps_each | apply keeps_ite
    | refine Keeps.fst_of ?_ (by assumption)
    | (split <;> try dsimp only)
    | intro _ _ _
    | intro _ _

theorem keeps_dmaHalt {s0 s : State} {a0 : Nat} {a1 : Nat} (h : Keeps s0 s) :
    Keeps s0 (dmaHalt a0 a1 s) := by
  unfold dmaHalt
  try dsimp only
  repeat' with_reducible first
    | assumption | apply keeps_detect | apply keeps_setFs | apply keeps_ite
    | (split <;> try dsimp only)

theorem keeps_sourceAction {s0 s : State} {a0 : Nat} {a1 : Nat} (h : Keeps s0 s) :
    Keeps s0 (sourceAction a0 a1 s) := by
  unfold sourceAction
  try dsimp only
  repeat' with_reducible first
    | assumption | apply keeps_memUncorr | apply keeps_ite
    | (split <;> try dsimp only)

theorem keeps_dmaSource {s0 s : State} {a0 : Nat} {a1 : Nat} {a2 : Nat} (h : Keeps s0 s) :
    Keeps s0 (dmaSource a0 a1 a2 s) := by
  unfold dmaSource
  try dsimp only
  repeat' with_reducible first
    | assumption | apply keeps_setF | apply keeps_dmaHalt | apply keeps_sourceAction | apply keeps_ite
    | (split <;> try dsimp only)

theorem keeps_userDone {s0 s : State} {a0 : Nat} {a1 : DmaOutcome} (h : Keeps s0 s) :
    Keeps s0 (userDone a0 a1 s) := by
  unfold userDone
  try dsimp only
  repeat' with_reducible first
    | assumption | apply keeps_storeDone | apply keeps_detect | apply keeps_setB | apply keeps_dmaCopy | apply keeps_dmaSource | apply keeps_dmaHalt | apply keeps_drew | apply keeps_onlyIf | apply keeps_ite
    | (refine Keeps.lit ?_ rfl rfl rfl rfl rfl rfl rfl rfl rfl rfl; first | assumption | apply keeps_storeDone | apply keeps_detect | apply keeps_setB | apply keeps_dmaCopy | apply keeps_dmaSource | apply keeps_dmaHalt | apply keeps_drew | apply keeps_onlyIf | apply keeps_ite)
    | (split <;> try dsimp only)
    | intro _ _ _
    | intro _ _

theorem keeps_snapDone {s0 s : State} {a0 : DmaOutcome} (h : Keeps s0 s) :
    Keeps s0 (snapDone a0 s) := by
  unfold snapDone
  try dsimp only
  repeat' with_reducible first
    | assumption | apply keeps_detect | apply keeps_endSnap | apply keeps_dmaSource | apply keeps_dmaHalt | apply keeps_onlyIf | apply keeps_ite
    | (split <;> try dsimp only)
    | intro _ _ _
    | intro _ _

theorem keeps_execSnapshotPageCopy {s0 s : State}  (h : Keeps s0 s) :
    ∃ t, execSnapshotPageCopy s = .next t ∧ Keeps s0 t := by
  unfold execSnapshotPageCopy
  refine ⟨_, rfl, ?_⟩
  try dsimp only
  repeat' with_reducible first
    | assumption | apply keeps_snapDone | apply keeps_copyPage | apply keeps_ite
    | (split <;> try dsimp only)

theorem keeps_streamDone {s0 s : State} {a0 : DmaOutcome} (h : Keeps s0 s) :
    Keeps s0 (streamDone a0 s) := by
  unfold streamDone
  try dsimp only
  repeat' with_reducible first
    | assumption | apply keeps_sourceAction | apply keeps_ite
    | (split <;> try dsimp only)

theorem keeps_snapInCut {s0 s : State}  (h : Keeps s0 s) :
    Keeps s0 (snapInCut s) := by
  unfold snapInCut
  try dsimp only
  repeat' with_reducible first
    | assumption | apply keeps_snapInFail | apply keeps_storeDone | apply keeps_ite
    | (split <;> try dsimp only)

theorem keeps_snapInDone {s0 s : State} {a0 : DmaOutcome} (h : Keeps s0 s) :
    Keeps s0 (snapInDone a0 s) := by
  unfold snapInDone
  try dsimp only
  repeat' with_reducible first
    | assumption | apply keeps_detect | apply keeps_setB | apply keeps_storeDone | apply keeps_dmaSource | apply keeps_snapInCut | apply keeps_dmaHalt | apply keeps_ite
    | (split <;> try dsimp only)

theorem keeps_storeInDone {s0 s : State} {a0 : DmaOutcome} (h : Keeps s0 s) :
    Keeps s0 (storeInDone a0 s) := by
  unfold storeInDone
  try dsimp only
  repeat' with_reducible first
    | assumption | apply keeps_detect | apply keeps_setB | apply keeps_storeDone | apply keeps_dmaSource | apply keeps_dmaHalt | apply keeps_ite
    | (split <;> try dsimp only)

theorem keeps_dmaDone {s0 s : State} {a0 : Nat} {a1 : DmaOutcome} (h : Keeps s0 s) :
    Keeps s0 (dmaDone a0 a1 s) := by
  unfold dmaDone
  try dsimp only
  repeat' with_reducible first
    | assumption | apply keeps_snapDone | apply keeps_streamDone | apply keeps_snapInDone | apply keeps_storeInDone | apply keeps_userDone | apply keeps_ite
    | (split <;> try dsimp only)

theorem keeps_transferFails {s0 s : State}  (h : Keeps s0 s) :
    Keeps s0 (transferFails s) := by
  unfold transferFails
  try dsimp only
  repeat' with_reducible first
    | assumption | apply keeps_endRec | apply keeps_snapInDone | apply keeps_storeInDone | apply keeps_userDone | apply keeps_ite
    | (split <;> try dsimp only)
    | intro _ _

theorem keeps_execStoreBusyTimeout {s0 s : State}  (h : Keeps s0 s) :
    ∃ t, execStoreBusyTimeout s = .next t ∧ Keeps s0 t := by
  unfold execStoreBusyTimeout
  refine ⟨_, rfl, ?_⟩
  try dsimp only
  repeat' with_reducible first
    | assumption | apply keeps_transferFails | apply keeps_detect | apply keeps_ite
    | (refine Keeps.lit ?_ rfl rfl rfl rfl rfl rfl rfl rfl rfl rfl; first | assumption | apply keeps_transferFails | apply keeps_detect | apply keeps_ite)
    | (split <;> try dsimp only)

theorem keeps_execDmaDone {s0 s : State} {a0 : Fin 8} {a1 : DmaOutcome} (h : Keeps s0 s) :
    ∃ t, execDmaDone a0 a1 s = .next t ∧ Keeps s0 t := by
  unfold execDmaDone
  refine ⟨_, rfl, ?_⟩
  try dsimp only
  repeat' with_reducible first
    | assumption | apply keeps_dmaDone

end Sys2Proof.Machine
end

