-- ==== Sys2Proof/Laws/Keeps/SelfTest.lean ====
section
/-! SUPPORT. What the operations of Machine/SelfTest.lean keep. -/
set_option linter.all false
namespace Sys2Proof.Machine

theorem keeps_bistFail {s0 s : State} {a0 : Nat} (h : Keeps s0 s) :
    Keeps s0 (bistFail a0 s) := by
  unfold bistFail
  try dsimp only
  repeat' with_reducible first
    | assumption | apply keeps_detect | apply keeps_setF | apply keeps_ite
    | (refine Keeps.lit ?_ rfl rfl rfl rfl rfl rfl rfl rfl rfl rfl; first | assumption | apply keeps_detect | apply keeps_setF | apply keeps_ite)
    | (split <;> try dsimp only)

theorem keeps_bistBit {s0 s : State} {a0 : Nat} {a2 : Prod Nat (Prod Nat Nat)} (h : Keeps s0 s) :
    Keeps s0 (bistBit a0 s a2) := by
  unfold bistBit
  try dsimp only
  repeat' with_reducible first
    | assumption | apply keeps_satF | apply keeps_setFs | apply keeps_bistFail | apply keeps_addCand | apply keeps_bufferCand | apply keeps_onlyIf
    | intro _ _ _
    | intro _ _

theorem keeps_bistLogic {s0 s : State} {a0 : Nat} (h : Keeps s0 s) :
    Keeps s0 (bistLogic a0 s) := by
  unfold bistLogic
  try dsimp only
  repeat' with_reducible first
    | assumption | apply keeps_bistFail | apply keeps_setF

theorem keeps_clearSecrets {s0 s : State}  (h : Keeps s0 s) :
    Keeps s0 (clearSecrets s) := by
  unfold clearSecrets
  try dsimp only
  repeat' with_reducible first
    | assumption | apply keeps_challengeDrop
    | (refine Keeps.lit ?_ rfl rfl rfl rfl rfl rfl rfl rfl rfl rfl; first | assumption | apply keeps_challengeDrop)

theorem keeps_mgmtScan {s0 s : State}  (h : Keeps s0 s) :
    Keeps s0 (mgmtScan s) := by
  unfold mgmtScan
  try dsimp only
  repeat' with_reducible first
    | assumption | apply keeps_clearSecrets | apply keeps_detect | apply keeps_ite
    | (split <;> try dsimp only)

theorem keeps_bistStop {s0 s : State} {a0 : Nat} (h : Keeps s0 s) :
    Keeps s0 (bistStop a0 s) := by
  unfold bistStop
  try dsimp only
  repeat' with_reducible first
    | assumption | apply keeps_setDom | apply keeps_detect | apply keeps_setF

theorem keeps_bistComplete {s0 s : State} {a0 : Nat} (h : Keeps s0 s) :
    Keeps s0 (bistComplete a0 s) := by
  unfold bistComplete
  try dsimp only
  repeat' with_reducible first
    | assumption | apply keeps_setFs | apply keeps_setDom | apply keeps_detect | apply keeps_ite
    | (refine Keeps.lit ?_ rfl rfl rfl rfl rfl rfl rfl rfl rfl rfl; first | assumption | apply keeps_setFs | apply keeps_setDom | apply keeps_detect | apply keeps_ite)
    | (split <;> try dsimp only)

theorem keeps_bistSlice {s0 s : State} {a0 : Nat} {a1 : SliceReport} (h : Keeps s0 s) :
    Keeps s0 (bistSlice a0 a1 s) := by
  unfold bistSlice
  try dsimp only
  repeat' with_reducible first
    | assumption | apply keeps_detect | apply keeps_setF | apply keeps_bistBit | apply keeps_mgmtScan | apply keeps_bistLogic | apply keeps_bistComplete | apply keeps_addF | apply keeps_bistStop | apply keeps_onlyIf | apply keeps_foldl | apply keeps_ite
    | (split <;> try dsimp only)
    | intro _ _ _
    | intro _ _

theorem keeps_execBistSliceEnd {s0 s : State} {a0 : Dom} {a1 : SliceReport} (h : Keeps s0 s) :
    ∃ t, execBistSliceEnd a0 a1 s = .next t ∧ Keeps s0 t := by
  unfold execBistSliceEnd
  refine ⟨_, rfl, ?_⟩
  try dsimp only
  repeat' with_reducible first
    | assumption | apply keeps_bistSlice
    | (split <;> try dsimp only)

theorem keeps_execBistSliceCut {s0 s : State} {a0 : Dom} (h : Keeps s0 s) :
    ∃ t, execBistSliceCut a0 s = .next t ∧ Keeps s0 t := by
  unfold execBistSliceCut
  refine ⟨_, rfl, ?_⟩
  try dsimp only
  repeat' with_reducible first
    | assumption | apply keeps_bistStop | apply keeps_ite
    | (split <;> try dsimp only)

end Sys2Proof.Machine
end

