-- ==== Sys2Proof/Laws/Keeps/Security.lean ====
section
/-! SUPPORT. What the operations of Machine/Security.lean keep. -/
set_option linter.all false
namespace Sys2Proof.Machine

theorem keeps_accReq {s0 s : State} {a0 : Nat} (h : Keeps s0 s) :
    Keeps s0 (accReq a0 s) := by
  unfold accReq
  try dsimp only
  repeat' with_reducible first
    | assumption | apply keeps_setF | apply keeps_setFs | apply keeps_each | apply keeps_ite
    | (refine Keeps.lit ?_ rfl rfl rfl rfl rfl rfl rfl rfl rfl rfl; first | assumption | apply keeps_setF | apply keeps_setFs | apply keeps_each | apply keeps_ite)
    | (split <;> try dsimp only)
    | intro _ _ _
    | intro _ _

theorem keeps_execAccReq {s0 s : State} {a0 : BitVec 256} (h : Keeps s0 s) :
    ∃ t, execAccReq a0 s = .next t ∧ Keeps s0 t := by
  unfold execAccReq
  refine ⟨_, rfl, ?_⟩
  try dsimp only
  repeat' with_reducible first
    | assumption | apply keeps_accReq

theorem keeps_accOpen {s0 s : State} {a0 : Nat} (h : Keeps s0 s) :
    Keeps s0 (accOpen a0 s) := by
  unfold accOpen
  try dsimp only
  repeat' with_reducible first
    | assumption | apply keeps_detect | apply keeps_setFs
    | (refine Keeps.lit ?_ rfl rfl rfl rfl rfl rfl rfl rfl rfl rfl; first | assumption | apply keeps_detect | apply keeps_setFs)

theorem keeps_accMismatch {s0 s : State}  (h : Keeps s0 s) :
    Keeps s0 (accMismatch s) := by
  unfold accMismatch
  try dsimp only
  repeat' with_reducible first
    | assumption | apply keeps_setFs | apply keeps_detect | apply keeps_onlyIf | apply keeps_ite
    | (split <;> try dsimp only)
    | intro _ _ _
    | intro _ _

theorem keeps_accSubmit {s0 s : State}  (h : Keeps s0 s) :
    Keeps s0 (accSubmit s) := by
  unfold accSubmit
  try dsimp only
  repeat' with_reducible first
    | assumption | apply keeps_setF | apply keeps_challengeDrop | apply keeps_setFs | apply keeps_accOpen | apply keeps_accMismatch | apply keeps_ite
    | (refine Keeps.lit ?_ rfl rfl rfl rfl rfl rfl rfl rfl rfl rfl; first | assumption | apply keeps_setF | apply keeps_challengeDrop | apply keeps_setFs | apply keeps_accOpen | apply keeps_accMismatch | apply keeps_ite)
    | (split <;> try dsimp only)

theorem keeps_execAccSubmit {s0 s : State}  (h : Keeps s0 s) :
    ∃ t, execAccSubmit s = .next t ∧ Keeps s0 t := by
  unfold execAccSubmit
  refine ⟨_, rfl, ?_⟩
  try dsimp only
  repeat' with_reducible first
    | assumption | apply keeps_accSubmit

theorem keeps_accClose {s0 s : State}  (h : Keeps s0 s) :
    Keeps s0 (accClose s) := by
  unfold accClose
  try dsimp only
  repeat' with_reducible first
    | assumption | apply keeps_challengeDrop | apply keeps_detect | apply keeps_setFs | apply keeps_onlyIf | apply keeps_ite
    | (split <;> try dsimp only)
    | intro _ _ _
    | intro _ _

theorem keeps_execAccClose {s0 s : State}  (h : Keeps s0 s) :
    ∃ t, execAccClose s = .next t ∧ Keeps s0 t := by
  unfold execAccClose
  refine ⟨_, rfl, ?_⟩
  try dsimp only
  repeat' with_reducible first
    | assumption | apply keeps_accClose

theorem keeps_execChallengeExpiry {s0 s : State}  (h : Keeps s0 s) :
    ∃ t, execChallengeExpiry s = .next t ∧ Keeps s0 t := by
  unfold execChallengeExpiry
  refine ⟨_, rfl, ?_⟩
  try dsimp only
  repeat' with_reducible first
    | assumption | apply keeps_challengeExpires | apply keeps_ite
    | (split <;> try dsimp only)

theorem keeps_execAccessLifeExpiry {s0 s : State}  (h : Keeps s0 s) :
    ∃ t, execAccessLifeExpiry s = .next t ∧ Keeps s0 t := by
  unfold execAccessLifeExpiry
  refine ⟨_, rfl, ?_⟩
  try dsimp only
  repeat' with_reducible first
    | assumption | apply keeps_accClose

theorem keeps_execFuseIntegrityCheck {s0 s : State} {a0 : List FuseWord} (h : Keeps s0 s) :
    ∃ t, execFuseIntegrityCheck a0 s = .next t ∧ Keeps s0 t := by
  unfold execFuseIntegrityCheck
  refine ⟨_, rfl, ?_⟩
  try dsimp only
  repeat' with_reducible first
    | assumption | apply keeps_fuseCheck

theorem keeps_prog {s0 s : State}  (h : Keeps s0 s) :
    Keeps s0 (prog s) := by
  unfold prog
  try dsimp only
  repeat' with_reducible first
    | assumption | apply keeps_detect | apply keeps_setF | apply keeps_setFs | apply keeps_ite
    | (refine Keeps.lit ?_ rfl rfl rfl rfl rfl rfl rfl rfl rfl rfl; first | assumption | apply keeps_detect | apply keeps_setF | apply keeps_setFs | apply keeps_ite)
    | (split <;> try dsimp only)

theorem keeps_execProg {s0 s : State}  (h : Keeps s0 s) :
    ∃ t, execProg s = .next t ∧ Keeps s0 t := by
  unfold execProg
  refine ⟨_, rfl, ?_⟩
  try dsimp only
  repeat' with_reducible first
    | assumption | apply keeps_prog

theorem keeps_progEnd {s0 s : State} {a0 : FuseWord} (h : Keeps s0 s) : Keeps s0 (progEnd a0 s) := by
  unfold progEnd
  split
  · exact h
  · rename_i g want _
    have h1 : Keeps s0 { s with sec := { s.sec with prog := none, fuses := s.sec.fuses.set g a0 } } :=
      h.step rfl fun j =>
        ⟨j.regs, j.flash, j.intake, j.reserve, j.buffer, j.cands, j.queue, by simpa using j.fuses, j.shadow⟩
    have h2 := keeps_setB (a1 := F.FUSE_BUSY) (a2 := false) h1
    dsimp only
    refine keeps_ite (keeps_onlyIf (keeps_detect (h2.step rfl fun j => ?_)) fun _ => keeps_detect)
      (keeps_ite (keeps_settle (keeps_fuseFails (keeps_setB h2))) h2)
    exact ⟨j.regs, j.flash, j.intake, j.reserve, j.buffer, j.cands, j.queue, j.fuses, by simpa using j.shadow⟩

theorem keeps_execFuseProgComplete {s0 s : State} {a0 : FuseWord} (h : Keeps s0 s) :
    ∃ t, execFuseProgComplete a0 s = .next t ∧ Keeps s0 t := by
  unfold execFuseProgComplete
  refine ⟨_, rfl, ?_⟩
  try dsimp only
  repeat' with_reducible first
    | assumption | apply keeps_progEnd

end Sys2Proof.Machine
end

