-- ==== Sys2Proof/Laws/Keeps/RegRead.lean ====
section
/-! SUPPORT. What the operations of Machine/RegRead.lean keep. -/
set_option linter.all false
namespace Sys2Proof.Machine

theorem keeps_latch {s0 s : State} {a0 : Nat} {a1 : Nat} {a2 : Nat} (h : Keeps s0 s) :
    Keeps s0 (latch a0 a1 a2 s) := by
  unfold latch
  try dsimp only
  repeat' with_reducible first
    | assumption
    | (refine Keeps.lit ?_ rfl rfl rfl rfl rfl rfl rfl rfl rfl rfl; first | assumption)

theorem keeps_latchAt {s0 s : State} {a0 : Nat} {a1 : Nat} (h : Keeps s0 s) :
    Keeps s0 (latchAt a0 a1 s) := by
  unfold latchAt
  try dsimp only
  repeat' with_reducible first
    | assumption | apply keeps_latch | apply keeps_ite
    | (split <;> try dsimp only)

theorem keeps_adaptNow {s0 s : State} {a0 : Nat} (h : Keeps s0 s) :
    Keeps s0 (adaptNow a0 s) := by
  unfold adaptNow
  try dsimp only
  repeat' with_reducible first
    | assumption | apply keeps_adaptLane
    | (split <;> try dsimp only)

theorem keeps_readPrep {s0 s : State} {a0 : Nat} (h : Keeps s0 s) :
    Keeps s0 (readPrep a0 s) := by
  unfold readPrep
  try dsimp only
  repeat' with_reducible first
    | assumption | apply keeps_adaptNow | apply keeps_ite
    | (split <;> try dsimp only)

theorem keeps_readWord {s0 s : State} {a0 : Nat} {a1 : Nat} (h : Keeps s0 s) :
    Keeps s0 (readWord a0 a1 s).st := by
  unfold readWord
  try dsimp only
  repeat' with_reducible first
    | assumption | apply keeps_readPrep | apply keeps_drew | apply keeps_latchAt | apply keeps_onlyIf | apply keeps_ite
    | (split <;> try dsimp only)
    | intro _ _ _
    | intro _ _

end Sys2Proof.Machine
end

