-- ==== Sys2Proof/Laws/Keeps/Window.lean ====
section
/-! SUPPORT. What the operations of Machine/Window.lean keep. -/
set_option linter.all false
namespace Sys2Proof.Machine

theorem keeps_setWinSel {s0 s : State} {a0 : Nat} {a1 : Nat} (h : Keeps s0 s) :
    Keeps s0 (setWinSel a0 a1 s) := by
  unfold setWinSel
  try dsimp only
  repeat' with_reducible first
    | assumption | apply keeps_setF | apply keeps_ite
    | (refine Keeps.lit ?_ rfl rfl rfl rfl rfl rfl rfl rfl rfl rfl; first | assumption | apply keeps_setF | apply keeps_ite)
    | (split <;> try dsimp only)

theorem keeps_setWinAddr {s0 s : State} {a0 : Nat} {a1 : Nat} (h : Keeps s0 s) :
    Keeps s0 (setWinAddr a0 a1 s) := by
  unfold setWinAddr
  try dsimp only
  repeat' with_reducible first
    | assumption | apply keeps_setF | apply keeps_ite
    | (refine Keeps.lit ?_ rfl rfl rfl rfl rfl rfl rfl rfl rfl rfl; first | assumption | apply keeps_setF | apply keeps_ite)
    | (split <;> try dsimp only)

theorem keeps_setWinErr {s0 s : State} {a0 : Nat} {a1 : Nat} (h : Keeps s0 s) :
    Keeps s0 (setWinErr a0 a1 s) := by
  unfold setWinErr
  try dsimp only
  repeat' with_reducible first
    | assumption | apply keeps_setF | apply keeps_ite
    | (refine Keeps.lit ?_ rfl rfl rfl rfl rfl rfl rfl rfl rfl rfl; first | assumption | apply keeps_setF | apply keeps_ite)
    | (split <;> try dsimp only)

theorem keeps_tblEnd {s0 s : State} {a0 : Nat} {a1 : Nat} (h : Keeps s0 s) :
    Keeps s0 (tblEnd a0 a1 s) := by
  unfold tblEnd
  try dsimp only
  repeat' with_reducible first
    | assumption | apply keeps_setWinErr | apply keeps_setWinAddr | apply keeps_ite
    | (split <;> try dsimp only)

theorem keeps_tblRead {s0 s : State} {a0 : Nat} (h : Keeps s0 s) :
    Keeps s0 (tblRead a0 s).st := by
  unfold tblRead
  try dsimp only
  repeat' with_reducible first
    | assumption | apply keeps_tblEnd | apply keeps_adaptNow | apply keeps_drew | apply keeps_latch | apply keeps_onlyIf | apply keeps_ite
    | (refine Keeps.lit ?_ rfl rfl rfl rfl rfl rfl rfl rfl rfl rfl; first | assumption | apply keeps_tblEnd | apply keeps_adaptNow | apply keeps_drew | apply keeps_latch | apply keeps_onlyIf | apply keeps_ite)
    | (split <;> try dsimp only)
    | intro _ _ _
    | intro _ _

theorem keeps_tblStore {s0 s : State} {a0 : Nat} {a1 : Nat} {a2 : Nat} (h : Keeps s0 s) :
    Keeps s0 (tblStore a0 a1 a2 s).1 := by
  unfold tblStore
  try dsimp only
  repeat' with_reducible first
    | assumption | apply keeps_setEntry | apply keeps_ite
    | (refine Keeps.lit ?_ rfl rfl rfl rfl rfl rfl rfl rfl rfl rfl; first | assumption | apply keeps_setEntry | apply keeps_ite)
    | (split <;> try dsimp only)

theorem keeps_tblWrite {s0 s : State} {a0 : Nat} {a1 : Nat} (h : Keeps s0 s) :
    Keeps s0 (tblWrite a0 a1 s).1 := by
  unfold tblWrite
  try dsimp only
  repeat' with_reducible first
    | assumption | apply keeps_tblEnd | apply keeps_tblStore | apply keeps_ite
    | refine Keeps.fst_of ?_ (by assumption)
    | (split <;> try dsimp only)

end Sys2Proof.Machine
end

