-- ==== Sys2Proof/Laws/Keeps/RegWrite.lean ====
section
/-! SUPPORT. What the operations of Machine/RegWrite.lean keep. -/
set_option linter.all false
namespace Sys2Proof.Machine

theorem keeps_descWrite {s0 s : State} {a0 : Nat} {a2 : Desc} (h : Keeps s0 s) :
    Keeps s0 (descWrite a0 s a2) := by
  unfold descWrite
  try dsimp only
  repeat' with_reducible first
    | assumption | apply keeps_setF
    | (split <;> try dsimp only)

theorem keeps_plain {s0 s : State} {a0 : Nat} {a1 : Nat} (h : Keeps s0 s) :
    Keeps s0 (plain a0 a1 s) := by
  unfold plain
  try dsimp only
  repeat' with_reducible first
    | assumption | apply keeps_descWrite | apply keeps_foldl
    | intro _ _ _
    | intro _ _

theorem keeps_srcWrite {s0 s : State} {a0 : EvBlk} {a1 a2 : Nat} {f : State → Nat → Nat → State} (h : Keeps s0 s)
    (hf : ∀ s i k, Keeps s0 s → Keeps s0 (f s i k)) : Keeps s0 (srcWrite a0 a1 a2 f s) :=
  keeps_foldl h fun _ _ hu => keeps_ite (hf _ _ _ hu) hu

theorem keeps_evtWrite {s0 s : State} {a0 : EvBlk} {a1 a2 : Nat} (h : Keeps s0 s) : Keeps s0 (evtWrite a0 a1 a2 s) := by
  unfold evtWrite
  refine keeps_ite ?_ (keeps_ite ?_ (keeps_ite ?_ (keeps_ite ?_ (keeps_ite ?_ (keeps_ite ?_ (keeps_ite ?_ h))))))
  · exact keeps_srcWrite h fun _ _ _ hu => keeps_ite (keeps_setB hu) hu
  · exact keeps_srcWrite h fun _ _ _ hu => keeps_ite hu (keeps_setB hu)
  · exact keeps_forceBits h
  · exact keeps_onlyIf (keeps_onlyIf h fun _ => keeps_ackClass) fun _ => keeps_ackClass
  · exact keeps_srcWrite h fun _ _ _ hu => keeps_ite hu (keeps_setF hu)
  · exact keeps_srcWrite h fun _ _ _ hu => keeps_setF hu
  · exact keeps_srcWrite h fun _ _ _ hu => keeps_setF hu

theorem keeps_avsLimitWrite {s0 s : State} {a0 : Nat} (h : Keeps s0 s) :
    Keeps s0 (avsLimitWrite a0 s) := by
  unfold avsLimitWrite
  try dsimp only
  repeat' with_reducible first
    | assumption | apply keeps_setFs | apply keeps_ite
    | (split <;> try dsimp only)

theorem keeps_writeAon {s0 s : State} {a0 : Nat} {a1 : Nat} (h : Keeps s0 s) :
    Keeps s0 (writeAon a0 a1 s) := by
  unfold writeAon
  try dsimp only
  repeat' with_reducible first
    | assumption | apply keeps_pwrTargetWrite | apply keeps_avsEnWrite | apply keeps_plain | apply keeps_avsLimitWrite | apply keeps_thermThreshold | apply keeps_hostTempWrite | apply keeps_floorWrite | apply keeps_ite
    | (split <;> try dsimp only)

theorem keeps_writeCfg {s0 s : State} {a0 : Nat} {a1 : Nat} (h : Keeps s0 s) :
    Keeps s0 (writeCfg a0 a1 s) := by
  unfold writeCfg
  try dsimp only
  repeat' with_reducible first
    | assumption | apply keeps_loadStart | apply keeps_abortZone | apply keeps_plain | apply keeps_cfgLoadData | apply keeps_onlyIf | apply keeps_ite
    | (split <;> try dsimp only)
    | intro _ _ _
    | intro _ _

theorem keeps_writeMgmt {s0 s : State} {a0 : Nat} {a1 : Nat} (h : Keeps s0 s) :
    Keeps s0 (writeMgmt a0 a1 s) := by
  unfold writeMgmt
  try dsimp only
  repeat' with_reducible first
    | assumption | apply keeps_doorbell | apply keeps_dmaStart | apply keeps_plain | apply keeps_fgReqs | apply keeps_fullReq | apply keeps_resClear | apply keeps_ckptReq | apply keeps_ldgFree | apply keeps_onlyIf | apply keeps_ite
    | (split <;> try dsimp only)
    | intro _ _ _
    | intro _ _

theorem keeps_writeChn {s0 s : State} {a0 : Nat} {a1 : Nat} (h : Keeps s0 s) :
    Keeps s0 (writeChn a0 a1 s) := by
  unfold writeChn
  try dsimp only
  repeat' with_reducible first
    | assumption | apply keeps_drainReq | apply keeps_plain | apply keeps_capStart | apply keeps_onlyIf | apply keeps_ite
    | (split <;> try dsimp only)
    | intro _ _ _
    | intro _ _

theorem keeps_writeSec {s0 s : State} {a0 : Nat} {a1 : Nat} (h : Keeps s0 s) :
    Keeps s0 (writeSec a0 a1 s) := by
  unfold writeSec
  try dsimp only
  repeat' with_reducible first
    | assumption | apply keeps_plain | apply keeps_accReq | apply keeps_drew | apply keeps_accClose | apply keeps_accSubmit | apply keeps_prog | apply keeps_onlyIf | apply keeps_ite
    | (split <;> try dsimp only)
    | intro _ _ _
    | intro _ _

theorem keeps_patWrite {s0 s : State} {a0 : Nat} {a1 : Nat} (h : Keeps s0 s) :
    Keeps s0 (patWrite a0 a1 s) := by
  unfold patWrite
  try dsimp only
  repeat' with_reducible first
    | assumption | apply keeps_setB | apply keeps_onlyIf
    | (refine Keeps.lit ?_ rfl rfl rfl rfl rfl rfl rfl rfl rfl rfl; first | assumption | apply keeps_setB | apply keeps_onlyIf)
    | intro _ _ _
    | intro _ _

theorem keeps_writeHost {s0 s : State} {a0 : Nat} {a1 : Nat} (h : Keeps s0 s) :
    Keeps s0 (writeHost a0 a1 s) := by
  unfold writeHost
  try dsimp only
  repeat' with_reducible first
    | assumption | apply keeps_laneRestart | apply keeps_plain | apply keeps_adaptNow | apply keeps_patWrite | apply keeps_loopWrite | apply keeps_onlyIf | apply keeps_ite
    | (split <;> try dsimp only)
    | intro _ _ _
    | intro _ _

theorem keeps_writeLine {s0 s : State} {a0 : Nat} {a1 : Nat} (h : Keeps s0 s) :
    Keeps s0 (writeLine a0 a1 s) := by
  unfold writeLine
  try dsimp only
  repeat' with_reducible first
    | assumption | apply keeps_writeTxEnable | apply keeps_snapStart | apply keeps_clearAll | apply keeps_plain | apply keeps_winWrite | apply keeps_hrThreshold | apply keeps_onlyIf | apply keeps_ite
    | (split <;> try dsimp only)
    | intro _ _ _
    | intro _ _

theorem keeps_biasWrite {s0 s : State} {a0 : Nat} {a1 : Nat} {a2 : Nat} (h : Keeps s0 s) :
    Keeps s0 (biasWrite a0 a1 a2 s) := by
  unfold biasWrite
  try dsimp only
  repeat' with_reducible first
    | assumption | apply keeps_setChan | apply keeps_ite
    | (refine Keeps.lit ?_ rfl rfl rfl rfl rfl rfl rfl rfl rfl rfl; first | assumption | apply keeps_setChan | apply keeps_ite)
    | (split <;> try dsimp only)

theorem keeps_writeCtl {s0 s : State} {a0 : Nat} {a1 : Nat} (h : Keeps s0 s) :
    Keeps s0 (writeCtl a0 a1 s) := by
  unfold writeCtl
  try dsimp only
  repeat' with_reducible first
    | assumption | apply keeps_peerSave | apply keeps_peerCtrlWrite | apply keeps_calStart | apply keeps_hkSlotWrite | apply keeps_biasWrite | apply keeps_portBlockWrite | apply keeps_plain | apply keeps_onlyIf | apply keeps_ite
    | (split <;> try dsimp only)
    | intro _ _ _
    | intro _ _

theorem keeps_writeNow {s0 s : State} {a0 : Nat} {a1 : Nat} (h : Keeps s0 s) :
    Keeps s0 (writeNow a0 a1 s) := by
  unfold writeNow
  try dsimp only
  repeat' with_reducible first
    | assumption | apply keeps_evtWrite | apply keeps_writeAon | apply keeps_writeCfg | apply keeps_writeMgmt | apply keeps_writeChn | apply keeps_writeSec | apply keeps_writeHost | apply keeps_writeLine | apply keeps_writeCtl | apply keeps_ite
    | (split <;> try dsimp only)

theorem keeps_regRead {s0 s : State} {a0 : Nat} {a1 : Nat} (h : Keeps s0 s) :
    Keeps s0 (regRead a0 a1 s).st := by
  unfold regRead
  try dsimp only
  repeat' with_reducible first
    | assumption | apply keeps_tblRead | apply keeps_readWord | apply keeps_ite
    | (split <;> try dsimp only)

theorem keeps_regWrite {s0 s : State} {a0 : Nat} {a1 : Nat} {a2 : Nat} (h : Keeps s0 s) :
    Keeps s0 (regWrite a0 a1 a2 s).1 := by
  unfold regWrite
  try dsimp only
  repeat' with_reducible first
    | assumption | apply keeps_tblWrite | apply keeps_setWinSel | apply keeps_setWinAddr | apply keeps_writeNow | apply keeps_ite
    | (refine Keeps.lit ?_ rfl rfl rfl rfl rfl rfl rfl rfl rfl rfl; first | assumption | apply keeps_tblWrite | apply keeps_setWinSel | apply keeps_setWinAddr | apply keeps_writeNow | apply keeps_ite)
    | (split <;> try dsimp only)

theorem keeps_execRegisterWrite {s0 s : State} {a0 : Requester} {a1 : Word} {a2 : Word} (h : Keeps s0 s) :
    ∃ t, execRegisterWrite a0 a1 a2 s = .next t ∧ Keeps s0 t := by
  unfold execRegisterWrite
  refine ⟨_, rfl, ?_⟩
  try dsimp only
  repeat' with_reducible first
    | assumption | apply keeps_regWrite | apply keeps_ite
    | (split <;> try dsimp only)

theorem keeps_execTblDataAccess {s0 s : State} {a0 : Requester} {a1 : Option Word} (h : Keeps s0 s) :
    ∃ t, execTblDataAccess a0 a1 s = .next t ∧ Keeps s0 t := by
  unfold execTblDataAccess
  refine ⟨_, rfl, ?_⟩
  try dsimp only
  repeat' with_reducible first
    | assumption | apply keeps_tblWrite | apply keeps_tblRead | apply keeps_ite
    | (split <;> try dsimp only)

theorem keeps_fabApply {s0 s : State} {a1 : Prod Nat Nat} (h : Keeps s0 s) :
    Keeps s0 (fabApply s a1) := by
  unfold fabApply
  try dsimp only
  repeat' with_reducible first
    | assumption | apply keeps_writeNow | apply keeps_setCoef | apply keeps_ite
    | (split <;> try dsimp only)

theorem keeps_execFabricRegisterApply {s0 s : State}  (h : Keeps s0 s) :
    ∃ t, execFabricRegisterApply s = .next t ∧ Keeps s0 t := by
  unfold execFabricRegisterApply
  refine ⟨_, rfl, ?_⟩
  try dsimp only
  repeat' with_reducible first
    | assumption | apply keeps_fabApply | apply keeps_foldl
    | (refine Keeps.lit ?_ rfl rfl rfl rfl rfl rfl rfl rfl rfl rfl; first | assumption | apply keeps_fabApply | apply keeps_foldl)
    | intro _ _ _
    | intro _ _

theorem keeps_tlmFold {s0 s : State} {l : List Nat} {bs : List Byte} (h : Keeps s0 s) :
    Keeps s0 (l.foldl (fun (x : State × List Byte) a => ((regRead 2 a x.1).st, x.2 ++ leBytes 4 (regRead 2 a x.1).value))
      (s, bs)).1 := by
  induction l generalizing s bs with
  | nil => exact h
  | cons i l ih => exact ih (keeps_regRead h)

theorem keeps_tlmRead {s0 s : State} (h : Keeps s0 s) : Keeps s0 (tlmRead s).1 := keeps_tlmFold h

theorem keeps_execTelemetryPeriod {s0 s : State}  (h : Keeps s0 s) :
    ∃ t, execTelemetryPeriod s = .next t ∧ Keeps s0 t := by
  unfold execTelemetryPeriod
  refine ⟨_, rfl, ?_⟩
  try dsimp only
  repeat' with_reducible first
    | assumption | apply keeps_tlmRead | apply keeps_sendPkt | apply keeps_detect | apply keeps_ite
    | refine Keeps.fst_of ?_ (by assumption)
    | (split <;> try dsimp only)

end Sys2Proof.Machine
end

