-- ==== Sys2Proof/Laws/Keeps/Mport.lean ====
section
/-! SUPPORT. What the operations of Machine/Mport.lean keep. -/
set_option linter.all false
namespace Sys2Proof.Machine

theorem keeps_frameEnd {s0 s : State} {a0 : Nat} {a1 : Nat} (h : Keeps s0 s) :
    Keeps s0 (frameEnd a0 a1 s) := by
  unfold frameEnd
  try dsimp only
  repeat' with_reducible first
    | assumption
    | (refine Keeps.lit ?_ rfl rfl rfl rfl rfl rfl rfl rfl rfl rfl; first | assumption)

theorem keeps_frameBad {s0 s : State}  (h : Keeps s0 s) :
    Keeps s0 (frameBad s) := by
  unfold frameBad
  try dsimp only
  repeat' with_reducible first
    | assumption | apply keeps_frameEnd | apply keeps_satF

theorem keeps_frameCrc {s0 s : State}  (h : Keeps s0 s) :
    Keeps s0 (frameCrc s) := by
  unfold frameCrc
  try dsimp only
  repeat' with_reducible first
    | assumption | apply keeps_frameEnd | apply keeps_satF

theorem keeps_applyWords {s0 s : State} {a : Nat} {ws : List Word} {n : Nat} (h : Keeps s0 s) :
    Keeps s0 (applyWords a ws n s).1 := by
  induction ws generalizing n s with
  | nil => exact h
  | cons w ws ih =>
    unfold applyWords
    have h1 := keeps_regWrite (a0 := 0) (a1 := a) (a2 := w.toNat) h
    dsimp only
    split
    · exact ih h1
    · exact h1

theorem keeps_performFrame {s0 s : State} {a1 : MpFrame} (h : Keeps s0 s) :
    Keeps s0 (performFrame s a1) := by
  unfold performFrame
  try dsimp only
  repeat' with_reducible first
    | assumption | apply keeps_applyWords | apply keeps_frameEnd
    | refine Keeps.fst_of ?_ (by assumption)
    | (split <;> try dsimp only)

theorem keeps_drainFrames {s0 s : State} (h : Keeps s0 s) : Keeps s0 (drainFrames s) :=
  keeps_foldl (h.step rfl fun j =>
    ⟨j.regs, j.flash, j.intake, j.reserve, j.buffer, j.cands, Nat.zero_le _, j.fuses, j.shadow⟩) fun _ _ => keeps_performFrame

theorem keeps_performRead {s0 s : State} {a0 : Nat} (h : Keeps s0 s) :
    Keeps s0 (performRead a0 s) := by
  unfold performRead
  try dsimp only
  repeat' with_reducible first
    | assumption | apply keeps_regRead | apply keeps_frameEnd | apply keeps_ite
    | (refine Keeps.lit ?_ rfl rfl rfl rfl rfl rfl rfl rfl rfl rfl; first | assumption | apply keeps_regRead | apply keeps_frameEnd | apply keeps_ite)
    | (split <;> try dsimp only)

theorem keeps_retryRead {s0 s : State}  (h : Keeps s0 s) :
    Keeps s0 (retryRead s) := by
  unfold retryRead
  try dsimp only
  repeat' with_reducible first
    | assumption | apply keeps_performRead
    | (refine Keeps.lit ?_ rfl rfl rfl rfl rfl rfl rfl rfl rfl rfl; first | assumption | apply keeps_performRead)
    | (split <;> try dsimp only)

theorem keeps_writeFrame {s0 s : State} {a0 a1 : Nat} {a2 : List Word} {a3 : List Byte} {a4 : Byte} (h : Keeps s0 s) :
    Keeps s0 (writeFrame a0 a1 a2 a3 a4 s) := by
  unfold writeFrame
  have h1 := keeps_retryRead h
  dsimp only
  split
  · exact h1
  · refine keeps_ite (keeps_frameCrc h1) (keeps_drainFrames (h1.step rfl fun j =>
      ⟨j.regs, j.flash, j.intake, j.reserve, j.buffer, j.cands, ?_, j.fuses, j.shadow⟩))
    simp only [List.length_append, List.length_cons, List.length_nil]
    omega

theorem keeps_execWrite {s0 s : State} {a0 : Word} {a1 : Word} {a2 : Byte} (h : Keeps s0 s) :
    ∃ t, execWrite a0 a1 a2 s = .next t ∧ Keeps s0 t := by
  unfold execWrite
  refine ⟨_, rfl, ?_⟩
  try dsimp only
  repeat' with_reducible first
    | assumption | apply keeps_writeFrame

theorem keeps_execWriteSame {s0 s : State} {a0 : Word} {a1 : List Word} {a2 : Byte} (h : Keeps s0 s) :
    ∃ t, execWriteSame a0 a1 a2 s = .next t ∧ Keeps s0 t := by
  unfold execWriteSame
  refine ⟨_, rfl, ?_⟩
  try dsimp only
  repeat' with_reducible first
    | assumption | apply keeps_frameBad | apply keeps_writeFrame | apply keeps_ite
    | (split <;> try dsimp only)

theorem keeps_execRead {s0 s : State} {a0 : Word} {a1 : Byte} (h : Keeps s0 s) :
    ∃ t, execRead a0 a1 s = .next t ∧ Keeps s0 t := by
  unfold execRead
  refine ⟨_, rfl, ?_⟩
  try dsimp only
  repeat' with_reducible first
    | assumption | apply keeps_drainFrames | apply keeps_retryRead | apply keeps_frameCrc | apply keeps_performRead | apply keeps_ite
    | (split <;> try dsimp only)

theorem keeps_execReadPhase {s0 s : State}  (h : Keeps s0 s) :
    ∃ t, execReadPhase s = .next t ∧ Keeps s0 t := by
  unfold execReadPhase
  refine ⟨_, rfl, ?_⟩
  try dsimp only
  repeat' with_reducible first
    | assumption | apply keeps_retryRead | apply keeps_ite
    | (refine Keeps.lit ?_ rfl rfl rfl rfl rfl rfl rfl rfl rfl rfl; first | assumption | apply keeps_retryRead | apply keeps_ite)
    | (split <;> try dsimp only)

theorem keeps_execMportFrameDiscard {s0 s : State} {a0 : FrameFault} (h : Keeps s0 s) :
    ∃ t, execMportFrameDiscard a0 s = .next t ∧ Keeps s0 t := by
  unfold execMportFrameDiscard
  refine ⟨_, rfl, ?_⟩
  try dsimp only
  repeat' with_reducible first
    | assumption | apply keeps_frameBad

theorem keeps_execSclTimeout {s0 s : State} {a0 : Bool} (h : Keeps s0 s) :
    ∃ t, execSclTimeout a0 s = .next t ∧ Keeps s0 t := by
  unfold execSclTimeout
  refine ⟨_, rfl, ?_⟩
  try dsimp only
  repeat' with_reducible first
    | assumption | apply keeps_frameBad | apply keeps_ite
    | (split <;> try dsimp only)

theorem keeps_execMportReadStretchTimeout {s0 s : State}  (h : Keeps s0 s) :
    ∃ t, execMportReadStretchTimeout s = .next t ∧ Keeps s0 t := by
  unfold execMportReadStretchTimeout
  refine ⟨_, rfl, ?_⟩
  try dsimp only
  repeat' with_reducible first
    | assumption | apply keeps_retryRead | apply keeps_frameEnd | apply keeps_ite
    | (split <;> try dsimp only)

end Sys2Proof.Machine
end

