-- ==== Sys2Proof/WellFormed.lean ====
section
/-! DEFINITION. Well-formed commands: the lengths that the manual fixes for the lists among the operands. Every other
operand has a type that admits only what the manual admits. -/
namespace Sys2Proof

/-- A laser answer, a codeword, a row: a list has the length the manual gives it. -/
def Instr.wf : Instr → Bool
  -- 15 R365: 1 to 64 words
  | .writeSame _ ws _ => decide (1 ≤ ws.length) && decide (ws.length ≤ 64)
  -- 04 R111: the four converters
  | .agcSlowUpdate _ r => decide (r.length = 4)
  | .agcFastUpdate _ r => decide (r.length = 4)
  -- 03 R74: both polarisations of the same symbols
  | .codewordEntersPool _ _ b _ => decide (b.xs.length = b.ys.length)
  | .eqTapUpdate _ _ b => decide (b.xs.length = b.ys.length)
  -- 06 R163: at most 120 base rows
  | .decoderIteration _ b => decide (b.length ≤ 120)
  -- 08 R223: RS(544,514)
  | .hostRsCodeword _ w => decide (w.length = 544)
  -- 09 R244: 8 conversions of each of 32 slots in a frame, of 32 inputs
  | .modulatorFrame cs => decide (cs.length = 256) && cs.all fun c => decide (c.length = 32)
  -- 12 R311: eight stored words a row
  | .scrubVisit _ r => decide (r.length = 8)
  -- 15 R370: a program writes one page of 256 bytes
  | .pageProgram _ d => decide (d.length = 256)
  -- 15 R375: a payload is at most 4,096 bytes
  | .credit p | .config p | .snapshot p | .store p => decide (p.payload.length ≤ 4096)
  | .badPacket _ _ p => decide (p.payload.length ≤ 4096)
  -- 16 R400: 14 fuse groups
  | .fuseIntegrityCheck f => decide (f.length = 14)
  | _ => true

end Sys2Proof
end

