-- ==== Sys2Proof/Laws/PerInstr.lean ====
section
/-! SUPPORT. The statement made per command: a well-formed command carries no list longer than the manual lets it be. -/
namespace Sys2Proof

/-- The length of the list among a command's operands whose length the manual fixes or bounds, 0 where it has none; of the
two polarisations of a codeword, whose length its code sets, by how much they differ. -/
def Laws.boundedList : Instr → Nat
  | .writeSame _ ws _ => ws.length
  | .agcSlowUpdate _ r | .agcFastUpdate _ r => r.length
  | .codewordEntersPool _ _ b _ => (b.xs.length - b.ys.length) + (b.ys.length - b.xs.length)
  | .eqTapUpdate _ _ b => (b.xs.length - b.ys.length) + (b.ys.length - b.xs.length)
  | .decoderIteration _ b => b.length
  | .hostRsCodeword _ w => w.length
  | .modulatorFrame cs => cs.length
  | .scrubVisit _ r => r.length
  | .pageProgram _ d => d.length
  | .credit p | .config p | .snapshot p | .store p | .badPacket _ _ p => p.payload.length
  | .fuseIntegrityCheck f => f.length
  | _ => 0

/-- A well-formed command's list holds at most the 4,096 bytes of the longest payload (15 R375). -/
def Laws.Bounded.Statement (i : Instr) : Prop := i.wf = true → Laws.boundedList i ≤ 4096

theorem Laws.Bounded.aonPowerOnReset : ∀ addr1 addr0, Laws.Bounded.Statement (.aonPowerOnReset addr1 addr0) := by
  intro _ _ h
  exact Nat.zero_le _

theorem Laws.Bounded.supplyLoss : ∀ supply, Laws.Bounded.Statement (.supplyLoss supply) := by
  intro _ h
  exact Nat.zero_le _

theorem Laws.Bounded.registerWrite : ∀ req addr data, Laws.Bounded.Statement (.registerWrite req addr data) := by
  intro _ _ _ h
  exact Nat.zero_le _

theorem Laws.Bounded.write : ∀ addr data crc, Laws.Bounded.Statement (.write addr data crc) := by
  intro _ _ _ h
  exact Nat.zero_le _

theorem Laws.Bounded.read : ∀ addr crc, Laws.Bounded.Statement (.read addr crc) := by
  intro _ _ h
  exact Nat.zero_le _

theorem Laws.Bounded.writeSame : ∀ addr words crc, Laws.Bounded.Statement (.writeSame addr words crc) := by
  intro _ _ _ h
  simp [Instr.wf] at h; simp [Laws.boundedList]; omega

theorem Laws.Bounded.readPhase : Laws.Bounded.Statement .readPhase := fun _ => Nat.zero_le _

theorem Laws.Bounded.sclTimeout : ∀ inFrame, Laws.Bounded.Statement (.sclTimeout inFrame) := by
  intro _ h
  exact Nat.zero_le _

theorem Laws.Bounded.mportReadStretchTimeout : Laws.Bounded.Statement .mportReadStretchTimeout := fun _ => Nat.zero_le _

theorem Laws.Bounded.tblDataAccess : ∀ req wr, Laws.Bounded.Statement (.tblDataAccess req wr) := by
  intro _ _ h
  exact Nat.zero_le _

theorem Laws.Bounded.addressMatchWake : Laws.Bounded.Statement .addressMatchWake := fun _ => Nat.zero_le _

theorem Laws.Bounded.wakePin : ∀ heldLow, Laws.Bounded.Statement (.wakePin heldLow) := by
  intro _ h
  exact Nat.zero_le _

theorem Laws.Bounded.pwrTargetWrite : ∀ value, Laws.Bounded.Statement (.pwrTargetWrite value) := by
  intro _ h
  exact Nat.zero_le _

theorem Laws.Bounded.wakePowerGood : ∀ d, Laws.Bounded.Statement (.wakePowerGood d) := by
  intro _ h
  exact Nat.zero_le _

theorem Laws.Bounded.wakeClockPresent : ∀ d, Laws.Bounded.Statement (.wakeClockPresent d) := by
  intro _ h
  exact Nat.zero_le _

theorem Laws.Bounded.wakePllLock : ∀ d, Laws.Bounded.Statement (.wakePllLock d) := by
  intro _ h
  exact Nat.zero_le _

theorem Laws.Bounded.wakeComplete : ∀ d, Laws.Bounded.Statement (.wakeComplete d) := by
  intro _ h
  exact Nat.zero_le _

theorem Laws.Bounded.wakeStepTimeout : ∀ d, Laws.Bounded.Statement (.wakeStepTimeout d) := by
  intro _ h
  exact Nat.zero_le _

theorem Laws.Bounded.wakeRetry : ∀ d, Laws.Bounded.Statement (.wakeRetry d) := by
  intro _ h
  exact Nat.zero_le _

theorem Laws.Bounded.domainEntry : ∀ d, Laws.Bounded.Statement (.domainEntry d) := by
  intro _ h
  exact Nat.zero_le _

theorem Laws.Bounded.entrySavesDone : ∀ d, Laws.Bounded.Statement (.entrySavesDone d) := by
  intro _ h
  exact Nat.zero_le _

theorem Laws.Bounded.saveTimeout : ∀ d, Laws.Bounded.Statement (.saveTimeout d) := by
  intro _ h
  exact Nat.zero_le _

theorem Laws.Bounded.entryIsolateAndSwitch : ∀ d, Laws.Bounded.Statement (.entryIsolateAndSwitch d) := by
  intro _ h
  exact Nat.zero_le _

theorem Laws.Bounded.imageSelection : Laws.Bounded.Statement .imageSelection := fun _ => Nat.zero_le _

theorem Laws.Bounded.loadStart : ∀ src, Laws.Bounded.Statement (.loadStart src) := by
  intro _ h
  exact Nat.zero_le _

theorem Laws.Bounded.abort : ∀ zone, Laws.Bounded.Statement (.abort zone) := by
  intro _ h
  exact Nat.zero_le _

theorem Laws.Bounded.cfgLoadData : ∀ data, Laws.Bounded.Statement (.cfgLoadData data) := by
  intro _ h
  exact Nat.zero_le _

theorem Laws.Bounded.storeImageReadDone : Laws.Bounded.Statement .storeImageReadDone := fun _ => Nat.zero_le _

theorem Laws.Bounded.imageHeader : Laws.Bounded.Statement .imageHeader := fun _ => Nat.zero_le _

theorem Laws.Bounded.imageEnd : Laws.Bounded.Statement .imageEnd := fun _ => Nat.zero_le _

theorem Laws.Bounded.sectionHeader : Laws.Bounded.Statement .sectionHeader := fun _ => Nat.zero_le _

theorem Laws.Bounded.recordStaged : Laws.Bounded.Statement .recordStaged := fun _ => Nat.zero_le _

theorem Laws.Bounded.sectionEnd : Laws.Bounded.Statement .sectionEnd := fun _ => Nat.zero_le _

theorem Laws.Bounded.copyComplete : ∀ zone, Laws.Bounded.Statement (.copyComplete zone) := by
  intro _ h
  exact Nat.zero_le _

theorem Laws.Bounded.loadTimeout : Laws.Bounded.Statement .loadTimeout := fun _ => Nat.zero_le _

theorem Laws.Bounded.localFurlongBoundary : Laws.Bounded.Statement .localFurlongBoundary := fun _ => Nat.zero_le _

theorem Laws.Bounded.rxCommitSwitch : ∀ zone, Laws.Bounded.Statement (.rxCommitSwitch zone) := by
  intro _ h
  exact Nat.zero_le _

theorem Laws.Bounded.commitTimeout : ∀ zone, Laws.Bounded.Statement (.commitTimeout zone) := by
  intro _ h
  exact Nat.zero_le _

theorem Laws.Bounded.laneGroupCommit : ∀ zone, Laws.Bounded.Statement (.laneGroupCommit zone) := by
  intro _ h
  exact Nat.zero_le _

theorem Laws.Bounded.stewardRestartComplete : Laws.Bounded.Statement .stewardRestartComplete := fun _ => Nat.zero_le _

theorem Laws.Bounded.revertSwitch : ∀ zone, Laws.Bounded.Statement (.revertSwitch zone) := by
  intro _ h
  exact Nat.zero_le _

theorem Laws.Bounded.fabricRegisterApply : Laws.Bounded.Statement .fabricRegisterApply := fun _ => Nat.zero_le _

theorem Laws.Bounded.headroomWindowEnd : ∀ n count slackMin, Laws.Bounded.Statement (.headroomWindowEnd n count slackMin) := by
  intro _ _ _ h
  exact Nat.zero_le _

theorem Laws.Bounded.hrThresholdWrite : ∀ thr1 value, Laws.Bounded.Statement (.hrThresholdWrite thr1 value) := by
  intro _ _ h
  exact Nat.zero_le _

theorem Laws.Bounded.bushelSlip : ∀ n, Laws.Bounded.Statement (.bushelSlip n) := by
  intro _ h
  exact Nat.zero_le _

theorem Laws.Bounded.slipRecovery : ∀ n, Laws.Bounded.Statement (.slipRecovery n) := by
  intro _ h
  exact Nat.zero_le _

theorem Laws.Bounded.fillToken : ∀ n, Laws.Bounded.Statement (.fillToken n) := by
  intro _ h
  exact Nat.zero_le _

theorem Laws.Bounded.blockSlot : ∀ c sc, Laws.Bounded.Statement (.blockSlot c sc) := by
  intro _ _ h
  exact Nat.zero_le _

theorem Laws.Bounded.holdGapBlock : ∀ lane, Laws.Bounded.Statement (.holdGapBlock lane) := by
  intro _ h
  exact Nat.zero_le _

theorem Laws.Bounded.demapperChunk : ∀ lane items, Laws.Bounded.Statement (.demapperChunk lane items) := by
  intro _ _ h
  exact Nat.zero_le _

theorem Laws.Bounded.txEnable : ∀ c on, Laws.Bounded.Statement (.txEnable c on) := by
  intro _ _ h
  exact Nat.zero_le _

theorem Laws.Bounded.txLocksPresent : ∀ c, Laws.Bounded.Statement (.txLocksPresent c) := by
  intro _ h
  exact Nat.zero_le _

theorem Laws.Bounded.txLockLost : ∀ c synth, Laws.Bounded.Statement (.txLockLost c synth) := by
  intro _ _ h
  exact Nat.zero_le _

theorem Laws.Bounded.txTimeout : ∀ c, Laws.Bounded.Statement (.txTimeout c) := by
  intro _ h
  exact Nat.zero_le _

theorem Laws.Bounded.offsetUpdate : ∀ c conv sum2, Laws.Bounded.Statement (.offsetUpdate c conv sum2) := by
  intro _ _ _ h
  exact Nat.zero_le _

theorem Laws.Bounded.agcSlowUpdate : ∀ c rms, Laws.Bounded.Statement (.agcSlowUpdate c rms) := by
  intro _ _ h
  simp [Instr.wf] at h; simp [Laws.boundedList]; omega

theorem Laws.Bounded.agcFastUpdate : ∀ c rms, Laws.Bounded.Statement (.agcFastUpdate c rms) := by
  intro _ _ h
  simp [Instr.wf] at h; simp [Laws.boundedList]; omega

theorem Laws.Bounded.agcReplacementEnd : ∀ c, Laws.Bounded.Statement (.agcReplacementEnd c) := by
  intro _ h
  exact Nat.zero_le _

theorem Laws.Bounded.cdScanStep : ∀ c u peakD, Laws.Bounded.Statement (.cdScanStep c u peakD) := by
  intro _ _ _ h
  exact Nat.zero_le _

theorem Laws.Bounded.candidateDeclared : ∀ c u peak, Laws.Bounded.Statement (.candidateDeclared c u peak) := by
  intro _ _ _ h
  exact Nat.zero_le _

theorem Laws.Bounded.secondCorrelatorPeak : ∀ c u peak hdr, Laws.Bounded.Statement (.secondCorrelatorPeak c u peak hdr) := by
  intro _ _ _ _ h
  exact Nat.zero_le _

theorem Laws.Bounded.rxHeader : ∀ c u hdr meas, Laws.Bounded.Statement (.rxHeader c u hdr meas) := by
  intro _ _ _ _ h
  exact Nat.zero_le _

theorem Laws.Bounded.searchTimeout : ∀ c u, Laws.Bounded.Statement (.searchTimeout c u) := by
  intro _ _ h
  exact Nat.zero_le _

theorem Laws.Bounded.unitEnabled : ∀ c u, Laws.Bounded.Statement (.unitEnabled c u) := by
  intro _ _ h
  exact Nat.zero_le _

theorem Laws.Bounded.unitDisabled : ∀ c u, Laws.Bounded.Statement (.unitDisabled c u) := by
  intro _ _ h
  exact Nat.zero_le _

theorem Laws.Bounded.eqTapUpdate : ∀ c sc grad, Laws.Bounded.Statement (.eqTapUpdate c sc grad) := by
  intro _ _ _ h
  simp [Instr.wf] at h; simp [Laws.boundedList]; omega

theorem Laws.Bounded.qualityIntervalEnd : ∀ c u q scs, Laws.Bounded.Statement (.qualityIntervalEnd c u q scs) := by
  intro _ _ _ _ h
  exact Nat.zero_le _

theorem Laws.Bounded.fathomPageClear : Laws.Bounded.Statement .fathomPageClear := fun _ => Nat.zero_le _

theorem Laws.Bounded.clearAll : Laws.Bounded.Statement .clearAll := fun _ => Nat.zero_le _

theorem Laws.Bounded.snapReq : Laws.Bounded.Statement .snapReq := fun _ => Nat.zero_le _

theorem Laws.Bounded.snapshotPeriodic : Laws.Bounded.Statement .snapshotPeriodic := fun _ => Nat.zero_le _

theorem Laws.Bounded.snapshotPageCopy : Laws.Bounded.Statement .snapshotPageCopy := fun _ => Nat.zero_le _

theorem Laws.Bounded.snapshotDone : ∀ ok, Laws.Bounded.Statement (.snapshotDone ok) := by
  intro _ h
  exact Nat.zero_le _

theorem Laws.Bounded.snapshotLoadDone : Laws.Bounded.Statement .snapshotLoadDone := fun _ => Nat.zero_le _

theorem Laws.Bounded.codewordEntersPool : ∀ g sc signs erased, Laws.Bounded.Statement (.codewordEntersPool g sc signs erased) := by
  intro _ _ _ _ h
  simp [Instr.wf] at h; simp [Laws.boundedList]; omega

theorem Laws.Bounded.engineAssign : Laws.Bounded.Statement .engineAssign := fun _ => Nat.zero_le _

theorem Laws.Bounded.decoderIteration : ∀ id hard, Laws.Bounded.Statement (.decoderIteration id hard) := by
  intro _ _ h
  simp [Instr.wf] at h; simp [Laws.boundedList]; omega

theorem Laws.Bounded.codewordDeadline : ∀ id, Laws.Bounded.Statement (.codewordDeadline id) := by
  intro _ h
  exact Nat.zero_le _

theorem Laws.Bounded.outerBlockDecode : ∀ c sc, Laws.Bounded.Statement (.outerBlockDecode c sc) := by
  intro _ _ h
  exact Nat.zero_le _

theorem Laws.Bounded.firkinWaitExpiry : ∀ f, Laws.Bounded.Statement (.firkinWaitExpiry f) := by
  intro _ h
  exact Nat.zero_le _

theorem Laws.Bounded.mapperChunk : ∀ lane, Laws.Bounded.Statement (.mapperChunk lane) := by
  intro _ h
  exact Nat.zero_le _

theorem Laws.Bounded.peerCtrlWrite : ∀ n value, Laws.Bounded.Statement (.peerCtrlWrite n value) := by
  intro _ _ h
  exact Nat.zero_le _

theorem Laws.Bounded.peerSave : Laws.Bounded.Statement .peerSave := fun _ => Nat.zero_le _

theorem Laws.Bounded.laneLockLost : ∀ lane cause, Laws.Bounded.Statement (.laneLockLost lane cause) := by
  intro _ _ h
  exact Nat.zero_le _

theorem Laws.Bounded.laneLocked : ∀ lane ppm, Laws.Bounded.Statement (.laneLocked lane ppm) := by
  intro _ _ h
  exact Nat.zero_le _

theorem Laws.Bounded.groupAligned : ∀ lane, Laws.Bounded.Statement (.groupAligned lane) := by
  intro _ h
  exact Nat.zero_le _

theorem Laws.Bounded.holdConfirmation : ∀ lane pass, Laws.Bounded.Statement (.holdConfirmation lane pass) := by
  intro _ _ h
  exact Nat.zero_le _

theorem Laws.Bounded.holdFastTimeout : ∀ lane, Laws.Bounded.Statement (.holdFastTimeout lane) := by
  intro _ h
  exact Nat.zero_le _

theorem Laws.Bounded.holdLong : ∀ lane, Laws.Bounded.Statement (.holdLong lane) := by
  intro _ h
  exact Nat.zero_le _

theorem Laws.Bounded.groupZoneStateChange : ∀ lane, Laws.Bounded.Statement (.groupZoneStateChange lane) := by
  intro _ h
  exact Nat.zero_le _

theorem Laws.Bounded.restart : ∀ lane, Laws.Bounded.Statement (.restart lane) := by
  intro _ h
  exact Nat.zero_le _

theorem Laws.Bounded.loop : ∀ lane value, Laws.Bounded.Statement (.loop lane value) := by
  intro _ _ h
  exact Nat.zero_le _

theorem Laws.Bounded.adaptDone : ∀ lane, Laws.Bounded.Statement (.adaptDone lane) := by
  intro _ h
  exact Nat.zero_le _

theorem Laws.Bounded.innerFrame : ∀ lane bits, Laws.Bounded.Statement (.innerFrame lane bits) := by
  intro _ _ h
  exact Nat.zero_le _

theorem Laws.Bounded.patternCheck : ∀ lane symbols, Laws.Bounded.Statement (.patternCheck lane symbols) := by
  intro _ _ h
  exact Nat.zero_le _

theorem Laws.Bounded.modulatorFrame : ∀ codes, Laws.Bounded.Statement (.modulatorFrame codes) := by
  intro _ h
  simp [Instr.wf] at h; simp [Laws.boundedList]; omega

theorem Laws.Bounded.toneBlockEnd : ∀ ch i q, Laws.Bounded.Statement (.toneBlockEnd ch i q) := by
  intro _ _ _ h
  exact Nat.zero_le _

theorem Laws.Bounded.hkSlotWrite : ∀ slot value, Laws.Bounded.Statement (.hkSlotWrite slot value) := by
  intro _ _ h
  exact Nat.zero_le _

theorem Laws.Bounded.calStart : Laws.Bounded.Statement .calStart := fun _ => Nat.zero_le _

theorem Laws.Bounded.hkCalComplete : ∀ gain offset, Laws.Bounded.Statement (.hkCalComplete gain offset) := by
  intro _ _ h
  exact Nat.zero_le _

theorem Laws.Bounded.fullReq : Laws.Bounded.Statement .fullReq := fun _ => Nat.zero_le _

theorem Laws.Bounded.fgReq : ∀ carriers, Laws.Bounded.Statement (.fgReq carriers) := by
  intro _ h
  exact Nat.zero_le _

theorem Laws.Bounded.calTrigger : Laws.Bounded.Statement .calTrigger := fun _ => Nat.zero_le _

theorem Laws.Bounded.wakeFgRunStart : ∀ c, Laws.Bounded.Statement (.wakeFgRunStart c) := by
  intro _ h
  exact Nat.zero_le _

theorem Laws.Bounded.fgRunComplete : ∀ c res, Laws.Bounded.Statement (.fgRunComplete c res) := by
  intro _ _ h
  exact Nat.zero_le _

theorem Laws.Bounded.bgPassComplete : ∀ c res, Laws.Bounded.Statement (.bgPassComplete c res) := by
  intro _ _ h
  exact Nat.zero_le _

theorem Laws.Bounded.refLost : ∀ refclk vref, Laws.Bounded.Statement (.refLost refclk vref) := by
  intro _ _ h
  exact Nat.zero_le _

theorem Laws.Bounded.refPresent : Laws.Bounded.Statement .refPresent := fun _ => Nat.zero_le _

theorem Laws.Bounded.portBlockWrite : ∀ c word value, Laws.Bounded.Statement (.portBlockWrite c word value) := by
  intro _ _ _ h
  exact Nat.zero_le _

theorem Laws.Bounded.portEnable : ∀ c, Laws.Bounded.Statement (.portEnable c) := by
  intro _ h
  exact Nat.zero_le _

theorem Laws.Bounded.laserStatusPoll : ∀ c tx lo, Laws.Bounded.Statement (.laserStatusPoll c tx lo) := by
  intro _ _ _ h
  exact Nat.zero_le _

theorem Laws.Bounded.laserPowerPoll : ∀ c tx lo, Laws.Bounded.Statement (.laserPowerPoll c tx lo) := by
  intro _ _ _ h
  exact Nat.zero_le _

theorem Laws.Bounded.setChannel : ∀ c l n, Laws.Bounded.Statement (.setChannel c l n) := by
  intro _ _ _ h
  exact Nat.zero_le _

theorem Laws.Bounded.setFine : ∀ c l mhz, Laws.Bounded.Statement (.setFine c l mhz) := by
  intro _ _ _ h
  exact Nat.zero_le _

theorem Laws.Bounded.setPower : ∀ c l power, Laws.Bounded.Statement (.setPower c l power) := by
  intro _ _ _ h
  exact Nat.zero_le _

theorem Laws.Bounded.output : ∀ c l on, Laws.Bounded.Statement (.output c l on) := by
  intro _ _ _ h
  exact Nat.zero_le _

theorem Laws.Bounded.readStatus : ∀ c l answer, Laws.Bounded.Statement (.readStatus c l answer) := by
  intro _ _ _ h
  exact Nat.zero_le _

theorem Laws.Bounded.readPower : ∀ c l answer, Laws.Bounded.Statement (.readPower c l answer) := by
  intro _ _ _ h
  exact Nat.zero_le _

theorem Laws.Bounded.readFreqErr : ∀ c l answer, Laws.Bounded.Statement (.readFreqErr c l answer) := by
  intro _ _ _ h
  exact Nat.zero_le _

theorem Laws.Bounded.eventDetection : ∀ b source info, Laws.Bounded.Statement (.eventDetection b source info) := by
  intro _ _ _ h
  exact Nat.zero_le _

theorem Laws.Bounded.evtForce : ∀ b bits, Laws.Bounded.Statement (.evtForce b bits) := by
  intro _ _ h
  exact Nat.zero_le _

theorem Laws.Bounded.ackMinor : ∀ b, Laws.Bounded.Statement (.ackMinor b) := by
  intro _ h
  exact Nat.zero_le _

theorem Laws.Bounded.ackMajor : ∀ b, Laws.Bounded.Statement (.ackMajor b) := by
  intro _ h
  exact Nat.zero_le _

theorem Laws.Bounded.promotionWindowExpiry : ∀ b source, Laws.Bounded.Statement (.promotionWindowExpiry b source) := by
  intro _ _ h
  exact Nat.zero_le _

theorem Laws.Bounded.mergedRecord : ∀ b source, Laws.Bounded.Statement (.mergedRecord b source) := by
  intro _ _ h
  exact Nat.zero_le _

theorem Laws.Bounded.scrubVisit : ∀ m row, Laws.Bounded.Statement (.scrubVisit m row) := by
  intro _ _ h
  simp [Instr.wf] at h; simp [Laws.boundedList]; omega

theorem Laws.Bounded.scrubLate : ∀ m, Laws.Bounded.Statement (.scrubLate m) := by
  intro _ h
  exact Nat.zero_le _

theorem Laws.Bounded.tripletRestoreDone : ∀ page ok, Laws.Bounded.Statement (.tripletRestoreDone page ok) := by
  intro _ _ h
  exact Nat.zero_le _

theorem Laws.Bounded.reloadDone : ∀ line, Laws.Bounded.Statement (.reloadDone line) := by
  intro _ h
  exact Nat.zero_le _

theorem Laws.Bounded.fetchTrap : ∀ line, Laws.Bounded.Statement (.fetchTrap line) := by
  intro _ h
  exact Nat.zero_le _

theorem Laws.Bounded.stewardLoadTrap : ∀ word, Laws.Bounded.Statement (.stewardLoadTrap word) := by
  intro _ h
  exact Nat.zero_le _

theorem Laws.Bounded.grainTick : Laws.Bounded.Statement .grainTick := fun _ => Nat.zero_le _

theorem Laws.Bounded.trimMeasurement : ∀ grainLen err, Laws.Bounded.Statement (.trimMeasurement grainLen err) := by
  intro _ _ h
  exact Nat.zero_le _

theorem Laws.Bounded.timeUntrimmed : Laws.Bounded.Statement .timeUntrimmed := fun _ => Nat.zero_le _

theorem Laws.Bounded.checkpointPeriodic : Laws.Bounded.Statement .checkpointPeriodic := fun _ => Nat.zero_le _

theorem Laws.Bounded.ckptReq : Laws.Bounded.Statement .ckptReq := fun _ => Nat.zero_le _

theorem Laws.Bounded.checkpointRetry : Laws.Bounded.Statement .checkpointRetry := fun _ => Nat.zero_le _

theorem Laws.Bounded.recordWriteComplete : ∀ kind ok, Laws.Bounded.Statement (.recordWriteComplete kind ok) := by
  intro _ _ h
  exact Nat.zero_le _

theorem Laws.Bounded.recordStore : Laws.Bounded.Statement .recordStore := fun _ => Nat.zero_le _

theorem Laws.Bounded.ldgFree : ∀ value, Laws.Bounded.Statement (.ldgFree value) := by
  intro _ h
  exact Nat.zero_le _

theorem Laws.Bounded.resClear : Laws.Bounded.Statement .resClear := fun _ => Nat.zero_le _

theorem Laws.Bounded.histogramIntervalEnd : Laws.Bounded.Statement .histogramIntervalEnd := fun _ => Nat.zero_le _

theorem Laws.Bounded.voutCommand : ∀ ack, Laws.Bounded.Statement (.voutCommand ack) := by
  intro _ h
  exact Nat.zero_le _

theorem Laws.Bounded.statusWord : ∀ ack status, Laws.Bounded.Statement (.statusWord ack status) := by
  intro _ _ h
  exact Nat.zero_le _

theorem Laws.Bounded.readVout : ∀ ack raw, Laws.Bounded.Statement (.readVout ack raw) := by
  intro _ _ h
  exact Nat.zero_le _

theorem Laws.Bounded.avsRequest : Laws.Bounded.Statement .avsRequest := fun _ => Nat.zero_le _

theorem Laws.Bounded.avsRequestTimeout : Laws.Bounded.Statement .avsRequestTimeout := fun _ => Nat.zero_le _

theorem Laws.Bounded.avsEnWrite : ∀ en, Laws.Bounded.Statement (.avsEnWrite en) := by
  intro _ h
  exact Nat.zero_le _

theorem Laws.Bounded.tempReading : ∀ meanCode, Laws.Bounded.Statement (.tempReading meanCode) := by
  intro _ h
  exact Nat.zero_le _

theorem Laws.Bounded.hostTempWrite : ∀ value, Laws.Bounded.Statement (.hostTempWrite value) := by
  intro _ h
  exact Nat.zero_le _

theorem Laws.Bounded.hostTempStale : Laws.Bounded.Statement .hostTempStale := fun _ => Nat.zero_le _

theorem Laws.Bounded.thermThresholdWrite : ∀ thr1 value, Laws.Bounded.Statement (.thermThresholdWrite thr1 value) := by
  intro _ _ h
  exact Nat.zero_le _

theorem Laws.Bounded.thermalThrottleRise : Laws.Bounded.Statement .thermalThrottleRise := fun _ => Nat.zero_le _

theorem Laws.Bounded.thermalThrottleFall : Laws.Bounded.Statement .thermalThrottleFall := fun _ => Nat.zero_le _

theorem Laws.Bounded.shutdownCountExpiry : Laws.Bounded.Statement .shutdownCountExpiry := fun _ => Nat.zero_le _

theorem Laws.Bounded.storeTransferStart : Laws.Bounded.Statement .storeTransferStart := fun _ => Nat.zero_le _

theorem Laws.Bounded.storeRead : ∀ addr len, Laws.Bounded.Statement (.storeRead addr len) := by
  intro _ _ h
  exact Nat.zero_le _

theorem Laws.Bounded.pageProgram : ∀ addr data, Laws.Bounded.Statement (.pageProgram addr data) := by
  intro _ _ h
  simp [Instr.wf] at h; simp [Laws.boundedList]; omega

theorem Laws.Bounded.blockErase : ∀ addr, Laws.Bounded.Statement (.blockErase addr) := by
  intro _ h
  exact Nat.zero_le _

theorem Laws.Bounded.writeEnable : Laws.Bounded.Statement .writeEnable := fun _ => Nat.zero_le _

theorem Laws.Bounded.storeReadStatus : ∀ busy, Laws.Bounded.Statement (.storeReadStatus busy) := by
  intro _ h
  exact Nat.zero_le _

theorem Laws.Bounded.readId : ∀ capacity, Laws.Bounded.Statement (.readId capacity) := by
  intro _ h
  exact Nat.zero_le _

theorem Laws.Bounded.extendedAddress : ∀ bank, Laws.Bounded.Statement (.extendedAddress bank) := by
  intro _ h
  exact Nat.zero_le _

theorem Laws.Bounded.storeBusyTimeout : Laws.Bounded.Statement .storeBusyTimeout := fun _ => Nat.zero_le _

theorem Laws.Bounded.linkUp : Laws.Bounded.Statement .linkUp := fun _ => Nat.zero_le _

theorem Laws.Bounded.rxLockLost : Laws.Bounded.Statement .rxLockLost := fun _ => Nat.zero_le _

theorem Laws.Bounded.creditTimeout : Laws.Bounded.Statement .creditTimeout := fun _ => Nat.zero_le _

theorem Laws.Bounded.streamStall : ∀ k, Laws.Bounded.Statement (.streamStall k) := by
  intro _ h
  exact Nat.zero_le _

theorem Laws.Bounded.credit : ∀ p, Laws.Bounded.Statement (.credit p) := by
  intro _ h
  simp [Instr.wf] at h; simp [Laws.boundedList]; omega

theorem Laws.Bounded.creditSend : Laws.Bounded.Statement .creditSend := fun _ => Nat.zero_le _

theorem Laws.Bounded.config : ∀ p, Laws.Bounded.Statement (.config p) := by
  intro _ h
  simp [Instr.wf] at h; simp [Laws.boundedList]; omega

theorem Laws.Bounded.snapshot : ∀ p, Laws.Bounded.Statement (.snapshot p) := by
  intro _ h
  simp [Instr.wf] at h; simp [Laws.boundedList]; omega

theorem Laws.Bounded.store : ∀ p, Laws.Bounded.Statement (.store p) := by
  intro _ h
  simp [Instr.wf] at h; simp [Laws.boundedList]; omega

theorem Laws.Bounded.capture : Laws.Bounded.Statement .capture := fun _ => Nat.zero_le _

theorem Laws.Bounded.ledger : Laws.Bounded.Statement .ledger := fun _ => Nat.zero_le _

theorem Laws.Bounded.telemetryPeriod : Laws.Bounded.Statement .telemetryPeriod := fun _ => Nat.zero_le _

theorem Laws.Bounded.drainReq : Laws.Bounded.Statement .drainReq := fun _ => Nat.zero_le _

theorem Laws.Bounded.capStart : Laws.Bounded.Statement .capStart := fun _ => Nat.zero_le _

theorem Laws.Bounded.captureTrigger : Laws.Bounded.Statement .captureTrigger := fun _ => Nat.zero_le _

theorem Laws.Bounded.captureDone : ∀ samples, Laws.Bounded.Statement (.captureDone samples) := by
  intro _ h
  exact Nat.zero_le _

theorem Laws.Bounded.doorbell : Laws.Bounded.Statement .doorbell := fun _ => Nat.zero_le _

theorem Laws.Bounded.mboxResponse : ∀ r0 r1 r2 r3 result, Laws.Bounded.Statement (.mboxResponse r0 r1 r2 r3 result) := by
  intro _ _ _ _ _ h
  exact Nat.zero_le _

theorem Laws.Bounded.watchdogExpiry : Laws.Bounded.Statement .watchdogExpiry := fun _ => Nat.zero_le _

theorem Laws.Bounded.dmaStart : ∀ c, Laws.Bounded.Statement (.dmaStart c) := by
  intro _ h
  exact Nat.zero_le _

theorem Laws.Bounded.dmaDone : ∀ c outcome, Laws.Bounded.Statement (.dmaDone c outcome) := by
  intro _ _ h
  exact Nat.zero_le _

theorem Laws.Bounded.bistSliceEnd : ∀ d report, Laws.Bounded.Statement (.bistSliceEnd d report) := by
  intro _ _ h
  exact Nat.zero_le _

theorem Laws.Bounded.bistSliceCut : ∀ d, Laws.Bounded.Statement (.bistSliceCut d) := by
  intro _ h
  exact Nat.zero_le _

theorem Laws.Bounded.accReq : ∀ entropy, Laws.Bounded.Statement (.accReq entropy) := by
  intro _ h
  exact Nat.zero_le _

theorem Laws.Bounded.accSubmit : Laws.Bounded.Statement .accSubmit := fun _ => Nat.zero_le _

theorem Laws.Bounded.accClose : Laws.Bounded.Statement .accClose := fun _ => Nat.zero_le _

theorem Laws.Bounded.challengeExpiry : Laws.Bounded.Statement .challengeExpiry := fun _ => Nat.zero_le _

theorem Laws.Bounded.accessLifeExpiry : Laws.Bounded.Statement .accessLifeExpiry := fun _ => Nat.zero_le _

theorem Laws.Bounded.fuseIntegrityCheck : ∀ sensed, Laws.Bounded.Statement (.fuseIntegrityCheck sensed) := by
  intro _ h
  simp [Instr.wf] at h; simp [Laws.boundedList]; omega

theorem Laws.Bounded.prog : Laws.Bounded.Statement .prog := fun _ => Nat.zero_le _

theorem Laws.Bounded.fuseProgComplete : ∀ sensed, Laws.Bounded.Statement (.fuseProgComplete sensed) := by
  intro _ h
  exact Nat.zero_le _

theorem Laws.Bounded.mportFrameDiscard : ∀ fault, Laws.Bounded.Statement (.mportFrameDiscard fault) := by
  intro _ h
  exact Nat.zero_le _

theorem Laws.Bounded.badPacket : ∀ typ len p, Laws.Bounded.Statement (.badPacket typ len p) := by
  intro _ _ _ h
  simp [Instr.wf] at h; simp [Laws.boundedList]; omega

theorem Laws.Bounded.hostRsCodeword : ∀ lane corrected, Laws.Bounded.Statement (.hostRsCodeword lane corrected) := by
  intro _ _ h
  simp [Instr.wf] at h; simp [Laws.boundedList]; omega

theorem Laws.Bounded.signalDetect : ∀ lane ppm, Laws.Bounded.Statement (.signalDetect lane ppm) := by
  intro _ _ h
  exact Nat.zero_le _

theorem Laws.Bounded.hostStale : Laws.Bounded.Statement .hostStale := fun _ => Nat.zero_le _

theorem Laws.Bounded.sensorReadingOld : Laws.Bounded.Statement .sensorReadingOld := fun _ => Nat.zero_le _

theorem Laws.Bounded.avsStretchTimeout : Laws.Bounded.Statement .avsStretchTimeout := fun _ => Nat.zero_le _

end Sys2Proof
end

