-- ==== Sys2Proof/Tests/Slice0.lean ====
section
/-! SUPPORT. Checks of the model: ill-formed commands are refused, every premise of every statement is met on a concrete state,
and small cases with values from the manual. -/
open Sys2Proof Sys2Proof.Machine
namespace Sys2Proof.Tests
-- the theorems below are checked one after another
set_option Elab.async false

/-! ### States to test on -/

/-- Set register fields. -/
def put (l : List (Fld × Nat)) (s : State) : State := setFs s l
/-- Turn domains off. -/
def off (ds : List Nat) (s : State) : State := ds.foldl (fun s d => setDom s d .off) s
/-- Reset, and every domain on. -/
def S0 : State := domsAll.foldl (fun s d => setDom s d .on) State.reset
/-- The state with its steward running. -/
def stw (s : State) : State := { s with stw := { s.stw with running := true } }
/-- The next state of an outcome. -/
def nx (o : Host.Outcome State Fault Refusal) : State :=
  match o with
  | .next t => t
  | _ => State.reset

/-! ### Every check of WellFormed refuses an ill-formed command -/

theorem test_wf_refuses_frames :
    Instr.wf (.writeSame 0 [] 0) = false ∧ Instr.wf (.writeSame 0 (List.replicate 65 0) 0) = false ∧
      Instr.wf (.writeSame 0 [0] 0) = true ∧ Instr.wf (.writeSame 0 (List.replicate 64 0) 0) = true ∧
      Instr.wf (.pageProgram 0 (List.replicate 255 0)) = false ∧ Instr.wf (.pageProgram 0 (List.replicate 256 0)) = true := by decide +kernel

theorem test_wf_refuses_short_lists :
    Instr.wf (.agcSlowUpdate 0 [0, 0, 0]) = false ∧ Instr.wf (.agcFastUpdate 0 []) = false ∧
      Instr.wf (.codewordEntersPool 0 0 ⟨0, 0, [⟨1, 2⟩], []⟩ []) = false ∧ Instr.wf (.eqTapUpdate 0 0 ⟨0, 0, [], [⟨1, 2⟩]⟩) = false ∧
      Instr.wf (.decoderIteration 0 (List.replicate 121 true)) = false ∧ Instr.wf (.hostRsCodeword 0 []) = false ∧
      Instr.wf (.modulatorFrame []) = false ∧ Instr.wf (.modulatorFrame (List.replicate 256 [0])) = false ∧
      Instr.wf (.scrubVisit 0 []) = false ∧ Instr.wf (.fuseIntegrityCheck []) = false := by decide +kernel

theorem test_wf_refuses_long_payloads :
    (let p : Packet := ⟨0, 0, 0, List.replicate 4097 0, 0⟩
     Instr.wf (.credit p) = false ∧ Instr.wf (.config p) = false ∧ Instr.wf (.snapshot p) = false ∧
       Instr.wf (.store p) = false ∧ Instr.wf (.badPacket 0 0 p) = false) := by decide +kernel

/-! ### Every premise of every statement is met: events, store port, converters, transmit -/

theorem witness_DisabledAndForcedDetectionsFollowTheirRules :
    (EvBlk.stw.has 17 = true ∧ getB (put [(F.EN .stw 17, 0)] S0) (F.EN .stw 17) = false ∧ EvBlk.stw.has 31 = false) ∧
      (EvBlk.stw.sources.filter (bitOf (2 ^ 17)) = [17] ∧ EvBlk.stw.fixed 17 = false) ∧
      (EvBlk.stw.sources.filter (bitOf (2 ^ 23)) = [23] ∧ EvBlk.stw.fixed 23 = true ∧ bitOf (getF S0 F.OPEN_SCOPE) 0 = false) ∧
      EvBlk.stw.sources.filter (bitOf 0) = [] := by decide +kernel

/-- A detection of STEWARD's source 18 with a threshold of two, of class Minor and as a Notice. -/
def evS (cls : Nat) : State := off [10] (put [(F.CLASS .stw 18, cls), (F.EN .stw 18, 1), (F.EVT_N .stw 18, 2)] S0)
theorem witness_DetectionsAreRecordedOnce :
    (∀ cls, cls ≤ 1 → EvBlk.stw.has 18 = true ∧ getB (evS cls) (F.EN .stw 18) = true ∧ getF (evS cls) (F.CLASS .stw 18) = cls ∧
      getB (evS cls) (F.EVT .stw 18) = false ∧ (evAt (evS cls) .stw 18).marked = false ∧ (evAt (evS cls) .stw 18).merged = none ∧
      (evAt (evS cls) .stw 18).count = .idle ∧ 1 < getF (evS cls) (F.EVT_N .stw 18) ∧ getB (evS cls) (F.PEND .stw 1) = false ∧
      mgmtWorks (evS cls) = true ∧ getB (evS cls) F.LDG_STOPPED = false ∧ (evS cls).ldg.runs = [] ∧
      (evS cls).ldg.intake.length < 256 ∧ (evS cls).ldg.unrep = 0 ∧ isOn (evS cls) 10 = false) ∧
    (evAt { evS 1 with ev := [(EvBlk.stw.key 18, ⟨.idle, true, some ⟨2, 3, 1⟩⟩)] } .stw 18).merged = some ⟨2, 3, 1⟩ := by decide +kernel

theorem witness_AcknowledgementsAndWindowsTouchTheirOwnPart :
    1 < 2 ∧ 1 + 1 = 2 ∧ 1 + 1 < 3 ∧ EvBlk.stw.key 18 ≠ EvBlk.stw.key 17 := by decide +kernel

theorem witness_FirstGraveFaultLocks :
    let s := off [10] (put [(F.EN .stw 23, 1)] S0)
    getB s (F.EN .stw 23) = true ∧ getF s (F.CLASS .stw 23) = 3 ∧ s.ldg.unrep = 0 ∧ s.ldg.runs = [] ∧ s.ldg.intake.length < 256 ∧
      zonesIn s zStaging = [] ∧ zonesIn s zArmed = [] ∧ isOn s 10 = false ∧ getB s F.GRAVE_LOCK = false ∧
      getB (put [(F.GRAVE_LOCK, 1)] s) F.GRAVE_LOCK = true := by decide +kernel

/-- Flash with its write enable set and two cells listed. -/
def stS : State := { S0 with st := { S0.st with cells := [(0, 5), (65536, 2)], wel := true } }
theorem witness_ProgramAndEraseTouchTheirUnitAlone :
    flashWf stS.st.cells = true ∧ (List.replicate 256 (0x0F : Byte)).length = 256 ∧ mgmtWorks stS = true ∧ stS.st.busy = false ∧
      stS.st.wel = true ∧ flashAddr stS 0xFF / 256 * 256 ≤ 0 ∧ flashAddr stS 0xFF / 256 * 256 + 256 ≤ 256 := by decide +kernel

theorem witness_FlashCommandsAnswerAndSetTheirOwnPart :
    flashWf stS.st.cells = true ∧ mgmtWorks stS = true ∧ stS.st.busy = false ∧ S0.st.wel = false ∧ getB (put [(F.STORE_ADDR4, 0)] stS) F.STORE_ADDR4 = false ∧
      { stS with st := { stS.st with busy := true } }.st.busy = true := by decide +kernel

theorem witness_StorePortServesTheBestRankAndJudgesItsFlash :
    mgmtWorks S0 = true ∧ S0.st.busy = false ∧ 0x1B ≤ (0x1B : Byte).toNat ∧ (0x1A : Byte).toNat < 0x1B ∧
      (let s : State := { S0 with st := { S0.st with waiting := [7, 3] } }
       3 ∈ s.st.waiting ∧ (∀ x ∈ s.st.waiting, 3 ≤ x) ∧ getF s F.STORE_ACTIVE = 0 ∧ 3 < getF (put [(F.STORE_ACTIVE, 4)] s) F.STORE_ACTIVE ∧
         getF (put [(F.STORE_ACTIVE, 3)] s) F.STORE_ACTIVE ≠ 0 ∧ getF (put [(F.STORE_ACTIVE, 3)] s) F.STORE_ACTIVE ≤ 3) := by decide +kernel

theorem witness_SlewLimiterMovesTowardsTarget :
    let s := off [5] S0
    s.cal.hkWait = none ∧ (∀ n, n < 24 → (chanAt s n).pend = [] ∧ (chanAt s n).fault = false ∧ (chanAt s n).search = none ∧
      getF s (F.DITHER_AMP n) = 0) ∧ isOn s (lineDom (0 / 12)) = true ∧ isOn s (lineDom (23 / 12)) = false ∧ converting S0 = true ∧
      (let u := setChain S0 31 { chainAt S0 31 with n1 := 1 }
       hkFactors u 8191 ≤ 8191 ∧ -8191 ≤ hkFactors u (-8191) ∧ (chainAt u 31).n1 = 1) := by decide +kernel

/-- A channel with what is given of it. -/
def ch0 (f : BiasCh → BiasCh) (s : State) : State := setChan s 0 (f (chanAt s 0))
theorem witness_DetectorBlocksAndChainsFollowTheirRules :
    (let blk (o : Bool) : List (Int × Nat × Bool) := List.replicate 5 (100, 7, o)
     let s := ch0 (fun c => { c with blk := blk false, rail := 62 }) (put [(F.BC_STATE 0, 3), (F.TONE_N_LOG2 0, 2)] S0)
     converting s = true ∧ isOn s (lineDom (0 / 12)) = true ∧ 2 ^ getF s (F.TONE_N_LOG2 0) ≤ (chanAt s 0).blk.length ∧
       getF s (F.BC_STATE 0) = 3 ∧ ((chanAt s 0).blk.take 4).any (·.2.2) = false ∧ (chanAt s 0).rail < 63 ∧
       getF (put [(F.BC_STATE 0, 1)] s) (F.BC_STATE 0) < 2 ∧ (chanAt s 0).search = none ∧
       (let o := ch0 (fun c => { c with blk := blk true, ovrRun := 2 }) s
        ((chanAt o 0).blk.take 4).any (·.2.2) = true ∧ (chanAt o 0).ovrRun < 3 ∧ converting o = true ∧
          2 ^ getF o (F.TONE_N_LOG2 0) ≤ (chanAt o 0).blk.length) ∧
       (chanAt S0 0).blk.length < 2 ^ getF S0 (F.TONE_N_LOG2 0)) ∧
    (isOn S0 4 = true ∧ getF S0 (F.HK_INPUT 30) ≠ (getF S0 (F.HK_INPUT 30) + 1) % 32 ∧ isOn (off [4] S0) 4 = false) ∧
    (let s := put [(F.REFCLK_OK, 1), (F.VREF_OK, 1)] S0
     getB s F.HK_CAL_BUSY = false ∧ isOn s 1 = true ∧ getB s F.REFCLK_OK = true ∧ getB s F.VREF_OK = true ∧
       getB (put [(F.HK_CAL_BUSY, 1)] s) F.HK_CAL_BUSY = true) := by decide +kernel

/-- Limit fuses of both carriers: channels -50 to 100, transmit power up to 2.00 dBm, local oscillator up to 3.00 dBm. -/
def fuseS : State :=
  let f : FuseWord := ⟨true, (65536 - 50) + 2 ^ 16 * 100 + 2 ^ 32 * 200 + 2 ^ 48 * 300, 0⟩
  { S0 with sec := { S0.sec with shadow := (S0.sec.shadow.set 4 f).set 5 f } }
/-- Carrier `c` in a transmit state, its laser port enabled. -/
def txS (c st : Nat) : State := put [(F.TX_STATE c, st), (F.PORT_EN c, 1)] fuseS

theorem witness_TransmitEnableFollowsItsRows :
    ∀ c < 2, (∀ st, st ≤ 4 → isOn (txS c st) (lineDom c) = true ∧ getF (txS c st) (F.TX_STATE c) = st ∧
      getB (txS c st) F.GRAVE_LOCK = false ∧ getB (txS c st) F.HOT = false ∧ getB (txS c st) (F.PORT_EN c) = true) ∧
      getB (put [(F.GRAVE_LOCK, 1)] (txS c 4)) F.GRAVE_LOCK = true ∧ isOn (off [4, 5] S0) (lineDom c) = false := by decide +kernel

theorem witness_TransmitLocksAndTimeLimitFollowTheirRows :
    ∀ c < 2, (let s := put [(F.LASER_LOCK c, 1)] (txS c 1)
       isOn s (lineDom c) = true ∧ getF s (F.TX_STATE c) = 1 ∧ getB s (F.LASER_LOCK c) = true ∧ getB s (F.TX_FG_CAL c) = false ∧
         laserAllowed s c 0 4 1 = true ∧ getB s (F.PORT_EN c) = true) ∧
      getF (txS c 2) (F.TX_STATE c) = 2 ∧ getF (txS c 3) (F.TX_STATE c) = 3 ∧
      (tfind { txS c 2 with tx := { S0.tx with timer := [(c, 7)] } }.tx.timer c).isSome = true := by decide +kernel

/-- A group of carrier 0 with subcarrier 3 and two firkins of it, blocks queued on both. -/
def blkS : State :=
  let s := put [(F.ZONE_PRESENT 32, 1), (F.FIRST_SC 0 0, 3), (F.SC_COUNT 0 0, 1), (F.SHAPE_MODE 0 3, 1)] S0
  { s with fec := { s.fec with line := [(5, 4), (9, 4)] }, tx := { s.tx with queue := [(5, [⟨0, 5, 7, [1]⟩]), (9, [⟨1, 9, 3, []⟩])] } }
theorem witness_BlockSlotSendsNextQueuedBlock :
    txGroup blkS 0 3 = some 0 ∧ isOn blkS 8 = true ∧ getF blkS (F.SHAPE_MODE 0 3) ≠ 0 ∧
      (tget blkS.tx.run (scKey 0 3) TxRun.blank).count * (cwCfg blkS 0 3 (unitKey 0 0)).dataBits +
          (tget blkS.tx.run (scKey 0 3) TxRun.blank).bits.length + 2112 ≤
        dataCws (cwCfg blkS 0 3 (unitKey 0 0))
          (runCws (cwCfg blkS 0 3 (unitKey 0 0)) (getF blkS (F.SHAPE_B 0 3)) (runLen blkS (unitKey 0 0))) *
          (cwCfg blkS 0 3 (unitKey 0 0)).dataBits ∧
      nextFirkin blkS (scFirkins blkS (unitKey 0 0) 3) (tfind blkS.tx.served (scKey 0 3)) = some 5 ∧
      tget blkS.tx.queue 5 [] = [⟨0, 5, 7, [1]⟩] ∧
      nextFirkin { blkS with tx := { blkS.tx with queue := [] } } (scFirkins blkS (unitKey 0 0) 3) none = none ∧
      isOn (off [8] blkS) 8 = false := by decide +kernel

/-- A lane group with two firkins of its client. -/
def demS (st : Nat) : State :=
  let s := put [(F.ZONE_PRESENT 16, 1), (F.GRP_STATE 0, st)] S0
  { s with fec := { s.fec with client := [(4, 1), (6, 1)], line := [(4, 40), (6, 1)] } }
theorem witness_ChunksAndGapBlocksGoOutInOrder :
    isOn (demS 2) 8 = true ∧ present (demS 2) 16 = true ∧ inHold (demS 2) 0 = false ∧
      (clientFirkins (demS 2) 0)[tget (demS 2).tx.chunk 0 0]? = some 4 ∧ tget (demS 2).fec.line 4 0 ≠ 0 ∧
      nearLoop (demS 2) 0 = false ∧ nearLoop (put [(F.GRP_LOOP 0, 1)] (demS 2)) 0 = true ∧
      inHold (demS 3) 0 = true ∧ (clientFirkins (demS 3) 0).Nodup ∧ 4 ∈ clientFirkins (demS 3) 0 ∧ 5 ∉ clientFirkins (demS 3) 0 := by decide +kernel

/-! ### Lasers and calibration -/

theorem witness_LaserCommandsAndPortWritesAreChecked :
    (let s := txS 0 0
     isOn s (lineDom 0) = true ∧ laserAllowed s 0 0 3 200 = true ∧ laserAllowed s 0 1 3 300 = true ∧ laserAllowed s 0 0 2 0 = true ∧
       getB s (F.PORT_EN 0) = true ∧ laserAllowed s 0 0 1 100 = true ∧ laserAllowed s 0 0 1 65486 = true ∧ getF s (F.TX_STATE 0) = 0 ∧
       laserAllowed s 0 0 1 101 = false ∧ laserAllowed s 0 1 1 65485 = false ∧ laserAllowed s 0 0 3 201 = false ∧
       laserAllowed s 0 1 3 301 = false ∧ limitsBlank s 0 = false ∧ limitsBlank S0 0 = true) ∧
    (let s := txS 1 0
     (bitsOf 0 16 16 = getF s (F.TX_CHANNEL 1) ∧ bitsOf 0 0 16 = getF s (F.TX_FINE 1)) ∧
       (bitsOf 0x640000 16 16 ≠ getF s (F.TX_POWER 1) ∧ bitsOf 0x640000 0 16 = getF s (F.LO_POWER 1) ∧
         laserAllowed s 1 0 3 (bitsOf 0x640000 16 16) = true) ∧
       bitOf 0 0 = getB s (F.LO_EN 1) ∧ bitOf 0 1 = false) ∧
    (getB (put [(F.PORT_EN 1, 0)] fuseS) (F.PORT_EN 1) = false ∧ getB fuseS (F.LO_EN 1) = false ∧
      ∀ l < 2, ∀ cmd < 4, cmd = 1 ∨ cmd = 2 ∨ cmd = 3 → laserAllowed fuseS 1 l cmd (getF fuseS (laserField 1 l cmd)) = true) := by
  decide +kernel

theorem witness_LaserOutputFollowsItsOwner :
    let s := put [(F.LO_EN 0, 1)] (txS 0 2)
    isOn s (lineDom 0) = true ∧ getB s (F.PORT_EN 0) = true ∧ outputDue s 0 0 = true ∧ outputDue s 0 1 = true ∧
      laserAllowed s 0 0 4 1 = true ∧ outputDue (txS 0 0) 0 0 = false ∧ limitsBlank S0 0 = true := by decide +kernel

/-- An answer of a laser with its check. -/
def answer (cmd dat : Nat) : Word := BitVec.ofNat 32 (laserFrame cmd dat)
theorem witness_LaserAnswersAreJudgedAndKept :
    (let s := txS 0 1
     isOn s (lineDom 0) = true ∧ getB s (F.PORT_EN 0) = true ∧ answerGood 0x10 (answer 0x10 13) = true ∧ answerGood 0x10 0 = false ∧
       (laserAt (setLaser s 0 0 { laserAt s 0 0 with bad := 2 }) 0 0).bad = 2 ∧ (laserAt s 0 0).bad ≠ 2 ∧
       answerGood 0x11 (answer 0x11 300) = true ∧ answerGood 0x11 0 = false ∧ answerGood 0x12 (answer 0x12 0x8001) = true) ∧
      mgmtWorks (off [1] (txS 0 1)) = false := by decide +kernel

/-- Both references there. -/
def refS : State := put [(F.REFCLK_OK, 1), (F.VREF_OK, 1)] S0
theorem witness_ForegroundRequestStartsOrSaysWhy :
    ∀ c < 2, isOn refS 1 = true ∧ refsOk refS = true ∧ transmitting refS c = false ∧ fgRunning refS c = false ∧
      isOn refS (lineDom c) = true ∧ refsOk S0 = false ∧ transmitting (put [(F.TX_STATE c, 2)] refS) c = true ∧
      fgRunning { refS with cal := { refS.cal with running := [c] } } c = true ∧ isOn (off [4, 5] refS) (lineDom c) = false := by decide +kernel

theorem witness_ConverterCalibrationBeginsAndEnds :
    (let s := stw (put [(F.T_LAST_VALID, 0), (F.TEMP_SRC, 1)] refS)
     isOn s 1 = true ∧ isOn s 4 = true ∧ refsOk s = true ∧ s.cal.trig = false ∧ getB s F.HK_CAL_BUSY = false ∧
       s.stw.running = true ∧ calTriggered s = true ∧ refS.stw.running = false) ∧
    (let s := put [(F.HK_CAL_BUSY, 1)] S0
     isOn s 4 = true ∧ getB s F.HK_CAL_BUSY = true ∧ s.cal.trigHk = false ∧ isOn s 5 = true ∧ isOn (off [5] s) 5 = false) := by decide +kernel

/-- Coefficients in range, and out of it. -/
def calGood : CalResult := ⟨[(3, 16384), (-256, 14336)], [0x4000, -5], [1, 2]⟩
def calBad : CalResult := ⟨[(257, 16384)], [], []⟩
theorem witness_ForegroundRunEndsInResultOrFailure :
    (let s : State := { refS with cal := { refS.cal with running := [1, 0], wakeRun := [0, 1] } }
     fgRunning s 0 = true ∧ s.cal.running.Nodup ∧ s.cal.wakeRun.Nodup ∧ calInRange calGood = true ∧ calInRange calBad = false ∧
       isOn s 4 = true ∧ isOn s 5 = true ∧ isOn (off [4] s) 4 = false) ∧ fgRunning refS 0 = false := by decide +kernel

theorem witness_BackgroundPassesAndReferencesFollowTheirRules :
    (∀ c < 2, prioRunning refS c = false ∧ isOn refS (lineDom c) = true ∧ isOn refS (fabDom c) = true ∧ isOn refS 4 = true ∧
      isOn refS 5 = true ∧ isOn (off [5 - c] refS) (lineDom c) = true ∧ isOn (off [5 - c] refS) (5 - c) = false ∧
      isOn (off [6, 7] refS) (fabDom c) = false ∧ refsOk refS = true ∧ fgRunning refS c = false ∧ c ∉ refS.cal.wakeRun ∧
      c ∈ { refS with cal := { refS.cal with wakeRun := [c] } }.cal.wakeRun) ∧ refsOk S0 = false ∧
    isOn refS 1 = true ∧ getB refS F.REFCLK_OK = true ∧ getB refS F.VREF_OK = true ∧ getB refS F.HK_CAL_BUSY = false ∧
      refS.cal.running = [] ∧ getF refS F.BG_PRIO = 0 ∧ isOn (off [1] refS) 1 = false := by decide +kernel

/-! ### Host lanes, peers, records, Fathom -/

/-- Lane group 0 with a zone, two lanes, at a rate and in a state. -/
def grpS (st : Nat) : State :=
  setZone (put [(F.ZONE_PRESENT 16, 1), (F.GRP_STATE 0, st), (F.LANE_RATE 0, 3)] S0) 16
    { ZoneSt.blank with active := { ZContent.empty with regs := [(0x00110400, 65536 * 2)] } }
theorem witness_LaneGroupMachineFollowsItsRows :
    (∀ st ≤ 4, groupAble (grpS st) 0 = true ∧ getF (grpS st) (F.GRP_STATE 0) = st) ∧
      allLocked (put [(F.LOCKED 0, 1), (F.LOCKED 1, 1)] (grpS 4)) 0 = true ∧ grpLanes (grpS 3) 0 = [0, 1] ∧
      (∀ k ∈ grpLanes (grpS 3) 0, getB (put [(F.SIG_DET 0, 1), (F.SIG_DET 1, 1)] (grpS 3)) (F.SIG_DET k) = true) ∧
      (let s : State := { grpS 3 with host := { S0.host with timers := [0] } }
       0 ∈ s.host.timers ∧ 0 ∉ s.host.alarmed ∧ 0 ∈ { s with host := { s.host with alarmed := [0] } }.host.alarmed) ∧
      groupAble (off [6] (grpS 2)) 0 = false ∧ getF (off [6] (grpS 2)) (F.GRP_STATE 0) ≠ 0 := by decide +kernel

theorem witness_LaneLocksAndControlsTakeEffect :
    (let s := put [(F.LOCKED 1, 1)] (grpS 2)
     laneIn s 1 = some 0 ∧ getB s (F.LOCKED 1) = true ∧ getF s (F.GRP_STATE 0) = 2 ∧ getB (grpS 2) (F.LOCKED 1) = false ∧
       (-50 : Int) ≤ -50 ∧ (50 : Int) ≤ 50 ∧ (-51 : Int) < -50 ∧ (50 : Int) < 51 ∧ getF (grpS 3) (F.GRP_STATE 0) = 3) ∧
    (let s := put [(F.CTLE_MODE 0, 2)] (grpS 2)
     laneIn s 0 = some 0 ∧ getF s (F.CTLE_MODE 0) = 2 ∧ getB s (F.ADAPT_DONE 0) = false ∧
       getB (put [(F.ADAPT_DONE 0, 1)] s) (F.ADAPT_DONE 0) = true ∧ isOn s (laneFab 0) = true ∧ present s 16 = true ∧
       getF s (F.GRP_LOOP 0) ≠ 3 ∧ getF (grpS 4) (F.GRP_STATE 0) ≠ 2 ∧ getF s (F.GRP_LOOP 0) = 0) := by decide +kernel

/-- A product with zero. -/
theorem gfMulGo_zero (f : Gf) (n b : Nat) : gfMulGo f n 0 b = 0 := by
  induction n generalizing b with
  | zero => rfl
  | succ n ih => simp [gfMulGo, bitOf, ih]
/-- Zeros before a word leave its value at a point. -/
theorem horner_zeros {α : Type} (f : Gf) (a : Nat) (z : α) (v : α → Nat) (hz : v z = 0) (n : Nat) (w : List α) :
    (List.replicate n z ++ w).foldl (fun acc b => gfMul f acc a ^^^ v b) 0 = w.foldl (fun acc b => gfMul f acc a ^^^ v b) 0 := by
  induction n with
  | zero => rfl
  | succ n ih => simpa [List.replicate_succ, gfMul, gfMulGo_zero, hz] using ih
/-- Zeros before a word leave its syndromes. -/
theorem bchSyndromes_front (f : Gf) (t n : Nat) (w : List Bool) : bchSyndromes f t (List.replicate n false ++ w) = bchSyndromes f t w := by
  simp only [bchSyndromes, horner_zeros f _ false (fun b => if b then 1 else 0) rfl]
/-- Two errors at the end of a frame's codeword. -/
theorem bch_pair : bchErrors gf9 2 (List.replicate 441 false ++ [true, true]) = some [441, 442] := by
  unfold bchErrors
  rw [bchSyndromes_front]
  decide +kernel
/-- A frame's codeword without errors. -/
theorem bch_none : bchErrors gf9 2 (List.replicate 441 false ++ [false, false]) = some [] := by
  unfold bchErrors
  rw [bchSyndromes_front]
  decide +kernel
/-- Zeros in front leave a parity alone. -/
theorem parity_front (e : Bool) (w : List Bool) (n : Nat) : (List.replicate n false ++ w).foldl (· != ·) e = w.foldl (· != ·) e := by
  induction n with
  | zero => rfl
  | succ n ih => simpa [List.replicate_succ] using ih
/-- A frame with the SYNC of a later frame of its quad, zeros, and a number in its last bits. -/
def frameF (n : Nat) : List Bool := bitsMsb 448 (6 * 2 ^ 444 + n)
/-- What a frame's decoding counts, from the errors and the parity of its codeword. -/
theorem innerMsg_found (bs w : List Bool) (x : Bool) (r : Option (List Nat)) (hw : (bs.drop 4).take 443 = w) (hx : bs.getD 447 false = x)
    (hr : extErrors gf9 w x = r) : (innerMsg bs).2 = r.map List.length := by
  subst hw hx hr
  unfold innerMsg
  dsimp only
  split <;> simp_all
theorem extErrors_none (f : Gf) (w : List Bool) (x : Bool) (h : bchErrors f 2 w = some []) (hp : w.foldl (· != ·) x = false) :
    extErrors f w x = some [] := by
  simp [extErrors, h, hp]
theorem extErrors_pair (f : Gf) (w : List Bool) (x : Bool) (a b : Nat) (h : bchErrors f 2 w = some [a, b])
    (hp : w.foldl (· != ·) x = true) : extErrors f w x = none := by
  simp [extErrors, h, hp]
theorem innerMsg_good : (innerMsg (frameF 0)).2 = some 0 :=
  innerMsg_found _ (List.replicate 441 false ++ [false, false]) false _ (by decide +kernel) (by decide +kernel)
    (extErrors_none _ _ _ bch_none (by rw [parity_front]; rfl))
theorem innerMsg_bad : (innerMsg (frameF 7)).2 = none :=
  innerMsg_found _ (List.replicate 441 false ++ [true, true]) true _ (by decide +kernel) (by decide +kernel) 
    (extErrors_pair _ _ _ _ _ bch_pair (by rw [parity_front]; rfl))
/-- Words of RS(544,514): without errors, and beyond repair. -/
theorem rs_good : rsErrors (List.replicate 543 0 ++ [0]) = some 0 := by
  have h := fun j => horner_zeros gf10 (gfAlpha gf10 j) 0 id rfl 543 [0]
  simp only [id] at h
  simp only [rsErrors, h]
  decide +kernel
theorem rs_bad : rsErrors (List.replicate 528 0 ++ List.replicate 16 1) = none := by
  have h := fun j => horner_zeros gf10 (gfAlpha gf10 j) 0 id rfl 528 (List.replicate 16 1)
  simp only [id] at h
  simp only [rsErrors, h]
  decide +kernel

/-- Lane 0 at rate 5 with its frame search at a point. -/
def innS (lock : Nat) (x : InnerSt) : State :=
  let s := put [(F.LANE_RATE 0, 5), (F.FRAME_LOCK 0, lock)] (grpS 2)
  { s with host := { s.host with inner := [(0, x)] } }
/-- The 448 bits that a frame search takes in lock. -/
def takenF (x : InnerSt) (n : Nat) : List Bool :=
  ((lastBits 448 (List.replicate 448 false ++ x.bits) ++ bitsMsb 448 (6 * 2 ^ 444 + n)).drop (448 - x.tail)).take 448
theorem witness_LaneReceiversCountAndLock :
    (let s := innS 1 ⟨[], 0, 3, 3, []⟩
     laneIn s 0 = some 0 ∧ getF s (F.LANE_RATE 0) = 5 ∧ getB s (F.FRAME_LOCK 0) = true ∧ syncKind (takenF ⟨[], 0, 3, 3, []⟩ 0) ≠ syncOf 0 ∧
       3 ≤ (tget s.host.inner 0 InnerSt.blank).bad) ∧
    (takenF InnerSt.blank 0 = frameF 0 ∧ takenF InnerSt.blank 7 = frameF 7 ∧ syncKind (frameF 0) = syncOf 1 ∧ syncKind (frameF 7) = syncOf 1 ∧
      (innerMsg (frameF 0)).2 = some 0 ∧ (innerMsg (frameF 7)).2 = none) ∧
    (let fs : List (List Bool) := [9, 6, 6, 6, 9, 6, 6, 6].map fun n => bitsMsb 448 (n * 2 ^ 444)
     let x : InnerSt := ⟨fs.flatten.take 3583, 0, 0, 0, []⟩
     getB (innS 0 x) (F.FRAME_LOCK 0) = false ∧ innerSearch (lastBits 4032 (x.bits ++ bitsMsb 448 0)) = some (447, 3) ∧
       innerSearch (lastBits 4032 (InnerSt.blank.bits ++ bitsMsb 448 0)) = none) ∧
    (let s := put [(F.LANE_RATE 0, 1), (F.CHK_EN 0, 1), (F.CHK_LOCK 0, 1), (F.CHK_PAT 0, 0)] (grpS 2)
     laneIn s 0 = some 0 ∧ (patPoly (getF s (F.CHK_PAT 0))).isSome = true ∧ getB s (F.CHK_EN 0) = true ∧
       getB s (F.CHK_LOCK 0) = true ∧ (tget s.host.pat 0 PatSt.blank).win = []) ∧
    (let s := put [(F.LANE_RATE 0, 2)] (grpS 1)
     groupAble s 0 = true ∧ 2 ≤ getF s (F.LANE_RATE 0) ∧ getF s (F.GRP_STATE 0) ≠ 0) ∧
    rsErrors (List.replicate 543 0 ++ [0]) = some 0 ∧ rsErrors (List.replicate 528 0 ++ List.replicate 16 1) = none := by
  rw [innerMsg_good, innerMsg_bad, rs_good, rs_bad]
  decide +kernel

theorem witness_PeerEntryWriteIsCheckedAndTaken :
    isOn (off [1] S0) 1 = false ∧ isOn S0 1 = true ∧ 2 ≤ bitsOf 0x80000000 30 2 ∧ bitsOf 0x00000100 16 5 < bitsOf 0x00000100 8 5 ∧
      (bitsOf 0x411F1F00 30 2 < 2 ∧ bitsOf 0x411F1F00 8 5 ≤ bitsOf 0x411F1F00 16 5 ∧ bitsOf 0x411F1F00 30 2 ≠ getF S0 (F.PEER_KIND 3) ∧
        bitsOf 0x411F1F00 30 2 ≠ peerKind S0 3) ∧
      (let s := put [(F.PEER_STAGE_TAG, 77), (F.PEER_TAG 3, 77), (F.PEER_KIND 3, 1)] S0
       (if bitsOf 0x411F1F00 30 2 = 0 then 0 else getF s F.PEER_STAGE_TAG) = getF s (F.PEER_TAG 3) ∧
         bitsOf 0x411F1F00 30 2 = getF s (F.PEER_KIND 3) ∧ unusable s 10 6 = false ∧ unusable s 10 7 = false) := by decide +kernel

theorem witness_RecordWritesAndSnapshotsGoToTheStore :
    (isOn S0 1 = true ∧ getB S0 F.SAVE_BUSY = false ∧ S0.st.small = false ∧ getB (put [(F.SAVE_BUSY, 1)] S0) F.SAVE_BUSY = true) ∧
    (let w : RecWrite := ⟨.peer, [1, 2], 0⟩
     let s : State := { S0 with st := { S0.st with writes := [⟨.snapshot, [], 0⟩, w] } }
     RecKind.peer ≠ .snapshot ∧ mgmtWorks s = true ∧ (s.st.writes.find? fun x => x.kind == .peer) = some w ∧
       (S0.st.writes.find? fun x => x.kind == .peer) = none) ∧
    (getF S0 F.SNAP_PERIOD ≠ 0 ∨ getF (put [(F.SNAP_PERIOD, 1)] S0) F.SNAP_PERIOD ≠ 0) ∧ isOn S0 9 = true ∧ getB S0 F.SNAP_BUSY = false ∧
      getB (put [(F.SNAP_BUSY, 1)] S0) F.SNAP_BUSY = true ∧ S0.stw.dmaStop = false ∧ S0.fth.snap = none ∧
      pagePoison S0 254 = none ∧ pagePoison (setMem S0 0 { memAt S0 0 with poison := [255 * 16384 + 9] }) 255 = some (255 * 16384 + 9) ∧
      ∀ n ∈ [254, 255], (let s : State := { S0 with fth := { S0.fth with snap := some ⟨n, [], []⟩ } }
        s.fth.snap = some ⟨n, [], []⟩ ∧ n < 256 ∧ isOn s 9 = true ∧ mgmtWorks s = true) := by decide +kernel

/-- Group 0 with pages 3 and 4 of the table, and entries in and out of them. -/
def fthS : State :=
  let s := put [(F.PAGE_COUNT 0, 2), (F.PAGE_BASE 0, 3)] S0
  { s with fth := { s.fth with table := [(3 * 65536, 77), (5 * 65536, 4)], clear := [4] } }
theorem witness_FathomPagesClearAndLoad :
    isOn fthS 9 = true ∧ grpPages fthS 0 = [3, 4] ∧ (∃ g, g < 32 ∧ (3 * 65536) / 65536 ∈ grpPages fthS g) ∧
      (∀ g, g < 32 → (5 * 65536) / 65536 ∉ grpPages fthS g) ∧ fthS.fth.clear ≠ [] ∧ isOn (off [9] fthS) 9 = false ∧
      S0.fth.clear = [] ∧ newest S0 .snapshot = none ∧ { S0 with fth := { S0.fth with loading := true } }.fth.loading = true ∧
      S0.fth.loading = false ∧ (∀ g, g < 32 → getF S0 (F.ACQ_STATE (g / 16) (g % 16)) < 4) := by
  exact ⟨by decide +kernel, by decide +kernel, ⟨0, by decide +kernel⟩, by decide +kernel, by decide +kernel, by decide +kernel,
    by decide +kernel, by decide +kernel, by decide +kernel, by decide +kernel, by decide +kernel⟩

/-! ### Line receive, decoder, delivery -/

/-- Unit 0 of carrier 0 over subcarriers 3 and 4, in a state. -/
def unitS (st : Nat) : State :=
  setS (setS (put [(F.ACQ_STATE 0 0, st), (F.SC_COUNT 0 0, 2), (F.FIRST_SC 0 0, 3), (F.ZONE_PRESENT 32, 1), (F.ACQ_THR 0, 100),
    (F.NTAPS 0 0, 4), (F.NTAPS_EFF 0 0, 4)] S0) (F.CD_MIN 0 0) (-1000)) (F.CD_MAX 0 0) 2000
theorem witness_ReceiveLoopsAndMeasuresFollowTheirRules :
    (isOn S0 (lineDom 0) = true ∧ 0 ∉ S0.cal.running ∧ (262144 : Int) < 262145 ∧ (-262145 : Int) < -262144 ∧ (-262144 : Int) ≤ 262144) ∧
    (getF (put [(F.AGC_MODE 0, 1)] S0) (F.AGC_MODE 0) = 1 ∧ getF (put [(F.AGC_MODE 0, 0)] S0) (F.AGC_MODE 0) = 0 ∧
      (let s := put [(F.AGC_MODE 0, 2), (F.AGC_GAIN 0 0, 0x100), (F.AGC_GAIN 0 1, 0xFFFF)] S0
       getF s (F.AGC_MODE 0) = 2 ∧ ∀ i, i < 4 → 0x100 ≤ getF s (F.AGC_GAIN 0 i) ∧ getF s (F.AGC_GAIN 0 i) ≤ 0xFFFF) ∧
      (let s : State := { unitS 3 with rx := { S0.rx with agcRep := [0] } }
       0 ∈ s.rx.agcRep ∧ agcModeOf s 0 = 1 ∧ 0 ∉ S0.rx.agcRep)) ∧
    (let s : State := off [1] { unitS 4 with rx := { S0.rx with qDone := [(scKey 0 3, .zero)] } }
     4 ≤ getF s (F.ACQ_STATE 0 0) ∧ intervalDone s 0 0 = true ∧ mgmtWorks s = false ∧
       getF (unitS 3) (F.ACQ_STATE 0 0) < 4 ∧ intervalDone (unitS 4) 0 0 = false) ∧
    (let s : State := { unitS 5 with rx := { S0.rx with taps := [(scKey 0 3, List.replicate 40 5)] } }
     stayUnit s 0 3 = some 0 ∧ tget s.rx.taps (scKey 0 3) [] ≠ [] ∧ dropped s 0 0 ≤ 31 / 8 ∧ 31 / 8 < getF s (F.NTAPS 0 0) - dropped s 0 0 ∧
       31 < (scTaps s 0 0 3).length ∧ getF s (F.NTAPS 0 0) - dropped s 0 0 ≤ 32 / 8 ∧ stayUnit s 0 5 = none) := by decide +kernel

/-- A clear peak, and a weak one far from it. -/
def peakHi : Peak := ⟨7, 6, 10 ^ 12, 10 ^ 8⟩
def peakLo : Peak := ⟨500, 6, 1, 10 ^ 8⟩
theorem witness_AcquisitionFollowsItsRows :
    (∀ st ≤ 3, unitAble (unitS st) 0 0 = true ∧ getF (unitS st) (F.ACQ_STATE 0 0) = st) ∧
      (let s := put [(F.ZONE_PRESENT 32, 0)] (unitS 3)
       unitAble s 0 0 = false ∧ getF s (F.ACQ_STATE 0 0) ≤ 3 ∧ s.ldg.unrep = 0) ∧
      (let at' (d : Int) (s : State) : State := setUnit s 0 0 { unitAt s 0 0 with trialD := 4 * d, timer := some 5, cand := some peakHi }
       (unitAt (at' 1999 (unitS 1)) 0 0).trialD < cdMax (unitS 1) 0 0 ∧ cdMax (unitS 1) 0 0 ≤ (unitAt (at' 2000 (unitS 1)) 0 0).trialD ∧
         (unitAt (at' 0 (unitS 3)) 0 0).timer.isSome = true) ∧
      (-51000 : Int) ≤ -51000 ∧ (51000 : Int) ≤ 51000 ∧ getF (unitS 2) (F.ACQ_THR 0) ≤ peakLam (unitS 2) 0 0 peakHi ∧
      peakLam (unitS 2) 0 0 peakLo < getF (unitS 2) (F.ACQ_THR 0) := by
  decide +kernel

/-- Unit 0 in VERIFY, with an entry for tag 77, and headers of that tag. -/
def verS : State :=
  let s := put [(F.PEER_KIND 5, 1), (F.PEER_TAG 5, 77), (F.PEER_CARRIER 5, 0), (F.PEER_FIRST 5, 0), (F.PEER_LAST 5, 31)] (unitS 3)
  setUnit s 0 0 { unitAt s 0 0 with cand := some peakHi, timing := 7, passes := 1, first := true }
def hdr77 (tag : Nat) : List HdrSc := [3, 4].map fun k => ⟨k, BitVec.ofNat 96 (ofBitsMsb (headerBits tag 100 0))⟩
theorem witness_HeadersVerifyTheCandidate :
    getF (unitS 2) (F.ACQ_STATE 0 0) < 3 ∧ getF verS (F.ACQ_STATE 0 0) = 3 ∧
      (let x := unitAt verS 0 0
       let ps := passing x x.first (expected verS 0 0) (unitHdrs verS 0 0 (hdr77 77))
       groupPass verS 0 0 ps = true ∧ ps ≠ [] ∧ x.passes < 2) ∧
      ((∀ h ∈ unitHdrs verS 0 0 [⟨3, 0⟩], h.crc = false) ∧ unitHdrs verS 0 0 [⟨3, 0⟩] ≠ [] ∧ (unitAt verS 0 0).retained = []) ∧
      (∀ z, z < 3 → unitKey 0 0 ∉ (zoneAt verS z).waits) ∧ (unitAt verS 0 0).cand = some peakHi ∧
      timingGap peakHi.timing (unitAt verS 0 0).timing ≤ 64 ∧
      (∀ p ∈ [peakLo, { peakHi with timing := 500 }], 64 < timingGap p.timing (unitAt verS 0 0).timing ∧
        peakPower verS 0 0 p < peakPower verS 0 0 peakHi + 30) ∧
      peakLam verS 0 0 peakLo < getF verS (F.ACQ_THR 0) ∧ getF verS (F.ACQ_THR 0) ≤ peakLam verS 0 0 { peakHi with timing := 500 } := by
  decide +kernel

/-- Unit 0 in CARRY with codewords in the pool. -/
def poolS (l : List Cw) : State := { unitS 5 with fec := { S0.fec with pool := l } }
/-- A codeword of group 0 and subcarrier 3 in a phase, with iterations made. -/
def cwS (phase iter : Nat) : Cw := {
  id := 3, grp := 0, sc := scKey 0 3, cfg := ⟨1, 1, 1, 1, 0, 119, true⟩, num := 0, phase := phase, iter := iter, hard := [], zero := false
  erased := false, first := false, llr := [], post := [], msgs := [], pts := [], raw := [], times := [] }
/-- A pass over no sums leaves none. -/
theorem layeredPass_empty (kb : Nat) (up : List Bool) (m : List (List Int)) : (layeredPass kb up m []).2 = [] := by
  have hs (l : List (Nat × Int × Int)) : l.foldl (fun p e => p.set e.1 (e.2.1 + e.2.2)) ([] : List Int) = [] := by
    induction l with
    | nil => rfl
    | cons e l ih => simpa using ih
  have hf {α β : Type} (f : β × List Int → α → β × List Int) (h : ∀ st a, st.2 = [] → (f st a).2 = []) (l : List α) :
      ∀ st : β × List Int, st.2 = [] → (l.foldl f st).2 = [] := by
    induction l with
    | nil => exact fun _ h => h
    | cons a l ih => exact fun st h' => ih _ (h st a h')
  refine hf _ (fun st i h => hf _ (fun st a h => ?_) _ _ h) _ _ rfl
  simp only [checkPass, h, hs]
/-- An iteration over no sums, with its messages left unread. -/
theorem iteration_empty {s : State} {id : Nat} {up : List Bool} {w : Cw} (h : cwAt s id = some w) (hp : w.post = []) :
    execDecoderIteration id up s = .next
      (if !isOn s 8 ∨ w.phase ≠ 1 then s
      else
        let w : Cw := { w with iter := w.iter + 1, msgs := (layeredPass w.cfg.kb up w.msgs w.post).1, post := [], hard := hardBits s [] }
        let s := addF (drewN s 23040) (F.FEC_ITER w.grp) 1
        if !syndromeZero w.hard w.cfg.kb ∧ w.iter < 32 ∧ (w.iter < 2 ∨ 4 ≤ bank s w.grp) then debit (cwSet s w) w.grp else cwDone w s) := by
  have hl : (layeredPass w.cfg.kb up w.msgs w.post).2 = [] := by rw [hp]; exact layeredPass_empty _ _ _
  simp only [execDecoderIteration, h, hl]
theorem witness_DecoderPoolFollowsItsRules :
    isOn (unitS 5) 8 = true ∧ getF (unitS 5) (F.ACQ_STATE (0 / 16) (0 % 16)) = 5 ∧ 3 ∈ unitScs (unitS 5) (0 / 16) (0 % 16) ∧
      getF (unitS 4) (F.ACQ_STATE (0 / 16) (0 % 16)) ≠ 5 ∧
      (let s := poolS [cwS 0 0]
       (s.fec.pool.find? fun v => v.phase == 0) = some (cwS 0 0) ∧ engines s < 48 ∧ -32764 ≤ bank s 0) ∧
      48 ≤ engines (poolS (List.replicate 48 (cwS 1 0))) ∧ ((poolS []).fec.pool.find? fun v => v.phase == 0) = none ∧
      (let s := poolS [cwS 1 0]
       let w := cwS 1 0
       cwAt s 3 = some w ∧ w.phase = 1 ∧ syndromeZero (hardBits s (layeredPass w.cfg.kb [] w.msgs w.post).2) w.cfg.kb = false ∧
         w.iter < 31 ∧ w.iter = 0 ∧ -32764 ≤ bank s 0) ∧
      (cwAt (poolS [cwS 1 31]) 3 = some (cwS 1 31) ∧ 31 ≤ (cwS 1 31).iter) ∧
      (cwAt (poolS [cwS 0 0]) 3 = some (cwS 0 0) ∧ (cwS 0 0).phase ≠ 2 ∧ cwAt (poolS [cwS 2 4]) 3 = some (cwS 2 4) ∧ (cwS 2 4).phase = 2) := by
  have h : (layeredPass (cwS 1 0).cfg.kb [] (cwS 1 0).msgs (cwS 1 0).post).2 = [] := layeredPass_empty _ _ _
  simp only [h]
  decide +kernel

/-- Client 0 with firkin 4, its receive queue given, the next FSEQ expected 10. -/
def rxqS (q : List QEnt) : State :=
  put [(F.ZONE_PRESENT 16, 1)]
    (off [10] { S0 with fec := { S0.fec with client := [(4, 1)], rxq := [(4, q)], expect := [(4, 10)] } })
theorem witness_DeliveryTakesEntriesInOrder :
    (let s := poolS (List.replicate 4 (cwS 2 5))
     isOn s 8 = true ∧ ((s.fec.pool.filter fun v => v.sc == scKey 0 3).take 4) = List.replicate 4 (cwS 2 5) ∧
       (cwS 2 5).cfg.outer = true ∧ (∀ v ∈ List.replicate 4 (cwS 2 5), v.phase = 2 ∧ v.first = false)) ∧
    (((poolS [cwS 1 5]).fec.pool.filter fun v => v.sc == scKey 0 3).take 4) = [cwS 1 5] ∧ (cwS 1 5).phase ≠ 2 ∧
    (isOn (rxqS []) 8 = true ∧ tfind (rxqS []).fec.expect 4 = some 10 ∧ tailTakes (rxqS []) 4 10 1 = 0 ∧ rxFree (rxqS []) 4 ≠ 0 ∧
      tailTakes (rxqS [.gaps 1 7 3]) 4 10 1 = 1 ∧
      (let full := List.replicate 8 (QEnt.block ⟨0, 4, 3, []⟩)
       tailTakes (rxqS full) 4 10 1 = 0 ∧ rxFree (rxqS full) 4 = 0) ∧ tfind (rxqS []).fec.expect 5 = none) ∧
    (let s := rxqS [.block ⟨0, 4, 3, List.replicate 64 5⟩]
     present s 16 = true ∧ (clientFirkins s 0)[(mapAt s 0).next]? = some 4 ∧ isOn s 10 = false ∧ getB s (F.CLI_SYNC 0) = false ∧
       tfind s.fec.commit 4 = none ∧ rxq s 4 = [.block ⟨0, 4, 3, List.replicate 64 5⟩] ∧
       huntStart ((mapAt s 0).words ++ List.replicate 64 5) = none ∧ rxq (rxqS [.gaps 1 65535 1]) 4 = [.gaps 1 65535 1] ∧
       rxq (rxqS [.gaps 0 65535 2]) 4 = [.gaps 0 65535 2] ∧ rxq (rxqS []) 4 = []) := by decide +kernel

/-! ### Ledger and memory protection -/

theorem witness_MainTimeAndLifetimeSetsAreKept :
    (getB S0 F.SLEWING = false ∧ getB (put [(F.SLEWING, 1)] S0) F.SLEWING = true ∧
      (∀ e : Int, e ∈ [-6, -5, 5, 6] → { S0 with time := { S0.time with err := e } }.time.err = e) ∧ 512 < (513 : Int).natAbs ∧
      (-512 : Int).natAbs ≤ 512 ∧ getB (put [(F.TIME_UNTRIMMED, 0)] S0) F.TIME_UNTRIMMED = false ∧
      getB (put [(F.TIME_UNTRIMMED, 1)] S0) F.TIME_UNTRIMMED = true) ∧
    mgmtWorks S0 = true ∧ isOn S0 1 = true ∧ { S0 with time := { S0.time with ckptRetry := true } }.time.ckptRetry = true ∧
      S0.st.small = false ∧ mgmtWorks (off [1] S0) = false ∧ S0.time.ckptRetry = false ∧ trising S0.ldg.hist = true := by
  decide +kernel

/-- The Ledger with what is given of it, and a record of six words. -/
def ldgS (f : LedgerSt → LedgerSt) (s : State) : State := { s with ldg := f s.ldg }
def rec6 : LRec := ⟨1, 1, 77, 5, [0, 1, 2, 3, 4, 5]⟩
theorem witness_RecordWriterFillsTheRing :
    (let s := put [(F.LDG_WR, 2 ^ 22 - ringLen rec6)] (ldgS (fun l => { l with intake := [rec6] }) S0)
     s.ldg.unrep = 0 ∧ mgmtWorks s = true ∧ s.ldg.intake = [rec6] ∧ getB s F.LDG_CLOSED = false ∧ ringFits s rec6 = true ∧
       rec6.typ ≠ 7 ∧ rec6.typ ≠ 8 ∧ getF s F.LDG_WR + ringLen rec6 ≤ 2 ^ 22) ∧
    (let s := put [(F.LDG_WR, 100)] (ldgS (fun l => { l with intake := [rec6], region := [(100, ⟨0, 0, 2 ^ 22 - 50, 0, []⟩)] }) S0)
     ringFits s rec6 = false ∧ getB s F.LDG_CLOSED = false) ∧
    (let s := put [(F.LDG_CLOSED, 1)] (ldgS (fun l => { l with intake := [rec6], reserve := List.replicate 62 rec6 }) S0)
     getB s F.LDG_CLOSED = true ∧ s.ldg.reserve.length < 63 ∧ mgmtWorks (off [1] s) = false) ∧
    (let s := put [(F.LDG_WR, 56)] (ldgS (fun l => { l with region := [(0, rec6), (28, rec6)] }) S0)
     isOn s 1 = true ∧ s.ldg.runs = [] ∧ bitsOf 56 0 22 = getF s F.LDG_WR ∧
       (bitsOf 7 0 22 ≠ getF s F.LDG_WR ∧ ∀ e ∈ s.ldg.region, e.1 ≠ bitsOf 7 0 22) ∧
       (bitsOf 28 0 22 ≠ getF s F.LDG_WR ∧ s.ldg.region.any fun e => e.1 == bitsOf 28 0 22)) ∧
    isOn (off [1] S0) 1 = false := by decide +kernel

theorem witness_ParityCorrectsAnyOneBit :
    let row := List.replicate 8 0
    row.length = 8 ∧ rowR row = [] ∧ rowC row = [] ∧ 7 < 8 ∧ 63 < 64 := by decide +kernel

/-- Memory `m` with poisoned words. -/
def poisonS (m : Nat) (ws : List Nat) (s : State) : State := setMem s m { memAt s m with poison := ws }
theorem witness_ScrubberAndStewardMeetBadWords :
    (let s := put [(F.SCRUB_PERIOD 10, 5)] S0
     isOn s (memDom 10) = true ∧ getF s (F.SCRUB_PERIOD 10) ≠ 0 ∧ (∀ m ∈ [0, 10], (rowCheck m (List.replicate 8 0)).fixed = [] ∧
       (rowCheck m (List.replicate 8 0)).bad = []) ∧ (memAt s 10).row + 1 < memRows 10 ∧
       memRows 0 ≤ (memAt (setMem s 0 { memAt s 0 with row := 524287 }) 0).row + 1 ∧
       getF (put [(F.SCRUB_PERIOD 0, 0)] s) (F.SCRUB_PERIOD 0) = 0 ∧ isOn (off [9] s) (memDom 0) = false) ∧
    (isOn (poisonS 0 [16384, 3] S0) 9 = true ∧ 16384 ∈ (memAt (poisonS 0 [16384, 3] S0) 0).poison ∧ 16384 / 16384 = (1 : Byte).toNat) ∧
    (let s := stw (poisonS 7 [4 * 9] (poisonS 8 [32767] S0))
     isOn s 1 = true ∧ s.stw.running = true ∧ poisoned s 7 (4 * (9 : BitVec 14).toNat) = true ∧
       poisoned s 7 (4 * (8 : BitVec 14).toNat) = false ∧ poisoned s 8 (32767 : BitVec 15).toNat = true ∧
       poisoned s 8 (0 : BitVec 15).toNat = false ∧ S0.stw.running = false) := by decide +kernel

/-! ### A signed section, and an image that holds it -/

/-- Keys whose signatures of the three headers below are cheap to check. -/
def keyFuse (x y : Nat) : FuseWord := ⟨true, x + 2 ^ 256 * y, 0⟩
/-- Every domain on, with three programmed keys. -/
def keyS : State :=
  let k0 := keyFuse 0xd895dbb984d0db460dd98215cf92704bb13453cdcfbffd1ed431408625fbd45c
    0x8d2d4b53840e2ae0af2df180ea63e9dc3014e6a719ac9563d523f1d25403e534
  let k1 := keyFuse 0xa7205d12c48a1c9b442ed8d22a94b867148d424681b50390c93f41eec0572a5f
    0x104e68c461f8dc641111906f3be81c89c20188496eb2785fe41c717c5fc8e283
  let k2 := keyFuse 0x1b73e9ed10edfdf39545bcc033bee1accff677bf8f1b89cacd4203788e10fe8e
    0x1bba1c51d88e443ffc24b7dbf04bd752f4e108d53d35da3072e7ca323c1c861c
  { S0 with sec := { S0.sec with shadow := ((S0.sec.shadow.set 6 k0).set 7 k1).set 8 k2 } }
/-- A section of zone 0, of key 1, that holds END alone (02 R44, R446). -/
def secB : List Byte := leBytes 132
  0x7fffc1d0b6e257db9c533cfbc6f01972bf04fd93eb7ca8c2bbd26c79fea4224c60eec1d0b6e257db9c533cfbc6f01972bf04fd93eb7ca8c2bbd26c79fea4224c60ee53452fcdb07d4d778d7ee5fe0aa20808affe2c1f422e12bc9b5a174e6f6e2fd60000320800000000000000000000000100010001000101000000008453454354
/-- An image of key 0 that holds that section (02 R44, R446). -/
def imgB : List Byte := leBytes 128
  0x29649dbe9152535d12ea98d7f4b12b9ad6c46b9afbfc9b53013389ae0c9728bb29649dbe9152535d12ea98d7f4b12b9ad6c46b9afbfc9b53013389ae0c9728bb7dee6bd2f3aff933896fb469d6cb0915da46c77ef9c809e1dc272cdba0a5374700000000000000010000010400000001000000a10000320800000001424d534e ++ secB
/-- A section of zone 3, of key 2, that holds END alone, in an image whose own header nothing here checks (02 R44). -/
def imgF : List Byte := leBytes 260
  0x7fffa3dd2902dd305a076b9d785b5b4ae8703786fca24831ae0f6f4cf3c889497474a3dd2902dd305a076b9d785b5b4ae8703786fca24831ae0f6f4cf3c88949747453452fcdb07d4d778d7ee5fe0aa20808affe2c1f422e12bc9b5a174e6f6e2fd6000032080000000000000000000000010001000100020103000000845345435422fa3463da31cf3f9bc9ab105ac200c0ebab46dc97956bf72a7bd53fb830bb2766ee9e298f956dbfd15c03320e470240c303d494c7c042e6807180bf28923177b3d573bcd74c3f3871487083761fb6694e5acce37e0b7d127d2232b018da081400000000000000010000010400000001000000a10000320800030001424d534e

/-! ### The loader and commits -/

/-- A load from a source in a state of the loader, with the bytes that wait. -/
def loadS (src st : Nat) (buf : List Byte) : State :=
  put [(F.LOADER_STATE, st), (F.LOAD_SRC, src)] { keyS with ld := { keyS.ld with src := src, buf := buf } }
theorem witness_LoadsStartAndEnd :
    (isOn S0 1 = true ∧ (3 : BitVec 3).toNat < 4 ∧ getF S0 F.LOADER_STATE = 0 ∧ 4 ≤ (4 : BitVec 3).toNat ∧ getF (loadS 0 1 []) F.LOADER_STATE ≠ 0) ∧
    (let s := loadS 3 1 []
     loading s 3 = true ∧ getF s F.LOAD_SRC = 3 ∧ s.ld.img = none ∧ s.ld.skip = 0 ∧ loading S0 3 = false) ∧
    (∀ z ∈ zonesAll, zoneOk z = true ∧ getF S0 (F.ZONE_STATE z) = 0 ∧ getF (put [(F.ZONE_STATE z, 1)] S0) (F.ZONE_STATE z) = 1) ∧
    (let s := loadS 2 1 []
     isOn s 1 = true ∧ 2 ≤ s.ld.src ∧ getF s F.LOADER_STATE = 1 ∧ s.ld.img = none ∧ s.ld.sec = none) ∧
    ((loadS 1 1 []).ld.src < 2 ∧ getF (loadS 1 1 []) F.LOADER_STATE = 1 ∧ (loadS 1 1 []).ld.sec = none ∧ (loadS 1 1 []).ld.buf = [] ∧
      getF (loadS 2 3 []) F.LOADER_STATE = 3) ∧
    (let x : SecSt := ⟨secOf [], [], [], ZContent.empty, 0, 0, false⟩
     let s : State := { loadS 0 2 [] with ld := { (loadS 0 2 []).ld with sec := some x } }
     isOn s 1 = true ∧ getF s F.LOADER_STATE = 2 ∧ s.ld.img = none ∧ s.ld.sec = some x) := by decide +kernel

theorem witness_storeImages :
    (let s : State := { loadS 0 1 [] with st := { S0.st with cells := flashPut [] (imageAddr 0) imgB } }
     isOn s 1 = true ∧ getF s F.LOADER_STATE = 1 ∧ s.ld.src < 2 ∧ s.ld.sec = none ∧ s.ld.buf = [] ∧
       (storeImage s s.ld.src).toOption = some [(128, secB)] ∧ secVerify s secB = 0 ∧ staleSec s secB = false) ∧
    (storeImage (loadS 0 1 []) 0).toOption = none := by decide +kernel

/-- A section as it is staged. -/
def stagedB : SecSt := ⟨secOf secB, secDigest secB, [], ZContent.empty, 3, 0, false⟩
/-- Zone 0 STAGING with its section, whose records wait. -/
def stageS (buf : List Byte) : State :=
  let s := put [(F.ZONE_STATE 0, 1)] (loadS 3 2 buf)
  { s with ld := { s.ld with sec := some stagedB } }
theorem witness_headersOfStreams :
    (let s := loadS 3 1 imgB
     s.ld.skip = 0 ∧ headReady s = true ∧ atImage s = true ∧ imgHeadCheck s (s.ld.buf.take 128) = 0) ∧
    (let s := loadS 3 1 (imgB.set 6 9)
     headReady s = true ∧ atImage s = true ∧ imgHeadCheck s (s.ld.buf.take 128) ≠ 0) ∧
    headReady (loadS 3 1 (imgB.take 127)) = false ∧
    (let s := loadS 3 1 secB
     headReady s = true ∧ atImage s = false ∧ s.ld.img = none ∧ 2 ≤ s.ld.src ∧ secHeadCheck s false (s.ld.buf.take 128) = 0 ∧
       secZoneCheck s (secOf (s.ld.buf.take 128)) = 0) ∧
    (let s := loadS 3 1 (secB.set 4 0)
     headReady s = true ∧ atImage s = false ∧ secHeadCheck s false (s.ld.buf.take 128) ≠ 0) := by decide +kernel

/-- Zone 0 with a section copied that is to commit at a furlong, or at once. -/
def copyS (tx : Nat) : State :=
  let s := put [(F.LOADER_STATE, 3)] (stageS [])
  setZone s 0 { ZoneSt.blank with copied := some ⟨ZContent.empty, 1, 2, 3, 4, false, tx, tx, 0, 7, 1⟩ }
/-- Zone 1 ARMED for a furlong. -/
def armedS (tx : Nat) (s : State) : State :=
  setZone (put [(F.ZONE_STATE 1, 2)] s) 1 { ZoneSt.blank with copied := some ⟨ZContent.empty, 1, 2, 3, 4, false, tx, tx, 0, 7, 1⟩ }
theorem witness_sectionsAndImagesEnd :
    (let s := stageS (secB.drop 128)
     stagedB.hdr.len ≤ 128 + 0 + 4 ∧ 128 + 0 + 4 < { stagedB.hdr with len := 136 }.len ∧ stagingSec s = some stagedB ∧ overruns stagedB s.ld.buf = false ∧ recordAt s.ld.buf = some (0x7FFF, [], 4) ∧ stagedB.hdr.zone ≠ 3 ∧
       bodyBad stagedB ([] ++ s.ld.buf.take 4) = none ∧ contentBad s 0 ZContent.empty = none ∧ zoneOn s 0 ZContent.empty = true ∧
       (bodyBad { stagedB with digest := [] } ([] ++ s.ld.buf.take 4)).isSome = true) ∧
    (recordAt (leBytes 4 0x8001 ++ secB.drop 128) = some (0x8001, [], 4) ∧ (applyRec 0 0x8001 [] ZContent.empty).toOption.isSome = true ∧
      (applyRec 0 9 [] ZContent.empty).toOption = none) ∧
    (let s := copyS 16
     s.ld.sec = some stagedB ∧ (zoneAt s 0).copied.isSome = true ∧ isOn s 1 = true ∧ getF s F.LOADER_STATE = 3 ∧ stagedB.hdr.zone = 0 ∧
       zoneOk 0 = true ∧ 2 ≤ s.ld.src ∧ commitCheck s 16 = 0 ∧ commitCheck (armedS 17 s) 16 ≠ 0) ∧
    (let i : ImgSt := { imgOf (imgB.take 128) with body := secB, zones := [0] }
     let s : State := { loadS 3 1 [] with ld := { keyS.ld with img := some i } }
     s.ld.img = some i ∧ isOn s 1 = true ∧ getF s F.LOADER_STATE = 1 ∧ i.body.length + 128 = i.len ∧ s.ld.buf = [] ∧ s.ld.skip = 0 ∧
       i.zones.length = i.count ∧ sha256 i.body = i.digest) := by decide +kernel

/-- Zone `z` with a commit whose transmit side has switched. -/
def rxS (z : Nat) : State :=
  setZone (put [(F.ZONE_STATE z, 3), (F.SWITCHED_TX z, 1), (F.SWITCHED_RX z, 0)] S0) z
    { ZoneSt.blank with copied := some ⟨ZContent.empty, 1, 2, 3, 4, false, 500, 600, 0, 7, 1⟩, switched := true }
theorem witness_CommitsGiveTheZoneItsNewContent :
    (isOn (off [8] S0) 8 = false ∧ isOn S0 8 = true ∧ zonesIn S0 2 = [] ∧ (getF S0 F.FURLONG_NOW + 1) % 2 ^ 32 % 256 ≠ 0) ∧
    (∀ z ∈ [0, 32, 63], (zoneAt (rxS z) z).copied.isSome = true ∧ zoneOk z = true ∧ z ≠ 3 ∧ rxPending (rxS z) z = true ∧
      rxQualifies (rxS z) z = true ∧ rxPending S0 z = false) ∧
    ((zoneAt (rxS 16) 16).copied.isSome = true ∧ getF (rxS 16) (F.ZONE_STATE 16) = 3 ∧ getF S0 (F.ZONE_STATE 16) ≠ 3) ∧
    (let s : State := { S0 with stw := { S0.stw with restart := true } }
     s.stw.restart = true ∧ isOn s 1 = true ∧ s.stw.commit = false ∧ S0.stw.restart = false) ∧
    (let s := setZone S0 16 { ZoneSt.blank with revert := some none, waking := 2 }
     zoneOk 16 = true ∧ (zoneAt s 16).revert = some none ∧ isOn s (zoneAt s 16).waking = true ∧ (zoneAt S0 16).revert = none) ∧
    (let s := poisonS 7 [36] S0
     unusable s 7 36 = true ∧ isOn s 1 = true ∧ imageFound s = false ∧ unusable S0 7 36 = false) ∧
    S0.pw.booted = false ∧ { S0 with pw := { S0.pw with booted := true } }.pw.booted = true := by decide +kernel

theorem witness_reloadAndStartUp :
    (let s : State := put [(F.BOOTED, 1)] (poisonS 7 [36] { keyS with st := { S0.st with cells := flashPut [] (imageAddr 0) imgF } })
     unusable s 7 36 = true ∧ isOn s 1 = true ∧ imageFound s = true) ∧
    (let s : State := { keyS with st := { S0.st with cells := flashPut [] (imageAddr 0) imgB } }
     isOn s 1 = true ∧ s.pw.booted = false ∧ bootOrder s = [0, 1] ∧
       (bootCheck { s with pw := { s.pw with booted := true } } 0).toOption.isSome = true) := by decide +kernel

theorem witness_LaterArmedCommitRefusesWithOrder :
    let s := copyS 16
    s.ld.sec = some stagedB ∧ (zoneAt s 0).copied.isSome = true ∧ isOn s 1 = true ∧ getF s F.LOADER_STATE = 3 ∧ stagedB.hdr.zone = 0 ∧
      zoneOk 0 = true ∧ 2 ≤ s.ld.src ∧ ((zoneAt s 0).copied.map (commitPoint s)) = some 16 ∧
      16 ≤ (16 + 2 ^ 32 - getF s F.FURLONG_NOW) % 2 ^ 32 ∧ (16 + 2 ^ 32 - getF s F.FURLONG_NOW) % 2 ^ 32 < 2 ^ 31 ∧
      (let t := armedS 17 s
       zoneOk 1 = true ∧ getF t (F.ZONE_STATE 1) = 2 ∧ after (commitAt t 1) 16 32 = true) ∧
      (let t := armedS 16 s
       getF t (F.ZONE_STATE 1) = 2 ∧ after (commitAt t 1) 16 32 = false) := by decide +kernel

/-! ### Power, voltage, temperature, fabric -/

/-- A domain in a state. -/
def inDom (d : Nat) (x : DomSt) (s : State) : State := setDom s d x
theorem witness_WakesTakeTheirStepsInOrder :
    Dom.line0 ≠ .aon ∧ (∀ k ∈ [1, 2, 3, 4, 5], ∀ a ∈ [true, false], ∀ r ∈ [true, false],
      domAt (inDom 4 (.waking k a r) S0) Dom.line0.num = .waking k a r) ∧ hasClock 4 = true ∧ hasPll 4 = true ∧ hasClock 6 = false ∧
    (let s : State := { off [4] S0 with pw := { (off [4] S0).pw with retryPend := [4] } }
     4 ∈ s.pw.retryPend ∧ domAt s 4 = .off ∧ graveBars s 4 = false ∧ hotBars s 4 = false) ∧ 4 ∉ S0.pw.retryPend ∧ domAt S0 4 = .on := by
  decide +kernel

theorem witness_TargetsAndEntriesFollowTheirRules :
    (let s := put [(F.WAKE_SET, 8), (F.WAKE_N_LOW, 1)] S0
     domsAll.find? (targetRefused s 0x03C) = none ∧ domsAll.find? (targetRefused (put [(F.TARGET 4, 2)] s) 0xFFF3F) = some 4 ∧ (∀ e ∈ domsAll, hotBars s e = false)) ∧
    (let s := put [(F.WAKE_SET, 8), (F.TARGET 4, 0)] (off [4] S0)
     wakeSet s = [4] ∧ domAt s 4 = .off ∧ getF s (F.TARGET 4) ≠ 2 ∧ graveBars s 4 = false ∧ hotBars s 4 = false ∧ 4 ∉ s.pw.retryPend) ∧
    (let s := put [(F.WAKE_SET, 256), (F.TARGET 9, 0)] (off [9] S0)
     wakeSet s = [9] ∧ domAt s 9 = .off ∧ isOn s 8 = true) ∧
    (wakeSet (put [(F.WAKE_SET, 0)] S0) = [] ∧ S0.ldg.unrep = 0) ∧
    (∀ k ∈ [1, 2, 4], ∀ e ∈ [EntryKind.retention, .orderly], domAt (inDom 8 (.entering k e) S0) Dom.fec.num = .entering k e) ∧
    domAt S0 8 = .on ∧ domAt (off [8] S0) 8 = .off ∧ (saveKinds 8).any (recBusy S0) = false ∧
    (saveKinds 8).any (recBusy { S0 with st := { S0.st with writes := [⟨.checkpoint, [], 0⟩] } }) = true := by decide +kernel

theorem witness_SuppliesAndResetLeaveWhatTheyMust :
    Supply.vana ≠ .vaon ∧ ∀ d ∈ supplyDoms .vana, domAt (inDom 4 .retention (off [5] S0)) d = .off ∨
      domAt (inDom 4 .retention (off [5] S0)) d = .retention := by decide +kernel

/-- The voltage loop at work: headroom, voltage in force, updates in a row, request and its stage. -/
def avsS (h v low : Nat) (r : Option Nat) (stage : Nat) : State :=
  let s := stw (put [(F.AVS_EN, 1), (F.HR_VALID, 1), (F.VMAX, 900), (F.VMIN, 700), (F.VCORE_REQ, v), (F.AVS_STEP, 5), (F.HR_RAISE, 100),
    (F.HR_LOWER, 200), (F.HEADROOM, h)] S0)
  { s with avs := { s.avs with stage := stage, request := r, low := low, first := false } }
theorem witness_VoltageLoopFollowsTheHeadroom :
    (let s := avsS 99 899 0 none 0
     stwRuns s = true ∧ getB s F.AVS_EN = true ∧ getB s F.AVS_FAILED = false ∧ getB s F.HR_VALID = true ∧
       getF s F.HEADROOM < getF s F.HR_RAISE ∧ getF s F.TH_REQ = 0 ∧ getF s F.VCORE_REQ < getF s F.VMAX ∧ s.avs.request = none ∧
       getF (put [(F.TH_REQ, 1)] s) F.TH_REQ ≠ 0) ∧
    (let s := avsS 99 900 0 none 0
     getF s F.VMAX ≤ getF s F.VCORE_REQ ∧ s.avs.ceiling = false ∧ getF s F.HEADROOM < getF s F.HR_RAISE) ∧
    (getF (avsS 100 800 0 none 0) F.HR_RAISE ≤ getF (avsS 100 800 0 none 0) F.HEADROOM ∧
      getF (avsS 199 800 0 none 0) F.HEADROOM < getF (avsS 199 800 0 none 0) F.HR_LOWER ∧
      getF (avsS 200 800 14 none 0) F.HR_LOWER ≤ getF (avsS 200 800 14 none 0) F.HEADROOM ∧ (avsS 200 800 14 none 0).avs.low < 15) ∧
    (let s := avsS 200 701 15 none 0
     15 ≤ s.avs.low ∧ s.avs.request = none ∧ getF s F.VMIN < getF s F.VCORE_REQ ∧ 0 < getF s F.AVS_STEP) ∧
    stwRuns S0 = false ∧
    (∀ k ≤ 2, isOn (avsS 99 800 0 (some 800) k) 1 = true ∧ (avsS 99 800 0 (some 800) k).avs.request = some 800 ∧
      (avsS 99 800 0 (some 800) k).avs.stage = k ∧ (avsS 99 800 0 (some 800) k).avs.first = false) ∧
    statusBad 0 = false ∧ statusBad 4 = true ∧
    (let s := put [(F.AVS_EXP, 0)] (avsS 99 800 0 (some 1000) 2)
     1000 ≤ voutMv s 1 + 10 ∧ voutMv s 1 ≤ 1000 + 10) := by decide +kernel

/-- The thermal path rising or not, without its source or with it. -/
def thermS (rising stale : Bool) (s : State) : State := { s with therm := { s.therm with rising := rising, stale := stale } }
theorem witness_ThrottleTakesTheHighestRequest :
    (let s := put [(F.WARN, 900), (F.THROTTLE, 1000), (F.SHUTDOWN, 1200), (F.HYST, 50)] S0
     clampN 600 1250 (bitsOf 0x03E803E8 16 16) ≤ clampN 600 1250 (bitsOf 0x03E803E8 0 16) ∧
       clampN 600 1250 (bitsOf 0x03E803E8 0 16) < getF s F.SHUTDOWN ∧
       clampN 600 1250 (bitsOf 0x03E803E7 0 16) < clampN 600 1250 (bitsOf 0x03E803E7 16 16) ∧
       getF s F.SHUTDOWN ≤ clampN 600 1250 (bitsOf 0x03E804B0 0 16) ∧ getF s F.SHUTDOWN < 2 ^ 16 ∧ getF s F.HYST < 2 ^ 16 ∧
       getF s F.WARN ≤ getF s F.THROTTLE ∧ getF s F.THROTTLE < clampN 1000 1250 (bitsOf 0x03E90000 16 16) ∧
       clampN 1000 1250 (bitsOf 0 16 16) ≤ getF s F.THROTTLE) ∧
    (stepWanted S0 = getF S0 F.THR_STEP ∧ stepWanted (put [(F.TH_REQ, 8)] S0) ≠ getF (put [(F.TH_REQ, 8)] S0) F.THR_STEP ∧
      stepWanted (put [(F.TH_REQ, 8)] S0) ≤ 8) ∧
    (let s := thermS true false S0
     s.therm.rising = true ∧ s.therm.stale = false ∧ getF s F.TH_REQ = 0 ∧ 0 < getF (put [(F.TH_REQ, 8)] s) F.TH_REQ ∧
       (thermS true true S0).therm.stale = true) ∧
    (let s := thermS false false (put [(F.TEMP, 0), (F.TH_REQ, 8)] S0)
     getS s F.TEMP < (getF s F.THROTTLE : Int) - getF s F.HYST ∧ s.therm.stale = false ∧ getF s F.TH_REQ ≤ 8 ∧
       (let t := put [(F.TEMP, 1250)] s
        (getF t F.THROTTLE : Int) - getF t F.HYST ≤ getS t F.TEMP)) ∧
    (let s := thermS false false (put [(F.TEMP_SRC, 0)] S0)
     getF s F.TEMP_SRC = 0 ∧ s.therm.stale = false ∧ isOn s 8 = true ∧ getF (put [(F.TEMP_SRC, 1)] s) F.TEMP_SRC ≠ 0) ∧
    getF (put [(F.SHUT_COUNT, 3)] S0) F.SHUT_COUNT ≤ 3 := by decide +kernel

theorem witness_TemperatureTakesItsBestSource :
    (let s := put [(F.SENSOR_BROKEN, 0)] S0
     isOn s 4 = true ∧ getB s F.HK_CAL_BUSY = false ∧ getB s F.SENSOR_BROKEN = false ∧
       { s with therm := { s.therm with badRun := 3 } }.therm.badRun = 3 ∧ (8000 : Int) < 8001 ∧ (-8001 : Int) < -8000 ∧
       getB (put [(F.SENSOR_BROKEN, 1)] s) F.SENSOR_BROKEN = true ∧ isOn (off [4] s) 4 = false ∧
       getB (put [(F.HK_CAL_BUSY, 1)] s) F.HK_CAL_BUSY = true) ∧
    (let s : State := { put [(F.HOST_STALE, 0), (F.TEMP_SRC, 1)] S0 with therm := { S0.therm with fresh := true } }
     getB s F.SENSOR_BROKEN = false ∧ s.therm.fresh = true ∧ getB s F.HOST_STALE = false ∧ getF s F.TEMP_SRC = 1 ∧
       getB (put [(F.HOST_STALE, 1)] s) F.HOST_STALE = true) ∧
    ((-400 : Int) ≤ -400 ∧ (-400 : Int) ≤ 1500 ∧ 2 ≤ 2 ∧ (-400 : Int) < (getF S0 F.WARN : Int) - getF S0 F.HYST ∧
      (-400 : Int) < getF S0 F.THROTTLE ∧ (-400 : Int) < (getF S0 F.SHUTDOWN : Int) - getF S0 F.HYST) := by decide +kernel

/-- Bushel `n` with what is given of it. -/
def bushS (n : Nat) (f : Bushel → Bushel) (s : State) : State := setBushel s n (f (bushelAt s n))
theorem witness_BushelsReportHeadroomAndSlips :
    (let s := put [(F.WIN_LOG2, 26)] (off [1] S0)
     bushelOn s 11 = true ∧ mgmtWorks s = false ∧ (bushelAt s 11).win = 0 ∧ getF s F.WIN_LOG2 ≤ 26 ∧ bushelOn (off [6, 7] s) 11 = false) ∧
    (let s := put [(F.HR_THROTTLE, 10), (F.HR_RAISE, 20), (F.HR_LOWER, 30)] S0
     getF (put [(F.HEADROOM, 9)] s) F.HEADROOM < getF s F.HR_THROTTLE ∧ 1 ≤ getF (put [(F.HR_REQ, 6)] s) F.HR_REQ ∧
       getF (put [(F.HR_REQ, 6)] s) F.HR_REQ < 7 ∧ getF s F.HR_THROTTLE ≤ getF (put [(F.HEADROOM, 20)] s) F.HEADROOM ∧
       getF s F.HR_RAISE ≤ getF (put [(F.HEADROOM, 20)] s) F.HEADROOM ∧
       (∀ n ∈ [2, 3], { s with fab := { s.fab with good := n } }.fab.good = n) ∧ getF (put [(F.HR_REQ, 8)] s) F.HR_REQ ≤ 8 ∧
       isOn s 1 = true ∧ bitsOf 0x000C000B 0 16 < bitsOf 0x000C000B 16 16 ∧ getF s F.HR_THROTTLE < bitsOf 0x000C000B 0 16 ∧
       bitsOf 0x000B000B 16 16 ≤ bitsOf 0x000B000B 0 16 ∧ bitsOf 0x000C000A 0 16 ≤ getF s F.HR_THROTTLE ∧
       getF s F.HR_RAISE < getF s F.HR_LOWER ∧ bitsOf 19 0 16 < getF s F.HR_RAISE ∧ getF s F.HR_RAISE ≤ bitsOf 20 0 16) ∧
    ((List.range 12).any fun n => slipsIn n && !(bushelAt S0 n).slipping && bushelOn S0 n && clockDom n == 4) ∧
    ((List.range 12).any fun n => slipsOut n && (bushelAt S0 n).tokens == 0 && bushelOn S0 n && (clockDom n == 4 || clockDom n == 5)) ∧
    ((List.range 12).any fun n => slipsIn n && (bushelAt (bushS n (fun b => { b with slipping := true }) S0) n).slipping) ∧
    ((List.range 12).any fun n => slipsOut n && (bushelAt (bushS n (fun b => { b with tokens := 1 }) S0) n).tokens != 0) ∧
    ((List.range 12).any fun n => !slipsIn n) ∧ ((List.range 12).any fun n => !slipsOut n) ∧ (bushelAt S0 0).slipping = false := by
  decide +kernel

/-! ### The Chain port, the steward, access and registers -/

/-- The Chain link up, with credit on every outbound stream. -/
def upS (f : ChainSt → ChainSt) : State :=
  { put [(F.CHN_LINK, 1)] S0 with chn := f { S0.chn with limOut := (List.range 5).map fun k => (k, 100) } }
/-- A packet of a type with its check. -/
def packet (typ seq arg : Nat) (bs : List Byte) : Packet :=
  ⟨1, BitVec.ofNat _ seq, BitVec.ofNat _ arg, bs, BitVec.ofNat _ (crc32c (pktBytes typ 1 seq bs.length arg bs))⟩
/-- A credit packet of 64 bytes, and its check in two halves (15 R372). -/
def creditPkt : Packet := ⟨1, 7, 0, List.replicate 64 5, 0x8fcb15a2⟩
def creditBits : List Bool := (pktBytes 0x7F 1 7 64 0 (List.replicate 64 5)).flatMap fun b => (bitsMsb 8 b.toNat).reverse
theorem creditPkt_first : (creditBits.take 320).foldl crc32cBit 0xFFFFFFFF = 0x2469dc5b := by decide +kernel
theorem creditPkt_rest : (creditBits.drop 320).foldl crc32cBit 0x2469dc5b ^^^ 0xFFFFFFFF = 0x8fcb15a2 := by decide +kernel
theorem creditPkt_crc : crc32c (pktBytes 0x7F 1 7 64 0 (List.replicate 64 5)) = 0x8fcb15a2 := by
  rw [crc32c, ← creditBits, ← List.take_append_drop 320 creditBits, List.foldl_append, creditPkt_first, creditPkt_rest]
theorem creditPkt_good : pktGood 0x7F 64 creditPkt = true := by
  have h : creditPkt.crc.toNat = 0x8fcb15a2 := by decide
  unfold pktGood
  rw [h, beq_iff_eq]
  exact creditPkt_crc

theorem witness_CreditTakesTheLimits : chnHears S0 = true ∧ pktGood 0x7F 64 creditPkt = true ∧ creditPkt.payload.length = 64 ∧ S0.chn.inSeq = none :=
  ⟨by decide +kernel, creditPkt_good, by decide +kernel, by decide +kernel⟩

theorem witness_ChainLinkAndCredits :
    (chnHears S0 = true ∧ getB S0 F.CHN_LINK = false ∧ chnHears (upS id) = true ∧ getB (upS id) F.CHN_LINK = true ∧
      chnHears (off [10] S0) = false) ∧
    (upS fun c => { c with blockLock := true }).chn.blockLock = true ∧ S0.chn.blockLock = false ∧
    (let s := upS fun c => { c with limOut := [] }
     chnUp s = true ∧ streamWaits s 2 = true ∧ hasCredit s 2 1 = false ∧ chnUp S0 = false ∧ streamWaits s 1 = false ∧
       hasCredit (upS id) 0 1 = true) ∧
    (creditPkt.payload.length = 64 ∧ S0.chn.inSeq = none ∧
       (upS fun c => { c with inSeq := some 7 }).chn.inSeq = some creditPkt.seq.toNat) ∧
    (pktGood 0x13 4 (packet 0x13 7 0 [1, 2, 3, 4]) = true ∧ (0x13 : Byte).toNat ∉ [0x10, 0x11, 0x12, 0x7F] ∧
      pktGood 0x13 5 (packet 0x13 7 0 [1, 2, 3, 4]) = false ∧ 4096 < (4097 : BitVec 16).toNat ∧
      (let p : Packet := ⟨1, 7, 0, [], BitVec.ofNat _ (crc32c (pktBytes 0x10 1 7 4097 0 []))⟩
       pktGood 0x10 4097 p = true)) := by decide +kernel

/-- Records of the region. -/
def recsS (n : Nat) : List (Nat × LRec) := (List.range n).map fun i => (64 * i, rec6)
theorem witness_DrainsAndCapturesGoOut :
    (chnUp (upS id) = true ∧ isOn (upS id) 1 = true ∧ (upS id).chn.drain = none ∧ chnUp S0 = false) ∧
    (let d : DrainSt := ⟨recsS 200, [], 0, false⟩
     let s := upS fun c => { c with drain := some d }
     s.chn.drain = some d ∧ (fitRecs 0 d.recs).1 ≠ [] ∧ (fitRecs 0 d.recs).2 ≠ [] ∧
       hasCredit s 1 (pktUnits ((fitRecs 0 d.recs).1.flatMap fun r => recBytes r.2).length) = true ∧
       hasCredit (upS fun c => { c with limOut := [] }) 1 (pktUnits ((fitRecs 0 d.recs).1.flatMap fun r => recBytes r.2).length) = false) ∧
    (upS fun c => { c with drain := some ⟨[], [], 0, true⟩ }).chn.drain = some ⟨[], [], 0, true⟩ ∧
    (isOn S0 10 = true ∧ getB S0 F.CAP_BUSY = false ∧ getF S0 F.CAP_TRIGGER = 0 ∧ getF (put [(F.CAP_TRIGGER, 1)] S0) F.CAP_TRIGGER ≠ 0 ∧
      getB (put [(F.CAP_BUSY, 1)] S0) F.CAP_BUSY = true ∧ S0.chn.capArmed = false ∧
      (upS fun c => { c with capArmed := true }).chn.capArmed = true) ∧
    (let s := upS fun c => { c with capTrig := true, capWords := 2 }
     s.chn.capTrig = true ∧ ([7, 0] : List (BitVec 56)).length = s.chn.capWords ∧ S0.chn.capTrig = false) ∧
    (let at' (w : Nat) := put [(F.STREAMING, 1)] (upS fun c => { c with capWords := w })
     getB (at' 505) F.STREAMING = true ∧ chnUp (at' 505) = true ∧ isOn (at' 505) 1 = true ∧ (at' 505).stw.dmaStop = false ∧
       hasCredit (at' 505) 0 65 = true ∧ (at' 505).chn.capPos + 4096 < 64 + 8 * (at' 505).chn.capWords ∧
       (at' 504).chn.capPos + 4096 = 64 + 8 * (at' 504).chn.capWords ∧ hasCredit (at' 504) 0 (pktUnits 4096) = true ∧
       getB S0 F.STREAMING = false) := by decide +kernel

/-- Credit granted on the inbound streams. -/
def inS (lim : Nat) : State := upS fun c => { c with limIn := [(5, lim), (6, lim), (7, lim)] }
theorem witness_InboundStreamsFeedTheirTargets :
    (chnHears (inS 2) = true ∧ (inS 2).chn.inSeq = none ∧ ∀ typ ∈ [0x10, 0x11, 0x12], ∀ a ∈ [0, 4, 0x07000000],
      pktGood typ 4 (packet typ 9 a [1, 2, 3, 4]) = true ∧ (packet typ 9 a [1, 2, 3, 4]).payload.length ≤ 4096) ∧
    (∀ k ∈ [5, 6, 7], 2 ^ 31 ≤ (tget (inS 0).chn.limIn k 0 + 2 ^ 32 - (tget (inS 0).chn.usedIn k 0 + pktUnits 4) % 2 ^ 32) % 2 ^ 32 ∧
      (tget (inS 1).chn.limIn k 0 + 2 ^ 32 - (tget (inS 1).chn.usedIn k 0 + pktUnits 4) % 2 ^ 32) % 2 ^ 32 < 2 ^ 31) ∧
    (let s : State := put [(F.LOADER_STATE, 1), (F.LOAD_SRC, 2)] { inS 1 with ld := { S0.ld with src := 2 } }
     loading s 2 = true ∧ getF s F.LOAD_SRC = 2 ∧ s.ld.discard = false ∧ loading (inS 1) 2 = false) ∧
    ((inS 1).chn.snapNext = none ∧ (inS 1).chn.snapBad = false ∧ getB (inS 1) F.SNAP_BUSY = false ∧ dmaRuns (inS 1) = true ∧
      (inS 1).st.small = false) ∧
    (storeAccepts (inS 1) 0x07000000 4 = true ∧ storeAccepts (inS 1) 0x07FFFF00 256 = true ∧ storeAccepts (inS 1) 0x02000000 4 = false ∧
      dmaRuns (off [1] (inS 1)) = false ∧ 4 % 256 ≠ 0) ∧
    pktGood 0x10 0 ⟨0, 0, 0, [], 0⟩ = false := by decide +kernel

/-- A DMA channel's registers. -/
def dmaS (len : Nat) : State := put [(F.SRC_SPACE 4, 0), (F.DST_SPACE 4, 2), (F.DMA_SRC 4, 0), (F.DMA_DST 4, 5), (F.DMA_LEN 4, len)] S0
/-- Slices of domain FABA under way, a time limit of 100 ms. -/
def bistS (pend : Nat) : State :=
  put [(F.NEXT_SLICE 6, 5), (F.BIST_LIMIT, 100), (F.WAKE_PEND, pend)] (inDom 6 (.entering 3 .orderly) S0)
theorem witness_StewardDmaAndSelfTestAnswer :
    (isOn S0 1 = true ∧ getB S0 F.MBOX_BUSY = false ∧ getB (put [(F.MBOX_BUSY, 1)] S0) F.MBOX_BUSY = true ∧
      (stw S0).stw.running = true ∧ S0.stw.running = false) ∧
    (getB (dmaS 64) (F.DMA_BUSY 4) = false ∧ (dmaS 64).stw.dmaStop = false ∧ dmaRefused (dmaS 0x8000000) 4 = false ∧
      dmaRefused (dmaS 60) 4 = true ∧ getB (put [(F.DMA_BUSY 4, 1)] S0) (F.DMA_BUSY 4) = true) ∧
    (let s : State := { put [(F.DMA_BUSY 7, 1), (F.STORE_ACTIVE, 8)] S0 with stw := { S0.stw with dma := [(7, ⟨0, 2, 0, 5, 16⟩)] } }
     getB s (F.DMA_BUSY 7) = true ∧ tfind s.stw.dma 7 = some ⟨0, 2, 0, 5, 16⟩ ∧ getF s F.STORE_ACTIVE = 8 ∧ 1 < 16 / 8 ∧
       5 + 1 < spaceWords) ∧
    (domAt (bistS 0) Dom.faba.num = .entering 3 .orderly ∧ Dom.faba ≠ .mgmt ∧ Dom.faba ≠ .aon ∧ getF (bistS 0) (F.NEXT_SLICE 6) ≠ 0 ∧
      wakeHeld (bistS 0) 6 = false ∧ 99 < getF (bistS 0) F.BIST_LIMIT ∧ getF (bistS 0) F.BIST_LIMIT ≤ 100 ∧
      wakeHeld (bistS 32) 6 = true ∧ domAt (bistS 0) Dom.fec.num = .on) := by decide +kernel

/-- A group programmed with data, as it reads back right. -/
def fuseOk (g d : Nat) : FuseWord := ⟨true, d, fuseCrc g d⟩
/-- Secrets beside registers. -/
def secS (f : SecSt' → SecSt') (s : State) : State := { s with sec := f s.sec }
theorem witness_FieldAccessAndFusesFollowTheirRules :
    (isOn S0 1 = true ∧ getF S0 F.ACC_STATE ≠ 3 ∧ fuseBad S0 0 = false ∧ fuseBad S0 1 = false ∧
      getF (put [(F.ACC_STATE, 3)] S0) F.ACC_STATE = 3 ∧ S0.sec.challenge = none ∧
      (secS (fun x => { x with challenge := some 3 }) S0).sec.challenge = some 3) ∧
    (let s := secS (fun x => { x with challenge := some 3 }) S0
     let e := accExpected s 3
     let t := each (List.range 8) (fun s i => setF s (F.RESPONSE i) (ofBe ((e.drop (4 * i)).take 4))) s
     accResponse t = accExpected t 3 ∧ accResponse s ≠ accExpected s 3) ∧
    getF (put [(F.ACC_FAILS, 6)] S0) F.ACC_FAILS < 7 ∧ 7 ≤ getF (put [(F.ACC_FAILS, 7)] S0) F.ACC_FAILS ∧
    accessOpen (put [(F.ACC_STATE, 2), (F.OPEN_SCOPE, 1)] S0) = true ∧ accessOpen S0 = false ∧
    ((∀ g, g < 14 → fuseGood g (S0.sec.fuses.getD g FuseWord.blank) = true ∧ S0.sec.fuses.getD g FuseWord.blank = fuseAt S0 g) ∧
      S0.ldg.unrep = 0 ∧ fuseGood 13 ((S0.sec.fuses.set 13 ⟨true, 4, 5⟩).getD 13 FuseWord.blank) = false) ∧
    (getB (put [(F.FUSE_BUSY, 1)] S0) F.FUSE_BUSY = true ∧ bitOf (getF S0 F.OPEN_SCOPE) 1 = false ∧ getB S0 F.FUSE_BUSY = false ∧
      progRefused S0 (getF S0 F.FUSE_GROUP) = some 1 ∧
      (let s := put [(F.FUSE_GROUP, 13), (F.OPEN_SCOPE, 7), (F.TEMP, 300), (F.FUSE_DATA 0, 9)]
         (secS (fun x => { x with shadow := (x.shadow.set 6 (fuseOk 6 7)).set 7 (fuseOk 7 7) }) S0)
       progRefused s 1 = some 1 ∧ ((List.range 14).any fun g => progRefused (put [(F.FUSE_GROUP, g)] s) g == none))) ∧
    (let s := secS (fun x => { x with prog := some (13, fuseOk 13 9) }) S0
     s.sec.prog = some (13, fuseOk 13 9) ∧ (⟨true, 9, fuseCrc 13 9 + 1⟩ : FuseWord) ≠ fuseOk 13 9 ∧
       fuseGood 13 ⟨true, 9, fuseCrc 13 9 + 1⟩ = false ∧ S0.sec.prog = none) := by decide +kernel

/-- The check byte of a frame. -/
def crcOf (l : List Byte) : Byte := BitVec.ofNat 8 (crc8 l)
theorem witness_MportFramesAnswerTheirStatus :
    (S0.mp.pendRead = none ∧ S0.mp.queue = []) ∧
    (let a : Word := 0x00310004
     crc8 (2#8 :: wordBytes a) ≠ (crcOf (2#8 :: wordBytes a) + 1).toNat ∧ crc8 (2#8 :: wordBytes a) = (crcOf (2#8 :: wordBytes a)).toNat ∧
       crc8 (1#8 :: (wordBytes a ++ wordBytes 5)) = (crcOf (1#8 :: (wordBytes a ++ wordBytes 5))).toNat ∧
       (regWrite 0 a.toNat 5 S0).2 = 0 ∧ mapped a.toNat = true ∧ isWindow a.toNat = false ∧ domAt (off [1] S0) (regDom a.toNat) = .off ∧
       crc8 (3#8 :: (wordBytes a ++ leBytes 1 1 ++ (List.replicate 1 a).flatMap wordBytes)) =
         (crcOf (3#8 :: (wordBytes a ++ leBytes 1 1 ++ (List.replicate 1 a).flatMap wordBytes))).toNat) ∧
    ({ S0 with mp := { S0.mp with queue := List.replicate 4 ⟨0, []⟩ } }.mp.queue.length = 4) ∧
    (let s := inDom 1 (.waking 1 true false) S0
     mapped 0x00310004 = true ∧ isWaking s (readDom s 0x00310004) = true) := by decide +kernel

/-- The window at an entry of a table. -/
def tblS (sel a : Nat) : State := put [(F.TBL_SEL, sel), (F.TBL_ADDR, a)] S0
theorem witness_RegisterWritesReachTheirRegister :
    (mapped 0x00310004 = true ∧ isWindow 0x00310004 = false ∧ isOn (off [1] S0) (regDom 0x00310004) = false ∧
      isOn S0 (regDom 0x00310004) = true ∧ regDom 0x00310004 < 6 ∧ submitOff 0x00310004 5 S0 = false ∧ stwRuns (stw S0) = true ∧
      stwRuns S0 = false) ∧
    (((List.range 16).any fun p => mapped (0x10000 * p + 0x400) && (regDom (0x10000 * p + 0x400) == 6)) = true ∨ regDom 0x00110400 = 6 ∨
      regDom 0x00110400 = 7) ∧
    (S0.fab.writes = [] ∧ { S0 with fab := { S0.fab with writes := [(0x00110400, 5)] } }.fab.writes = [(0x00110400, 5)]) ∧
    (let s := tblS 0x10 (2 ^ 24 - 1)
     getF s F.TBL_SEL = 0x10 ∧ getF s F.TBL_ADDR < 2 ^ 24 ∧ isOn s 9 = true ∧ poisoned s 0 (getF s F.TBL_ADDR / 4) = false ∧
       isOn (off [9] s) 9 = false) ∧
    (getF (tblS 0x20 65535) F.TBL_SEL = 0x20 ∧ getF (tblS 0x20 65535) F.TBL_ADDR < 65536 ∧ isOn (tblS 0x20 65535) 8 = true) ∧
    (let s := put [(F.TLM_PERIOD, 1)] (upS id)
     isOn s 10 = true ∧ getF s F.TLM_PERIOD ≠ 0 ∧ tlmList s = [] ∧ chnUp s = true ∧ hasCredit s 3 1 = true ∧ chnUp S0 = false ∧
       getF (put [(F.TLM_PERIOD, 0)] S0) F.TLM_PERIOD = 0) := by decide +kernel

theorem witness_WindowIsBanked : isWindow 0x100 = true ∧ isWindow 0x10C = true := by decide

/-- The completions that stand early in the file: the premises of the other ones are those of the later statement about the same
command, met there. -/
theorem witness_EveryCommandGoesOn :
    (∀ n ∈ [0, 6], bushelOn S0 n = true ∧ slipsIn n = true ∧ (bushelAt (bushS n (fun b => { b with slipping := true }) S0) n).slipping = true) ∧
    (∀ n ∈ [1, 7], bushelOn S0 n = true ∧ slipsOut n = true ∧ (bushelAt S0 n).owed = 0 ∧
      (let s := bushS n (fun b => { b with owed := 3, tokens := 1 }) S0
       (bushelAt s n).owed < 4 ∧ (bushelAt s n).owed ≠ 0 ∧ 3 ≤ (bushelAt s n).owed ∧ 1 ≤ (bushelAt s n).tokens)) ∧
    (S0.mp.pendRead = none ∧ S0.mp.queue = [] ∧ writesDone S0 = true ∧ mapped 0x00310004 = true ∧ isWindow 0x00310004 = false ∧
      isOn S0 (regDom 0x00310004) = true ∧ (∃ crc : Byte, crc8 (2#8 :: wordBytes 0x00310004) = crc.toNat)) ∧
    (isOn S0 (regDom 0x00110400) = true ∧ (regDom 0x00110400 = 6 ∨ regDom 0x00110400 = 7)) ∧
    (let d : DrainSt := ⟨[], [], 0, true⟩
     let s := upS fun c => { c with drain := some d }
     s.chn.drain = some d ∧ chnUp s = true ∧ d.recs = [] ∧ d.resv = []) :=
  ⟨by decide +kernel, by decide +kernel, ⟨by decide +kernel, by decide +kernel, by decide +kernel, by decide +kernel, by decide +kernel,
    by decide +kernel, crcOf (2#8 :: wordBytes 0x00310004), by decide +kernel⟩, by decide +kernel, by decide +kernel⟩

theorem witness_UnmappedAccessesReadZeroAndAreIgnored : mapped 0x5000000 = false ∧ mapped 3 = false := by decide +kernel

theorem witness_EveryStepKeepsBounds : Safety.Inv S0 :=
  ⟨by decide +kernel, by decide +kernel, by decide +kernel, by decide +kernel, by decide +kernel, by decide +kernel, by decide +kernel,
    by decide +kernel, by decide +kernel⟩

theorem witness_StepRunsFrontCommand : S0.pending = [] ∧ (S0.front .doorbell).pending = [.doorbell] := by decide +kernel

/-! ### The worked cases of the manual, and published check values -/

/-- 01, worked case "reading headroom": twelve windows of 2^20 slots; FABRIC_HEADROOM then reads 0x8001_1666. -/
theorem test_worked_headroom :
    (let s := nx (exec (.headroomWindowEnd 0 146801 0) S0)
     let s := nx (exec (.headroomWindowEnd 1 91750 0) s)
     let s := (List.range' 2 10).foldl (fun s n => nx (exec (.headroomWindowEnd (Fin.ofNat 12 n) 120001 0) s)) s
     (regRead 0 0x00250000 s).value) = 0x80011666 := by decide +kernel

/-- 02, worked case of a commit across the wraps (R53, R54): epoch 0x0001 is after 0xFFFE, 0x7FFE is not; furlong
0x200 is 768 after 0xFFFF_FF00. -/
theorem test_worked_wrap : after 1 0xFFFE 16 = true ∧ after 0x7FFE 0xFFFE 16 = false ∧ after 0x200 0xFFFFFF00 32 = true ∧
    after 0xFFFFFF00 0x200 32 = false := by decide

/-- 03 and 07, worked cases: k 760 at rate 5/6, k 880 at 7/8 and k 520 at 4/5, all with the outer code, give 14,040,
16,740 and 9,720 data bits and capacities of 133, 159 and 92 firkins (R203). -/
theorem test_worked_capacities :
    (let a : CwCfg := ⟨1, 100, 103, 12, 0, 100, true⟩
     a.k = 760 ∧ a.dataBits = 14040 ∧ runCws a 0 256 = 4284 ∧ capOf a 0 = 133) ∧
    (let b : CwCfg := ⟨1, 100, 82, 63, 0, 105, true⟩
     b.k = 880 ∧ b.dataBits = 16740 ∧ capOf b 0 = 159) ∧
    (let c : CwCfg := ⟨1, 104, 382, 21, 0, 96, true⟩
     c.k = 520 ∧ c.dataBits = 9720 ∧ capOf c 0 = 92) := by decide +kernel

/-- 06, worked case "a bank over five codewords": codeword 5 enters with a BANK of 4, which its credit of 6.00 makes 10;
with one iteration left in the BANK its ninth starts the tenth, and its tenth, unconverged, stops it at a BANK of 0 (R171). -/
theorem test_worked_bank :
    (let s := put [(F.AVG_ITER 0, 24), (F.ACQ_STATE 0 0, 5), (F.SC_COUNT 0 0, 4), (F.FEC_BANK 0, 16)] S0
     bank (nx (exec (.codewordEntersPool 0 0 ⟨0, 0, [], []⟩ []) s)) 0 = 40) ∧
    (let t (b : Nat) (w : Cw) := put [(F.FEC_BANK 0, b)] (poolS [w])
     let nine := nx (exec (.decoderIteration 3 []) (t 4 (cwS 1 8)))
     let ten := nx (exec (.decoderIteration 3 []) (t 0 (cwS 1 9)))
     (bank nine 0, bank ten 0) = (0, 0) ∧ engines nine = 1 ∧ engines ten = 0) := by
  refine ⟨by decide +kernel, ?_⟩
  simp only [exec]
  rw [iteration_empty (w := cwS 1 8) (by decide +kernel) rfl, iteration_empty (w := cwS 1 9) (by decide +kernel) rfl]
  decide +kernel

/-- 07, worked case "a carrier that drops at three cities": PEER_CTRL_0 written 0x400C_0000 with the staged tag. -/
theorem test_worked_expectation :
    (let s := nx (exec (.peerCtrlWrite 0 0x400C0000) (put [(F.PEER_STAGE_TAG, 0x3B071C42)] S0))
     (getF s (F.PEER_KIND 0), getF s (F.PEER_CARRIER 0), getF s (F.PEER_FIRST 0), getF s (F.PEER_LAST 0), getF s (F.PEER_TAG 0))) =
      (1, 0, 0, 12, 0x3B071C42) := by decide +kernel

/-- 09, worked case: C -12,345 and T -12,000 in the x2 range become -6,172 and -6,000, and P -6,000 x 2^16; with SLEW at
64, C reaches T after three frames (R252, R259). -/
theorem test_worked_range_change :
    (let s := setS (setS (put [(F.BC_SLEW 3, 64)] S0) (F.BC_CODE 3) (-12345)) (F.BC_TARGET 3) (-12000)
     let s := rescale 3 1 (setChan s 3 { chanAt s 3 with p := -12000 * 2 ^ 16 })
     (codeC s 3, codeT s 3, (chanAt s 3).p, codeC (slewStep 3 (slewStep 3 s)) 3, codeC (slewStep 3 (slewStep 3 (slewStep 3 s))) 3)) =
      (-6172, -6000, -6000 * 2 ^ 16, -6044, -6000) := by decide +kernel

/-- 11, worked case of promotion and escalation: LOOP_FAULT with N 2; the second is recorded Major, and the third too,
seconds later than the one before. -/
theorem test_worked_promotion :
    (let s := put [(F.EVT_N .bias 0, 2), (F.EVT_W .bias 0, 60000), (F.EVT_SEQ .bias, 0x41)] S0
     let a := detect .bias 0 5 s
     let b := detect .bias 0 5 (nx (exec (.mergedRecord .bias 0) a))
     let c := detect .bias 0 9 (ackClass .bias 2 (nx (exec (.mergedRecord .bias 0) b)))
     [a, b, c].map fun t => (getF t (F.EVT_SEQ .bias), getB t (F.PEND .bias 1), getB t (F.PEND .bias 2))) =
      [(0x42, true, false), (0x43, true, true), (0x44, true, true)] := by decide +kernel

/-- 12, worked case "restoring a triplet-table row": no word fails its parity and two columns do, so all of the row is
uncorrectable; word 0x12_3450 is of page 72 (R307, R132). -/
theorem test_worked_row : (let row := [2 ^ 17 + 2 ^ 40, 0, 0, 0, 0, 0, 0, 0]
    rowR row = [] ∧ rowC row = [17, 40]) ∧ 0x123450 / 16384 = 72 ∧ 4 * 0x123450 % 65536 = 256 * 209 + 64 := by decide +kernel

/-- 14, worked case of the thermal throttle: 108.1 °C takes the first step, and each 50 ms more the next; L_f of a group of
REACH 96 goes to 72, 48 and 24; at 103.9 °C nothing falls before a second has passed (R354, R360). -/
theorem test_worked_throttle :
    (let s := put [(F.HOST_STALE, 1), (F.SENSOR_BROKEN, 1), (F.FTH_REACH 4, 96)] S0
     let a := nx (exec (.hostTempWrite 1081) s)
     let b := nx (exec .thermalThrottleRise a)
     let c := nx (exec .thermalThrottleRise (nx (exec (.hostTempWrite 1080) b)))
     let d := nx (exec (.hostTempWrite 1039) (nx (exec (.hostTempWrite 1072) c)))
     let e := nx (exec .thermalThrottleFall d)
     ([a, b, c, d, e].map fun t => (getF t F.TH_REQ, getF t F.THR_STEP),
      [a, b, c].map fun t => scReach { t with rx := { t.rx with level := [(scKey 0 3, getF t F.THR_F)] } } 4 3)) =
      ([(1, 1), (2, 2), (3, 3), (3, 3), (2, 2)], [72, 48, 24]) := by decide +kernel

/-- 15, worked case "credit across the counter wrap": 65 units do not fit in 64, and fit in 129, across the wrap (R373). -/
theorem test_worked_credit :
    (let at' (lim used : Nat) := upS fun c => { c with limOut := [(0, lim)], usedOut := [(0, used)] }
     [(0x38, 0xFFFFFFF8), (0x79, 0xFFFFFFF8), (0x79, 0x39)].map fun p => hasCredit (at' p.1 p.2) 0 65) = [false, true, false] := by
  decide +kernel

/-- 18, worked case "reading the counters of one firkin": four reads of the window from TBL_ADDR 0x4002 give GAP 499 and
RX_DISCARD 7, low half first (R191, R437). -/
theorem test_worked_window :
    (let s := put [(F.TBL_SEL, 0x20), (F.TBL_ADDR, 0x4002)] S0
     let s := firkinCount (firkinCount s 2048 1 499) 2048 2 7
     let a := tblRead 0 s
     let b := tblRead 0 a.st
     let c := tblRead 0 b.st
     let d := tblRead 0 c.st
     ([a, b, c, d].map (·.value), getF d.st F.TBL_ADDR)) = ([499, 0, 7, 0], 0x4006) := by decide +kernel

/-- The published check values of the codes that the spec names, over the string 123456789: CRC-32C 0xE306_9283 (15 R372), and
0xF4 for the CRC-8 of generator 0x07 (06 R185). -/
theorem test_check_values :
    (let m : List Byte := [0x31, 0x32, 0x33, 0x34, 0x35, 0x36, 0x37, 0x38, 0x39]
     crc32c m = 0xE3069283 ∧ crc8 m = 0xF4) := by decide +kernel

/-- The published digest of the string abc (02 R43). -/
theorem test_sha256 : ofBe (sha256 [0x61, 0x62, 0x63]) = 0xba7816bf8f01cfea414140de5dae2223b00361a396177a9cb410ff61f20015ad := by
  decide +kernel

end Sys2Proof.Tests
end

/-! ### Accesses that meet no register, and MPORT at rest (00 R11; 15 R365-R369)

MPORT is at rest when no frame waits in its queue and no READ stretches. A frame that meets no register then leaves nothing
but its STATUS and DATA. -/
namespace Sys2Proof.Machine

/-! #### The access itself (00 R11) -/

theorem regRead_unmapped {a : Nat} (h : mapped a = false) (r : Nat) (s : State) : regRead r a s = ⟨s, 0, 1⟩ := by
  simp [regRead, h]

theorem regWrite_unmapped {a : Nat} (h : mapped a = false) (r v : Nat) (s : State) : regWrite r a v s = (s, 1) := by
  simp [regWrite, h]

/-! #### Frames at a port at rest (15 R366, R367) -/

theorem retryRead_of_none {s : State} (h : s.mp.pendRead = none) : retryRead s = s := by
  simp [retryRead, h]

/-- The end of a frame sets STATUS and DATA and nothing else where no READ stretches. -/
theorem frameEnd_of_none {s : State} (h : s.mp.pendRead = none) (status data : Nat) :
    frameEnd status data s = { s with mp := { s.mp with last := some (status, data) } } := by
  rw [frameEnd, ← h]

/-- Emptying a queue that is empty changes nothing. -/
theorem clearQueue_of_nil {s : State} (h : s.mp.queue = []) : { s with mp := { s.mp with queue := [] } } = s := by
  rw [← h]

theorem drainFrames_of_nil {s : State} (h : s.mp.queue = []) : drainFrames s = s := by
  rw [drainFrames, h, clearQueue_of_nil h, List.foldl_nil]

/-- A frame that finds the queue empty is performed at once, in the state that it met. -/
theorem drainFrames_single {s : State} (h : s.mp.queue = []) (f : MpFrame) :
    drainFrames { s with mp := { s.mp with queue := s.mp.queue ++ [f] } } = performFrame s f := by
  simp only [drainFrames, h, List.nil_append, List.foldl_cons, List.foldl_nil, clearQueue_of_nil h]

/-- A frame of writes with a good CRC is performed at once by a port at rest. -/
theorem writeFrame_at_rest {s : State} (hq : s.mp.queue = []) (hr : s.mp.pendRead = none) {op a : Nat} {ws : List Word}
    {head : List Byte} {crc : Byte} (hcrc : crc8 (BitVec.ofNat 8 op :: head ++ ws.flatMap wordBytes) = crc.toNat) :
    writeFrame op a ws head crc s = performFrame s ⟨a, ws⟩ := by
  have hroom : ¬ 4 ≤ s.mp.queue.length := by simp [hq]
  simp only [writeFrame, retryRead_of_none hr, if_neg hroom, hcrc, ne_eq, not_true_eq_false, if_false, drainFrames_single hq]

/-- The frame of a WRITE is performed at once by a port at rest. -/
theorem exec_write_at_rest {s : State} (hq : s.mp.queue = []) (hr : s.mp.pendRead = none) {a v : Word} {crc : Byte}
    (hcrc : crc8 (1#8 :: (wordBytes a ++ wordBytes v)) = crc.toNat) :
    exec (.write a v crc) s = .next (performFrame s ⟨a.toNat, [v]⟩) := by
  change Host.Outcome.next (writeFrame 1 a.toNat [v] (wordBytes a) crc s) = _
  rw [writeFrame_at_rest hq hr (by simpa using hcrc)]

/-- The frame of a READ is performed at once by a port at rest. -/
theorem exec_read_at_rest {s : State} (hq : s.mp.queue = []) (hr : s.mp.pendRead = none) {a : Word} {crc : Byte}
    (hcrc : crc8 (2#8 :: wordBytes a) = crc.toNat) : exec (.read a crc) s = .next (performRead a.toNat s) := by
  change execRead a crc s = _
  rw [execRead, retryRead_of_none hr, drainFrames_of_nil hq, if_neg (not_not.mpr hcrc)]

/-! #### Frames that meet no register (00 R11; 15 R366) -/

/-- A READ of no register does not stretch: it ends at once with UNMAPPED and data 0. -/
theorem performRead_unmapped {a : Nat} (h : mapped a = false) (s : State) : performRead a s = frameEnd 1 0 s := by
  simp [performRead, h, regRead_unmapped h]

/-- A frame of writes to no register ends at its first word, none applied (log 19). -/
theorem performFrame_unmapped {a : Nat} (h : mapped a = false) (w : Word) (ws : List Word) (s : State) :
    performFrame s ⟨a, w :: ws⟩ = frameEnd 1 0 s := by
  simp [performFrame, applyWords, regWrite_unmapped h]

/-- A REGISTER_WRITE to no register leaves the block as it is, whether or not the requester can make the access. -/
theorem exec_registerWrite_unmapped {a : Word} (h : mapped a.toNat = false) (q : Requester) (v : Word) (s : State) :
    exec (.registerWrite q a v) s = .next s := by
  change execRegisterWrite q a v s = _
  rw [execRegisterWrite, regWrite_unmapped h, ite_self]

end Sys2Proof.Machine

namespace Sys2Proof.Certificates
open Sys2Proof Sys2Proof.Machine

/-- Settles O56: both accesses find no register before they look at anything else, and the frames of a port at rest hand their
answer to STATUS and DATA alone. -/
theorem unmappedAccessesReadZeroAndAreIgnored : Obligations.UnmappedAccessesReadZeroAndAreIgnored := by
  intro a v s hmap
  refine ⟨fun r => ⟨regRead_unmapped hmap r s, regWrite_unmapped hmap r v.toNat s⟩,
    fun q => exec_registerWrite_unmapped hmap q v s, fun hq hr => ⟨fun crc hcrc => ?read, fun crc hcrc => ?write⟩⟩
  case read =>
    refine ⟨_, exec_read_at_rest hq hr hcrc, ?_⟩
    simp [performRead_unmapped hmap, frameEnd_of_none hr]
  case write =>
    refine ⟨_, exec_write_at_rest hq hr hcrc, ?_⟩
    simp [performFrame_unmapped hmap, frameEnd_of_none hr]

end Sys2Proof.Certificates

/-! ### The commit point at arming (02 R54, R55)

Step 11 of R50 compares a commit point of valid lead with those of the ARMED sections; what it answers decides whether the
section whose copy is complete ends with that result or is ARMED. -/
namespace Sys2Proof.Machine

/-! #### The comparison with the ARMED sections -/

/-- A number is not after itself, so that equal commit points are accepted (R53, R55). -/
theorem after_self (b w : Nat) : after b b w = false := by
  simp [after]

/-- The zones of R40 are those in the list of all zones. -/
theorem mem_zonesAll {z : Nat} : z ∈ zonesAll ↔ zoneOk z = true := by
  simp only [zonesAll, zoneOk, List.mem_append, List.mem_cons, List.not_mem_nil, or_false,
    List.mem_range'_1, Bool.or_eq_true, Bool.and_eq_true, decide_eq_true_eq]
  omega

theorem mem_zonesIn {s : State} {st z : Nat} : z ∈ zonesIn s st ↔ zoneOk z = true ∧ getF s (F.ZONE_STATE z) = st := by
  simp only [zonesIn, List.mem_filter, mem_zonesAll, beq_iff_eq]

/-- A test meets some ARMED commit point exactly where it meets that of some ARMED zone. -/
theorem any_armedTx {s : State} {q : Nat → Bool} :
    (armedTx s).any q = true ↔ ∃ y, zoneOk y = true ∧ getF s (F.ZONE_STATE y) = 2 ∧ q (commitAt s y) = true := by
  simp only [armedTx, List.any_map, List.any_eq_true, mem_zonesIn, zArmed, and_assoc, Function.comp_apply]

/-- Where the lead is that of R54, only ORDER can refuse a commit point. -/
theorem commitCheck_of_lead {s : State} {tx : Nat} (hlo : 16 ≤ (tx + 2 ^ 32 - getF s F.FURLONG_NOW) % 2 ^ 32)
    (hhi : (tx + 2 ^ 32 - getF s F.FURLONG_NOW) % 2 ^ 32 < 2 ^ 31) :
    commitCheck s tx = if (armedTx s).any fun t => after t tx 32 then 7 else 0 := by
  have hlate : ¬ ((tx + 2 ^ 32 - getF s F.FURLONG_NOW) % 2 ^ 32 < 16 ∨ 2 ^ 31 ≤ (tx + 2 ^ 32 - getF s F.FURLONG_NOW) % 2 ^ 32) :=
    not_or.mpr ⟨hlo.not_gt, hhi.not_ge⟩
  simp only [commitCheck, if_neg hlate]

/-! #### A section whose copy is complete -/

/-- The fields that arming writes in a zone's words (R66). -/
def armWrites (z : Nat) (p : Pending) (tx : Nat) : List (Fld × Nat) :=
  [(F.COMMIT_TX z, tx), (F.COMMIT_RX z, p.rx), (F.ZONE_STATE z, zArmed)]

/-- What arming leaves (R56): the next ISSUE_SEQ, the commit points and the state of the zone, and a loader that holds no
section. -/
def armSection (z : Nat) (p : Pending) (tx : Nat) (s : State) : State :=
  let s := addF s F.CFG_ISSUE_SEQ 1
  let s := setZone s z { zoneAt s z with copied := some { p with tx := tx, issue := getF s F.CFG_ISSUE_SEQ, order := nextOrder s } }
  let s := setFs s (armWrites z p tx)
  { s with ld := { s.ld with sec := none } }

@[simp] theorem armSection_src (z : Nat) (p : Pending) (tx : Nat) (s : State) : (armSection z p tx s).ld.src = s.ld.src := rfl

theorem armSection_regs (z : Nat) (p : Pending) (tx : Nat) (s : State) :
    (armSection z p tx s).regs = (setFs (addF s F.CFG_ISSUE_SEQ 1) (armWrites z p tx)).regs := rfl

@[simp] theorem getF_armSection_zoneState (z : Nat) (p : Pending) (tx : Nat) (s : State) :
    getF (armSection z p tx s) (F.ZONE_STATE z) = 2 := by
  simp [getF_of_regs (armSection_regs z p tx s), armWrites, zArmed]

@[simp] theorem getF_armSection_commitTx (z : Nat) (p : Pending) (tx : Nat) (s : State) :
    getF (armSection z p tx s) (F.COMMIT_TX z) = tx % 2 ^ 32 := by
  have hrx : (F.COMMIT_TX z).key ≠ (F.COMMIT_RX z).key := by simp only [Fld.key, F.COMMIT_TX, F.COMMIT_RX]; omega
  have hstate : (F.COMMIT_TX z).key ≠ (F.ZONE_STATE z).key := by simp only [Fld.key, F.COMMIT_TX, F.ZONE_STATE]; omega
  simp [getF_of_regs (armSection_regs z p tx s), armWrites, getF_setF_ne _ _ hrx, getF_setF_ne _ _ hstate]

/-- A section of a stream is followed by the next one: only LOADER_STATE changes. -/
theorem nextSection_of_stream {s : State} (h : 2 ≤ s.ld.src) : nextSection s = setF s F.LOADER_STATE 1 := by
  rw [nextSection, if_pos h]

/-- With the copy complete while the loader is ARMING, the check of the commit point decides alone. -/
theorem copyComplete_of_copied {z : Nat} {x : SecSt} {p : Pending} {s : State} (hsec : s.ld.sec = some x)
    (hcop : (zoneAt s z).copied = some p) (hon : isOn s 1 = true) (hld : getF s F.LOADER_STATE = 3) (hz : x.hdr.zone = z) :
    copyComplete z s = if commitCheck s (commitPoint s p) ≠ 0 then cancel z (commitCheck s (commitPoint s p)) s
      else nextSection (armSection z p (commitPoint s p) s) := by
  have hready : ¬ ((!isOn s 1) = true ∨ getF s F.LOADER_STATE ≠ 3 ∨ x.hdr.zone ≠ z) := by simp [hon, hld, hz]
  simp only [copyComplete, hsec, hcop, if_neg hready, armSection, armWrites]

end Sys2Proof.Machine

namespace Sys2Proof.Certificates
open Sys2Proof Sys2Proof.Machine

/-- Settles O60: with a valid lead the commit check looks at the ARMED sections alone, and its answer decides between the
end of the section with ORDER and its arming, whose commit point the next section of the stream leaves. -/
theorem laterArmedCommitRefusesWithOrder : Obligations.LaterArmedCommitRefusesWithOrder := by
  intro z x p s hsec hcop hon hld hz _ hsrc hlo hhi
  have hcopy := copyComplete_of_copied hsec hcop hon hld hz
  have hcheck := commitCheck_of_lead hlo hhi
  refine ⟨fun hlater => ?order, fun hnone => ?armed, fun b => after_self b 32⟩
  case order =>
    rw [if_pos (any_armedTx.mpr hlater)] at hcheck
    rw [hcheck, if_pos (by decide)] at hcopy
    exact congrArg Host.Outcome.next hcopy
  case armed =>
    have hnot : ¬ ((armedTx s).any fun t => after t (commitPoint s p) 32) = true := fun hany => by
      obtain ⟨y, hy, harmed, hafter⟩ := any_armedTx.mp hany
      exact Bool.false_ne_true ((hnone y hy harmed).symm.trans hafter)
    rw [if_neg hnot] at hcheck
    rw [hcheck, if_neg (by decide), nextSection_of_stream ((armSection_src ..).symm ▸ hsrc)] at hcopy
    have hstate : (F.ZONE_STATE z.toNat).key ≠ F.LOADER_STATE.key := by
      simp only [Fld.key, F.ZONE_STATE, F.LOADER_STATE]; omega
    have htx : (F.COMMIT_TX z.toNat).key ≠ F.LOADER_STATE.key := by
      simp only [Fld.key, F.COMMIT_TX, F.LOADER_STATE]; omega
    exact ⟨_, congrArg Host.Outcome.next hcopy, (getF_setF_ne _ _ hstate).trans (getF_armSection_zoneState ..),
      (getF_setF_ne _ _ htx).trans (getF_armSection_commitTx ..)⟩

end Sys2Proof.Certificates

/-! ### The banks of the table window (18 R436)

MPORT's bank is the register file's TBL_SEL, TBL_ADDR and ERR, the steward's stands in `State.mp`; `WindowKept q` says of a
requester's bank, wherever it is, that an access left it. -/
namespace Sys2Proof.Machine

/-- From `s` to `t` the window of requester `q` is the same. -/
structure WindowKept (q : Nat) (s t : State) : Prop where
  sel : winSel t q = winSel s q
  addr : winAddr t q = winAddr s q
  err : winErr t q = winErr s q

variable {q : Nat} {s t u : State}

theorem WindowKept.refl (q : Nat) (s : State) : WindowKept q s s := ⟨rfl, rfl, rfl⟩

theorem WindowKept.trans (hst : WindowKept q s t) (htu : WindowKept q t u) : WindowKept q s u :=
  ⟨htu.sel.trans hst.sel, htu.addr.trans hst.addr, htu.err.trans hst.err⟩

theorem windowKept_iff : WindowKept q s t ↔ winSel t q = winSel s q ∧ winAddr t q = winAddr s q ∧ winErr t q = winErr s q :=
  ⟨fun ⟨hsel, haddr, herr⟩ => ⟨hsel, haddr, herr⟩, fun ⟨hsel, haddr, herr⟩ => ⟨hsel, haddr, herr⟩⟩

/-- MPORT's window is kept where its three fields are. -/
theorem windowKept_mport : WindowKept 0 s t ↔
    getF t F.TBL_SEL = getF s F.TBL_SEL ∧ getF t F.TBL_ADDR = getF s F.TBL_ADDR ∧ getF t F.TBL_ERR = getF s F.TBL_ERR :=
  windowKept_iff

/-- The window of any other requester is kept where the parts of `State.mp` that hold it are. -/
theorem windowKept_of_ne_mport (hq : q ≠ 0) : WindowKept q s t ↔
    t.mp.stwSel = s.mp.stwSel ∧ t.mp.stwAddr = s.mp.stwAddr ∧ t.mp.stwErr = s.mp.stwErr := by
  simp [windowKept_iff, winSel, winAddr, winErr, hq]

/-- An update that leaves the register file and the steward's window leaves every window. -/
theorem WindowKept.of_regs (hregs : t.regs = s.regs) (hsel : t.mp.stwSel = s.mp.stwSel) (haddr : t.mp.stwAddr = s.mp.stwAddr)
    (herr : t.mp.stwErr = s.mp.stwErr) : WindowKept q s t := by
  by_cases hq : q = 0
  · subst hq
    exact windowKept_mport.mpr ⟨getF_of_regs hregs _, getF_of_regs hregs _, getF_of_regs hregs _⟩
  · exact (windowKept_of_ne_mport hq).mpr ⟨hsel, haddr, herr⟩

/-- A field above the window's registers is of no window. -/
theorem windowKept_setF {f : Fld} (hf : 0x110 ≤ f.addr) (v : Nat) : WindowKept q s (setF s f v) := by
  by_cases hq : q = 0
  · subst hq
    exact windowKept_mport.mpr ⟨getF_setF_ne s v (by simp only [Fld.key, F.TBL_SEL]; omega),
      getF_setF_ne s v (by simp only [Fld.key, F.TBL_ADDR]; omega), getF_setF_ne s v (by simp only [Fld.key, F.TBL_ERR]; omega)⟩
  · exact (windowKept_of_ne_mport hq).mpr ⟨rfl, rfl, rfl⟩

theorem windowKept_onlyIf {c : Bool} {f : State → State} (h : ∀ s, WindowKept q s (f s)) : WindowKept q s (onlyIf c f s) := by
  cases c
  · exact WindowKept.refl q s
  · exact h s

theorem windowKept_each {α : Type} {f : State → α → State} (h : ∀ s x, WindowKept q s (f s x)) (l : List α) (s : State) :
    WindowKept q s (each l f s) := by
  induction l generalizing s with
  | nil => exact WindowKept.refl q s
  | cons x l ih => exact (h s x).trans (ih (f s x))

/-! #### What an access of the tables does beside its own window -/

theorem windowKept_drew : WindowKept q s (drew s) := WindowKept.of_regs rfl rfl rfl rfl

theorem windowKept_setCoef {key v : Nat} : WindowKept q s (setCoef s key v) := WindowKept.of_regs rfl rfl rfl rfl

theorem windowKept_latch {r a v : Nat} : WindowKept q s (latch r a v s) := WindowKept.of_regs rfl rfl rfl rfl

/-- Adaptation moves coefficients, draws free values, and sets LANE_CTLE of its lane. -/
theorem windowKept_adaptLane {st k : Nat} : WindowKept q s (adaptLane st k s) := by
  have hfree (ix : List Nat) (s : State) : WindowKept q s
      (each ix (fun s i => drew (setCoef s (128 * k + i) (draw s 1024))) s) :=
    windowKept_each (fun _ _ => windowKept_setCoef.trans windowKept_drew) ix s
  have hctle : 0x110 ≤ (F.LANE_CTLE k).addr := by simp only [F.LANE_CTLE]; omega
  exact (windowKept_onlyIf (hfree _)).trans <| (windowKept_onlyIf (hfree _)).trans <| (windowKept_onlyIf (hfree _)).trans <|
    windowKept_onlyIf fun _ => (windowKept_setF hctle _).trans windowKept_drew

theorem windowKept_adaptNow {k : Nat} : WindowKept q s (adaptNow k s) := by
  unfold adaptNow
  split
  · exact windowKept_adaptLane
  · exact WindowKept.refl q s

theorem windowKept_tblStore {sel i v : Nat} : WindowKept q s (tblStore sel i v s).1 := by
  unfold tblStore
  split
  · split <;> exact WindowKept.of_regs rfl rfl rfl rfl
  · split <;> exact WindowKept.of_regs rfl rfl rfl rfl
  · exact WindowKept.of_regs rfl rfl rfl rfl
  · exact WindowKept.refl q s

/-! #### What another requester's access leaves -/

section OtherRequester
variable {r : Nat} (hother : ¬ (r = 0 ↔ q = 0))
include hother

/-- One requester has its bank in the register file and the other in `State.mp`, so that an update of the part that holds the
bank of the one leaves the other's window. -/
theorem WindowKept.of_bank (hreg : r = 0 → t.mp = s.mp) (hmp : r ≠ 0 → t.regs = s.regs) : WindowKept q s t := by
  by_cases hr : r = 0
  · have hq : q ≠ 0 := fun hq => hother (iff_of_true hr hq)
    exact (windowKept_of_ne_mport hq).mpr (by simp [hreg hr])
  · have hq : q = 0 := not_not.mp fun hq => hother (iff_of_false hr hq)
    subst hq
    exact windowKept_mport.mpr ⟨getF_of_regs (hmp hr) _, getF_of_regs (hmp hr) _, getF_of_regs (hmp hr) _⟩

theorem windowKept_setWinSel {v : Nat} : WindowKept q s (setWinSel r v s) :=
  WindowKept.of_bank hother (fun hr => by simp [setWinSel, hr]) (fun hr => by simp [setWinSel, hr])

theorem windowKept_setWinAddr {v : Nat} : WindowKept q s (setWinAddr r v s) :=
  WindowKept.of_bank hother (fun hr => by simp [setWinAddr, hr]) (fun hr => by simp [setWinAddr, hr])

theorem windowKept_setWinErr {v : Nat} : WindowKept q s (setWinErr r v s) :=
  WindowKept.of_bank hother (fun hr => by simp [setWinErr, hr]) (fun hr => by simp [setWinErr, hr])

theorem windowKept_tblEnd {err : Nat} : WindowKept q s (tblEnd r err s) := by
  unfold tblEnd
  split
  · exact windowKept_setWinErr hother
  · exact (windowKept_setWinErr hother).trans (windowKept_setWinAddr hother)

theorem windowKept_tblRead : WindowKept q s (tblRead r s).st := by
  have hout (s : State) (v : Nat) : WindowKept q s { s with mp := { s.mp with tblOut := v } } :=
    WindowKept.of_regs rfl rfl rfl rfl
  unfold tblRead
  dsimp only
  split
  · exact (windowKept_tblEnd hother).trans (hout ..)
  · exact (windowKept_onlyIf fun _ => windowKept_adaptNow).trans <| (windowKept_onlyIf fun _ => windowKept_drew).trans <|
      (windowKept_onlyIf fun _ => windowKept_latch).trans <| (windowKept_tblEnd hother).trans (hout ..)

theorem windowKept_tblWrite {v : Nat} : WindowKept q s (tblWrite r v s).1 := by
  have hstore : WindowKept q s
      (if tblReadOnly (winSel s r) then (s, 3) else tblStore (winSel s r) (winAddr s r) v s).1 := by
    split
    · exact WindowKept.refl q s
    · exact windowKept_tblStore
  unfold tblWrite
  dsimp only
  split
  · exact windowKept_tblEnd hother
  · exact hstore.trans (windowKept_tblEnd hother)

/-- A read at a window address, TBL_DATA or not, leaves the window of the other requester. -/
theorem windowKept_regRead {a : Nat} (ha : isWindow a = true) : WindowKept q s (regRead r a s).st := by
  rw [regRead, if_pos ha]
  split_ifs with hunmapped htelemetry hdata hsel haddr
  · exact WindowKept.refl q s
  · exact WindowKept.refl q s
  · exact windowKept_tblRead hother
  · exact WindowKept.refl q s
  · exact WindowKept.refl q s
  · exact WindowKept.refl q s

/-- A write at a window address leaves the window of the other requester. -/
theorem windowKept_regWrite {a v : Nat} (ha : isWindow a = true) : WindowKept q s (regWrite r a v s).1 := by
  rw [regWrite, if_pos ha]
  split_ifs with hunmapped hdata hsel haddr
  · exact WindowKept.refl q s
  · exact windowKept_tblWrite hother
  · exact windowKept_setWinSel hother
  · exact windowKept_setWinAddr hother
  · exact WindowKept.refl q s

end OtherRequester

/-! #### What a requester reads of its own window -/

/-- The window holds four registers (18 R439). -/
theorem window_words {a : Nat} (ha : isWindow a = true) (hword : a % 4 = 0) :
    a = 0x100 ∨ a = 0x104 ∨ a = 0x108 ∨ a = 0x10C := by
  simp only [isWindow, Bool.and_eq_true, decide_eq_true_eq] at ha
  omega

theorem mapped_of_window {a : Nat} (ha : isWindow a = true) (hword : a % 4 = 0) : mapped a = true := by
  rcases window_words ha hword with rfl | rfl | rfl | rfl <;> decide

/-- The telemetry engine has no window: it reads the window's addresses as 0 and leaves the state. -/
theorem regRead_telemetry_window {a : Nat} (ha : isWindow a = true) (hword : a % 4 = 0) (s : State) :
    regRead 2 a s = ⟨s, 0, 0⟩ := by
  simp [regRead, mapped_of_window ha hword, ha]

/-- Beside TBL_DATA a requester reads its own bank. -/
theorem regRead_window {r a : Nat} (hr : r ≠ 2) (ha : isWindow a = true) (hword : a % 4 = 0) (hdata : a ≠ 0x108) (s : State) :
    regRead r a s = ⟨s, if a = 0x100 then winSel s r else if a = 0x104 then winAddr s r else winErr s r, 0⟩ := by
  simp [regRead, mapped_of_window ha hword, ha, hr, hdata]

end Sys2Proof.Machine

namespace Sys2Proof.Certificates
open Sys2Proof Sys2Proof.Machine

/-- Settles O59: an access of the window changes the bank of its requester alone, and MPORT and the steward have theirs in
different parts of the state. -/
theorem windowIsBanked : Obligations.WindowIsBanked := by
  unfold Obligations.WindowIsBanked
  intro a v s ha
  have hown (r : Nat) (hr : r ≠ 2) : (regRead r 0x100 s).value = winSel s r ∧ (regRead r 0x104 s).value = winAddr s r ∧
      (regRead r 0x10C s).value = winErr s r := by
    simp [regRead_window hr, isWindow]
  obtain ⟨hsel0, haddr0, herr0⟩ := hown 0 (by decide)
  obtain ⟨hsel1, haddr1, herr1⟩ := hown 1 (by decide)
  refine ⟨?mport, ?steward, hsel0, haddr0, herr0, hsel1, haddr1, herr1, fun hword => regRead_telemetry_window ha hword s⟩
  case mport =>
    rintro t (rfl | rfl)
    · exact (windowKept_of_ne_mport Nat.one_ne_zero).mp (windowKept_regWrite (by decide) ha)
    · exact (windowKept_of_ne_mport Nat.one_ne_zero).mp (windowKept_regRead (by decide) ha)
  case steward =>
    rintro t (rfl | rfl)
    · exact windowKept_mport.mp (windowKept_regWrite (by decide) ha)
    · exact windowKept_mport.mp (windowKept_regRead (by decide) ha)

end Sys2Proof.Certificates

/-! ### What an update leaves of the register file

The statements name the fields that a command may change (`Safety.fieldsKept`, `Safety.onlyFields`); each update of the register
file is given here once, as a fact about such a list. -/
namespace Sys2Proof.Machine
open Safety (fieldsKept onlyFields)

section FieldsKept
variable {fs gs : List Fld} {s t u : State} {f : Fld}

@[simp] theorem fieldsKept_refl : fieldsKept fs s s := fun _ _ => rfl

theorem fieldsKept_trans (hst : fieldsKept fs s t) (htu : fieldsKept fs t u) : fieldsKept fs s u :=
  fun f hf => (htu f hf).trans (hst f hf)

theorem fieldsKept_mono (h : fieldsKept fs s t) (hsub : ∀ f ∈ fs, f ∈ gs) : fieldsKept gs s t :=
  fun f hf => h f fun g hg => hf g (hsub g hg)

/-- A state with the same register file as one that keeps the fields. -/
theorem fieldsKept_of_regs (hregs : u.regs = t.regs) (h : fieldsKept fs s t) : fieldsKept fs s u :=
  fun f hf => (getF_of_regs hregs f).trans (h f hf)

/-- Setting a listed field is allowed. -/
@[simp] theorem fieldsKept_setF (hf : f ∈ fs) {v : Nat} : fieldsKept fs s (setF t f v) ↔ fieldsKept fs s t :=
  forall₂_congr fun _ hg => by rw [getF_setF_ne t v (hg f hf)]

@[simp] theorem fieldsKept_setB (hf : f ∈ fs) {b : Bool} : fieldsKept fs s (setB t f b) ↔ fieldsKept fs s t := fieldsKept_setF hf
@[simp] theorem fieldsKept_setS (hf : f ∈ fs) {i : Int} : fieldsKept fs s (setS t f i) ↔ fieldsKept fs s t := fieldsKept_setF hf
@[simp] theorem fieldsKept_addF (hf : f ∈ fs) {n : Nat} : fieldsKept fs s (addF t f n) ↔ fieldsKept fs s t := fieldsKept_setF hf
@[simp] theorem fieldsKept_satF (hf : f ∈ fs) {n : Nat} : fieldsKept fs s (satF t f n) ↔ fieldsKept fs s t := fieldsKept_setF hf

theorem fieldsKept_setFs {l : List (Fld × Nat)} (hl : ∀ p ∈ l, p.1 ∈ fs) (h : fieldsKept fs s t) : fieldsKept fs s (setFs t l) :=
  fun g hg => (getF_setFs_ne t l g fun p hp => hg p.1 (hl p hp)).trans (h g hg)

theorem fieldsKept_onlyIf {c : Bool} {k : State → State} (h : fieldsKept fs s t) (hk : ∀ t, fieldsKept fs s t → fieldsKept fs s (k t)) :
    fieldsKept fs s (onlyIf c k t) := by
  unfold onlyIf
  split
  · exact hk t h
  · exact h

theorem fieldsKept_each {α : Type} {l : List α} {k : State → α → State} (h : fieldsKept fs s t)
    (hk : ∀ t, ∀ x ∈ l, fieldsKept fs s t → fieldsKept fs s (k t x)) : fieldsKept fs s (each l k t) := by
  induction l generalizing t with
  | nil => exact h
  | cons x l ih => exact ih (hk t x (List.mem_cons_self ..) h) fun t y hy => hk t y (List.mem_cons_of_mem x hy)

/-- An update of the register file alone, with the fields it may change. -/
theorem onlyFields_of (h : fieldsKept fs s t) (he : t = { s with regs := t.regs }) : onlyFields fs s t := ⟨h, he⟩

theorem onlyFields_setF {v : Nat} (hf : f ∈ fs) : onlyFields fs s (setF s f v) := ⟨(fieldsKept_setF hf).2 fieldsKept_refl, rfl⟩

theorem onlyFields_setB {b : Bool} (hf : f ∈ fs) : onlyFields fs s (setB s f b) := onlyFields_setF hf

theorem onlyFields_setS {i : Int} (hf : f ∈ fs) : onlyFields fs s (setS s f i) := onlyFields_setF hf

end FieldsKept

/-! #### Reads of a field that was set -/

@[simp] theorem onlyIf_true (k : State → State) (s : State) : onlyIf true k s = k s := rfl
@[simp] theorem onlyIf_false (k : State → State) (s : State) : onlyIf false k s = s := rfl
@[simp] theorem each_nil {α : Type} (k : State → α → State) (s : State) : each [] k s = s := rfl
@[simp] theorem each_cons {α : Type} (x : α) (l : List α) (k : State → α → State) (s : State) :
    each (x :: l) k s = each l k (k s x) := rfl

/-- A value that a field is wide enough for reads as it was set. -/
theorem getF_setF_of_lt (s : State) {f : Fld} {v : Nat} (h : v < 2 ^ f.width) : getF (setF s f v) f = v :=
  (getF_setF_self s f v).trans (Nat.mod_eq_of_lt h)

end Sys2Proof.Machine

/-! ### The queue and the bounds

Laws/Keeps says of each meaning that it keeps the queue and the bounds; the dispatch and the step add the choice of the command. -/
namespace Sys2Proof.Machine

/-- Every command answers a next state and keeps the queue and the bounds. -/
theorem keeps_exec {s0 s : State} (h : Keeps s0 s) (c : Instr) : ∃ t, exec c s = .next t ∧ Keeps s0 t := by
  cases c with
  | aonPowerOnReset => exact keeps_execAonPowerOnReset h
  | supplyLoss => exact keeps_execSupplyLoss h
  | registerWrite => exact keeps_execRegisterWrite h
  | write => exact keeps_execWrite h
  | read => exact keeps_execRead h
  | writeSame => exact keeps_execWriteSame h
  | readPhase => exact keeps_execReadPhase h
  | sclTimeout => exact keeps_execSclTimeout h
  | mportReadStretchTimeout => exact keeps_execMportReadStretchTimeout h
  | tblDataAccess => exact keeps_execTblDataAccess h
  | addressMatchWake => exact keeps_execAddressMatchWake h
  | wakePin => exact keeps_execWakePin h
  | pwrTargetWrite => exact keeps_execPwrTargetWrite h
  | wakePowerGood => exact keeps_execWakePowerGood h
  | wakeClockPresent => exact keeps_execWakeClockPresent h
  | wakePllLock => exact keeps_execWakePllLock h
  | wakeComplete => exact keeps_execWakeComplete h
  | wakeStepTimeout => exact keeps_execWakeStepTimeout h
  | wakeRetry => exact keeps_execWakeRetry h
  | domainEntry => exact keeps_execDomainEntry h
  | entrySavesDone => exact keeps_execEntrySavesDone h
  | saveTimeout => exact keeps_execSaveTimeout h
  | entryIsolateAndSwitch => exact keeps_execEntryIsolateAndSwitch h
  | imageSelection => exact keeps_execImageSelection h
  | loadStart => exact keeps_execLoadStart h
  | abort => exact keeps_execAbort h
  | cfgLoadData => exact keeps_execCfgLoadData h
  | storeImageReadDone => exact keeps_execStoreImageReadDone h
  | imageHeader => exact keeps_execImageHeader h
  | imageEnd => exact keeps_execImageEnd h
  | sectionHeader => exact keeps_execSectionHeader h
  | recordStaged => exact keeps_execRecordStaged h
  | sectionEnd => exact keeps_execSectionEnd h
  | copyComplete => exact keeps_execCopyComplete h
  | loadTimeout => exact keeps_execLoadTimeout h
  | localFurlongBoundary => exact keeps_execLocalFurlongBoundary h
  | rxCommitSwitch => exact keeps_execRxCommitSwitch h
  | commitTimeout => exact keeps_execCommitTimeout h
  | laneGroupCommit => exact keeps_execLaneGroupCommit h
  | stewardRestartComplete => exact keeps_execStewardRestartComplete h
  | revertSwitch => exact keeps_execRevertSwitch h
  | fabricRegisterApply => exact keeps_execFabricRegisterApply h
  | headroomWindowEnd => exact keeps_execHeadroomWindowEnd h
  | hrThresholdWrite => exact keeps_execHrThresholdWrite h
  | bushelSlip => exact keeps_execBushelSlip h
  | slipRecovery => exact keeps_execSlipRecovery h
  | fillToken => exact keeps_execFillToken h
  | blockSlot => exact keeps_execBlockSlot h
  | holdGapBlock => exact keeps_execHoldGapBlock h
  | demapperChunk => exact keeps_execDemapperChunk h
  | txEnable => exact keeps_execTxEnable h
  | txLocksPresent => exact keeps_execTxLocksPresent h
  | txLockLost => exact keeps_execTxLockLost h
  | txTimeout => exact keeps_execTxTimeout h
  | offsetUpdate => exact keeps_execOffsetUpdate h
  | agcSlowUpdate => exact keeps_execAgcSlowUpdate h
  | agcFastUpdate => exact keeps_execAgcFastUpdate h
  | agcReplacementEnd => exact keeps_execAgcReplacementEnd h
  | cdScanStep => exact keeps_execCdScanStep h
  | candidateDeclared => exact keeps_execCandidateDeclared h
  | secondCorrelatorPeak => exact keeps_execSecondCorrelatorPeak h
  | rxHeader => exact keeps_execRxHeader h
  | searchTimeout => exact keeps_execSearchTimeout h
  | unitEnabled => exact keeps_execUnitEnabled h
  | unitDisabled => exact keeps_execUnitDisabled h
  | eqTapUpdate => exact keeps_execEqTapUpdate h
  | qualityIntervalEnd => exact keeps_execQualityIntervalEnd h
  | fathomPageClear => exact keeps_execFathomPageClear h
  | clearAll => exact keeps_execClearAll h
  | snapReq => exact keeps_execSnapReq h
  | snapshotPeriodic => exact keeps_execSnapshotPeriodic h
  | snapshotPageCopy => exact keeps_execSnapshotPageCopy h
  | snapshotDone => exact keeps_execSnapshotDone h
  | snapshotLoadDone => exact keeps_execSnapshotLoadDone h
  | codewordEntersPool => exact keeps_execCodewordEntersPool h
  | engineAssign => exact keeps_execEngineAssign h
  | decoderIteration => exact keeps_execDecoderIteration h
  | codewordDeadline => exact keeps_execCodewordDeadline h
  | outerBlockDecode => exact keeps_execOuterBlockDecode h
  | firkinWaitExpiry => exact keeps_execFirkinWaitExpiry h
  | mapperChunk => exact keeps_execMapperChunk h
  | peerCtrlWrite => exact keeps_execPeerCtrlWrite h
  | peerSave => exact keeps_execPeerSave h
  | laneLockLost => exact keeps_execLaneLockLost h
  | laneLocked => exact keeps_execLaneLocked h
  | groupAligned => exact keeps_execGroupAligned h
  | holdConfirmation => exact keeps_execHoldConfirmation h
  | holdFastTimeout => exact keeps_execHoldFastTimeout h
  | holdLong => exact keeps_execHoldLong h
  | groupZoneStateChange => exact keeps_execGroupZoneStateChange h
  | restart => exact keeps_execRestart h
  | loop => exact keeps_execLoop h
  | adaptDone => exact keeps_execAdaptDone h
  | innerFrame => exact keeps_execInnerFrame h
  | patternCheck => exact keeps_execPatternCheck h
  | modulatorFrame => exact keeps_execModulatorFrame h
  | toneBlockEnd => exact keeps_execToneBlockEnd h
  | hkSlotWrite => exact keeps_execHkSlotWrite h
  | calStart => exact keeps_execCalStart h
  | hkCalComplete => exact keeps_execHkCalComplete h
  | fullReq => exact keeps_execFullReq h
  | fgReq => exact keeps_execFgReq h
  | calTrigger => exact keeps_execCalTrigger h
  | wakeFgRunStart => exact keeps_execWakeFgRunStart h
  | fgRunComplete => exact keeps_execFgRunComplete h
  | bgPassComplete => exact keeps_execBgPassComplete h
  | refLost => exact keeps_execRefLost h
  | refPresent => exact keeps_execRefPresent h
  | portBlockWrite => exact keeps_execPortBlockWrite h
  | portEnable => exact keeps_execPortEnable h
  | laserStatusPoll => exact keeps_execLaserStatusPoll h
  | laserPowerPoll => exact keeps_execLaserPowerPoll h
  | setChannel => exact keeps_execSetChannel h
  | setFine => exact keeps_execSetFine h
  | setPower => exact keeps_execSetPower h
  | output => exact keeps_execOutput h
  | readStatus => exact keeps_execReadStatus h
  | readPower => exact keeps_execReadPower h
  | readFreqErr => exact keeps_execReadFreqErr h
  | eventDetection => exact keeps_execEventDetection h
  | evtForce => exact keeps_execEvtForce h
  | ackMinor => exact keeps_execAckMinor h
  | ackMajor => exact keeps_execAckMajor h
  | promotionWindowExpiry => exact keeps_execPromotionWindowExpiry h
  | mergedRecord => exact keeps_execMergedRecord h
  | scrubVisit => exact keeps_execScrubVisit h
  | scrubLate => exact keeps_execScrubLate h
  | tripletRestoreDone => exact keeps_execTripletRestoreDone h
  | reloadDone => exact keeps_execReloadDone h
  | fetchTrap => exact keeps_execFetchTrap h
  | stewardLoadTrap => exact keeps_execStewardLoadTrap h
  | grainTick => exact keeps_execGrainTick h
  | trimMeasurement => exact keeps_execTrimMeasurement h
  | timeUntrimmed => exact keeps_execTimeUntrimmed h
  | checkpointPeriodic => exact keeps_execCheckpointPeriodic h
  | ckptReq => exact keeps_execCkptReq h
  | checkpointRetry => exact keeps_execCheckpointRetry h
  | recordWriteComplete => exact keeps_execRecordWriteComplete h
  | recordStore => exact keeps_execRecordStore h
  | ldgFree => exact keeps_execLdgFree h
  | resClear => exact keeps_execResClear h
  | histogramIntervalEnd => exact keeps_execHistogramIntervalEnd h
  | voutCommand => exact keeps_execVoutCommand h
  | statusWord => exact keeps_execStatusWord h
  | readVout => exact keeps_execReadVout h
  | avsRequest => exact keeps_execAvsRequest h
  | avsRequestTimeout => exact keeps_execAvsRequestTimeout h
  | avsEnWrite => exact keeps_execAvsEnWrite h
  | tempReading => exact keeps_execTempReading h
  | hostTempWrite => exact keeps_execHostTempWrite h
  | hostTempStale => exact keeps_execHostTempStale h
  | thermThresholdWrite => exact keeps_execThermThresholdWrite h
  | thermalThrottleRise => exact keeps_execThermalThrottleRise h
  | thermalThrottleFall => exact keeps_execThermalThrottleFall h
  | shutdownCountExpiry => exact keeps_execShutdownCountExpiry h
  | storeTransferStart => exact keeps_execStoreTransferStart h
  | storeRead => exact keeps_execStoreRead h
  | pageProgram => exact keeps_execPageProgram h
  | blockErase => exact keeps_execBlockErase h
  | writeEnable => exact keeps_execWriteEnable h
  | storeReadStatus => exact keeps_execStoreReadStatus h
  | readId => exact keeps_execReadId h
  | extendedAddress => exact keeps_execExtendedAddress h
  | storeBusyTimeout => exact keeps_execStoreBusyTimeout h
  | linkUp => exact keeps_execLinkUp h
  | rxLockLost => exact keeps_execRxLockLost h
  | creditTimeout => exact keeps_execCreditTimeout h
  | streamStall => exact keeps_execStreamStall h
  | credit => exact keeps_execCredit h
  | creditSend => exact keeps_execCreditSend h
  | config => exact keeps_execConfig h
  | snapshot => exact keeps_execSnapshot h
  | store => exact keeps_execStore h
  | capture => exact keeps_execCapture h
  | ledger => exact keeps_execLedger h
  | telemetryPeriod => exact keeps_execTelemetryPeriod h
  | drainReq => exact keeps_execDrainReq h
  | capStart => exact keeps_execCapStart h
  | captureTrigger => exact keeps_execCaptureTrigger h
  | captureDone => exact keeps_execCaptureDone h
  | doorbell => exact keeps_execDoorbell h
  | mboxResponse => exact keeps_execMboxResponse h
  | watchdogExpiry => exact keeps_execWatchdogExpiry h
  | dmaStart => exact keeps_execDmaStart h
  | dmaDone => exact keeps_execDmaDone h
  | bistSliceEnd => exact keeps_execBistSliceEnd h
  | bistSliceCut => exact keeps_execBistSliceCut h
  | accReq => exact keeps_execAccReq h
  | accSubmit => exact keeps_execAccSubmit h
  | accClose => exact keeps_execAccClose h
  | challengeExpiry => exact keeps_execChallengeExpiry h
  | accessLifeExpiry => exact keeps_execAccessLifeExpiry h
  | fuseIntegrityCheck => exact keeps_execFuseIntegrityCheck h
  | prog => exact keeps_execProg h
  | fuseProgComplete => exact keeps_execFuseProgComplete h
  | mportFrameDiscard f => exact keeps_execMportFrameDiscard (a0 := f) h
  | badPacket => exact keeps_execBadPacket h
  | hostRsCodeword => exact keeps_execHostRsCodeword h
  | signalDetect => exact keeps_execSignalDetect h
  | hostStale => exact keeps_execHostStale h
  | sensorReadingOld => exact keeps_execSensorReadingOld h
  | avsStretchTimeout => exact keeps_execAvsStretchTimeout h

end Sys2Proof.Machine

namespace Sys2Proof.Certificates
open Sys2Proof Sys2Proof.Machine

/-- Settles O3: the command at the front runs on a state that differs in the queue alone, and its meaning keeps the bounds. -/
theorem everyStepKeepsBounds : Obligations.EveryStepKeepsBounds := by
  intro s hs
  unfold step
  split
  · exact ⟨s, rfl, hs⟩
  · next c rest _ =>
    obtain ⟨t, hexec, hkeeps⟩ := keeps_exec (Keeps.refl { s with pending := rest }) c
    exact ⟨t, hexec, hkeeps.inv ⟨hs.regs, hs.flash, hs.intake, hs.reserve, hs.buffer, hs.cands, hs.queue, hs.fuses, hs.shadow⟩⟩

/-- Settles O1: a command put at the front is the one that runs, and `State.front` changes the queue alone. -/
theorem stepRunsFrontCommand : Obligations.StepRunsFrontCommand := by
  refine ⟨fun c s => rfl, fun s hempty => ?_⟩
  rw [step, hempty]

/-- Settles O4: every bounded list is empty at reset, and the fuse array has its 14 groups. -/
theorem resetMeetsBounds : Obligations.ResetMeetsBounds where
  regs := rfl
  flash := rfl
  intake := Nat.zero_le _
  reserve := Nat.zero_le _
  buffer := Nat.zero_le _
  cands := Nat.zero_le _
  queue := Nat.zero_le _
  fuses := rfl
  shadow := rfl

/-- Settles O5: the register file and the zones are empty tables at reset, and that of the domains lists MGMT and CHAIN. -/
theorem resetLeavesOnlyMgmtAndChainWaking : Obligations.ResetLeavesOnlyMgmtAndChainWaking := by
  refine ⟨fun f => rfl, rfl, fun z => rfl, rfl, rfl, rfl, fun d haon hmgmt hchain => ?_⟩
  simp [domAt, State.reset, tget, tfind, haon, hmgmt, hchain]

end Sys2Proof.Certificates

/-! ### Events: acknowledgements, promotion, the first Grave fault (11 R282, R285, R288, R299) -/
namespace Sys2Proof.Machine
open Safety (fieldsKept onlyFields)

/-! #### What a block keeps of a source -/

@[simp] theorem evAt_setEv_self (s : State) (b : EvBlk) (i : Nat) (e : EvSrc) : evAt (setEv s b i e) b i = e := by
  simp [evAt, setEv]

theorem evAt_setEv_ne (s : State) {b b' : EvBlk} {i j : Nat} (e : EvSrc) (h : b'.key j ≠ b.key i) :
    evAt (setEv s b i e) b' j = evAt s b' j := by
  simp [evAt, setEv, tget_tset_ne, h]

/-! #### The offer of a record where the intake queue has room (13 R328) -/

/-- From `s` to `t` nothing but the Ledger changes. -/
def LedgerOnly (s t : State) : Prop := t = { s with ldg := t.ldg }

theorem ledgerOnly_loseRec (s : State) (q cause : Nat) : LedgerOnly s (loseRec s q cause) := rfl

/-- With no LOSS run pending, none is written. -/
theorem flushLoss_of_no_runs {s : State} (h : s.ldg.runs = []) : flushLoss s = s := by
  unfold flushLoss
  split
  · rw [h, List.foldl_nil, ← h]
  · rfl

/-- An offered record changes the Ledger alone, and with room in the queue none is lost for want of it. -/
theorem offerR_with_room {s : State} (hruns : s.ldg.runs = []) (hroom : s.ldg.intake.length < 256) (typ extra : Nat)
    (payload : List Nat) : LedgerOnly s (offerR s typ extra payload).1 ∧
      (offerR s typ extra payload).1.ldg.unrep = s.ldg.unrep := by
  have hfits : ¬ (256 ≤ (seqNext s).ldg.intake.length ∨ (seqNext s).ldg.runs ≠ []) := by
    simp [seqNext, hruns, hroom]
  unfold offerR
  rw [flushLoss_of_no_runs hruns]
  dsimp only
  rw [if_neg hfits]
  split_ifs <;> exact ⟨rfl, rfl⟩

/-! #### A detection without a message (11 R282) -/

/-- With CHAIN off no EVENT message is sent and none is dropped. -/
theorem eventMsg_of_chain_off {s : State} (h : isOn s 10 = false) (r : LRec) : eventMsg s r = (s, false) := by
  simp [eventMsg, h]

/-- A detection that is recorded where the queue has room and CHAIN is off: EVT_SEQ counts and the Ledger takes the record. -/
theorem recordEvent_with_room {s : State} (hruns : s.ldg.runs = []) (hroom : s.ldg.intake.length < 256)
    (hoff : isOn s 10 = false) (b : EvBlk) (i merged eff cfg flags : Nat) :
    (recordEvent s b i merged eff cfg flags).2 = false ∧
      LedgerOnly (addF s (F.EVT_SEQ b) 1) (recordEvent s b i merged eff cfg flags).1 ∧
      (recordEvent s b i merged eff cfg flags).1.ldg.unrep = s.ldg.unrep := by
  obtain ⟨honly, hunrep⟩ := offerR_with_room (s := addF s (F.EVT_SEQ b) 1) hruns hroom 1 flags
    (eventPayload b i merged eff cfg (getF (addF s (F.EVT_SEQ b) 1) (F.EVT_SEQ b)))
  have hmsg := eventMsg_of_chain_off (s := (offerR (addF s (F.EVT_SEQ b) 1) 1 flags
    (eventPayload b i merged eff cfg (getF (addF s (F.EVT_SEQ b) 1) (F.EVT_SEQ b)))).1) (by rw [honly]; exact hoff)
  unfold recordEvent
  dsimp only
  rw [hmsg]
  exact ⟨rfl, honly, hunrep⟩

/-! #### A Grave detection of the steward (11 R299, R303) -/

/-- What a Grave detection without a message leaves beside its block's own registers, its event state and the Ledger. -/
structure Detecting (b : EvBlk) (i : Nat) (s t : State) : Prop where
  kept : fieldsKept [F.EVT b i, F.EVT_SEQ b, F.PEND b 3] s t
  unrep : t.ldg.unrep = s.ldg.unrep
  only : t = { s with regs := t.regs, ev := t.ev, ldg := t.ldg }

theorem Detecting.setEv (b : EvBlk) (i : Nat) (s : State) (e : EvSrc) : Detecting b i s (setEv s b i e) :=
  ⟨fun _ _ => rfl, rfl, rfl⟩

/-- The status bit and the pending flag are the block's own. -/
theorem Detecting.raise {b : EvBlk} {i : Nat} {s t : State} (h : Detecting b i s t) :
    Detecting b i s (setB (setB t (F.EVT b i) true) (F.PEND b 3) true) := by
  obtain ⟨hkept, hunrep, honly⟩ := h
  refine ⟨by simpa using hkept, hunrep, ?_⟩
  rw [honly]
  rfl

/-- A detection that is recorded where the queue has room and CHAIN is off. -/
theorem Detecting.recordEvent {s : State} (hruns : s.ldg.runs = []) (hroom : s.ldg.intake.length < 256)
    (hoff : isOn s 10 = false) (b : EvBlk) (i merged eff cfg flags : Nat) (e : EvSrc) :
    (recordEvent (Machine.setEv s b i e) b i merged eff cfg flags).2 = false ∧
      Detecting b i s (recordEvent (Machine.setEv s b i e) b i merged eff cfg flags).1 := by
  obtain ⟨hdrop, honly, hunrep⟩ :=
    recordEvent_with_room (s := Machine.setEv s b i e) hruns hroom hoff b i merged eff cfg flags
  refine ⟨hdrop, ?_, hunrep, ?_⟩
  · rw [honly]
    exact (fieldsKept_addF (t := s) (by simp)).2 fieldsKept_refl
  · rw [honly]
    rfl

/-- A detection of class Grave of an enabled source that names no field, with room in the queue and CHAIN off: its effective class
is Grave and no message is dropped. -/
theorem detectCore_grave {s : State} {b : EvBlk} {i : Nat} (hhas : b.has i = true) (hen : getB s (F.EN b i) = true)
    (hcls : getF s (F.CLASS b i) = 3) (hsrc : ∀ info, evtSrcFields b i info = []) (hruns : s.ldg.runs = [])
    (hroom : s.ldg.intake.length < 256) (hoff : isOn s 10 = false) (info : Nat) :
    (detectCore s b i info false).2.eff = some 3 ∧ (detectCore s b i info false).2.drop = false ∧
      Detecting b i s (detectCore s b i info false).1 := by
  have hraise (prom : Bool) : (if prom then raiseClass 3 else 3) = 3 := by cases prom <;> rfl
  have hesc : escalates s b 3 = false := rfl
  have hrec (e : EvSrc) (flags : Nat) := Detecting.recordEvent hruns hroom hoff b i 0 3 3 flags e
  simp only [detectCore, hhas, hsrc, setFs_nil, hen, hcls, hraise, hesc, Bool.not_true, Bool.false_eq_true, if_false]
  refine ⟨trivial, ?_⟩
  generalize (_ + _ + _ : Nat) = flags
  split_ifs
  · exact ⟨rfl, (Detecting.setEv ..).raise⟩
  · exact ⟨rfl, (Detecting.setEv ..).raise⟩
  · exact ⟨(hrec ..).1, (hrec ..).2.raise⟩

/-- No carrier and no lane: nothing stops. -/
theorem stopSet_nil (s : State) : stopSet [] [] s = s := by
  simp [stopSet, groupsOf]

/-- Zones are in a state by a field of theirs. -/
theorem zonesIn_congr {s t : State} (h : ∀ z, getF t (F.ZONE_STATE z) = getF s (F.ZONE_STATE z)) (st : Nat) :
    zonesIn t st = zonesIn s st := by
  simp only [zonesIn, h]

theorem onlyIf_each_nil {α : Type} (c : Bool) (k : State → α → State) (s : State) : onlyIf c (each [] k) s = s := by
  cases c <;> rfl

/-- FLT_GRAVE of the first Grave fault (R299 step 1). -/
theorem getF_graveFirst (b : EvBlk) (i : Nat) (s : State) :
    getF (graveFirst b i s) F.GRAVE_LOCK = 1 ∧ getF (graveFirst b i s) F.GRAVE_CAUSE = graveCause b i % 8 ∧
      getF (graveFirst b i s) F.GRAVE_SOURCE = i % 32 ∧ getF (graveFirst b i s) F.GRAVE_BLOCK = b.code % 65536 := by
  simp (disch := decide) only [graveFirst, setFs_cons, setFs_nil, getF_setF_ne, getF_setF_self]
  simp

theorem getF_holdSteward (s : State) (f : Fld) : getF (holdSteward s) f = getF s f := rfl

/-- A detection of the steward's fixed-Grave source, without a section that the loader lock ends and without a message: FLT_GRAVE
locks where it was not locked, and the steward is held. -/
theorem detect_steward_grave {s u : State} {i info : Nat} (hcore : (detectCore s .stw i info false).2.eff = some 3)
    (hdrop : (detectCore s .stw i info false).2.drop = false) (hu : (detectCore s .stw i info false).1 = u)
    (hunrep : u.ldg.unrep = 0) (hstaging : zonesIn u zStaging = []) (harmed : zonesIn u zArmed = []) :
    detect .stw i info s = holdSteward (onlyIf (!getB u F.GRAVE_LOCK) (graveFirst .stw i) u) := by
  have hstate (z : Nat) : getF (graveFirst .stw i u) (F.ZONE_STATE z) = getF u (F.ZONE_STATE z) := by
    refine getF_setFs_ne u _ _ ?_
    simp only [List.mem_cons, List.not_mem_nil, or_false, forall_eq_or_imp, forall_eq, Fld.key, F.ZONE_STATE, F.GRAVE_LOCK,
      F.GRAVE_CAUSE, F.GRAVE_SOURCE, F.GRAVE_BLOCK]
    omega
  have hzones (first : Bool) (st : Nat) : zonesIn (onlyIf first (graveFirst .stw i) u) st = zonesIn u st := by
    cases first
    · rfl
    · exact zonesIn_congr hstate st
  have hlost (first : Bool) : (holdSteward (onlyIf first (graveFirst .stw i) u)).ldg.unrep = 0 := by
    cases first
    · exact hunrep
    · exact (congrArg LedgerSt.unrep (setFs_ldg u _)).trans hunrep
  generalize hfirst : (!getB u F.GRAVE_LOCK) = first
  rw [detect, detectN]
  simp only [hcore, hdrop, hu, hfirst, Option.getD_some, faultedCarriers, each_nil, onlyIf_true, onlyIf_false,
    beq_self_eq_true, Bool.true_and, hzones, hstaging, harmed, onlyIf_each_nil, applyScope, scopeCarriers, scopeLanes, stopSet_nil, hlost,
    if_true, decide_true, Nat.reduceLeDiff]

end Sys2Proof.Machine

namespace Sys2Proof.Certificates
open Sys2Proof Sys2Proof.Machine

/-- Settles O8: both acknowledgements set one field, and the end of a window rewrites what the block keeps of one source. -/
theorem acknowledgementsAndWindowsTouchTheirOwnPart : Obligations.AcknowledgementsAndWindowsTouchTheirOwnPart := by
  refine ⟨fun b s => ⟨⟨_, rfl, ?minor, onlyFields_setB (by simp)⟩, ⟨_, rfl, ?major, onlyFields_setB (by simp)⟩⟩,
    fun b i s => ⟨_, rfl, ?count, ?marked, ?merged, fun b' j hne => evAt_setEv_ne s _ hne, rfl⟩, ?counter⟩
  case minor => exact getB_setB_self s _ _ Nat.one_ne_zero
  case major => exact getB_setB_self s _ _ Nat.one_ne_zero
  case count => rw [evAt_setEv_self]
  case marked => rw [evAt_setEv_self]
  case merged => rw [evAt_setEv_self]
  case counter =>
    refine ⟨rfl, fun n hn => ?_, fun k m n hk => ?_, fun k m n hk => ?_, fun n => rfl⟩
    · simp [countDetection, hn]
    · simp [countDetection, hk]
    · simp [countDetection, hk.ne]

/-- Settles O9: without a section to end and without a message the detection comes to the steward's stop scope, and FLT_GRAVE is
written only where it was not locked. -/
theorem firstGraveFaultLocks : Obligations.FirstGraveFaultLocks := by
  intro info s hen hcls hunrep hruns hroom hstaging harmed hchain
  obtain ⟨heff, hdrop, hkept, hunrep', honly⟩ := detectCore_grave (b := .stw) (i := 23) (by decide) hen hcls (fun _ => rfl)
    hruns hroom hchain info.toNat
  generalize hu : (detectCore s .stw 23 info.toNat false).1 = u at *
  have hfield {f : Fld} (h : ∀ g ∈ [F.EVT .stw 23, F.EVT_SEQ .stw, F.PEND .stw 3], f.key ≠ g.key) : getF u f = getF s f := hkept f h
  have hzones (st : Nat) : zonesIn u st = zonesIn s st := zonesIn_congr (fun z => hfield (by
    simp only [List.mem_cons, List.not_mem_nil, or_false, forall_eq_or_imp, forall_eq, Fld.key, F.ZONE_STATE, F.EVT, F.EVT_SEQ,
      F.PEND, EvBlk.base]
    omega)) st
  have hlock : getB u F.GRAVE_LOCK = getB s F.GRAVE_LOCK := by simp only [getB, hfield (f := F.GRAVE_LOCK) (by decide)]
  have hexec : exec (.eventDetection .stw 23 info) s =
      .next (holdSteward (onlyIf (!getB u F.GRAVE_LOCK) (graveFirst .stw 23) u)) := by
    change Host.Outcome.next (detect .stw 23 info.toNat (onlyIf (isOn s 1) (sourceMark .stw 23 info.toNat) s)) = _
    have hmark : sourceMark .stw 23 info.toNat s = s := rfl
    rw [← detect_steward_grave heff hdrop hu (hunrep'.trans hunrep) ((hzones _).trans hstaging) ((hzones _).trans harmed)]
    cases isOn s 1 <;> simp [hmark]
  refine ⟨_, hexec, ?_, rfl, rfl, fun hfree => ?_, fun hlocked => ?_⟩
  · cases hgrave : getB u F.GRAVE_LOCK
    · simp [getB, getF_holdSteward, (getF_graveFirst .stw 23 u).1]
    · exact hgrave
  · rw [hlock, hfree]
    obtain ⟨-, hcause, hsource, hblock⟩ := getF_graveFirst .stw 23 u
    exact ⟨hcause, hsource, hblock⟩
  · rw [hlock, hlocked]
    exact ⟨hfield (by decide), hfield (by decide), hfield (by decide)⟩

end Sys2Proof.Certificates

/-! ### The flash and its commands (15 R370, R373) -/
namespace Sys2Proof.Machine
open Safety (fieldsKept onlyFields)

/-! #### Reading the flash -/

/-- A key below every listed key is not listed. -/
theorem tfind_of_above {α : Type} {k : Nat} {t : Tab α} (h : Laws.above k t) : tfind t k = none := by
  induction t with
  | nil => rfl
  | cons e t ih =>
    obtain ⟨j, v⟩ := e
    have hj : k ≠ j := (h (j, v) (List.mem_cons_self ..)).ne
    simpa [tfind, hj] using ih fun e he => h e (List.mem_cons_of_mem _ he)

@[simp] theorem length_readGo (n a : Nat) (cells : List Host.Cell) : (readGo n a cells).length = n := by
  induction n generalizing a cells with
  | zero => rfl
  | succ n ih =>
    match cells with
    | [] => simp [readGo, ih]
    | (j, b) :: t =>
      unfold readGo
      split <;> simp [ih]

@[simp] theorem length_flashRead (cells : List Host.Cell) (a n : Nat) : (flashRead cells a n).length = n := length_readGo ..

/-- Reading cells in canonical form that start at or above the address gives the byte of each address. -/
theorem getElem?_readGo {n a k : Nat} {cells : List Host.Cell} (hrise : trising cells = true) (hlow : ∀ c ∈ cells, a ≤ c.1)
    (hk : k < n) : (readGo n a cells)[k]? = some (flashByte cells (a + k)) := by
  induction n generalizing a cells k with
  | zero => omega
  | succ n ih =>
    match cells with
    | [] =>
      cases k with
      | zero => rfl
      | succ k =>
        have hrest := ih (a := a + 1) (k := k) hrise (by simp) (by omega)
        simpa [readGo, flashByte] using hrest
    | (j, b) :: t =>
      obtain ⟨habove, hrise'⟩ := (trising_cons j b t).1 hrise
      by_cases hj : j = a
      · subst hj
        cases k with
        | zero => simp [readGo, flashByte, tget, tfind]
        | succ k =>
          have hrest := ih (a := j + 1) (k := k) hrise' (fun c hc => habove c hc) (by omega)
          simpa [readGo, flashByte, tget, tfind, Nat.add_assoc, Nat.add_comm 1 k] using hrest
      · have hja : a < j := Nat.lt_of_le_of_ne (hlow (j, b) (List.mem_cons_self ..)) (Ne.symm hj)
        have hlow' : Laws.above a ((j, b) :: t) := fun c hc => by
          rcases List.mem_cons.1 hc with rfl | hc
          · exact hja
          · exact hja.trans (habove c hc)
        cases k with
        | zero => simp [readGo, hj, flashByte, tget, tfind_of_above hlow']
        | succ k =>
          have hrest := ih (a := a + 1) (k := k) hrise (fun c hc => hlow' c hc) (by omega)
          simpa [readGo, hj, Nat.add_assoc, Nat.add_comm 1 k] using hrest

/-- Below an address, the cells in canonical form are those in front. -/
theorem dropWhile_eq_filter {cells : List Host.Cell} (hrise : trising cells = true) (a : Nat) :
    (cells.dropWhile fun c => decide (c.1 < a)) = cells.filter fun c => decide (a ≤ c.1) := by
  induction cells with
  | nil => rfl
  | cons e t ih =>
    obtain ⟨j, b⟩ := e
    obtain ⟨habove, hrise'⟩ := (trising_cons j b t).1 hrise
    by_cases hj : j < a
    · simpa [List.dropWhile_cons, hj, hj.not_ge] using ih hrise'
    · have hall : ∀ c ∈ t, decide (a ≤ c.1) = true := fun c hc =>
        decide_eq_true ((not_lt.1 hj).trans (Nat.le_of_lt (habove c hc)))
      simp [hj, not_lt.1 hj, List.filter_eq_self.2 hall]

/-- The flash in canonical form reads, from an address on, the byte of each address. -/
theorem getElem?_flashRead {cells : List Host.Cell} (hwf : flashWf cells = true) {a n k : Nat} (hk : k < n) :
    (flashRead cells a n)[k]? = some (flashByte cells (a + k)) := by
  obtain ⟨hrise, -⟩ := (flashWf_iff cells).1 hwf
  have hfilter := tfind_filter cells (fun j => decide (a ≤ j)) (a + k)
  rw [if_pos (decide_eq_true (Nat.le_add_right a k))] at hfilter
  rw [flashRead, dropWhile_eq_filter hrise, getElem?_readGo (trising_filter _ hrise)
    (fun c hc => of_decide_eq_true (List.mem_filter.1 hc).2) hk]
  exact congrArg (fun x : Option Byte => some (x.getD erased)) hfilter

/-- Programming ANDs its bytes into those at the address and leaves the others (log 20). -/
theorem flashByte_flashProgram {cells : List Host.Cell} (hwf : flashWf cells = true) (a i : Nat) (bs : List Byte) :
    flashByte (flashProgram cells a bs) i =
      if a ≤ i ∧ i < a + bs.length then flashByte cells i &&& bs.getD (i - a) erased else flashByte cells i := by
  rw [flashProgram, flashByte_flashPut]
  simp only [List.length_zipWith, length_flashRead, Nat.min_self]
  split_ifs with hin
  · have hread : (flashRead cells a bs.length)[i - a]? = some (flashByte cells i) := by
      rw [getElem?_flashRead hwf (by omega), Nat.add_sub_cancel' hin.1]
    have hbyte : bs[i - a]? = some bs[i - a] := List.getElem?_eq_getElem (by omega)
    simp [List.getElem?_zipWith, hread, hbyte]
  · rfl

/-! #### Commands that reach the flash -/

theorem toFlash_of_ready {s : State} (hworks : mgmtWorks s = true) (hidle : s.st.busy = false) (f : State → State) :
    toFlash s f = f s := by
  simp [toFlash, hworks, hidle]

theorem toFlash_of_busy {s : State} (hbusy : s.st.busy = true) (f : State → State) : toFlash s f = s := by
  simp [toFlash, hbusy]

/-- A command that does nothing without the write enable. -/
theorem toFlash_of_not_enabled {s : State} (h : s.st.wel = false ∨ s.st.busy = true) (f : State → State) :
    toFlash s (fun s => if s.st.wel then f s else s) = s := by
  rcases h with hwel | hbusy
  · simp [toFlash, hwel]
  · exact toFlash_of_busy hbusy _

/-! #### Store transfers by rank (R373) -/

/-- The least waiting rank is the best. -/
theorem storeBest_eq {s : State} {r : Nat} (hmem : r ∈ s.st.waiting) (hmin : ∀ x ∈ s.st.waiting, r ≤ x) :
    storeBest s = some r := List.min?_eq_some_iff.2 ⟨hmem, hmin⟩

/-- No record is written, and no transfer of the user runs, at rank 0: nothing fails where the port is free. -/
theorem transferFails_of_free {s : State} (hfree : getF s F.STORE_ACTIVE = 0) : transferFails s = s := by
  have hnone : (s.st.writes.find? fun w => recRank w.kind == 0) = none := by
    refine List.find?_eq_none.2 fun w _ => ?_
    cases w.kind <;> exact Bool.false_ne_true
  simp [transferFails, hfree, hnone]

end Sys2Proof.Machine

namespace Sys2Proof.Certificates
open Sys2Proof Sys2Proof.Machine
open Sys2Proof.Safety (onlyFields fieldsKept)

/-- Settles O10: a page program ANDs into the 256 bytes of its page, a block erase filters the cells of its block out. -/
theorem programAndEraseTouchTheirUnitAlone : Obligations.ProgramAndEraseTouchTheirUnitAlone := by
  refine ⟨fun addr data s hwf hlen hworks hidle hwel => ?program, fun addr s hwf hworks hidle hwel => ?erase⟩
  case program =>
    have hbyte (i : Nat) := flashByte_flashProgram hwf (flashAddr s addr.toNat / 256 * 256) i data
    have hexec : exec (.pageProgram addr data) s = .next { s with st := { s.st with
        cells := flashProgram s.st.cells (flashAddr s addr.toNat / 256 * 256) data, wel := false, busy := true } } := by
      change Host.Outcome.next (toFlash s _) = _
      rw [toFlash_of_ready hworks hidle, if_pos hwel, List.take_of_length_le hlen.le]
      rfl
    refine ⟨_, hexec, rfl, rfl, flashProgram_wf _ _ hwf, fun i hlo hhi => ?_, fun i hout => ?_, rfl⟩
    · rw [hbyte, if_pos ⟨hlo, by omega⟩]
    · rw [hbyte, if_neg (by omega)]
  case erase =>
    have hbyte (i : Nat) := flashByte_flashErase s.st.cells (flashAddr s addr.toNat / 65536 * 65536) 65536 i
    have hexec : exec (.blockErase addr) s = .next { s with st := { s.st with
        cells := flashErase s.st.cells (flashAddr s addr.toNat / 65536 * 65536) 65536, wel := false, busy := true } } := by
      change Host.Outcome.next (toFlash s _) = _
      rw [toFlash_of_ready hworks hidle, if_pos hwel]
      rfl
    refine ⟨_, hexec, rfl, rfl, flashErase_wf _ _ hwf, fun i hlo hhi => ?_, fun i hout => ?_, rfl⟩
    · rw [hbyte, if_pos ⟨hlo, hhi⟩]
    · rw [hbyte, if_neg (by omega)]

/-- Settles O11: a command that reaches the flash sets its own part of the port, and one that does not leaves the state. -/
theorem flashCommandsAnswerAndSetTheirOwnPart : Obligations.FlashCommandsAnswerAndSetTheirOwnPart := by
  refine ⟨⟨fun addr len s hwf hworks hidle => ?read, fun addr data s hoff => ?notEnabled, fun addr len bank s hbusy => ?busy⟩,
    fun s hworks => ⟨fun hidle => ?enable, fun bank hidle => ?extended, fun busy => ?status, fun hbusy => ?timeout, fun hfree => ?free,
      fun hidle => ?idle⟩⟩
  case read =>
    refine ⟨_, congrArg Host.Outcome.next (toFlash_of_ready hworks hidle _), length_flashRead .., fun k hk => ?_, rfl⟩
    rw [List.getD_eq_getElem?_getD, getElem?_flashRead hwf hk, Option.getD_some]
  case notEnabled =>
    exact ⟨congrArg Host.Outcome.next (toFlash_of_not_enabled hoff _), congrArg Host.Outcome.next (toFlash_of_not_enabled hoff _)⟩
  case busy =>
    exact ⟨congrArg Host.Outcome.next (toFlash_of_busy hbusy _), congrArg Host.Outcome.next (toFlash_of_busy hbusy _),
      congrArg Host.Outcome.next (toFlash_of_busy hbusy _)⟩
  case enable => exact congrArg Host.Outcome.next (toFlash_of_ready hworks hidle _)
  case extended =>
    refine ⟨_, congrArg Host.Outcome.next (toFlash_of_ready hworks hidle _), rfl, fun h3 a => ?_⟩
    exact if_neg (by simpa [getB, getF] using h3)
  case status => exact congrArg Host.Outcome.next (if_pos hworks)
  case timeout => exact congrArg Host.Outcome.next (if_pos (by simp [hworks, hbusy]))
  case free => exact transferFails_of_free hfree
  case idle => exact congrArg Host.Outcome.next (if_neg (by simp [hidle]))

/-- Settles O12: READ_ID sets CAPACITY and whether the flash is small; the port compares the least waiting rank with its own. -/
theorem storePortServesTheBestRankAndJudgesItsFlash : Obligations.StorePortServesTheBestRankAndJudgesItsFlash := by
  refine ⟨fun code s hworks hidle => ?readId, fun s r hworks hmem hmin hr => ?transfer⟩
  case readId =>
    let u := setF { s with st := { s.st with small := decide (code.toNat < 0x1B) } } F.CAPACITY code.toNat
    have hexec : exec (.readId code) s = .next (if decide (code.toNat < 0x1B) then detect .stw 22 0 u else u) :=
      congrArg Host.Outcome.next (toFlash_of_ready hworks hidle _)
    refine ⟨u, getF_setF_of_lt _ code.isLt, decide_eq_true_iff, ?_, rfl, fun hlarge => ?_, fun hsmall => ?_⟩
    · exact (fieldsKept_setF (by simp)).2 fieldsKept_refl
    · rw [hexec, if_neg (by simpa using hlarge)]
    · rw [hexec, if_pos (by simpa using hsmall)]
  case transfer =>
    have hexec : exec .storeTransferStart s = .next
        (if getF s F.STORE_ACTIVE = 0 then setF { s with st := { s.st with waiting := s.st.waiting.erase r } } F.STORE_ACTIVE r
         else if r < getF s F.STORE_ACTIVE then
           setF { s with st := { s.st with waiting := s.st.waiting.erase r ++ [getF s F.STORE_ACTIVE] } } F.STORE_ACTIVE r
         else s) := by
      simp [exec, execStoreTransferStart, storeBest_eq hmem hmin, hworks]
    have hkept (w : List Nat) : fieldsKept [F.STORE_ACTIVE] s (setF { s with st := { s.st with waiting := w } } F.STORE_ACTIVE r) :=
      (fieldsKept_setF (by simp)).2 fieldsKept_refl
    refine ⟨fun hfree => ⟨_, hexec.trans (congrArg _ (if_pos hfree)), getF_setF_of_lt _ hr, rfl, hkept _, rfl⟩,
      fun hyields => ⟨_, hexec.trans (congrArg _ ((if_neg (by omega)).trans (if_pos hyields))), getF_setF_of_lt _ hr, rfl, hkept _, rfl⟩,
      fun hrun hworse => ?_⟩
    · rw [hexec, if_neg hrun, if_neg (by omega)]

end Sys2Proof.Certificates

/-! ### Signed numbers and signed fields (00 R5) -/
namespace Sys2Proof.Machine
open Safety (fieldsKept onlyFields)

theorem two_pow_succ_pred {w : Nat} (hw : w ≠ 0) : 2 ^ w = 2 * 2 ^ (w - 1) := by
  obtain ⟨k, rfl⟩ := Nat.exists_eq_succ_of_ne_zero hw
  rw [Nat.succ_sub_one, Nat.pow_succ']

/-- A number of a width reads, as two's complement, within the range of the width. -/
theorem toS_bounds {w : Nat} (hw : w ≠ 0) (n : Nat) : -(2 ^ (w - 1) : Nat) ≤ toS w n ∧ toS w n < (2 ^ (w - 1) : Nat) := by
  have hpow := two_pow_succ_pred hw
  have hlt : n % 2 ^ w < 2 ^ w := Nat.mod_lt _ (Nat.two_pow_pos w)
  unfold toS
  split <;> omega

/-- A signed number in the range of a width reads as it was put. -/
theorem toS_ofS {w : Nat} (hw : w ≠ 0) {i : Int} (hlo : -(2 ^ (w - 1) : Nat) ≤ i) (hhi : i < (2 ^ (w - 1) : Nat)) :
    toS w (ofS w i) = i := by
  have hpow := two_pow_succ_pred hw
  have hpos : 0 < 2 ^ (w - 1) := Nat.two_pow_pos _
  have hmod : i % (2 ^ w : Nat) = if 0 ≤ i then i else i + (2 ^ w : Nat) := by
    split
    · exact Int.emod_eq_of_lt ‹_› (by omega)
    · rw [← Int.add_emod_right, Int.emod_eq_of_lt (by omega) (by omega)]
  unfold toS ofS
  rw [hmod]
  split_ifs with hneg <;> (rw [Nat.mod_eq_of_lt (by omega)] at *; omega)

theorem ofS_lt (w : Nat) (i : Int) : ofS w i < 2 ^ w := by
  have hpos : (0 : Int) < (2 ^ w : Nat) := by exact_mod_cast Nat.two_pow_pos w
  have hlt := Int.emod_lt_of_pos i hpos
  unfold ofS
  omega

/-- The value of a field stays below its width's range once it was set. -/
theorem getF_setS_self (s : State) (f : Fld) (i : Int) : getF (setS s f i) f = ofS f.width i :=
  getF_setF_of_lt s (ofS_lt f.width i)

/-- A signed field reads as it was set, within the range of its width. -/
theorem getS_setS_self (s : State) {f : Fld} {i : Int} (hw : f.width ≠ 0) (hlo : -(2 ^ (f.width - 1) : Nat) ≤ i)
    (hhi : i < (2 ^ (f.width - 1) : Nat)) : getS (setS s f i) f = i := by
  rw [getS, getF_setS_self, toS_ofS hw hlo hhi]

theorem getS_setF_ne (s : State) {f g : Fld} (v : Nat) (h : g.key ≠ f.key) : getS (setF s f v) g = getS s g := by
  simp only [getS, getF_setF_ne s v h]

theorem getS_setS_ne (s : State) {f g : Fld} (i : Int) (h : g.key ≠ f.key) : getS (setS s f i) g = getS s g :=
  getS_setF_ne s _ h

theorem clampI_eq_max_min {lo hi : Int} (h : lo ≤ hi) (x : Int) : clampI lo hi x = max lo (min hi x) := by
  unfold clampI
  split_ifs <;> omega

/-- A number within limits stays. -/
theorem clampI_of_mem {lo hi x : Int} (hlo : lo ≤ x) (hhi : x ≤ hi) : clampI lo hi x = x := by
  unfold clampI
  split_ifs <;> omega

end Sys2Proof.Machine

/-! ### Bias channels, detector blocks and the housekeeping chains (09) -/
namespace Sys2Proof.Machine
open Safety (fieldsKept onlyFields)

/-! #### Channels and chains -/

@[simp] theorem chanAt_setChan_self (s : State) (n : Nat) (x : BiasCh) : chanAt (setChan s n x) n = x := by
  simp [chanAt, setChan]

theorem chanAt_setChan_ne (s : State) {n m : Nat} (x : BiasCh) (h : m ≠ n) : chanAt (setChan s n x) m = chanAt s m := by
  simp [chanAt, setChan, tget_tset_ne, h]

@[simp] theorem chanAt_setF (s : State) (f : Fld) (v n : Nat) : chanAt (setF s f v) n = chanAt s n := rfl
@[simp] theorem chanAt_setS (s : State) (f : Fld) (i : Int) (n : Nat) : chanAt (setS s f i) n = chanAt s n := rfl
@[simp] theorem getF_setChan (s : State) (n : Nat) (x : BiasCh) (f : Fld) : getF (setChan s n x) f = getF s f := rfl
@[simp] theorem fieldsKept_setChan {fs : List Fld} {s t : State} {n : Nat} {x : BiasCh} :
    fieldsKept fs s (setChan t n x) ↔ fieldsKept fs s t := Iff.rfl

@[simp] theorem chainAt_setChain_self (s : State) (i : Nat) (x : Chain) : chainAt (setChain s i x) i = x := by
  simp [chainAt, setChain]

/-! #### The frame boundary of a channel at rest (R248, R252) -/

/-- A channel at rest: nothing waits, nothing searches, no carrier fault, no dither. -/
structure ChanRests (s : State) (n : Nat) : Prop where
  pend : (chanAt s n).pend = []
  fault : (chanAt s n).fault = false
  search : (chanAt s n).search = none
  amp : getF s (F.DITHER_AMP n) = 0

/-- C after a frame: towards T by at most SLEW. -/
def slewed (s : State) (n : Nat) : Int :=
  codeC s n + max (-(getF s (F.BC_SLEW n) : Int)) (min (getF s (F.BC_SLEW n) : Int) (codeT s n - codeC s n))

@[simp] theorem codeC_setChan (s : State) (n m : Nat) (x : BiasCh) : codeC (setChan s n x) m = codeC s m := rfl
@[simp] theorem slewed_setChan (s : State) (n m : Nat) (x : BiasCh) : slewed (setChan s n x) m = slewed s m := rfl

theorem codeC_bounds (s : State) (n : Nat) : -32768 ≤ codeC s n ∧ codeC s n < 32768 := toS_bounds (w := 16) (by decide) _

theorem codeT_bounds (s : State) (n : Nat) : -32768 ≤ codeT s n ∧ codeT s n < 32768 := toS_bounds (w := 16) (by decide) _

/-- A code stays within 16 bits as the slew limiter moves it. -/
theorem slewed_bounds (s : State) (n : Nat) : -32768 ≤ slewed s n ∧ slewed s n < 32768 := by
  have hc := codeC_bounds s n
  have ht := codeT_bounds s n
  unfold slewed
  omega

/-- What one frame boundary does: to its channel, and to no other. -/
structure FrameStep (n : Nat) (s t : State) : Prop where
  code : isOn s (lineDom (n / 12)) = true → codeC t n = slewed s n
  phase : isOn s (lineDom (n / 12)) = true → (chanAt t n).phase = ((chanAt s n).phase + getF s (F.PHASE_INC n)) % 2 ^ 32
  driven : isOn s (lineDom (n / 12)) = true → (chanAt t n).code = codeC t n
  off : isOn s (lineDom (n / 12)) = false → codeC t n = codeC s n ∧ chanAt t n = chanAt s n
  other : ∀ m, m ≠ n → chanAt t m = chanAt s m
  kept : fieldsKept [F.BC_CODE n] s t
  out : t.bias.out = s.bias.out
  only : t = { s with regs := t.regs, bias := t.bias }

/-- Without dither the code driven is C. -/
theorem driveCode_of_no_dither {s : State} {n : Nat} (hamp : getF s (F.DITHER_AMP n) = 0) :
    driveCode n s = setChan s n { chanAt s n with code := codeC s n } := by
  have hc := codeC_bounds s n
  have hdither : (if chanActive s n then ditherOf (getF s (F.DITHER_AMP n)) (chanAt s n).phase else 0) = 0 := by
    rw [hamp]
    simp [ditherOf]
  simp only [driveCode, hdither, add_zero]
  rw [clampI_of_mem hc.1 (by omega), if_neg (by omega)]

theorem applyPend_of_nil {s : State} {n : Nat} (h : (chanAt s n).pend = []) (fault : Bool) :
    applyPend n fault s = setChan s n { chanAt s n with pend := [] } := by
  simp [applyPend, h, rangeAsked]

theorem takeOutput_of_nil {s : State} (h : s.bias.out = []) (n : Nat) : takeOutput n s = s := by
  simp [takeOutput, h, tfind]

theorem searchFrame_of_none {s : State} {n : Nat} (h : (chanAt s n).search = none) : searchFrame n s = s := by
  simp [searchFrame, h]

/-- The slew limiter sets C. -/
theorem slewStep_eq (s : State) (n : Nat) : slewStep n s = setS s (F.BC_CODE n) (slewed s n) := by
  rw [slewStep, clampI_eq_max_min (by omega)]
  rfl

theorem codeC_setS_self (s : State) (n : Nat) : codeC (setS s (F.BC_CODE n) (slewed s n)) n = slewed s n :=
  getS_setS_self s (f := F.BC_CODE n) (Nat.succ_ne_zero 15) (slewed_bounds s n).1 (slewed_bounds s n).2

/-- The frame boundary of a channel at rest, with no output of its slot. -/
theorem chanFrame_of_rest {s : State} {n : Nat} (h : ChanRests s n) (hout : s.bias.out = []) : FrameStep n s (chanFrame s n) := by
  obtain ⟨hpend, hfault, hsearch, hamp⟩ := h
  cases hon : isOn s (lineDom (n / 12))
  case false =>
    have hidle : chanFrame s n = s := by simp [chanFrame, hon]
    rw [hidle]
    exact ⟨fun h => by simp [hon] at h, fun h => by simp [hon] at h, fun h => by simp [hon] at h, fun _ => ⟨rfl, rfl⟩,
      fun _ _ => rfl, fieldsKept_refl, rfl, rfl⟩
  case true =>
    let x := { chanAt s n with phase := ((chanAt s n).phase + getF s (F.PHASE_INC n)) % 2 ^ 32, fault := false, pend := [] }
    obtain ⟨u, hu⟩ : ∃ u, u = setS (setChan (setChan s n { x with pend := (chanAt s n).pend }) n x) (F.BC_CODE n) (slewed s n) := ⟨_, rfl⟩
    have hcode : codeC u n = slewed s n := by
      have h := codeC_setS_self (setChan (setChan s n { x with pend := (chanAt s n).pend }) n x) n
      simpa only [slewed_setChan, ← hu] using h
    have hchan : chanAt u n = x := by simp [hu]
    have hamp' : getF u (F.DITHER_AMP n) = 0 := by
      have hkey : (F.DITHER_AMP n).key ≠ (F.BC_CODE n).key := by simp only [Fld.key, F.DITHER_AMP, F.BC_CODE]; omega
      rw [hu, getF_setS_ne _ _ hkey, getF_setChan, getF_setChan, hamp]
    have hframe : chanFrame s n = setChan u n { x with code := slewed s n } := by
      have hdrive := driveCode_of_no_dither hamp'
      rw [hcode, hchan] at hdrive
      simp only [chanFrame, hon, hfault, Bool.false_and, onlyIf_false, Bool.not_true, Bool.false_eq_true, if_false]
      rw [applyPend_of_nil (by simpa using hpend), takeOutput_of_nil (by exact hout), slewStep_eq, searchFrame_of_none (by simpa using hsearch)]
      simp only [chanAt_setChan_self, slewed_setChan]
      rw [hu] at hdrive ⊢
      exact hdrive
    have honly : u = { s with regs := u.regs, bias := u.bias } := by rw [hu]; rfl
    have hother (m : Nat) (hm : m ≠ n) : chanAt u m = chanAt s m := by rw [hu]; simp only [chanAt_setChan_ne _ _ hm, chanAt_setS]
    have hkept : fieldsKept [F.BC_CODE n] s u := by simp [hu]
    have hout' : u.bias.out = s.bias.out := by rw [hu]; rfl
    rw [hframe]
    refine ⟨fun _ => by rw [codeC_setChan, hcode], fun _ => by simp [x], fun _ => by simp [hcode], fun h => by simp [hon] at h,
      fun m hm => (chanAt_setChan_ne u _ hm).trans (hother m hm), by simpa using hkept, hout', ?_⟩
    rw [honly]
    rfl

/-- The frame boundaries of channels at rest, one after another. -/
theorem each_chanFrame_of_rest {l : List Nat} (hnodup : l.Nodup) {s : State} (hrest : ∀ n ∈ l, ChanRests s n) (hout : s.bias.out = []) :
    (∀ n ∈ l, isOn s (lineDom (n / 12)) = true → codeC (each l chanFrame s) n = slewed s n ∧
        (chanAt (each l chanFrame s) n).phase = ((chanAt s n).phase + getF s (F.PHASE_INC n)) % 2 ^ 32 ∧
        (chanAt (each l chanFrame s) n).code = codeC (each l chanFrame s) n) ∧
      (∀ n, n ∉ l ∨ isOn s (lineDom (n / 12)) = false →
        codeC (each l chanFrame s) n = codeC s n ∧ chanAt (each l chanFrame s) n = chanAt s n) ∧
      fieldsKept (l.map F.BC_CODE) s (each l chanFrame s) ∧
      each l chanFrame s = { s with regs := (each l chanFrame s).regs, bias := (each l chanFrame s).bias } := by
  induction l generalizing s with
  | nil => exact ⟨by simp, fun _ _ => ⟨rfl, rfl⟩, fieldsKept_refl, rfl⟩
  | cons m l ih =>
    obtain ⟨hm, hl⟩ := List.nodup_cons.1 hnodup
    have hstep := chanFrame_of_rest (hrest m (List.mem_cons_self ..)) hout
    generalize ht : chanFrame s m = t at hstep
    have hon (d : Nat) : isOn t d = isOn s d := by rw [hstep.only]; rfl
    have hfield {f : Fld} (hf : f.key ≠ (F.BC_CODE m).key) : getF t f = getF s f := hstep.kept f (by simpa using hf)
    have hamp (n : Nat) : getF t (F.DITHER_AMP n) = getF s (F.DITHER_AMP n) :=
      hfield (by simp only [Fld.key, F.DITHER_AMP, F.BC_CODE]; omega)
    have hslew (n : Nat) (hn : n ≠ m) : codeC t n = codeC s n ∧ slewed t n = slewed s n := by
      have hcode : codeC t n = codeC s n := congrArg (toS 16) (hfield (by simp only [Fld.key, F.BC_CODE]; omega))
      have htarget : codeT t n = codeT s n := congrArg (toS 16) (hfield (by simp only [Fld.key, F.BC_TARGET, F.BC_CODE]; omega))
      have hlimit : getF t (F.BC_SLEW n) = getF s (F.BC_SLEW n) := hfield (by simp only [Fld.key, F.BC_SLEW, F.BC_CODE]; omega)
      exact ⟨hcode, by simp only [slewed, hcode, htarget, hlimit]⟩
    have hphase (n : Nat) : getF t (F.PHASE_INC n) = getF s (F.PHASE_INC n) :=
      hfield (by simp only [Fld.key, F.PHASE_INC, F.BC_CODE]; omega)
    have hrest' : ∀ n ∈ l, ChanRests t n := fun n hn => by
      obtain ⟨hpend, hfault, hsearch, ha⟩ := hrest n (List.mem_cons_of_mem _ hn)
      have hsame := hstep.other n fun h => hm (h ▸ hn)
      exact ⟨by rw [hsame, hpend], by rw [hsame, hfault], by rw [hsame, hsearch], (hamp n).trans ha⟩
    obtain ⟨hin, hout', hkept, honly⟩ := ih hl hrest' (hstep.out.trans hout)
    rw [each_cons, ht]
    refine ⟨fun n hn hnon => ?_, fun n hn => ?_, ?_, ?_⟩
    · rcases eq_or_ne n m with rfl | hne
      · obtain ⟨hcode, hchan⟩ := hout' n (.inl hm)
        rw [hcode, hchan]
        exact ⟨hstep.code hnon, hstep.phase hnon, hstep.driven hnon⟩
      · obtain ⟨hcode, hph, hdriven⟩ := hin n ((List.mem_cons.1 hn).resolve_left hne) ((hon _).trans hnon)
        exact ⟨hcode.trans (hslew n hne).2, by rw [hph, hstep.other n hne, hphase], hdriven⟩
    · rcases eq_or_ne n m with rfl | hne
      · obtain ⟨hcode, hchan⟩ := hout' n (.inl hm)
        have hoff := hstep.off (hn.resolve_left (by simp))
        exact ⟨hcode.trans hoff.1, hchan.trans hoff.2⟩
      · obtain ⟨hcode, hchan⟩ := hout' n (hn.imp (fun h h' => h (List.mem_cons_of_mem _ h')) (hon _).trans)
        exact ⟨hcode.trans (hslew n hne).1, hchan.trans (hstep.other n hne)⟩
    · exact fieldsKept_trans (fieldsKept_mono hstep.kept (by simp)) (fieldsKept_mono hkept (by simp +contextual))
    · rw [honly, hstep.only]

/-- A frame makes its conversions, takes the factors that wait, and goes through its channels. -/
theorem exec_modulatorFrame (codes : List (List Int)) (s : State) : exec (.modulatorFrame codes) s =
    .next (each allChans chanFrame (onlyIf (isOn (onlyIf (converting s) (convertAll codes) { s with bias := { s.bias with out := [] } }) 4)
      hkApply (onlyIf (converting s) (convertAll codes) { s with bias := { s.bias with out := [] } }))) := rfl

end Sys2Proof.Machine

namespace Sys2Proof.Certificates
open Sys2Proof Sys2Proof.Machine
open Sys2Proof.Safety (onlyFields fieldsKept)

/-- Settles O13: without conversions the frame is that of 24 channels at rest, one after another; the conversions of a frame are made
before its boundary. -/
theorem slewLimiterMovesTowardsTarget : Obligations.SlewLimiterMovesTowardsTarget := by
  refine fun s codes => ⟨fun hwait hnone hrest => ?boundary, fun hconv => ⟨_, rfl, ?conversions⟩, fun i raw hlo hhi hn1 => ?kept⟩
  case boundary =>
    have hexec : exec (.modulatorFrame codes) s = .next (each allChans chanFrame { s with bias := { s.bias with out := [] } }) := by
      have hconv : onlyIf (converting s) (convertAll codes) { s with bias := { s.bias with out := [] } } =
          { s with bias := { s.bias with out := [] } } := by
        rcases hnone with rfl | hoff
        · cases converting s <;> rfl
        · rw [hoff, onlyIf_false]
      have hfactors (c : Bool) : onlyIf c hkApply { s with bias := { s.bias with out := [] } } =
          { s with bias := { s.bias with out := [] } } := by
        cases c <;> simp [onlyIf, hkApply, hwait]
      rw [exec_modulatorFrame, hconv, hfactors]
    have hchans : ∀ n ∈ allChans, ChanRests { s with bias := { s.bias with out := [] } } n := fun n hn => by
      obtain ⟨hpend, hfault, hsearch, hamp⟩ := hrest n (List.mem_range.1 hn)
      exact ⟨hpend, hfault, hsearch, hamp⟩
    obtain ⟨hin, hout, hkept, honly⟩ := each_chanFrame_of_rest List.nodup_range hchans rfl
    exact ⟨_, hexec, fun n hn hon => hin n (List.mem_range.2 hn) hon, fun n _ hoff => hout n (.inr hoff), hkept, honly⟩
  case conversions =>
    rw [exec_modulatorFrame, hconv, onlyIf_true]
  case kept =>
    simp [convertOne, hlo.not_gt, hhi.not_gt, clampI_of_mem hlo hhi, Chain.push, hn1]

end Sys2Proof.Certificates

/-! ### Detector blocks and decimation chains (09 R245, R247, R250, R251, R253) -/
namespace Sys2Proof.Machine
open Safety (fieldsKept onlyFields)

/-! #### The results of a block -/

/-- A part of Y with what rounding adds, within the range of its register. -/
def tonePart (y d : Int) : Int := max (-32767) (min 32767 (y + d))

theorem tonePart_bounds (y d : Int) : -32768 ≤ tonePart y d ∧ tonePart y d < 32768 := by
  unfold tonePart
  omega

/-- What a block leaves in its channel: results and sequence number in the registers, the rest of the outputs taken. -/
def blockTaken (n : Nat) (i q : Int) (run : Nat) (s : State) : State :=
  setChan (addF (setS (setS s (F.TONE_I n) i) (F.TONE_Q n) q) (F.TONE_SEQ n) 1) n
    { chanAt s n with blk := (chanAt s n).blk.drop (2 ^ getF s (F.TONE_N_LOG2 n)), ovrRun := run }

section BlockTaken
variable (n : Nat) {i q : Int} (run : Nat) (s : State)

theorem blockTaken_kept : fieldsKept [F.TONE_I n, F.TONE_Q n, F.TONE_SEQ n] s (blockTaken n i q run s) := by
  simp [blockTaken]

theorem toneI_blockTaken (hi : -32768 ≤ i ∧ i < 32768) : getS (blockTaken n i q run s) (F.TONE_I n) = i := by
  have hQ : (F.TONE_I n).key ≠ (F.TONE_Q n).key := by simp only [Fld.key, F.TONE_I, F.TONE_Q]; omega
  have hS : (F.TONE_I n).key ≠ (F.TONE_SEQ n).key := by simp only [Fld.key, F.TONE_I, F.TONE_SEQ]; omega
  have hread : getS (blockTaken n i q run s) (F.TONE_I n) = getS (setS s (F.TONE_I n) i) (F.TONE_I n) :=
    (getS_setF_ne _ _ hS).trans (getS_setS_ne _ _ hQ)
  exact hread.trans (getS_setS_self s (Nat.succ_ne_zero 15) hi.1 hi.2)

theorem toneQ_blockTaken (hq : -32768 ≤ q ∧ q < 32768) : getS (blockTaken n i q run s) (F.TONE_Q n) = q := by
  have hS : (F.TONE_Q n).key ≠ (F.TONE_SEQ n).key := by simp only [Fld.key, F.TONE_Q, F.TONE_SEQ]; omega
  exact (getS_setF_ne _ _ hS).trans (getS_setS_self _ (Nat.succ_ne_zero 15) hq.1 hq.2)

theorem toneSeq_blockTaken : getF (blockTaken n i q run s) (F.TONE_SEQ n) = (getF s (F.TONE_SEQ n) + 1) % 2 ^ 16 := by
  have hI : (F.TONE_SEQ n).key ≠ (F.TONE_I n).key := by simp only [Fld.key, F.TONE_I, F.TONE_SEQ]; omega
  have hQ : (F.TONE_SEQ n).key ≠ (F.TONE_Q n).key := by simp only [Fld.key, F.TONE_Q, F.TONE_SEQ]; omega
  rw [blockTaken, getF_setChan, addF, getF_setF_self, getF_setS_ne _ _ hQ, getF_setS_ne _ _ hI]
  rfl

theorem chanAt_blockTaken : chanAt (blockTaken n i q run s) n =
    { chanAt s n with blk := (chanAt s n).blk.drop (2 ^ getF s (F.TONE_N_LOG2 n)), ovrRun := run } := chanAt_setChan_self ..

/-- The fields of a channel that a block reads after its results are written. -/
theorem getF_blockTaken_of_mem {f : Fld} (hf : f ∈ [F.BC_STATE n, F.LOOP_SIGN n, F.TONE_TARGET n, F.BC_KI n, F.BC_TARGET n]) :
    getF (blockTaken n i q run s) f = getF s f := by
  refine blockTaken_kept n run s f ?_
  revert f
  simp only [List.forall_mem_cons, List.not_mem_nil, false_imp_iff, implies_true, and_true, Fld.key, F.BC_STATE, F.LOOP_SIGN, F.TONE_TARGET, F.BC_KI,
    F.BC_TARGET, F.TONE_I, F.TONE_Q, F.TONE_SEQ]
  omega

theorem blockTaken_only : blockTaken n i q run s =
    { s with regs := (blockTaken n i q run s).regs, bias := (blockTaken n i q run s).bias } := rfl

end BlockTaken

/-- A block that is complete: what follows its results. -/
theorem toneBlock_of_taken {s : State} {n : Nat} {i q : Int} (hlen : 2 ^ getF s (F.TONE_N_LOG2 n) ≤ (chanAt s n).blk.length) :
    let xs := (chanAt s n).blk.take (2 ^ getF s (F.TONE_N_LOG2 n))
    let y := toneY s n xs
    let ovr := xs.any (·.2.2)
    let run := if ovr then (chanAt s n).ovrRun + 1 else 0
    let u := blockTaken n (tonePart y.1 i) (tonePart y.2 q) run s
    toneBlock n i q s =
      if ovr then (if 4 ≤ run ∧ chanActive u n then loopFault n 2 u else u)
      else if getF u (F.BC_STATE n) = 3 then integrate n u
      else match (chanAt s n).search with
        | some q => searchBlock n q u
        | none => u := by
  simp only [toneBlock, if_neg hlen.not_gt, clampI_eq_max_min (show (-32767 : Int) ≤ 32767 by decide), tonePart, blockTaken]
  rfl

/-! #### The integrator (R253) -/

theorem limitP_bounds (p : Int) : -(32767 * 2 ^ 16) ≤ limitP p ∧ limitP p ≤ 32767 * 2 ^ 16 := by
  rw [limitP, clampI_eq_max_min (by decide)]
  omega

/-- The code of a limited P is within 16 bits. -/
theorem rdiv_limitP_bounds (p : Int) : -32768 ≤ rdiv (limitP p) 65536 ∧ rdiv (limitP p) 65536 < 32768 := by
  have hp := limitP_bounds p
  unfold rdiv
  split <;> omega

/-- The P that the integrator takes from a block. -/
def nextP (n : Nat) (u : State) : Int :=
  limitP ((chanAt u n).p + sigma u n * (getS u (F.TONE_I n) - getS u (F.TONE_TARGET n)) * 2 ^ (16 - getF u (F.BC_KI n)))

/-- The integrator's update, while P has not stayed at its limit for 64 blocks. -/
theorem integrate_of_rail {u : State} {n : Nat} (hrail : (chanAt u n).rail < 63) :
    ∃ rail, integrate n u = setChan (setS u (F.BC_TARGET n) (rdiv (nextP n u) 65536)) n { chanAt u n with p := nextP n u, rail := rail } :=
  ⟨if nextP n u = 32767 * 2 ^ 16 ∨ nextP n u = -(32767 * 2 ^ 16) then (chanAt u n).rail + 1 else 0,
    if_neg (by split <;> omega)⟩

/-! #### Restarts of chains and of blocks (R245, R247) -/

@[simp] theorem chanAt_setChain (s : State) (i n : Nat) (x : Chain) : chanAt (setChain s i x) n = chanAt s n := rfl

/-- An update of channels alone. -/
def ChannelsOnly (s t : State) : Prop := t = { s with bias := { s.bias with ch := t.bias.ch } }

theorem channelsOnly_dropBlocks (l : List Nat) (s : State) : ChannelsOnly s (each l (fun s n => dropBlock n s) s) := by
  induction l generalizing s with
  | nil => rfl
  | cons n l ih =>
    have h := ih (dropBlock n s)
    unfold ChannelsOnly at h ⊢
    rw [each_cons, h]
    rfl

/-- After every block of a list of channels is discarded, none of them has outputs taken. -/
theorem blk_dropBlocks {l : List Nat} {s : State} {n : Nat} (h : n ∈ l ∨ (chanAt s n).blk = []) :
    (chanAt (each l (fun s n => dropBlock n s) s) n).blk = [] := by
  induction l generalizing s with
  | nil => exact h.resolve_left List.not_mem_nil
  | cons m l ih =>
    rw [each_cons]
    refine ih ?_
    rcases eq_or_ne n m with rfl | hne
    · exact .inr (by simp [dropBlock])
    · refine h.imp (fun hm => (List.mem_cons.1 hm).resolve_left hne) fun hblk => ?_
      rw [dropBlock, chanAt_setChan_ne _ _ hne, hblk]

end Sys2Proof.Machine

namespace Sys2Proof.Certificates
open Sys2Proof Sys2Proof.Machine
open Sys2Proof.Safety (onlyFields fieldsKept)

/-- Settles O14: a complete block takes its outputs and writes its results together; what follows is the row of R253, R250 or R254
that its channel is in. A chain restarts where its input changes, and CAL_START discards every block. -/
theorem detectorBlocksAndChainsFollowTheirRules : Obligations.DetectorBlocksAndChainsFollowTheirRules := by
  refine ⟨fun ch i q s hconv hline => ?blocks, fun slot v s => ⟨fun hon hslot hinput => ?restart, fun hnone => ?ignored⟩,
    fun s => ⟨fun hline hidle hmgmt href hvref => ?calStart, fun hbusy => ?calBusy⟩⟩
  case blocks =>
    have hexec : exec (.toneBlockEnd ch i q) s = .next (toneBlock ch.val i q s) := congrArg Host.Outcome.next (if_pos (by simp [hconv, hline]))
    intro x len y hit i' q'
    obtain ⟨run, hrun⟩ : ∃ run, run = if hit then x.ovrRun + 1 else 0 := ⟨_, rfl⟩
    obtain ⟨u, hu⟩ : ∃ u, u = blockTaken ch.val i' q' run s := ⟨_, rfl⟩
    have htaken (hlen : len ≤ x.blk.length) : toneBlock ch.val i q s =
        if hit then (if 4 ≤ run ∧ chanActive u ch.val then loopFault ch.val 2 u else u)
        else if getF u (F.BC_STATE ch.val) = 3 then integrate ch.val u
        else match x.search with
          | some q => searchBlock ch.val q u
          | none => u := by
      rw [hu, hrun]
      exact toneBlock_of_taken hlen
    have hi : getS u (F.TONE_I ch.val) = i' := hu ▸ toneI_blockTaken _ _ _ (tonePart_bounds y.1 i)
    have hq : getS u (F.TONE_Q ch.val) = q' := hu ▸ toneQ_blockTaken _ _ _ (tonePart_bounds y.2 q)
    have hseq : getF u (F.TONE_SEQ ch.val) = (getF s (F.TONE_SEQ ch.val) + 1) % 2 ^ 16 := hu ▸ toneSeq_blockTaken ..
    have hchan : chanAt u ch.val = { x with blk := x.blk.drop len, ovrRun := run } := hu ▸ chanAt_blockTaken ..
    have hkept : fieldsKept [F.TONE_I ch.val, F.TONE_Q ch.val, F.TONE_SEQ ch.val] s u := hu ▸ blockTaken_kept _ run s
    have honly : u = { s with regs := u.regs, bias := u.bias } := hu ▸ blockTaken_only ..
    have hsame {f : Fld} (hf : f ∈ [F.BC_STATE ch.val, F.LOOP_SIGN ch.val, F.TONE_TARGET ch.val, F.BC_KI ch.val, F.BC_TARGET ch.val]) :
        getF u f = getF s f := hu ▸ getF_blockTaken_of_mem _ _ _ hf
    have hbc : getF u (F.BC_STATE ch.val) = getF s (F.BC_STATE ch.val) := hsame (by simp)
    refine ⟨fun hlen hstate hhit hrail => ?loop, fun hlen hstate hhit hsearch => ?rest, fun hlen hstate hhit hovr => ?overRange, fun hshort => ?short⟩
    case loop =>
      obtain ⟨rail, hint⟩ := integrate_of_rail (u := u) (n := ch.val) (by rw [hchan]; exact hrail)
      have hP : nextP ch.val u = limitP (x.p + sigma s ch.val * (i' - getS s (F.TONE_TARGET ch.val)) * 2 ^ (16 - getF s (F.BC_KI ch.val))) := by
        have hsign : getF u (F.LOOP_SIGN ch.val) = getF s (F.LOOP_SIGN ch.val) := hsame (by simp)
        have htarget : getF u (F.TONE_TARGET ch.val) = getF s (F.TONE_TARGET ch.val) := hsame (by simp)
        have hki : getF u (F.BC_KI ch.val) = getF s (F.BC_KI ch.val) := hsame (by simp)
        rw [nextP, hchan, hi, sigma, getB, hsign, getS, htarget, hki]
        rfl
      have hnext : toneBlock ch.val i q s = integrate ch.val u :=
        (htaken hlen).trans ((if_neg (by simp [hhit])).trans (if_pos (hbc.trans hstate)))
      have hTI : (F.TONE_I ch.val).key ≠ (F.BC_TARGET ch.val).key := by simp only [Fld.key, F.BC_TARGET, F.TONE_I]; omega
      have hTQ : (F.TONE_Q ch.val).key ≠ (F.BC_TARGET ch.val).key := by simp only [Fld.key, F.BC_TARGET, F.TONE_Q]; omega
      have hTS : (F.TONE_SEQ ch.val).key ≠ (F.BC_TARGET ch.val).key := by simp only [Fld.key, F.BC_TARGET, F.TONE_SEQ]; omega
      refine ⟨integrate ch.val u, hexec.trans (congrArg Host.Outcome.next hnext), ?_⟩
      rw [hint, ← hP]
      refine ⟨(getS_setS_ne u _ hTI).trans hi, (getS_setS_ne u _ hTQ).trans hq,
        (getF_setS_ne u _ hTS).trans hseq, ?_, ?_, ?_, ?_, ?_⟩
      · rw [chanAt_setChan_self, hchan]
      · rw [chanAt_setChan_self]
      · rw [chanAt_setChan_self]
        exact getS_setS_self u (Nat.succ_ne_zero 15) (rdiv_limitP_bounds _).1 (rdiv_limitP_bounds _).2
      · exact (fieldsKept_setS (by simp)).2 (fieldsKept_mono hkept (by simp))
      · rw [honly]
        rfl
    case rest =>
      have hnext : toneBlock ch.val i q s = u := by
        rw [htaken hlen, if_neg (by simp [hhit]), if_neg (by omega), hsearch]
      exact ⟨u, hexec.trans (congrArg Host.Outcome.next hnext), hi, hq, hseq, hkept, honly⟩
    case overRange =>
      have hrun' : run < 4 := by rw [hrun, if_pos hhit]; omega
      have hnext : toneBlock ch.val i q s = u := by rw [htaken hlen, if_pos hhit, if_neg (by omega)]
      refine ⟨u, hexec.trans (congrArg Host.Outcome.next hnext), by rw [hchan], ?_, by rw [hchan]⟩
      rw [codeT, codeT, getS, hsame (by simp), getS]
    case short => exact hexec.trans (congrArg Host.Outcome.next (if_pos hshort))
  case restart =>
    have hnext : hkSlotWrite slot.val v.toNat s = restartChain slot.val (setF s (F.HK_INPUT slot.val) v.toNat) := by
      rw [hkSlotWrite, if_neg (by simp [hon, hslot]), if_neg hinput]
    obtain ⟨l, u, hl, hu⟩ : ∃ l u, restartChain slot.val (setF s (F.HK_INPUT slot.val) v.toNat) = each l (fun s n => dropBlock n s) u ∧
        u = setChain (setF s (F.HK_INPUT slot.val) v.toNat) slot.val Chain.blank := ⟨_, _, rfl, rfl⟩
    have hdrop := channelsOnly_dropBlocks l u
    refine ⟨_, congrArg Host.Outcome.next (hnext.trans (hl.trans hdrop)), ?_, ?_, ?_, ?_⟩
    · rw [hu]
      exact getF_setF_self s ..
    · rw [hu]
      exact (chainAt_setChain_self (setF s (F.HK_INPUT slot.val) v.toNat) slot.val Chain.blank :)
    · rw [hu]
      exact (fieldsKept_setF (by simp)).2 fieldsKept_refl
    · rw [hu]
      rfl
  case ignored =>
    rcases hnone with hoff | h31 | hsame
    · exact congrArg Host.Outcome.next (if_pos (by simp [hoff]))
    · exact congrArg Host.Outcome.next (if_pos (by simp [h31]))
    · exact congrArg Host.Outcome.next ((congrArg _ (if_pos hsame)).trans (ite_self s))
  case calStart =>
    have hnext : calStart s = each allChans (fun s n => dropBlock n s) (keepTemp 2 (setB s F.HK_CAL_BUSY true)) :=
      if_neg (by simp [hline, hidle, hmgmt, href, hvref])
    obtain ⟨u, hu⟩ : ∃ u, u = keepTemp 2 (setB s F.HK_CAL_BUSY true) := ⟨_, rfl⟩
    rw [← hu] at hnext
    have hdrop := channelsOnly_dropBlocks allChans u
    refine ⟨each allChans (fun s n => dropBlock n s) u, congrArg Host.Outcome.next hnext, ?_, fun n hn => blk_dropBlocks (.inl (List.mem_range.2 hn)), ?_⟩
    · have hregs : (each allChans (fun s n => dropBlock n s) u).regs = (setB s F.HK_CAL_BUSY true).regs := by rw [hdrop, hu]; rfl
      rw [getB, getF_of_regs hregs]
      exact getB_setB_self s F.HK_CAL_BUSY true Nat.one_ne_zero
    · have hrest : { each allChans (fun s n => dropBlock n s) u with bias := s.bias, cal := s.cal } = setB s F.HK_CAL_BUSY true := by
        rw [hdrop, hu]
        rfl
      rw [hrest]
      exact onlyFields_setB (List.mem_singleton_self _)
  case calBusy => exact congrArg Host.Outcome.next (if_pos (by simp [hbusy]))

end Sys2Proof.Certificates

/-! ### Lasers and the transmit machine (03 R99-R102; 10 R276-R279) -/
namespace Sys2Proof.Machine
open Safety (fieldsKept onlyFields)

/-! #### Lasers -/

/-- An update of the lasers alone. -/
def LasersOnly (s t : State) : Prop := t = { s with lp := { s.lp with laser := t.lp.laser } }

theorem LasersOnly.refl (s : State) : LasersOnly s s := rfl

theorem LasersOnly.trans {s t u : State} (hst : LasersOnly s t) (htu : LasersOnly t u) : LasersOnly s u := by
  unfold LasersOnly at hst htu ⊢
  rw [htu, hst]

theorem LasersOnly.regs {s t : State} (h : LasersOnly s t) : t.regs = s.regs := by rw [h]

theorem LasersOnly.getF {s t : State} (h : LasersOnly s t) (f : Fld) : getF t f = getF s f := getF_of_regs h.regs f

theorem LasersOnly.lp {s t : State} (h : LasersOnly s t) : t = { s with lp := t.lp } := by rw [h]

theorem laserAt_setLaser_self (s : State) (c l : Nat) (x : LaserSt) : laserAt (setLaser s c l x) c l = x := tget_tset_self ..

theorem laserAt_setLaser_ne (s : State) {c l c' l' : Nat} (x : LaserSt) (h : laserKey c' l' ≠ laserKey c l) :
    laserAt (setLaser s c l x) c' l' = laserAt s c' l' := tget_tset_ne _ x _ _ h

theorem laserSend_of_enabled {s : State} {c : Nat} (h : getB s (F.PORT_EN c) = true) (l cmd arg : Nat) :
    laserSend s c l cmd arg = setLaser s c l { laserAt s c l with sent := (laserFrame cmd arg :: (laserAt s c l).sent).take 8 } :=
  if_neg (by simp [h])

theorem lasersOnly_setLaser (s : State) (c l : Nat) (x : LaserSt) : LasersOnly s (setLaser s c l x) := rfl

theorem lasersOnly_laserSend (s : State) (c l cmd arg : Nat) : LasersOnly s (laserSend s c l cmd arg) := by
  unfold laserSend
  split
  · exact rfl
  · exact lasersOnly_setLaser ..

/-- The newest frame of a laser is the one that was sent. -/
theorem sent_laserSend {s : State} {c : Nat} (h : getB s (F.PORT_EN c) = true) (l cmd arg : Nat) :
    (laserAt (laserSend s c l cmd arg) c l).sent = (laserFrame cmd arg :: (laserAt s c l).sent).take 8 := by
  rw [laserSend_of_enabled h, laserAt_setLaser_self]

theorem laserAt_laserSend_ne (s : State) {c l l' : Nat} (h : l' ≠ l) (cmd arg : Nat) :
    laserAt (laserSend s c l cmd arg) c l' = laserAt s c l' := by
  unfold laserSend
  split
  · rfl
  · exact laserAt_setLaser_ne _ _ (by unfold laserKey; omega)

theorem lasersOnly_laserOff (s : State) (c l : Nat) : LasersOnly s (laserOff s c l) :=
  (lasersOnly_laserSend s c l 4 0).trans (lasersOnly_setLaser ..)

theorem on_laserOff (s : State) (c l : Nat) : (laserAt (laserOff s c l) c l).on = false := by rw [laserOff, laserAt_setLaser_self]

theorem sent_laserOff {s : State} {c : Nat} (h : getB s (F.PORT_EN c) = true) (l : Nat) :
    (laserAt (laserOff s c l) c l).sent = (laserFrame 4 0 :: (laserAt s c l).sent).take 8 := by
  rw [laserOff, laserAt_setLaser_self]
  exact sent_laserSend h l 4 0

theorem laserAt_laserOff_ne (s : State) {c l l' : Nat} (h : l' ≠ l) : laserAt (laserOff s c l) c l' = laserAt s c l' := by
  rw [laserOff, laserAt_setLaser_ne _ _ (by unfold laserKey; omega), laserAt_laserSend_ne s h]

/-- OUTPUT on is refused without limits and on a stopped carrier. -/
theorem laserAllowed_output (s : State) (c l : Nat) : laserAllowed s c l 4 1 = !(limitsBlank s c || s.lp.stopped.contains c) := by
  simp [laserAllowed]

section LaserOn
variable {s : State} {c l : Nat} (hallowed : laserAllowed s c l 4 1 = true) (hport : getB s (F.PORT_EN c) = true)
include hallowed hport

theorem laserOn_of_allowed : laserOn s c l =
    setLaser (laserSend s c l 4 1) c l { laserAt (laserSend s c l 4 1) c l with on := true } := by
  rw [laserOn, if_neg (by simp [hallowed]), if_pos hport]

theorem lasersOnly_laserOn : LasersOnly s (laserOn s c l) := by
  rw [laserOn_of_allowed hallowed hport]
  exact (lasersOnly_laserSend s c l 4 1).trans (lasersOnly_setLaser ..)

theorem on_laserOn : (laserAt (laserOn s c l) c l).on = true := by
  rw [laserOn_of_allowed hallowed hport, laserAt_setLaser_self]

theorem sent_laserOn : (laserAt (laserOn s c l) c l).sent = (laserFrame 4 1 :: (laserAt s c l).sent).take 8 := by
  rw [laserOn_of_allowed hallowed hport, laserAt_setLaser_self]
  exact sent_laserSend hport l 4 1

end LaserOn

/-! #### The wait timer leaves the register file -/

@[simp] theorem getF_txTimerOn (s : State) (c : Nat) (f : Fld) : getF (txTimerOn s c) f = getF s f := rfl
@[simp] theorem getB_txTimerOn (s : State) (c : Nat) (f : Fld) : getB (txTimerOn s c) f = getB s f := rfl
@[simp] theorem getF_txTimerOff (s : State) (c : Nat) (f : Fld) : getF (txTimerOff s c) f = getF s f := rfl
@[simp] theorem getB_txTimerOff (s : State) (c : Nat) (f : Fld) : getB (txTimerOff s c) f = getB s f := rfl
@[simp] theorem fieldsKept_txTimerOn {fs : List Fld} {s t : State} {c : Nat} : fieldsKept fs s (txTimerOn t c) ↔ fieldsKept fs s t := Iff.rfl
@[simp] theorem fieldsKept_txTimerOff {fs : List Fld} {s t : State} {c : Nat} : fieldsKept fs s (txTimerOff t c) ↔ fieldsKept fs s t := Iff.rfl

end Sys2Proof.Machine

namespace Sys2Proof.Certificates
open Sys2Proof Sys2Proof.Machine
open Sys2Proof.Safety (onlyFields fieldsKept)

/-- Settles O15: each row of R100 for a write of TX_ENABLE. -/
theorem transmitEnableFollowsItsRows : Obligations.TransmitEnableFollowsItsRows := by
  intro c s
  refine ⟨fun hon => ?_, fun on hoff => congrArg Host.Outcome.next (if_pos (by simp [hoff]))⟩
  have hwrite : writeTxEnable c.val false s =
      let t := setB s (F.TX_ENABLE c.val) false
      if getF s (F.TX_STATE c.val) = 1 then setF (txTimerOff t c.val) (F.TX_STATE c.val) 0
      else if getF s (F.TX_STATE c.val) = 2 ∨ getF s (F.TX_STATE c.val) = 3 then
        setF (txTimerOff (laserOff t c.val 0) c.val) (F.TX_STATE c.val) 0
      else if getF s (F.TX_STATE c.val) = 4 ∧ !graveLocked t then setF t (F.TX_STATE c.val) 0
      else t := by
    rw [writeTxEnable, if_neg (by simp [hon]), if_neg Bool.false_ne_true]
  have hgraveKept : graveLocked (setB s (F.TX_ENABLE c.val) false) = getB s F.GRAVE_LOCK := getB_setB_ne s _ (by clear * -; decide +revert)
  refine ⟨fun hstate hgrave hhot => ?_, fun hstate => ?_, fun hstate => ?_, fun hstate hgrave => ?_, fun hstate hgrave => ?_⟩
  · have hopen : (!(c.val == 0 && getB s F.HOT)) = true := by
      by_cases h0 : c = 0
      · simp [hhot h0]
      · simp [Fin.val_eq_zero_iff, h0]
    have hnext : writeTxEnable c.val true s = setF (txTimerOn (setB s (F.TX_ENABLE c.val) true) c.val) (F.TX_STATE c.val) 1 := by
      rw [writeTxEnable, if_neg (by simp [hon]), if_pos rfl]
      exact if_pos ⟨hstate, by simp [graveLocked, hgrave], hopen⟩
    refine ⟨_, congrArg Host.Outcome.next hnext, getF_setF_of_lt _ (Nat.one_lt_two_pow (by clear * -; decide +revert)), ?_, ?_, by simp, rfl⟩
    · simp (disch := (clear * -; decide +revert)) only [getB_setF_ne, getB_txTimerOn, getB_setB_self]
    · exact (getF_setB_ne s (f := F.TX_ENABLE c.val) (g := F.TX_ENABLE_TIMEOUT c.val) true (by clear * -; decide +revert)) ▸ tfind_tput_self ..
  · refine ⟨_, congrArg Host.Outcome.next (hwrite.trans (if_pos hstate)), getF_setF_of_lt _ (Nat.two_pow_pos _), ?_, tfind_tdel_self .., by simp, rfl⟩
    simp (disch := (clear * -; decide +revert)) only [getB_setF_ne, getB_txTimerOff, getB_setB_self]
  · obtain ⟨u, hu⟩ : ∃ u, u = laserOff (setB s (F.TX_ENABLE c.val) false) c.val 0 := ⟨_, rfl⟩
    have honly : LasersOnly (setB s (F.TX_ENABLE c.val) false) u := hu ▸ lasersOnly_laserOff ..
    have hnext : writeTxEnable c.val false s = setF (txTimerOff u c.val) (F.TX_STATE c.val) 0 := by
      rw [hwrite, if_neg (by omega), if_pos hstate, hu]
    refine ⟨_, congrArg Host.Outcome.next hnext, getF_setF_of_lt _ (Nat.two_pow_pos _), ?_, ?_, fun hport => ?_, ?_, ?_⟩
    · simp (disch := (clear * -; decide +revert)) only [getB_setF_ne, getB_txTimerOff, getB_of_regs honly.regs, getB_setB_self]
    · exact (congrArg (fun u : State => (laserAt u c.val 0).on) hu).trans (on_laserOff ..)
    · have hsent := sent_laserOff ((getB_setB_ne s (f := F.TX_ENABLE c.val) false (by clear * -; decide +revert)).trans hport) 0
      rw [← hu] at hsent
      exact (congrArg List.head? hsent).trans rfl
    · exact (fieldsKept_setF (by simp)).2 (fieldsKept_of_regs honly.regs (by simp))
    · rw [honly]
      rfl
  · have hnext : writeTxEnable c.val false s = setF (setB s (F.TX_ENABLE c.val) false) (F.TX_STATE c.val) 0 := by
      rw [hwrite, if_neg (by omega), if_neg (by omega), if_pos ⟨hstate, by rw [hgraveKept, hgrave]; rfl⟩]
    exact ⟨_, congrArg Host.Outcome.next hnext, getF_setF_of_lt _ (Nat.two_pow_pos _), onlyFields_of (by simp) rfl⟩
  · have hnext : writeTxEnable c.val false s = setB s (F.TX_ENABLE c.val) false := by
      rw [hwrite, if_neg (by omega), if_neg (by omega), if_neg (by rw [hgraveKept, hgrave]; simp)]
    exact ⟨_, congrArg Host.Outcome.next hnext, (getF_setB_ne s _ (by clear * -; decide +revert)).trans hstate, onlyFields_setB (by simp)⟩

/-- Settles O16: each row of R100 for the locks and the time limit. -/
theorem transmitLocksAndTimeLimitFollowTheirRows : Obligations.TransmitLocksAndTimeLimitFollowTheirRows := by
  intro c s hon
  have hlock (synth : Bool) : exec (.txLockLost c synth) s =
      .next (txUnlock c.val (setB s (if synth then F.SYNTH_LOCK c.val else F.LASER_LOCK c.val) false)) :=
    congrArg Host.Outcome.next (if_pos hon)
  have hstate' (synth : Bool) : getF (setB s (if synth then F.SYNTH_LOCK c.val else F.LASER_LOCK c.val) false) (F.TX_STATE c.val) =
      getF s (F.TX_STATE c.val) := getF_setB_ne s _ (by clear * -; decide +revert)
  have hlost (synth : Bool) {u : State} (hregs : u.regs = (setB s (if synth then F.SYNTH_LOCK c.val else F.LASER_LOCK c.val) false).regs) :
      getB (setF u (F.TX_STATE c.val) 1) (if synth then F.SYNTH_LOCK c.val else F.LASER_LOCK c.val) = false := by
    rw [getB_setF_ne _ _ (by clear * -; decide +revert), getB_of_regs hregs]
    exact getB_setB_self s _ _ (by clear * -; decide +revert)
  refine ⟨fun hstate hlaser hcal hallowed hport => ?present, fun synth hstate => ?starting, fun synth hstate => ?on, fun hstate htimer => ?timeout⟩
  case present =>
    obtain ⟨t, ht⟩ : ∃ t, t = setB s (F.SYNTH_LOCK c.val) true := ⟨_, rfl⟩
    have hkept : fieldsKept [F.SYNTH_LOCK c.val] s t := by simp [ht]
    have hport' : getB t (F.PORT_EN c.val) = true := by
      rw [ht, getB_setB_ne s _ (by clear * -; decide +revert), hport]
    have hallowed' : laserAllowed t c.val 0 4 1 = true := by
      rw [laserAllowed_output] at hallowed ⊢
      rw [ht]
      exact hallowed
    have hconds : getF t (F.TX_STATE c.val) = 1 ∧ getB t (F.LASER_LOCK c.val) = true ∧ (!getB t (F.TX_FG_CAL c.val)) = true := by
      simp (disch := (clear * -; decide +revert)) only [ht, getF_setB_ne, getB_setB_ne, hstate, hlaser, hcal, Bool.not_false, and_self]
    have hnext : exec (.txLocksPresent c) s = .next (setF (laserOn t c.val 0) (F.TX_STATE c.val) 2) :=
      congrArg Host.Outcome.next ((if_pos hon).trans (ht ▸ if_pos hconds))
    obtain ⟨u, hu⟩ : ∃ u, u = laserOn t c.val 0 := ⟨_, rfl⟩
    have honly : LasersOnly t u := hu ▸ lasersOnly_laserOn hallowed' hport'
    have hson : (laserAt u c.val 0).on = true := hu ▸ on_laserOn hallowed' hport'
    have hsent : (laserAt u c.val 0).sent.head? = some (laserFrame 4 1) := by
      rw [hu, sent_laserOn hallowed' hport']
      rfl
    rw [← hu] at hnext
    refine ⟨_, hnext, getF_setF_of_lt u (by clear * -; decide +revert), hson, hsent, ?_, ?_, ?_⟩
    · rw [getB_setF_ne _ _ (by clear * -; decide +revert), getB_of_regs honly.regs, ht]
      exact getB_setB_self s _ _ (by clear * -; decide +revert)
    · exact (fieldsKept_setF (by simp)).2 (fieldsKept_of_regs honly.regs (fieldsKept_mono hkept (by simp)))
    · rw [honly, ht]
      rfl
  case starting =>
    obtain ⟨u, hu⟩ : ∃ u, u = laserOff (setB s (if synth then F.SYNTH_LOCK c.val else F.LASER_LOCK c.val) false) c.val 0 := ⟨_, rfl⟩
    have honly := hu ▸ lasersOnly_laserOff (setB s (if synth then F.SYNTH_LOCK c.val else F.LASER_LOCK c.val) false) c.val 0
    have hnext := (hlock synth).trans (congrArg Host.Outcome.next (if_pos ((hstate' synth).trans hstate)))
    rw [← hu] at hnext
    refine ⟨_, hnext, getF_setF_of_lt _ (Nat.one_lt_two_pow (by clear * -; decide +revert)), ?_, ?_, hlost synth honly.regs, ?_, ?_⟩
    · exact (congrArg (fun u : State => (laserAt u c.val 0).on) hu).trans (on_laserOff ..)
    · rw [honly]
      rfl
    · exact (fieldsKept_setF (by simp)).2 (fieldsKept_of_regs honly.regs (by simp))
    · rw [honly]
      rfl
  case on =>
    obtain ⟨u, hu⟩ : ∃ u, u = laserOff (setB s (if synth then F.SYNTH_LOCK c.val else F.LASER_LOCK c.val) false) c.val 0 := ⟨_, rfl⟩
    have honly := hu ▸ lasersOnly_laserOff (setB s (if synth then F.SYNTH_LOCK c.val else F.LASER_LOCK c.val) false) c.val 0
    have hnext : exec (.txLockLost c synth) s = .next (detect (.tx c) 2 0 (setF (txTimerOn u c.val) (F.TX_STATE c.val) 1)) := by
      have hcarrier : (if c.val = 0 then 0 else 1 : Fin 2) = c := by clear * -; decide +revert
      rw [hlock synth, txUnlock, hstate' synth, if_neg (by omega), if_pos hstate, hcarrier, ← hu]
    have htime : getF u (F.TX_ENABLE_TIMEOUT c.val) = getF s (F.TX_ENABLE_TIMEOUT c.val) :=
      (getF_of_regs honly.regs _).trans (getF_setB_ne s _ (by clear * -; decide +revert))
    refine ⟨_, hnext, getF_setF_of_lt _ (by clear * -; decide +revert), ?_, htime ▸ tfind_tput_self .., ?_, ?_⟩
    · exact (congrArg (fun u : State => (laserAt u c.val 0).on) hu).trans (on_laserOff ..)
    · exact (fieldsKept_setF (by simp)).2 (fieldsKept_of_regs honly.regs (by simp))
    · rw [honly]
      rfl
  case timeout =>
    obtain ⟨u, hu⟩ : ∃ u, u = onlyIf (getF s (F.TX_STATE c.val) == 2) (fun s => laserOff s c.val 0) s := ⟨_, rfl⟩
    have honly : LasersOnly s u := by
      rw [hu, onlyIf]
      split
      · exact lasersOnly_laserOff ..
      · exact rfl
    have hnext : exec (.txTimeout c) s = .next (detect (.tx c) 1 0
        (setFs (txTimerOff u c.val) [(F.TX_ENABLE c.val, 0), (F.TX_STATE c.val, 0)])) :=
      congrArg Host.Outcome.next (hu ▸ if_pos ⟨hstate, htimer⟩)
    refine ⟨_, hnext, getF_setF_of_lt _ (Nat.two_pow_pos _), ?_, tfind_tdel_self .., fun h2 => ?_, ?_, ?_⟩
    · rw [setFs_cons, setFs_cons, setFs_nil, getB_setF_ne _ _ (by clear * -; decide +revert)]
      exact getB_setB_self _ _ false (by clear * -; decide +revert)
    · exact (congrArg (fun u : State => (laserAt u c.val 0).on) (hu.trans (by rw [h2]; rfl))).trans (on_laserOff ..)
    · exact fieldsKept_setFs (by simp) (fieldsKept_of_regs honly.regs fieldsKept_refl)
    · rw [honly]
      rfl

end Sys2Proof.Certificates

/-! ### Checked laser commands and register writes (10 R276-R279) -/
namespace Sys2Proof.Machine
open Safety (fieldsKept onlyFields)

/-- What a command's check reads of the state. -/
theorem laserAllowed_congr {s t : State} {c l : Nat} (hsec : t.sec = s.sec) (hstop : t.lp.stopped = s.lp.stopped)
    (hchan : getF t (channelF c l) = getF s (channelF c l)) (cmd arg : Nat) : laserAllowed t c l cmd arg = laserAllowed s c l cmd arg := by
  have hlimit (i : Nat) : limitOf t c i = limitOf s c i := by
    rw [limitOf, limitsLost, fuseBad, fuseBad, fuseBad, limitField, fuseAt, hsec]
    rfl
  have hblank : limitsBlank t c = limitsBlank s c := by simp only [limitsBlank, hlimit]
  simp only [laserAllowed, hlimit, hblank, hstop, getS, hchan]
  rfl

theorem portEn_key_ne_laserField (c c' l cmd : Nat) : (F.PORT_EN c).key ≠ (laserField c' l cmd).key := by
  unfold laserField channelF fineF powerF
  split_ifs <;> simp only [Fld.key, F.PORT_EN, F.TX_CHANNEL, F.LO_CHANNEL, F.TX_FINE, F.LO_FINE, F.TX_POWER, F.LO_POWER] <;> omega

theorem laserField_width (c l cmd : Nat) : (laserField c l cmd).width = 16 := by
  unfold laserField channelF fineF powerF
  split_ifs <;> rfl

section Stored
variable {s : State} {c l cmd v : Nat} (hport : getB s (F.PORT_EN c) = true)

/-- A setting that is stored and sent. -/
def laserStored (c l cmd v : Nat) (s : State) : State := laserSend (setF s (laserField c l cmd) v) c l cmd v

theorem lasersOnly_laserStored : LasersOnly (setF s (laserField c l cmd) v) (laserStored c l cmd v s) := lasersOnly_laserSend ..

theorem getF_laserStored_self (hv : v < 2 ^ 16) : getF (laserStored c l cmd v s) (laserField c l cmd) = v := by
  rw [lasersOnly_laserStored.getF]
  exact getF_setF_of_lt s (by rw [laserField_width]; exact hv)

theorem getF_laserStored_ne {f : Fld} (h : f.key ≠ (laserField c l cmd).key) : getF (laserStored c l cmd v s) f = getF s f := by
  rw [lasersOnly_laserStored.getF, getF_setF_ne s _ h]

include hport in
theorem sent_laserStored : (laserAt (laserStored c l cmd v s) c l).sent.head? = some (laserFrame cmd v) := by
  have hport' : getB (setF s (laserField c l cmd) v) (F.PORT_EN c) = true :=
    (getB_setF_ne s _ (portEn_key_ne_laserField _ _ _ _)).trans hport
  rw [laserStored, sent_laserSend hport']
  rfl

theorem laserAt_laserStored_ne {l' : Nat} (h : l' ≠ l) : laserAt (laserStored c l cmd v s) c l' = laserAt s c l' :=
  laserAt_laserSend_ne (setF s (laserField c l cmd) v) h cmd v

theorem laserStored_kept : fieldsKept [laserField c l cmd] s (laserStored c l cmd v s) :=
  fieldsKept_of_regs lasersOnly_laserStored.regs (by simp)

theorem laserStored_only : laserStored c l cmd v s = { s with regs := (laserStored c l cmd v s).regs, lp := (laserStored c l cmd v s).lp } := by
  rw [lasersOnly_laserStored (s := s) (c := c) (l := l) (cmd := cmd) (v := v)]
  rfl

end Stored

/-- A setting that passes is stored and sent; SET_CHANNEL has its own effect on a transmitting carrier. -/
theorem laserSet_of_allowed {s : State} {c l cmd v : Nat} (hallowed : laserAllowed s c l cmd v = true) :
    laserSet c l cmd v s = onlyIf (cmd == 1) (chLockClear c l) (laserStored c l cmd v s) := if_pos hallowed

/-- SET_CHANNEL while TX_STATE is OFF. -/
theorem chLockClear_of_off {s : State} {c l : Nat} (hoff : getF s (F.TX_STATE c) = 0) : chLockClear c l s = s := by
  rw [chLockClear, hoff]
  exact if_neg (by omega)

theorem laserSet_of_refused {s : State} {c l cmd v : Nat} (h : laserAllowed s c l cmd v = false) :
    laserSet c l cmd v s = detect .lp 0 c (setF s (F.REFUSED_CMD c) cmd) := if_neg (by simp [h])

/-- The channel check of R278. -/
theorem laserAllowed_channel (s : State) (c l v : Nat) : laserAllowed s c l 1 v = true ↔
    limitsBlank s c = false ∧ limitOf s c 0 ≤ toS 16 v ∧ toS 16 v ≤ limitOf s c 1 := by
  simp [laserAllowed, and_assoc]

/-! #### PORT_EN (R277, R279) -/

/-- A stored setting that passes goes out as it is. -/
theorem laserResend_of_allowed {s : State} {c l cmd : Nat} (h : laserAllowed s c l cmd (getF s (laserField c l cmd)) = true) :
    laserResend c l cmd s = laserSend s c l cmd (getF s (laserField c l cmd)) := if_pos h

/-- The three settings of a laser go out, and nothing else changes. -/
structure SettingsSent (c l : Nat) (s t : State) : Prop where
  only : LasersOnly s t
  on : (laserAt t c l).on = (laserAt s c l).on
  sent : (laserAt t c l).sent.take 4 = [laserFrame 3 (getF s (laserField c l 3)), laserFrame 2 (getF s (laserField c l 2)),
    laserFrame 1 (getF s (laserField c l 1))] ++ (laserAt s c l).sent.take 1
  other : ∀ l', l' ≠ l → laserAt t c l' = laserAt s c l'

theorem settingsSent {s : State} {c l : Nat} (hport : getB s (F.PORT_EN c) = true)
    (h : ∀ cmd, cmd = 1 ∨ cmd = 2 ∨ cmd = 3 → laserAllowed s c l cmd (getF s (laserField c l cmd)) = true) :
    SettingsSent c l s (each [1, 2, 3] (fun s cmd => laserResend c l cmd s) s) := by
  have hstep {u : State} (hu : LasersOnly s u) {cmd : Nat} (hcmd : cmd = 1 ∨ cmd = 2 ∨ cmd = 3) :
      laserResend c l cmd u = laserSend u c l cmd (getF s (laserField c l cmd)) := by
    rw [← hu.getF]
    refine laserResend_of_allowed ?_
    rw [laserAllowed_congr (s := s) (by rw [hu]) (by rw [hu]) (hu.getF _), hu.getF]
    exact h cmd hcmd
  have hon {u : State} (hu : LasersOnly s u) : getB u (F.PORT_EN c) = true := (getB_of_regs hu.regs _).trans hport
  have h1 := lasersOnly_laserSend s c l 1 (getF s (laserField c l 1))
  have h2 := h1.trans (lasersOnly_laserSend _ c l 2 (getF s (laserField c l 2)))
  have h3 := h2.trans (lasersOnly_laserSend _ c l 3 (getF s (laserField c l 3)))
  rw [each_cons, each_cons, each_cons, each_nil, hstep (LasersOnly.refl s) (by omega), hstep h1 (by omega), hstep h2 (by omega)]
  refine ⟨h3, ?_, ?_, fun l' hne => ?_⟩
  · rw [laserSend_of_enabled (hon h2), laserAt_setLaser_self, laserSend_of_enabled (hon h1), laserAt_setLaser_self, laserSend_of_enabled hport,
      laserAt_setLaser_self]
  · rw [sent_laserSend (hon h2), sent_laserSend (hon h1), sent_laserSend hport]
    simp [List.take_take]
  · rw [laserAt_laserSend_ne _ hne, laserAt_laserSend_ne _ hne, laserAt_laserSend_ne _ hne]

end Sys2Proof.Machine

namespace Sys2Proof.Certificates
open Sys2Proof Sys2Proof.Machine
open Sys2Proof.Safety (onlyFields fieldsKept)

/-- Settles O19: the check comes before the field and the frame; a port write is its field writes one by one; PORT_EN sends OUTPUT
off and then the stored settings, which pass the check as they did before. -/
theorem laserCommandsAndPortWritesAreChecked : Obligations.LaserCommandsAndPortWritesAreChecked := by
  refine ⟨fun c l v s => ⟨fun hon => ⟨fun cmd hcmd hallowed hport => ?setting, fun hallowed hstate hport => ?channel, fun cmd hcmd hrefused => ?refused⟩,
    fun hoff => ?off, laserAllowed_channel ..⟩, fun c v s hon => ⟨fun hchan hfine => ?same, fun hpower hlo hallowed hport => ?power,
      fun hlo hbit hport => ?disable, fun hport hlo hall => ?enable, fun hport => ?enabled⟩⟩
  case setting =>
    have hexec : exec (if cmd = 2 then .setFine c l v else .setPower c l v) s = .next (laserStored c.val (Laser.num l) cmd v.toNat s) := by
      rcases hcmd with rfl | rfl <;>
        exact congrArg Host.Outcome.next ((if_pos hon).trans (laserSet_of_allowed hallowed))
    exact ⟨_, hexec, getF_laserStored_self v.isLt, sent_laserStored hport, laserStored_kept, laserStored_only⟩
  case channel =>
    have hoff : getF (laserStored c.val (Laser.num l) 1 v.toNat s) (F.TX_STATE c.val) = 0 :=
      (getF_laserStored_ne (by cases l <;> clear * - <;> decide +revert)).trans hstate
    have hexec : exec (.setChannel c l v) s = .next (laserStored c.val (Laser.num l) 1 v.toNat s) :=
      congrArg Host.Outcome.next ((if_pos hon).trans ((laserSet_of_allowed hallowed).trans (chLockClear_of_off hoff)))
    have hkept : fieldsKept [laserField c.val (Laser.num l) 1] s (laserStored c.val (Laser.num l) 1 v.toNat s) := laserStored_kept
    exact ⟨_, hexec, getF_laserStored_self v.isLt, sent_laserStored hport, hkept, laserStored_only⟩
  case refused =>
    have hexec : exec (if cmd = 1 then .setChannel c l v else if cmd = 2 then .setFine c l v else .setPower c l v) s =
        .next (detect .lp 0 c.val (setF s (F.REFUSED_CMD c.val) cmd)) := by
      rcases hcmd with rfl | rfl | rfl <;>
        exact congrArg Host.Outcome.next ((if_pos hon).trans (laserSet_of_refused hrefused))
    refine ⟨_, hexec, getF_setF_of_lt s ?_, onlyFields_setF (by simp)⟩
    rcases hcmd with rfl | rfl | rfl <;> clear * - <;> decide +revert
  case off =>
    have hport : ¬portOn s c.val = true := by simp [portOn, hoff]
    exact ⟨congrArg Host.Outcome.next (if_neg hport), congrArg Host.Outcome.next (if_neg hport), congrArg Host.Outcome.next (if_neg hport)⟩
  case same =>
    have hch : laserWrite c.val 0 1 (bitsOf v.toNat 16 16) s = s := if_pos hchan.symm
    have hfi : laserWrite c.val 0 2 (bitsOf v.toNat 0 16) s = s := if_pos hfine.symm
    have hwrite : portBlockWrite c.val 0 v.toNat s = laserWrite c.val 0 2 (bitsOf v.toNat 0 16) (laserWrite c.val 0 1 (bitsOf v.toNat 16 16) s) :=
      if_neg (by simp [portOn, hon])
    exact congrArg Host.Outcome.next (hwrite.trans (by rw [hch, hfi]))
  case power =>
    have hfirst : laserWrite c.val 0 3 (bitsOf v.toNat 16 16) s = laserStored c.val 0 3 (bitsOf v.toNat 16 16) s :=
      (if_neg (Ne.symm hpower)).trans (laserSet_of_allowed hallowed)
    have hsecond : laserWrite c.val 1 3 (bitsOf v.toNat 0 16) (laserStored c.val 0 3 (bitsOf v.toNat 16 16) s) =
        laserStored c.val 0 3 (bitsOf v.toNat 16 16) s :=
      if_pos ((getF_laserStored_ne (by clear * -; decide +revert)).trans hlo.symm)
    have hwrite : portBlockWrite c.val 2 v.toNat s =
        laserWrite c.val 1 3 (bitsOf v.toNat 0 16) (laserWrite c.val 0 3 (bitsOf v.toNat 16 16) s) := if_neg (by simp [portOn, hon])
    have hkept : fieldsKept [laserField c.val 0 3] s (laserStored c.val 0 3 (bitsOf v.toNat 16 16) s) := laserStored_kept
    have hfield : getF (laserStored c.val 0 3 (bitsOf v.toNat 16 16) s) (laserField c.val 0 3) = bitsOf v.toNat 16 16 :=
      getF_laserStored_self (Nat.mod_lt _ (Nat.two_pow_pos 16))
    exact ⟨_, congrArg Host.Outcome.next (hwrite.trans (by rw [hfirst, hsecond])), hfield, sent_laserStored hport,
      laserAt_laserStored_ne Nat.one_ne_zero, hkept, laserStored_only⟩
  case disable =>
    have hwrite : portBlockWrite c.val 3 v.toNat s = portDisable c.val s := by
      have hloEn : loEnWrite c.val (bitOf v.toNat 0) s = s := if_pos hlo.symm
      rw [portBlockWrite, if_neg (by simp [portOn, hon])]
      simp only [hloEn, hbit, hport, if_true, Bool.false_eq_true, if_false]
    obtain ⟨u, hu⟩ : ∃ u, u = setLaser (setLaser s c.val 0 { laserAt s c.val 0 with bad := 0 }) c.val 1 { laserAt s c.val 1 with bad := 0 } :=
      ⟨_, rfl⟩
    have honly : LasersOnly s u := hu ▸ (lasersOnly_setLaser ..).trans (lasersOnly_setLaser ..)
    have hdis : portDisable c.val s = setFs u [(F.PORT_EN c.val, 0), (F.TX_LSTATUS c.val, 0), (F.LO_STATUS c.val, 0), (F.LASER_LOCK c.val, 0)] := by
      rw [hu]
      rfl
    refine ⟨_, congrArg Host.Outcome.next (hwrite.trans hdis), ?_, ?_, ?_, ?_, ?_, ?_⟩
    · simp (disch := (clear * -; decide +revert)) only [setFs_cons, setFs_nil, getB_setF_ne]
      simp [getB]
    · simp (disch := (clear * -; decide +revert)) only [setFs_cons, setFs_nil, getF_setF_ne, getF_setF_self, Nat.zero_mod]
    · simp (disch := (clear * -; decide +revert)) only [setFs_cons, setFs_nil, getF_setF_ne, getF_setF_self, Nat.zero_mod]
    · simp [getB]
    · exact fieldsKept_setFs (by simp) (fieldsKept_of_regs honly.regs fieldsKept_refl)
    · rw [honly]
      rfl
  case enable =>
    obtain ⟨t, ht⟩ : ∃ t, t = setB s (F.PORT_EN c.val) true := ⟨_, rfl⟩
    have hportT : getB t (F.PORT_EN c.val) = true := ht ▸ getB_setB_self s _ _ (by clear * -; decide +revert)
    have hfield (l cmd : Nat) : getF t (laserField c.val l cmd) = getF s (laserField c.val l cmd) :=
      ht ▸ getF_setB_ne s _ (Ne.symm (portEn_key_ne_laserField _ _ _ _))
    obtain ⟨u, hu⟩ : ∃ u, u = lasersOff t c.val := ⟨_, rfl⟩
    have hofT : LasersOnly t u := hu ▸ (lasersOnly_laserOff ..).trans (lasersOnly_laserOff ..)
    have hoffs : ∀ l, l < 2 → (laserAt u c.val l).on = false ∧ (laserAt u c.val l).sent.take 1 = [laserFrame 4 0] := by
      intro l hl
      have hport0 : getB (laserOff t c.val 0) (F.PORT_EN c.val) = true := (getB_of_regs (lasersOnly_laserOff ..).regs _).trans hportT
      rw [hu, lasersOff]
      obtain rfl | rfl : l = 0 ∨ l = 1 := by omega
      · rw [laserAt_laserOff_ne _ Nat.zero_ne_one, sent_laserOff hportT]
        exact ⟨on_laserOff .., rfl⟩
      · rw [sent_laserOff hport0]
        exact ⟨on_laserOff .., rfl⟩
    have hpass {w : State} (hw : LasersOnly t w) (l : Nat) (hl : l < 2) (cmd : Nat) (hcmd : cmd = 1 ∨ cmd = 2 ∨ cmd = 3) :
        laserAllowed w c.val l cmd (getF w (laserField c.val l cmd)) = true := by
      rw [hw.getF, hfield]
      rw [laserAllowed_congr (s := s) (by rw [hw, ht]; rfl) (by rw [hw, ht]; rfl) ((hw.getF _).trans (hfield l 1))]
      exact hall l cmd hl hcmd
    have hportU {w : State} (hw : LasersOnly t w) : getB w (F.PORT_EN c.val) = true := (getB_of_regs hw.regs _).trans hportT
    have h0 := settingsSent (l := 0) (hportU hofT) (hpass hofT 0 (by omega))
    obtain ⟨w, hw⟩ : ∃ w, w = each [1, 2, 3] (fun s cmd => laserResend c.val 0 cmd s) u := ⟨_, rfl⟩
    rw [← hw] at h0
    have hw0 := hofT.trans h0.only
    have h1 := settingsSent (l := 1) (hportU hw0) (hpass hw0 1 (by omega))
    obtain ⟨x, hx⟩ : ∃ x, x = each [1, 2, 3] (fun s cmd => laserResend c.val 1 cmd s) w := ⟨_, rfl⟩
    rw [← hx] at h1
    have hx0 := hw0.trans h1.only
    have hloX : getB x (F.LO_EN c.val) = false := by
      rw [getB_of_regs hx0.regs, ht, getB_setB_ne s _ (by clear * -; decide +revert), hlo]
    have hnext : portEnable c.val s = x := by
      rw [portEnable, if_pos (by simp [portOn, hon, hport]), portSettings, ← ht, ← hu, each_cons, each_cons, each_nil, ← hw, ← hx, hloX]
      rfl
    refine ⟨x, congrArg Host.Outcome.next hnext, hportU hx0, fun l hl => ?_, ?_, ?_⟩
    · obtain rfl | rfl : l = 0 ∨ l = 1 := by omega
      · rw [h1.other 0 Nat.zero_ne_one, h0.on, h0.sent, (hoffs 0 hl).1, (hoffs 0 hl).2]
        simp only [hofT.getF, hfield, List.cons_append, List.nil_append, and_self]
      · rw [h1.on, h1.sent, h0.other 1 Nat.one_ne_zero, (hoffs 1 hl).1, (hoffs 1 hl).2]
        simp only [hw0.getF, hfield, List.cons_append, List.nil_append, and_self]
    · exact fieldsKept_of_regs hx0.regs (by simp [ht])
    · rw [hx0, ht]
      rfl
  case enabled => exact congrArg Host.Outcome.next (if_neg (by simp [hport]))

/-- Settles O20: OUTPUT goes out where it is what the owner of the laser asks for, and on only where the fuses allow it. -/
theorem laserOutputFollowsItsOwner : Obligations.LaserOutputFollowsItsOwner := by
  intro c l s hon hport
  refine ⟨fun hdue => ?_, fun hdue => ?_, fun hdue hallowed => ?_, fun hdue => ?_, fun h => ?_⟩
  · refine ⟨laserOff s c.val (Laser.num l), congrArg Host.Outcome.next ?_, on_laserOff .., ?_, (lasersOnly_laserOff ..).lp⟩
    · exact (if_neg (by simp [portOn, hon, hdue])).trans (if_neg Bool.false_ne_true)
    · rw [sent_laserOff hport]
      rfl
  · exact congrArg Host.Outcome.next (if_pos (by simp [hdue]))
  · refine ⟨laserOn s c.val (Laser.num l), congrArg Host.Outcome.next ?_, on_laserOn hallowed hport, ?_, (lasersOnly_laserOn hallowed hport).lp⟩
    · exact (if_neg (by simp [portOn, hon, hdue])).trans (if_pos rfl)
    · rw [sent_laserOn hallowed hport]
      rfl
  · exact congrArg Host.Outcome.next (if_pos (by simp [hdue]))
  · rw [laserAllowed_output]
    rcases h with h | h <;> simp [h]

end Sys2Proof.Certificates

/-! ### Laser answers (10 R276, R277; 13 R337) -/
namespace Sys2Proof.Machine
open Safety (fieldsKept onlyFields)

theorem lstatusF_width (c l : Nat) : (lstatusF c l).width = 4 := by
  unfold lstatusF
  split <;> rfl

theorem laserLock_key_ne_lstatusF (c c' l : Nat) : (F.LASER_LOCK c).key ≠ (lstatusF c' l).key := by
  unfold lstatusF
  split <;> simp only [Fld.key, F.LASER_LOCK, F.TX_LSTATUS, F.LO_STATUS] <;> omega

/-- The fields that the judgement of a status answer may change. -/
def statusFields (c l : Nat) : List Fld := [lstatusF c l, F.LASER_LOCK c]

section Good
variable {c l : Nat} {w : Word} {s : State} (hgood : answerGood 0x10 w = true)
include hgood

/-- A good answer: its status, no bad answers in a row, and LASER_LOCK from CH_LOCK of the transmit laser. -/
theorem judgeStatus_of_good : judgeStatus c l w s =
    let t := setF (setLaser s c l { laserAt s c l with bad := 0 }) (lstatusF c l) (answerData w % 16)
    if l = 0 then setB t (F.LASER_LOCK c) (bitOf (answerData w) 0) else t := if_pos hgood

theorem status_judgeStatus_of_good : getF (judgeStatus c l w s) (lstatusF c l) = answerData w % 16 := by
  have hlt : answerData w % 16 < 2 ^ (lstatusF c l).width := by rw [lstatusF_width]; exact Nat.mod_lt _ (by decide)
  rw [judgeStatus_of_good hgood]
  dsimp only
  split
  · rw [getF_setB_ne _ _ (Ne.symm (laserLock_key_ne_lstatusF _ _ _)), getF_setF_of_lt _ hlt]
  · exact getF_setF_of_lt _ hlt

theorem bad_judgeStatus_of_good : (laserAt (judgeStatus c l w s) c l).bad = 0 := by
  have hbad : (laserAt (setLaser s c l { laserAt s c l with bad := 0 }) c l).bad = 0 := by rw [laserAt_setLaser_self]
  rw [judgeStatus_of_good hgood]
  dsimp only
  split <;> exact hbad

theorem lock_judgeStatus_of_good (hl : l = 0) : getB (judgeStatus c l w s) (F.LASER_LOCK c) = bitOf (answerData w) 0 := by
  rw [judgeStatus_of_good hgood]
  dsimp only
  rw [if_pos hl]
  exact getB_setB_self _ _ _ Nat.one_ne_zero

theorem judgeStatus_kept_of_good : fieldsKept (statusFields c l) s (judgeStatus c l w s) := by
  have hkept : fieldsKept (statusFields c l) s (setF (setLaser s c l { laserAt s c l with bad := 0 }) (lstatusF c l) (answerData w % 16)) :=
    (fieldsKept_setF (by simp [statusFields])).2 (fieldsKept_of_regs (lasersOnly_setLaser ..).regs fieldsKept_refl)
  rw [judgeStatus_of_good hgood]
  dsimp only
  split
  · exact (fieldsKept_setB (by simp [statusFields])).2 hkept
  · exact hkept

theorem judgeStatus_only_of_good : judgeStatus c l w s = { s with regs := (judgeStatus c l w s).regs, lp := (judgeStatus c l w s).lp } := by
  rw [judgeStatus_of_good hgood]
  dsimp only
  split <;> rfl

end Good

/-- What the third bad answer in a row leaves before its event: CH_LOCK and PWR_SETTLED read 0. -/
def statusLost (c l : Nat) (s : State) : State :=
  onlyIf (l == 0) (fun s => setB s (F.LASER_LOCK c) false)
    (setF (setLaser s c l { laserAt s c l with bad := min ((laserAt s c l).bad + 1) 4 }) (lstatusF c l) (getF s (lstatusF c l) / 4 * 4))

section Bad
variable {c l : Nat} {w : Word} {s : State}

theorem judgeStatus_of_bad (hbad : answerGood 0x10 w = false) : judgeStatus c l w s =
    if (laserAt s c l).bad + 1 = 3 then detect .lp 1 c (statusLost c l s)
    else setLaser s c l { laserAt s c l with bad := min ((laserAt s c l).bad + 1) 4 } := if_neg (by simp [hbad])

theorem status_statusLost : getF (statusLost c l s) (lstatusF c l) = getF s (lstatusF c l) / 4 * 4 % 16 := by
  rw [statusLost, onlyIf]
  split
  · rw [getF_setB_ne _ _ (Ne.symm (laserLock_key_ne_lstatusF _ _ _)), getF_setF_self, lstatusF_width]
    rfl
  · rw [getF_setF_self, lstatusF_width]
    rfl

theorem bad_statusLost : (laserAt (statusLost c l s) c l).bad = min ((laserAt s c l).bad + 1) 4 := by
  have h : (laserAt (setLaser s c l { laserAt s c l with bad := min ((laserAt s c l).bad + 1) 4 }) c l).bad = min ((laserAt s c l).bad + 1) 4 := by
    rw [laserAt_setLaser_self]
  rw [statusLost, onlyIf]
  split <;> exact h

theorem lock_statusLost (hl : l = 0) : getB (statusLost c l s) (F.LASER_LOCK c) = false := by
  rw [statusLost, hl]
  exact getB_setB_self _ _ _ Nat.one_ne_zero

theorem statusLost_kept : fieldsKept (statusFields c l) s (statusLost c l s) :=
  fieldsKept_onlyIf ((fieldsKept_setF (by simp [statusFields])).2 (fieldsKept_of_regs (lasersOnly_setLaser ..).regs fieldsKept_refl))
    fun _ h => (fieldsKept_setB (by simp [statusFields])).2 h

theorem statusLost_only : statusLost c l s = { s with regs := (statusLost c l s).regs, lp := (statusLost c l s).lp } := by
  rw [statusLost, onlyIf]
  split <;> rfl

end Bad

theorem bad_laserSend (s : State) (c l cmd arg : Nat) : (laserAt (laserSend s c l cmd arg) c l).bad = (laserAt s c l).bad := by
  unfold laserSend
  split
  · rfl
  · rw [laserAt_setLaser_self]

theorem samplePower_of_mgmt_off {s : State} (h : mgmtWorks s = false) (c l : Nat) (w : Word) : samplePower c l w s = s := by
  rw [samplePower]
  split
  · exact if_pos (by simp [h])
  · rfl

theorem takePower_of_good {c l : Nat} {w : Word} {s : State} (hgood : answerGood 0x11 w = true) :
    takePower c l w s = setF s (readPowerF c l) (answerData w) := if_pos hgood

theorem readPowerF_width (c l : Nat) : (readPowerF c l).width = 16 := by
  unfold readPowerF
  split <;> rfl

theorem getF_takePower_self {c l : Nat} {w : Word} {s : State} (hgood : answerGood 0x11 w = true) :
    getF (takePower c l w s) (readPowerF c l) = answerData w := by
  rw [takePower_of_good hgood]
  exact getF_setF_of_lt s (by rw [readPowerF_width]; exact Nat.mod_lt _ (Nat.two_pow_pos 16))

end Sys2Proof.Machine

namespace Sys2Proof.Certificates
open Sys2Proof Sys2Proof.Machine
open Sys2Proof.Safety (onlyFields fieldsKept)

/-- Settles O21: an answer is judged after its question was sent, which touches the lasers alone. -/
theorem laserAnswersAreJudgedAndKept : Obligations.LaserAnswersAreJudgedAndKept := by
  refine ⟨fun c l w s hon hport => ⟨fun hgood => ?good, fun hbad hrow => ?third, fun hbad hrow => ?other, fun tx lo htx hlo => ?both⟩,
    fun c l w s hon hport => ⟨fun hgood => ?power, fun hbad => ?noPower, fun hgood => ?freq, fun tx lo hmgmt htx hlo => ?powers⟩⟩
  all_goals have hpolls : portPolls s c.val = true := by simp [portPolls, portOn, hon, hport]
  case good =>
    obtain ⟨u, hu⟩ : ∃ u, u = laserSend s c.val (Laser.num l) 0x10 0 := ⟨_, rfl⟩
    have honly : LasersOnly s u := hu ▸ lasersOnly_laserSend ..
    refine ⟨judgeStatus c.val (Laser.num l) w u, congrArg Host.Outcome.next (hu ▸ if_pos hpolls), status_judgeStatus_of_good hgood,
      bad_judgeStatus_of_good hgood, fun h => lock_judgeStatus_of_good hgood (h ▸ rfl), ?_, ?_⟩
    · exact fieldsKept_trans (fieldsKept_of_regs honly.regs fieldsKept_refl) (judgeStatus_kept_of_good hgood)
    · rw [judgeStatus_only_of_good hgood, honly]
  case third =>
    obtain ⟨u, hu⟩ : ∃ u, u = laserSend s c.val (Laser.num l) 0x10 0 := ⟨_, rfl⟩
    have honly : LasersOnly s u := hu ▸ lasersOnly_laserSend ..
    have hbadU : (laserAt u c.val (Laser.num l)).bad = 2 := hu ▸ (bad_laserSend ..).trans hrow
    have hnext : judgeStatus c.val (Laser.num l) w u = detect .lp 1 c.val (statusLost c.val (Laser.num l) u) :=
      (judgeStatus_of_bad hbad).trans (if_pos (by rw [hbadU]))
    have hexec : exec (.readStatus c l w) s = .next (detect .lp 1 c.val (statusLost c.val (Laser.num l) u)) :=
      congrArg Host.Outcome.next ((if_pos hpolls).trans (hu ▸ hnext))
    refine ⟨_, hexec, ?_, ?_, fun h => lock_statusLost (h ▸ rfl), ?_, ?_⟩
    · rw [bad_statusLost, hbadU]
      rfl
    · rw [status_statusLost, honly.getF]
    · exact fieldsKept_trans (fieldsKept_of_regs honly.regs fieldsKept_refl) statusLost_kept
    · rw [statusLost_only, honly]
  case other =>
    have hnext : judgeStatus c.val (Laser.num l) w (laserSend s c.val (Laser.num l) 0x10 0) = setLaser (laserSend s c.val (Laser.num l) 0x10 0) .. :=
      (judgeStatus_of_bad hbad).trans (if_neg (by rw [bad_laserSend]; omega))
    exact ⟨_, congrArg Host.Outcome.next ((if_pos hpolls).trans hnext), ((lasersOnly_laserSend ..).trans (lasersOnly_setLaser ..)).lp⟩
  case both =>
    obtain ⟨u, hu⟩ : ∃ u, u = laserSend (laserSend s c.val 0 0x10 0) c.val 1 0x10 0 := ⟨_, rfl⟩
    have honly : LasersOnly s u := hu ▸ (lasersOnly_laserSend ..).trans (lasersOnly_laserSend ..)
    obtain ⟨x, hx⟩ : ∃ x, x = judgeStatus c.val 0 tx u := ⟨_, rfl⟩
    have hxs : getF x (F.TX_LSTATUS c.val) = answerData tx % 16 := hx ▸ status_judgeStatus_of_good (l := 0) htx
    have hxl : getB x (F.LASER_LOCK c.val) = bitOf (answerData tx) 0 := hx ▸ lock_judgeStatus_of_good (l := 0) htx rfl
    have hxk : fieldsKept [F.TX_LSTATUS c.val, F.LASER_LOCK c.val] u x := hx ▸ judgeStatus_kept_of_good (l := 0) htx
    have hxo : x = { u with regs := x.regs, lp := x.lp } := hx ▸ judgeStatus_only_of_good (l := 0) htx
    have hlo' : judgeStatus c.val 1 lo x = setF (setLaser x c.val 1 { laserAt x c.val 1 with bad := 0 }) (F.LO_STATUS c.val) (answerData lo % 16) :=
      judgeStatus_of_good hlo
    have hexec : exec (.laserStatusPoll c tx lo) s =
        .next (setF (setLaser x c.val 1 { laserAt x c.val 1 with bad := 0 }) (F.LO_STATUS c.val) (answerData lo % 16)) := by
      refine congrArg Host.Outcome.next ((if_pos hpolls).trans ?_)
      dsimp only
      rw [← hu, ← hx, hlo']
    refine ⟨_, hexec, ?_, ?_, ?_, ?_, ?_⟩
    · exact (getF_setF_ne _ _ (by clear * -; decide +revert)).trans hxs
    · exact getF_setF_of_lt _ (Nat.mod_lt _ (Nat.two_pow_pos 4))
    · exact (getB_setF_ne _ _ (by clear * -; decide +revert)).trans hxl
    · refine (fieldsKept_setF (by simp)).2 (fieldsKept_of_regs (lasersOnly_setLaser ..).regs ?_)
      exact fieldsKept_trans (fieldsKept_of_regs honly.regs fieldsKept_refl) (fieldsKept_mono hxk (by simp))
    · rw [hxo, honly]
      rfl
  case power =>
    obtain ⟨u, hu⟩ : ∃ u, u = laserSend s c.val (Laser.num l) 0x11 0 := ⟨_, rfl⟩
    have honly : LasersOnly s u := hu ▸ lasersOnly_laserSend ..
    refine ⟨takePower c.val (Laser.num l) w u, congrArg Host.Outcome.next (hu ▸ if_pos hpolls), getF_takePower_self hgood, ?_, ?_⟩
    · rw [takePower_of_good hgood]
      exact (fieldsKept_setF (by simp)).2 (fieldsKept_of_regs honly.regs fieldsKept_refl)
    · rw [takePower_of_good hgood, honly]
      rfl
  case noPower =>
    have hnext : takePower c.val (Laser.num l) w (laserSend s c.val (Laser.num l) 0x11 0) = laserSend s c.val (Laser.num l) 0x11 0 := if_neg (by simp [hbad])
    exact ⟨_, congrArg Host.Outcome.next ((if_pos hpolls).trans hnext), (lasersOnly_laserSend ..).lp⟩
  case freq =>
    obtain ⟨u, hu⟩ : ∃ u, u = laserSend s c.val (Laser.num l) 0x12 0 := ⟨_, rfl⟩
    have honly : LasersOnly s u := hu ▸ lasersOnly_laserSend ..
    have hnext : exec (.readFreqErr c l w) s =
        .next (setLaser u c.val (Laser.num l) { laserAt u c.val (Laser.num l) with freqErr := toS 16 (answerData w) }) :=
      congrArg Host.Outcome.next ((if_pos hpolls).trans (hu ▸ if_pos hgood))
    refine ⟨_, hnext, ?_, (honly.trans (lasersOnly_setLaser ..)).lp⟩
    rw [laserAt_setLaser_self]
  case powers =>
    obtain ⟨u, hu⟩ : ∃ u, u = laserSend (laserSend s c.val 0 0x11 0) c.val 1 0x11 0 := ⟨_, rfl⟩
    have honly : LasersOnly s u := hu ▸ (lasersOnly_laserSend ..).trans (lasersOnly_laserSend ..)
    have hmgmt1 (f : Fld) (v : Nat) : mgmtWorks (setF u f v) = false := by
      rw [honly]
      exact hmgmt
    have hmgmt2 (f g : Fld) (v w : Nat) : mgmtWorks (setF (setF u f v) g w) = false := hmgmt1 f v
    have hnext : exec (.laserPowerPoll c tx lo) s =
        .next (setF (setF u (F.TX_READ_POWER c.val) (answerData tx)) (F.LO_READ_POWER c.val) (answerData lo)) := by
      refine congrArg Host.Outcome.next ((if_pos hpolls).trans ?_)
      dsimp only
      rw [← hu, takePower_of_good htx, samplePower_of_mgmt_off (hmgmt1 _ _), takePower_of_good hlo, samplePower_of_mgmt_off (hmgmt2 _ _ _ _)]
      rfl
    refine ⟨_, hnext, ?_, ?_, ?_, ?_⟩
    · exact (getF_setF_ne _ _ (by clear * -; decide +revert)).trans (getF_setF_of_lt _ (Nat.mod_lt _ (Nat.two_pow_pos 16)))
    · exact getF_setF_of_lt _ (Nat.mod_lt _ (Nat.two_pow_pos 16))
    · exact (fieldsKept_setF (by simp)).2 ((fieldsKept_setF (by simp)).2 (fieldsKept_of_regs honly.regs fieldsKept_refl))
    · rw [honly]
      rfl

end Sys2Proof.Certificates

/-! ### What a detection never touches

A detection with its class action (11 R282, R296-R300) stops resources and records itself; the other parts of the state, which
`apart` lists, stay as they were through every operation that it is made of. -/
namespace Sys2Proof.Machine

/-- The parts of the state that no detection touches. -/
def apart (s : State) : List Instr × TimeSt × MpSt × PwSt × CalSt × ProtSt × AvsSt × ThermSt × FabricSt × BistSt × SecSt' :=
  (s.pending, s.time, s.mp, s.pw, s.cal, s.prot, s.avs, s.therm, s.fab, s.bist, s.sec)

section Apart
variable (s : State)

/-! #### Fields, lists and conditions -/

@[simp] theorem apart_setF (f : Fld) (v : Nat) : apart (setF s f v) = apart s := rfl
@[simp] theorem apart_setB (f : Fld) (b : Bool) : apart (setB s f b) = apart s := rfl
@[simp] theorem apart_addF (f : Fld) (n : Nat) : apart (addF s f n) = apart s := rfl
@[simp] theorem apart_satF (f : Fld) (n : Nat) : apart (satF s f n) = apart s := rfl
@[simp] theorem apart_drew : apart (drew s) = apart s := rfl

variable {s}

theorem apart_foldl {α : Type} {l : List α} {k : State → α → State} (h : ∀ s x, apart (k s x) = apart s) :
    apart (l.foldl k s) = apart s := by
  induction l generalizing s with
  | nil => rfl
  | cons x l ih => exact (ih (s := k s x)).trans (h s x)

theorem apart_each {α : Type} {l : List α} {k : State → α → State} (h : ∀ s x, apart (k s x) = apart s) :
    apart (each l k s) = apart s := apart_foldl h

theorem apart_onlyIf {c : Bool} {k : State → State} (h : ∀ s, apart (k s) = apart s) : apart (onlyIf c k s) = apart s := by
  unfold onlyIf
  split
  · exact h s
  · rfl

variable (s)

@[simp] theorem apart_setFs (l : List (Fld × Nat)) : apart (setFs s l) = apart s := apart_foldl fun _ _ => rfl

/-! #### Records and messages -/

@[simp] theorem apart_flushLoss : apart (flushLoss s) = apart s := by
  unfold flushLoss
  split
  · exact apart_foldl fun _ _ => rfl
  · rfl

theorem apart_loseRec (seq cause : Nat) : apart (loseRec s seq cause) = apart s := rfl

@[simp] theorem apart_offerR (typ extra : Nat) (payload : List Nat) : apart (offerR s typ extra payload).1 = apart s := by
  rw [← apart_flushLoss s, offerR]
  dsimp only
  split_ifs <;> rfl

@[simp] theorem apart_offer (typ extra : Nat) (payload : List Nat) : apart (offer s typ extra payload) = apart s := apart_offerR ..

@[simp] theorem apart_eventMsg (r : LRec) : apart (eventMsg s r).1 = apart s := by
  unfold eventMsg
  split_ifs <;> rfl

@[simp] theorem apart_recordEvent (b : EvBlk) (i merged eff cfg flags : Nat) : apart (recordEvent s b i merged eff cfg flags).1 = apart s := by
  rw [recordEvent]
  exact (apart_eventMsg ..).trans (apart_offerR ..)

@[simp] theorem apart_setEv (b : EvBlk) (i : Nat) (e : EvSrc) : apart (setEv s b i e) = apart s := rfl

/-- Step 6 of R282: nothing recorded, kept for the next millisecond, or recorded at once. -/
theorem apart_step6 {p q : Prop} [Decidable p] [Decidable q] {b : EvBlk} {i eff cfg flags : Nat} {e e' e'' : EvSrc} :
    apart (if p then (setEv s b i e, false) else if q then (setEv s b i e', false)
      else recordEvent (setEv s b i e'') b i 0 eff cfg flags).1 = apart s := by
  split_ifs
  · rfl
  · rfl
  · exact apart_recordEvent (setEv s b i e'') ..

@[simp] theorem apart_detectCore (b : EvBlk) (i info : Nat) (forced : Bool) : apart (detectCore s b i info forced).1 = apart s := by
  unfold detectCore
  split
  · rfl
  · dsimp only
    split
    · simp
    · exact (apart_onlyIf fun t => apart_setB t _ _).trans ((apart_step6 _).trans (apart_setFs s _))

/-! #### Stops (R297) -/

theorem apart_lp (lp : LaserPortSt) : apart { s with lp := lp } = apart s := rfl
@[simp] theorem apart_setLaser (c l : Nat) (x : LaserSt) : apart (setLaser s c l x) = apart s := rfl
@[simp] theorem apart_setChan (n : Nat) (x : BiasCh) : apart (setChan s n x) = apart s := rfl
@[simp] theorem apart_setUnit (c u : Nat) (x : AcqU) : apart (setUnit s c u x) = apart s := rfl
@[simp] theorem apart_setZone (z : Nat) (x : ZoneSt) : apart (setZone s z x) = apart s := rfl
@[simp] theorem apart_setCoef (key v : Nat) : apart (setCoef s key v) = apart s := rfl
@[simp] theorem apart_txTimerOff (c : Nat) : apart (txTimerOff s c) = apart s := rfl
@[simp] theorem apart_chanFault (n : Nat) : apart (chanFault s n) = apart s := rfl

@[simp] theorem apart_laserSend (c l cmd arg : Nat) : apart (laserSend s c l cmd arg) = apart s := by
  unfold laserSend
  split <;> rfl

@[simp] theorem apart_laserOff (c l : Nat) : apart (laserOff s c l) = apart s := by simp [laserOff]

@[simp] theorem apart_lasersOff (c : Nat) : apart (lasersOff s c) = apart s := by simp [lasersOff]

@[simp] theorem apart_txHeld (c : Nat) : apart (txHeld c s) = apart s := by
  unfold txHeld
  dsimp only
  split
  · exact apart_onlyIf fun t => apart_laserOff t c 0
  · rfl

@[simp] theorem apart_agcUpdate (c : Nat) : apart (agcUpdate c s) = apart s := by
  unfold agcUpdate
  dsimp only
  split <;> rfl

@[simp] theorem apart_depart (c u : Nat) : apart (depart c u s) = apart s := by
  unfold depart
  dsimp only
  split
  · refine (apart_each fun t n => ?_).trans (apart_offer ..)
    split <;> rfl
  · exact apart_offer ..

@[simp] theorem apart_unitQuiet (c u : Nat) : apart (unitQuiet c u s) = apart s :=
  calc apart (unitQuiet c u s)
    _ = apart (each (unitScs s c u) (fun s k => setB s (F.SC_VALID c k) false) (setB s (F.U_VALID c u) false)) := rfl
    _ = apart s := apart_each fun t k => apart_setB t (F.SC_VALID c k) false

@[simp] theorem apart_unitLeave (c u st : Nat) : apart (unitLeave c u st s) = apart s := by
  have hcarried (t : State) : apart (unitQuiet c u (setF (unmask c u (depart c u t)) (F.ACQ_TAG c u) 0)) = apart t := by
    rw [apart_unitQuiet, apart_setF, unmask, apart_setF, apart_depart]
  rw [unitLeave, apart_agcUpdate, apart_setF, apart_setUnit]
  exact apart_onlyIf hcarried

@[simp] theorem apart_unitIdle (c u : Nat) : apart (unitIdle c u s) = apart s := by
  unfold unitIdle
  split
  · rfl
  · exact apart_unitLeave ..

@[simp] theorem apart_stopCarrier (c : Nat) : apart (stopCarrier s c) = apart s := by
  have hheld : apart (onlyIf (isOn (txHeld c s) (lineDom c)) (fun s => setF s (F.TX_STATE c) 4) (txHeld c s)) = apart s :=
    (apart_onlyIf fun t => apart_setF t _ _).trans (apart_txHeld s c)
  have hchans (t : State) : apart (each (carrierChans c) chanFault t) = apart t := apart_each fun t n => apart_chanFault t n
  have hunits (t : State) : apart (each (List.range 16) (fun s u => unitIdle c u s) t) = apart t := apart_each fun t u => apart_unitIdle t c u
  simp only [stopCarrier, apart_lp, hunits, apart_lasersOff, hchans, hheld]

@[simp] theorem apart_adaptLane (st k : Nat) : apart (adaptLane st k s) = apart s := by
  have hblock (on : Bool) (ix : List Nat) (t : State) :
      apart (onlyIf on (each ix fun s i => drew (setCoef s (128 * k + i) (draw s 1024))) t) = apart t :=
    apart_onlyIf fun _ => apart_each fun _ _ => rfl
  have hctle (on : Bool) (t : State) : apart (onlyIf on (fun s => drew (setF s (F.LANE_CTLE k) (draw s 25))) t) = apart t :=
    apart_onlyIf fun _ => rfl
  simp only [adaptLane, hblock, hctle]

@[simp] theorem apart_groupDown (l : Nat) : apart (groupDown l s) = apart s := by
  have hspent (t : State) : apart (holdSpent l t) = apart t := by
    unfold holdSpent
    split <;> rfl
  exact (hspent _).trans (apart_each fun t k => apart_adaptLane t _ k)

@[simp] theorem apart_stopGroup (l : Nat) : apart (stopGroup s l) = apart s := by
  unfold stopGroup
  split
  · rfl
  · exact apart_groupDown s l

@[simp] theorem apart_stopSet (carriers lanes : List Nat) : apart (stopSet carriers lanes s) = apart s :=
  (apart_each apart_stopGroup).trans (apart_each apart_stopCarrier)

@[simp] theorem apart_applyScope (b : EvBlk) (i info : Nat) : apart (applyScope b i info s) = apart s := by
  have hstop := apart_stopSet s (scopeCarriers s b i info) (scopeLanes s b i info)
  unfold applyScope
  dsimp only
  split
  · exact hstop
  · split
    · exact hstop
    · exact hstop
  · exact (apart_each fun t c => apart_setB t _ _).trans ((apart_onlyIf fun t => apart_setF t _ _).trans hstop)
  · exact hstop
  · exact hstop
  · exact hstop

/-! #### The loader lock (02 R64) -/

@[simp] theorem apart_nextSection : apart (nextSection s) = apart s := by
  unfold nextSection
  split
  · rfl
  · split <;> rfl

@[simp] theorem apart_endSection (z code : Nat) : apart (endSection z code s) = apart s := by
  have hown (own : Bool) (left : Nat) (t : State) :
      apart (onlyIf own (fun s => nextSection { s with ld := { s.ld with sec := none, skip := left } }) t) = apart t :=
    apart_onlyIf fun t => (apart_nextSection _).trans rfl
  simp only [endSection, offerCommit, apart_offer, apart_setFs, setResult, apart_setZone, hown]

/-! #### The detection -/

@[simp] theorem apart_detectN (fuel : Nat) (b : EvBlk) (i info : Nat) (forced : Bool) : apart (detectN fuel b i info forced s) = apart s := by
  induction fuel generalizing s b i info forced with
  | zero => exact apart_detectCore ..
  | succ fuel ih =>
    have hfault (on : Bool) (t : State) : apart (onlyIf on (fun s => each (faultedCarriers s b i) carrierFault s) t) = apart t :=
      apart_onlyIf fun _ => apart_each fun t c => (apart_each apart_chanFault).trans (apart_txHeld t c)
    have hfirst (on : Bool) (t : State) : apart (onlyIf on (graveFirst b i) t) = apart t := apart_onlyIf fun t => apart_setFs t _
    have hlock (on : Bool) (j : Nat) (zs : List Nat) (t : State) :
        apart (onlyIf on (each zs fun s z => detectN fuel .cfg j 0 false (endSection z 0xD s)) t) = apart t :=
      apart_onlyIf fun _ => apart_each fun t z => (ih ..).trans (apart_endSection t z _)
    have hscope (on : Bool) (t : State) : apart (onlyIf on (applyScope b i info) t) = apart t := apart_onlyIf fun t => apart_applyScope t ..
    have hdrop (on : Bool) (t : State) : apart (onlyIf on (detectN fuel .chn 11 0 false) t) = apart t := apart_onlyIf fun t => ih t ..
    have hunrep (t : State) : apart { t with ldg := { t.ldg with unrep := 0 } } = apart t := rfl
    simp only [detectN]
    split <;> simp only [ih, hunrep, hdrop, hscope, hlock, hfirst, hfault, apart_detectCore]

@[simp] theorem apart_detect (b : EvBlk) (i info : Nat) : apart (detect b i info s) = apart s := apart_detectN ..

@[simp] theorem apart_settle : apart (settle s) = apart s := by
  unfold settle
  split
  · rfl
  · exact apart_detect ..

end Apart

end Sys2Proof.Machine

/-! ### Calibration (09 R245; 10 R262-R271) -/
namespace Sys2Proof.Machine
open Safety (fieldsKept onlyFields)

/-! #### Chains restart together -/

/-- An update of the bias channels and chains alone. -/
def BiasOnly (s t : State) : Prop := t = { s with bias := t.bias }

theorem BiasOnly.trans {s t u : State} (hst : BiasOnly s t) (htu : BiasOnly t u) : BiasOnly s u := by
  unfold BiasOnly at hst htu ⊢
  rw [htu, hst]

theorem ChannelsOnly.biasOnly {s t : State} (h : ChannelsOnly s t) : BiasOnly s t := by
  unfold ChannelsOnly at h
  unfold BiasOnly
  rw [h]

theorem ChannelsOnly.chainAt {s t : State} (h : ChannelsOnly s t) (i : Nat) : chainAt t i = chainAt s i := by
  rw [h]
  rfl

theorem chainAt_setChain_ne (s : State) {i j : Nat} (x : Chain) (h : j ≠ i) : chainAt (setChain s i x) j = chainAt s j :=
  tget_tset_ne _ x _ _ h

theorem chainAt_restartChain_self (i : Nat) (s : State) : chainAt (restartChain i s) i = Chain.blank := by
  rw [restartChain, (channelsOnly_dropBlocks _ _).chainAt, chainAt_setChain_self]

theorem chainAt_restartChain_ne {i j : Nat} (s : State) (h : j ≠ i) : chainAt (restartChain i s) j = chainAt s j := by
  rw [restartChain, (channelsOnly_dropBlocks _ _).chainAt, chainAt_setChain_ne s _ h]

theorem biasOnly_restartChain (i : Nat) (s : State) : BiasOnly s (restartChain i s) :=
  BiasOnly.trans (t := setChain s i Chain.blank) rfl (channelsOnly_dropBlocks _ _).biasOnly

theorem biasOnly_restartChains (l : List Nat) (s : State) : BiasOnly s (each l (fun s i => restartChain i s) s) := by
  induction l generalizing s with
  | nil => rfl
  | cons i l ih => exact (biasOnly_restartChain i s).trans (ih _)

theorem chainAt_restartChains {l : List Nat} {s : State} {i : Nat} (h : i ∈ l ∨ chainAt s i = Chain.blank) :
    chainAt (each l (fun s i => restartChain i s) s) i = Chain.blank := by
  induction l generalizing s with
  | nil => exact h.resolve_left List.not_mem_nil
  | cons j l ih =>
    refine ih ?_
    rcases eq_or_ne i j with rfl | hne
    · exact .inr (chainAt_restartChain_self i s)
    · refine h.imp (fun hi => (List.mem_cons.1 hi).resolve_left hne) fun hblank => ?_
      rw [chainAt_restartChain_ne s hne, hblank]

/-! #### Requests -/

theorem refsOk_eq {s : State} (h : refsOk s = true) : isOn s 1 = true ∧ getB s F.REFCLK_OK = true ∧ getB s F.VREF_OK = true := by
  simpa [refsOk, and_assoc] using h

/-- FG_REQ with the bit of one carrier asks for that carrier alone. -/
theorem fgReqs_one {s : State} (hon : isOn s 1 = true) (c : Fin 2) : fgReqs (BitVec.ofNat 2 (2 ^ c.val)).toNat s = (fgRequest c.val s).1 := by
  have hone : [0, 1].filter (bitOf (BitVec.ofNat 2 (2 ^ c.val)).toNat) = [c.val] := by
    clear * -
    decide +revert
  rw [fgReqs, if_pos hon, hone]
  rfl

theorem fgResF_width (c : Nat) : (fgResF c).width = 3 := by
  unfold fgResF
  split <;> rfl

/-- A run in progress, with FG_CAL read as 1. -/
structure FgStarted (c : Nat) (s t : State) : Prop where
  running : fgRunning t c = true
  fgCal : getB t (F.TX_FG_CAL c) = true
  kept : fieldsKept [F.TX_FG_CAL c] s t
  only : t = { s with regs := t.regs, cal := t.cal }

theorem fgStarted (c : Nat) (s : State) : FgStarted c s (fgStart c s) where
  running := by simp [fgRunning, fgStart]
  fgCal := getB_setB_self (keepTemp c s) (F.TX_FG_CAL c) true Nat.one_ne_zero
  kept := fieldsKept_of_regs (t := setB s (F.TX_FG_CAL c) true) rfl (by simp)
  only := rfl

/-! #### The self-calibration and the triggered calibration -/

/-- A self-calibration that has begun: CAL_BUSY, the temperature kept, every block discarded. -/
structure SelfCalBegun (s t : State) : Prop where
  busy : getB t F.HK_CAL_BUSY = true
  kept : fieldsKept [F.HK_CAL_BUSY] s t
  trig : t.cal.trig = s.cal.trig
  trigHk : t.cal.trigHk = s.cal.trigHk
  only : t = { s with regs := t.regs, cal := t.cal, bias := t.bias }

theorem selfCalBegun {s : State} (hline : isOn s 4 = true) (hidle : getB s F.HK_CAL_BUSY = false) (hrefs : refsOk s = true) :
    SelfCalBegun s (calStart s) := by
  obtain ⟨hmgmt, hclk, hvref⟩ := refsOk_eq hrefs
  obtain ⟨u, hu⟩ : ∃ u, u = keepTemp 2 (setB s F.HK_CAL_BUSY true) := ⟨_, rfl⟩
  have hregs : u.regs = (setB s F.HK_CAL_BUSY true).regs := hu ▸ rfl
  have honly : u = { s with regs := u.regs, cal := u.cal } := by rw [hu]; rfl
  have hstart : calStart s = each allChans (fun s n => dropBlock n s) u := hu ▸ if_neg (by simp [hline, hidle, hmgmt, hclk, hvref])
  have hdrop := (channelsOnly_dropBlocks allChans u).biasOnly
  rw [← hstart] at hdrop
  have hregs' : (calStart s).regs = (setB s F.HK_CAL_BUSY true).regs := by rw [hdrop]; exact hregs
  have hcal : (calStart s).cal = u.cal := by rw [hdrop]
  refine ⟨?_, fieldsKept_of_regs hregs' (by simp), hcal ▸ hu ▸ rfl, hcal ▸ hu ▸ rfl, ?_⟩
  · rw [getB_of_regs hregs']
    exact getB_setB_self s F.HK_CAL_BUSY true Nat.one_ne_zero
  · rw [hdrop, honly]

/-- The temperature is taken and step 1 of a triggered calibration is in progress. -/
def trigBegun (s : State) : State :=
  let t := setB (setS s F.T_LAST (getS s F.TEMP)) F.T_LAST_VALID true
  { t with cal := { t.cal with trig := true, owed := [], trigHk := true } }

theorem trigStart_of_line {s : State} (hline : isOn s 4 = true) : trigStart s = calStart (trigBegun s) := if_pos hline

theorem tLast_trigBegun (s : State) : getS (trigBegun s) F.T_LAST = getS s F.TEMP := by
  have hbounds := toS_bounds (w := 16) (by decide) (getF s F.TEMP)
  have hread : getS (trigBegun s) F.T_LAST = getS (setS s F.T_LAST (getS s F.TEMP)) F.T_LAST :=
    getS_setF_ne (f := F.T_LAST_VALID) (g := F.T_LAST) (setS s F.T_LAST (getS s F.TEMP)) 1 (by decide)
  exact hread.trans (getS_setS_self s (Nat.succ_ne_zero 15) hbounds.1 hbounds.2)

theorem tLastValid_trigBegun (s : State) : getB (trigBegun s) F.T_LAST_VALID = true :=
  getB_setB_self (setS s F.T_LAST (getS s F.TEMP)) F.T_LAST_VALID true Nat.one_ne_zero

theorem trigBegun_kept (s : State) : fieldsKept [F.T_LAST, F.T_LAST_VALID] s (trigBegun s) :=
  fieldsKept_of_regs (t := setB (setS s F.T_LAST (getS s F.TEMP)) F.T_LAST_VALID true) rfl (by simp)

/-- The new factors of a self-calibration, in force or waiting, with CAL_VALID set. -/
def hkFactorsTaken (g o : Nat) (s : State) : State :=
  setB (if isOn s 4 && isOn s 5 then { setB s F.HK_CAL_BUSY false with cal := { s.cal with hkWait := some (g, o) } }
    else setFs (setB s F.HK_CAL_BUSY false) [(F.HK_GAIN, g), (F.HK_OFFSET, o)]) F.HK_CAL_VALID true

theorem hkFactorsTaken_of_both {s : State} (h4 : isOn s 4 = true) (h5 : isOn s 5 = true) (g o : Nat) : hkFactorsTaken g o s =
    setB { setB s F.HK_CAL_BUSY false with cal := { s.cal with hkWait := some (g, o) } } F.HK_CAL_VALID true := by
  rw [hkFactorsTaken, if_pos (by simp [h4, h5])]

/-- The end of a self-calibration: every chain restarts, then its event and its record. -/
theorem hkCalDone_eq (g o : Nat) (s : State) : hkCalDone g o s =
    let v := each (List.range 32) (fun s i => restartChain i s) (hkFactorsTaken g o s)
    offerCalib 0 0xFF 0 (tget v.cal.temp 2 0) (detect .bias 5 0 v) := by
  have hdoms (d : Nat) : isOn (setB s F.HK_CAL_BUSY false) d = isOn s d := rfl
  simp only [hkCalDone, hkFactorsTaken, hdoms, setB_cal]

/-- What the factors of a self-calibration change. -/
structure FactorsTaken (g o : Nat) (s t : State) : Prop where
  busy : getB t F.HK_CAL_BUSY = false
  valid : getB t F.HK_CAL_VALID = true
  both : isOn s 4 = true → isOn s 5 = true → t.cal.hkWait = some (g, o)
  one : isOn s 5 = false → getF t F.HK_GAIN = g % 2 ^ 16 ∧ getF t F.HK_OFFSET = o % 2 ^ 16
  kept : fieldsKept [F.HK_CAL_BUSY, F.HK_CAL_VALID, F.HK_GAIN, F.HK_OFFSET] s t
  only : t = { s with regs := t.regs, cal := { s.cal with hkWait := t.cal.hkWait } }

theorem factorsTaken (g o : Nat) (s : State) : FactorsTaken g o s (hkFactorsTaken g o s) := by
  by_cases hboth : isOn s 4 = true ∧ isOn s 5 = true
  · rw [hkFactorsTaken_of_both hboth.1 hboth.2]
    have hregs : (setB { setB s F.HK_CAL_BUSY false with cal := { s.cal with hkWait := some (g, o) } } F.HK_CAL_VALID true).regs =
        (setB (setB s F.HK_CAL_BUSY false) F.HK_CAL_VALID true).regs := rfl
    refine ⟨?_, ?_, fun _ _ => rfl, fun h => absurd hboth.2 (by simp [h]), fieldsKept_of_regs hregs (by simp), rfl⟩
    · rw [getB_of_regs hregs]
      simp (disch := decide) only [getB_setB_ne, getB_setB_self]
    · rw [getB_of_regs hregs]
      simp (disch := decide) only [getB_setB_self]
  · have htaken : hkFactorsTaken g o s = setB (setFs (setB s F.HK_CAL_BUSY false) [(F.HK_GAIN, g), (F.HK_OFFSET, o)]) F.HK_CAL_VALID true := by
      rw [hkFactorsTaken, if_neg (by simpa using hboth)]
    rw [htaken]
    refine ⟨?_, ?_, fun h4 h5 => absurd ⟨h4, h5⟩ hboth, fun _ => ⟨?_, ?_⟩, by simp, rfl⟩
    · simp (disch := decide) only [setFs_cons, setFs_nil, getB_setB_ne, getB_setF_ne, getB_setB_self]
    · simp (disch := decide) only [getB_setB_self]
    · simp (disch := decide) only [setFs_cons, setFs_nil, getF_setB_ne, getF_setF_ne, getF_setF_self]
      rfl
    · simp (disch := decide) only [setFs_cons, setFs_nil, getF_setB_ne, getF_setF_self]
      rfl

theorem apart_offerCalib (kind carrier result : Nat) (temp : Int) (s : State) : apart (offerCalib kind carrier result temp s) = apart s :=
  (apart_settle _).trans (apart_offer ..)

/-! #### Ends of runs and passes -/

/-- A foreground run is over, before its record is offered. -/
def runEnded (k code : Nat) (s : State) : State :=
  setB (setF { s with cal := { s.cal with running := s.cal.running.erase k, wakeRun := s.cal.wakeRun.erase k } } (fgResF k) code)
    (F.TX_FG_CAL k) ((s.cal.wakeRun.erase k).contains k)

theorem fgEnd_of_not_aborted {code : Nat} (h : code ≠ 4) (c : Fin 2) (s : State) :
    fgEnd c code s = offerCalib 1 c.val code (tget s.cal.temp c.val 0) (runEnded c.val code s) := by
  simp only [fgEnd, if_neg h]
  rfl

/-- What the end of a run leaves. -/
structure RunEnded (c : Fin 2) (code : Nat) (s t : State) : Prop where
  running : fgRunning t c.val = false
  fgCal : getB t (F.TX_FG_CAL c.val) = false
  result : getF t (fgResF c.val) = code
  kept : fieldsKept [fgResF c.val, F.TX_FG_CAL c.val] s t
  coef : t.cal.coef = s.cal.coef
  waiting : t.cal.waiting = s.cal.waiting
  only : t = { s with regs := t.regs, cal := t.cal }

theorem not_contains_erase {l : List Nat} (h : l.Nodup) (k : Nat) : (l.erase k).contains k = false := by
  simp [h.mem_erase_iff]

theorem runEnded_spec {c : Fin 2} {code : Nat} (hcode : code < 8) {s : State} (hrun : s.cal.running.Nodup) (hwake : s.cal.wakeRun.Nodup) :
    RunEnded c code s (runEnded c.val code s) := by
  obtain ⟨u, hu⟩ : ∃ u, u = { s with cal := { s.cal with running := s.cal.running.erase c.val, wakeRun := s.cal.wakeRun.erase c.val } } := ⟨_, rfl⟩
  have hregs : u.regs = s.regs := hu ▸ rfl
  have hended : runEnded c.val code s = setB (setF u (fgResF c.val) code) (F.TX_FG_CAL c.val) false := by
    rw [hu, runEnded, not_contains_erase hwake]
  have hcal : (runEnded c.val code s).cal = { s.cal with running := s.cal.running.erase c.val, wakeRun := s.cal.wakeRun.erase c.val } := rfl
  refine ⟨?_, ?_, ?_, ?_, rfl, rfl, rfl⟩
  · rw [fgRunning, hcal]
    exact not_contains_erase hrun c.val
  · rw [hended]
    exact getB_setB_self _ _ _ Nat.one_ne_zero
  · rw [hended, getF_setB_ne _ _ (by clear * -; decide +revert)]
    exact getF_setF_of_lt u (by rw [fgResF_width]; exact hcode)
  · rw [hended]
    exact (fieldsKept_setB (by simp)).2 ((fieldsKept_setF (by simp)).2 (fieldsKept_of_regs hregs fieldsKept_refl))

theorem calApply_of_both {s : State} (h4 : isOn s 4 = true) (h5 : isOn s 5 = true) (c : Nat) (r : CalResult) :
    calApply c r s = { s with cal := { s.cal with waiting := tput s.cal.waiting c r } } := if_pos (by simp [h4, h5])

theorem calApply_of_one {s : State} (h : isOn s 4 = false ∨ isOn s 5 = false) (c : Nat) (r : CalResult) :
    calApply c r s = { s with cal := { s.cal with coef := tset s.cal.coef c r CalResult.blank, waiting := tdel s.cal.waiting c } } :=
  if_neg (by rcases h with h | h <;> simp [h])

theorem coefAt_calApply_of_one {s : State} (h : isOn s 4 = false ∨ isOn s 5 = false) (c : Nat) (r : CalResult) :
    coefAt (calApply c r s) c = r := by
  rw [calApply_of_one h]
  exact tget_tset_self ..

/-- Applying a result touches the coefficients and nothing of a run. -/
theorem calApply_only (c : Nat) (r : CalResult) (s : State) :
    calApply c r s = { s with cal := { s.cal with coef := (calApply c r s).cal.coef, waiting := (calApply c r s).cal.waiting } } := by
  unfold calApply
  split <;> rfl

/-- A background pass in range, with no priority pass in progress. -/
theorem bgComplete_of_range {s : State} {c : Fin 2} {r : CalResult} (hprio : prioRunning s c.val = false) (hline : isOn s (lineDom c.val) = true)
    (hfab : isOn s (fabDom c.val) = true) (hrange : calInRange r = true) : bgComplete c r s = calApply c.val (passResult s c.val r) s := by
  simp [bgComplete, hprio, hline, hfab, hrange]

/-! #### References lost (R263) -/

/-- The flags of lost references cleared, and the triggered calibration ended. -/
def refsLost (a b : Bool) (s : State) : State :=
  let s := onlyIf b (fun s => setB s F.VREF_OK false) (onlyIf a (fun s => setB s F.REFCLK_OK false) s)
  setB { s with cal := { s.cal with trig := false, trigHk := false, owed := [] } } F.T_LAST_VALID false

theorem refsLost_kept (a b : Bool) (s : State) : fieldsKept [F.REFCLK_OK, F.VREF_OK, F.T_LAST_VALID] s (refsLost a b s) := by
  have hflags : fieldsKept [F.REFCLK_OK, F.VREF_OK, F.T_LAST_VALID] s
      (onlyIf b (fun s => setB s F.VREF_OK false) (onlyIf a (fun s => setB s F.REFCLK_OK false) s)) :=
    fieldsKept_onlyIf (fieldsKept_onlyIf fieldsKept_refl fun _ h => (fieldsKept_setB (by simp)).2 h) fun _ h => (fieldsKept_setB (by simp)).2 h
  exact (fieldsKept_setB (by simp)).2 hflags

theorem refsLost_only (a b : Bool) (s : State) : refsLost a b s =
    { s with regs := (refsLost a b s).regs, cal := { s.cal with trig := false, trigHk := false, owed := [] } } := by
  cases a <;> cases b <;> rfl

theorem refclk_refsLost {a : Bool} (b : Bool) {s : State} (h : a = true ∨ getB s F.REFCLK_OK = false) : getB (refsLost a b s) F.REFCLK_OK = false := by
  have hflags : getB (onlyIf b (fun s => setB s F.VREF_OK false) (onlyIf a (fun s => setB s F.REFCLK_OK false) s)) F.REFCLK_OK = false := by
    rcases h with rfl | h
    · cases b <;> simp (disch := decide) only [onlyIf_true, onlyIf_false, getB_setB_ne, getB_setB_self]
    · cases a <;> cases b <;> simp (disch := decide) only [onlyIf_true, onlyIf_false, getB_setB_ne, getB_setB_self, h]
  exact (getB_setB_ne _ _ (by decide)).trans hflags

theorem vref_refsLost (a : Bool) {b : Bool} {s : State} (h : b = true ∨ getB s F.VREF_OK = false) : getB (refsLost a b s) F.VREF_OK = false := by
  have hflags : getB (onlyIf b (fun s => setB s F.VREF_OK false) (onlyIf a (fun s => setB s F.REFCLK_OK false) s)) F.VREF_OK = false := by
    rcases h with rfl | h
    · cases a <;> simp (disch := decide) only [onlyIf_true, onlyIf_false, getB_setB_self]
    · cases a <;> cases b <;> simp (disch := decide) only [onlyIf_true, onlyIf_false, getB_setB_ne, getB_setB_self, h]
  exact (getB_setB_ne _ _ (by decide)).trans hflags

theorem tLastValid_refsLost (a b : Bool) (s : State) : getB (refsLost a b s) F.T_LAST_VALID = false := getB_setB_self _ _ _ Nat.one_ne_zero

/-- With nothing in progress there is nothing to abort. -/
theorem hkAbort_of_idle {s : State} (h : getB s F.HK_CAL_BUSY = false) : hkAbort s = s := if_neg (by simp [h])

theorem fgAbort_of_idle {s : State} (h : s.cal.running = []) (c : Fin 2) : fgAbort c s = s := if_neg (by simp [fgRunning, h])

theorem prioAbort_of_idle {s : State} (h : getF s F.BG_PRIO = 0) (c : Fin 2) : prioAbort c s = s :=
  if_neg (by simp [prioRunning, h, bitOf])

theorem cal_of_apart {s t : State} (h : apart t = apart s) : t.cal = s.cal := congrArg (fun p => p.2.2.2.2.1) h

end Sys2Proof.Machine

namespace Sys2Proof.Certificates
open Sys2Proof Sys2Proof.Machine
open Sys2Proof.Safety (onlyFields fieldsKept)

/-- Settles O22: the request's checks in their order. -/
theorem foregroundRequestStartsOrSaysWhy : Obligations.ForegroundRequestStartsOrSaysWhy := by
  intro c s hon
  have hexec : exec (.fgReq (BitVec.ofNat 2 (2 ^ c.val))) s = .next (fgRequest c.val s).1 := congrArg Host.Outcome.next (fgReqs_one hon c)
  have hrefused {code : Nat} (hcode : code < 8) (h : (fgRequest c.val s).1 = calRefuse (fgResF c.val) c.val code s) :
      ∃ u, exec (.fgReq (BitVec.ofNat 2 (2 ^ c.val))) s = .next (detect .cal 1 c.val u) ∧ getF u (fgResF c.val) = code ∧
        onlyFields [fgResF c.val] s u :=
    ⟨setF s (fgResF c.val) code, hexec.trans (congrArg Host.Outcome.next h), getF_setF_of_lt s (by rw [fgResF_width]; exact hcode),
      onlyFields_setF (by simp)⟩
  refine ⟨fun hrefs htx hrun hline => ?_, fun hrefs => hrefused (by decide) ?_, fun hrefs htx => hrefused (by decide) ?_,
    fun hrefs htx hbusy => hrefused (by decide) ?_⟩
  · have hstart : (fgRequest c.val s).1 = fgStart c.val s := by
      rw [fgRequest, if_neg (by simp [hrefs]), if_neg (by simp [htx]), if_neg (by simp [hrun, hline])]
    obtain ⟨hrunning, hcal, hkept, honly⟩ := fgStarted c.val s
    exact ⟨_, hexec.trans (congrArg Host.Outcome.next hstart), hrunning, hcal, hkept, honly⟩
  · rw [fgRequest, if_pos (by simp [hrefs])]
  · rw [fgRequest, if_neg (by simp [hrefs]), if_pos htx]
  · rw [fgRequest, if_neg (by simp [hrefs]), if_neg (by simp [htx]), if_pos (by rcases hbusy with h | h <;> simp [h])]

/-- Settles O23: a triggered calibration takes the temperature and begins as CAL_START does; the end of a self-calibration leaves the
triggers of `cal` as they were through its event and its record. -/
theorem converterCalibrationBeginsAndEnds : Obligations.ConverterCalibrationBeginsAndEnds := by
  refine ⟨fun c s hon hline hrefs htrig hbusy => ⟨fun hc => ?begins, fun hno => ?waits⟩, fun g o s hline hbusy htrig => ?ends⟩
  case begins =>
    obtain ⟨-, hclk, hvref⟩ := refsOk_eq hrefs
    have hexec : exec c s = .next (trigStart s) := by
      rcases hc with rfl | ⟨rfl, hrun, hcal⟩
      · refine congrArg Host.Outcome.next ((if_neg (by simp [hon])).trans ?_)
        have hcode : (if (!refsOk s) = true then 3 else if (s.cal.trig || getB s F.HK_CAL_BUSY) = true then 2 else 0) = 0 := by
          simp [hrefs, htrig, hbusy]
        dsimp only
        rw [hcode]
        rfl
      · exact congrArg Host.Outcome.next (if_pos (by simp [hrun, hon, htrig, hcal]))
    obtain ⟨u, hu⟩ : ∃ u, u = trigBegun s := ⟨_, rfl⟩
    have hkeptU : fieldsKept [F.T_LAST, F.T_LAST_VALID] s u := hu ▸ trigBegun_kept s
    have hlast : getS u F.T_LAST = getS s F.TEMP := hu ▸ tLast_trigBegun s
    have hvalid : getB u F.T_LAST_VALID = true := hu ▸ tLastValid_trigBegun s
    have honlyU : u = { s with regs := u.regs, cal := u.cal } := by rw [hu]; rfl
    have htrigs : u.cal.trig = true ∧ u.cal.trigHk = true := by rw [hu]; exact ⟨rfl, rfl⟩
    have hsame {f : Fld} (hf : f = F.HK_CAL_BUSY ∨ f = F.REFCLK_OK ∨ f = F.VREF_OK) : getF u f = getF s f :=
      hkeptU f (by rcases hf with rfl | rfl | rfl <;> decide)
    have hbusyU : getB u F.HK_CAL_BUSY = false := by rw [getB, hsame (by simp)]; exact hbusy
    have hlineU : isOn u 4 = true := by rw [honlyU]; exact hline
    have hrefsU : refsOk u = true := by
      rw [refsOk, getB, getB, hsame (by simp), hsame (by simp), honlyU]
      exact hrefs
    obtain ⟨hbusyT, hkeptT, htrigT, htrigHkT, honlyT⟩ := selfCalBegun hlineU hbusyU hrefsU
    refine ⟨_, hexec.trans (congrArg Host.Outcome.next ((trigStart_of_line hline).trans (congrArg calStart hu.symm))), ?_, ?_, hbusyT,
      htrigT.trans htrigs.1, htrigHkT.trans htrigs.2, ?_, ?_⟩
    · rw [getS, hkeptT _ (by decide)]
      exact hlast
    · rw [getB, hkeptT _ (by decide)]
      exact hvalid
    · exact fieldsKept_trans (fieldsKept_mono hkeptU (by simp)) (fieldsKept_mono hkeptT (by simp))
    · rw [honlyT, honlyU]
  case waits =>
    exact congrArg Host.Outcome.next (if_neg (by rcases hno with h | h <;> simp [h]))
  case ends =>
    obtain ⟨hidle, hvalid, hboth, hone, hkept, honly⟩ := factorsTaken g.toNat o.toNat s
    obtain ⟨w, hw⟩ : ∃ w, w = hkFactorsTaken g.toNat o.toNat s := ⟨_, rfl⟩
    rw [← hw] at hidle hvalid hboth hone hkept honly
    obtain ⟨v, hv⟩ : ∃ v, v = each (List.range 32) (fun s i => restartChain i s) w := ⟨_, rfl⟩
    have hchains : BiasOnly w v := hv ▸ biasOnly_restartChains _ w
    have hregs : v.regs = w.regs := by rw [hchains]
    have hcal : v.cal = w.cal := by rw [hchains]
    have hcal' : w.cal.temp = s.cal.temp ∧ w.cal.trigHk = s.cal.trigHk := by rw [honly]; exact ⟨rfl, rfl⟩
    have hdone : hkCalDone g.toNat o.toNat s = offerCalib 0 0xFF 0 (tget s.cal.temp 2 0) (detect .bias 5 0 v) := by
      rw [hkCalDone_eq, ← hw, ← hv]
      dsimp only
      rw [hcal, hcal'.1]
    have htrig' : (hkCalDone g.toNat o.toNat s).cal.trigHk = false := by
      rw [hdone, cal_of_apart ((apart_offerCalib ..).trans (apart_detect ..)), hcal, hcal'.2, htrig]
    have hexec : exec (.hkCalComplete g o) s = .next (hkCalDone g.toNat o.toNat s) :=
      congrArg Host.Outcome.next ((if_pos (by simp [hline, hbusy])).trans (if_neg (by simp [htrig'])))
    refine ⟨v, hexec.trans (congrArg Host.Outcome.next hdone), ?_, ?_, fun i hi => ?_, fun h5 => ?_, fun h5 => ?_, ?_, ?_⟩
    · rw [getB_of_regs hregs, hidle]
    · rw [getB_of_regs hregs, hvalid]
    · rw [hv]
      exact chainAt_restartChains (.inl (List.mem_range.2 hi))
    · rw [hcal, hboth hline h5]
    · rw [getF_of_regs hregs, getF_of_regs hregs, (hone h5).1, (hone h5).2, Nat.mod_eq_of_lt g.isLt, Nat.mod_eq_of_lt o.isLt]
      exact ⟨rfl, rfl⟩
    · exact fieldsKept_of_regs hregs hkept
    · rw [hchains, honly]

/-- Settles O24: a run ends by its result alone; what it leaves is there before its record, its event and what it is owed. -/
theorem foregroundRunEndsInResultOrFailure : Obligations.ForegroundRunEndsInResultOrFailure := by
  intro c r s
  refine ⟨fun hrunning hrun hwake => ?_, fun hidle => congrArg Host.Outcome.next (if_pos (by simp [hidle]))⟩
  have hcomplete : fgComplete c r s = if calInRange r = true then
        let s := fgEnd c 0 (calApply c.val r s)
        let bytes := calBytes s c (tget s.cal.temp c.val 0) r
        calOwed c.val (startRec (.calib c) bytes 0 (detect .cal 0 c.val s))
      else calOwed c.val (detect .cal 2 c.val (fgEnd c 5 s)) := if_neg (by simp [hrunning])
  cases hrange : calInRange r with
  | true =>
    obtain ⟨t, ht⟩ : ∃ t, t = calApply c.val r s := ⟨_, rfl⟩
    have htonly := ht ▸ calApply_only c.val r s
    have hruns : t.cal.running = s.cal.running ∧ t.cal.wakeRun = s.cal.wakeRun ∧ t.cal.temp = s.cal.temp := by rw [htonly]; exact ⟨rfl, rfl, rfl⟩
    have hended := runEnded_spec (c := c) (code := 0) (by decide) (s := t) (hruns.1 ▸ hrun) (hruns.2.1 ▸ hwake)
    obtain ⟨u, hu⟩ : ∃ u, u = runEnded c.val 0 t := ⟨_, rfl⟩
    rw [← hu] at hended
    have hend : fgEnd c 0 (calApply c.val r s) = offerCalib 1 c.val 0 (tget s.cal.temp c.val 0) u := by
      rw [← ht, fgEnd_of_not_aborted (by decide), hruns.2.2, ← hu]
    refine ⟨u, calBytes (fgEnd c 0 (calApply c.val r s)) c (tget (fgEnd c 0 (calApply c.val r s)).cal.temp c.val 0) r, ?_, hended.running, hended.fgCal,
      ?_, fun _ => ⟨hended.result, fun hboth => ?_, fun hone => ?_, ?_⟩, fun h => absurd h Bool.false_ne_true.symm⟩
    · rw [hended.only, htonly]
    · exact fieldsKept_trans (fieldsKept_of_regs (by rw [htonly]) fieldsKept_refl) hended.kept
    · rw [hended.waiting, hended.coef, ht, calApply_of_both hboth.1 hboth.2]
      exact ⟨tfind_tput_self .., rfl⟩
    · rw [coefAt, hended.coef, ht]
      exact coefAt_calApply_of_one hone c.val r
    · exact congrArg Host.Outcome.next (hcomplete.trans ((if_pos hrange).trans (by dsimp only; rw [hend])))
  | false =>
    have hended := runEnded_spec (c := c) (code := 5) (by decide) hrun hwake
    refine ⟨_, [], hended.only, hended.running, hended.fgCal, hended.kept, fun h => absurd h Bool.false_ne_true,
      fun _ => ⟨hended.result, hended.coef, hended.waiting, ?_⟩⟩
    exact congrArg Host.Outcome.next (hcomplete.trans ((if_neg (by simp [hrange])).trans (by rw [fgEnd_of_not_aborted (by decide)])))

/-- Settles O25: a pass is a result without line DACs; an owed run starts as a request does; with nothing in progress a lost reference
aborts nothing. -/
theorem backgroundPassesAndReferencesFollowTheirRules : Obligations.BackgroundPassesAndReferencesFollowTheirRules := by
  refine ⟨fun c r s hprio => ⟨fun hline hfab hrange => ⟨fun hboth => ?waits, fun hone => ?applies⟩, fun hline hfab hrange => ?fails, fun hoff => ?off,
    fun hwake hrefs hline hidle => ?starts, fun hno => ?notOwed⟩, fun refclk vref s => ⟨fun hon hlost hbusy hrun hbg => ?lost, fun hon => ?present,
      fun hoff => ⟨congrArg Host.Outcome.next (if_pos (by simp [hoff])), congrArg Host.Outcome.next (if_neg (by simp [hoff]))⟩⟩⟩
  case waits =>
    refine ⟨_, passResult s c.val r, congrArg Host.Outcome.next ((bgComplete_of_range hprio hline hfab hrange).trans (calApply_of_both hboth.1 hboth.2 ..)),
      tfind_tput_self .., rfl, rfl, rfl, rfl, rfl⟩
  case applies =>
    have hcoef := coefAt_calApply_of_one hone c.val (passResult s c.val r)
    refine ⟨_, congrArg Host.Outcome.next (bgComplete_of_range hprio hline hfab hrange), by rw [hcoef]; rfl, by rw [hcoef]; rfl, by rw [hcoef]; rfl, ?_⟩
    rw [calApply_only]
  case fails =>
    refine congrArg Host.Outcome.next ?_
    rw [bgComplete]
    simp [hprio, hline, hfab, hrange]
  case off => exact congrArg Host.Outcome.next (if_pos (by rcases hoff with h | h <;> simp [h]))
  case starts =>
    obtain ⟨hrunning, hcal, hkept, honly⟩ := fgStarted c.val s
    exact ⟨_, congrArg Host.Outcome.next (if_pos (by simp [hwake, hrefs, hline, hidle])), hrunning, hcal, hkept, honly⟩
  case notOwed => exact congrArg Host.Outcome.next (if_neg (by rcases hno with h | h <;> simp [h]))
  case lost =>
    obtain ⟨u, hu⟩ : ∃ u, u = refsLost (refclk && getB s F.REFCLK_OK) (vref && getB s F.VREF_OK) s := ⟨_, rfl⟩
    have hkept : fieldsKept [F.REFCLK_OK, F.VREF_OK, F.T_LAST_VALID] s u := hu ▸ refsLost_kept _ _ s
    have honly := hu ▸ refsLost_only (refclk && getB s F.REFCLK_OK) (vref && getB s F.VREF_OK) s
    have hbusyU : getB u F.HK_CAL_BUSY = false := by rw [getB, hkept _ (by decide)]; exact hbusy
    have hbgU : getF u F.BG_PRIO = 0 := (hkept _ (by decide)).trans hbg
    have hrunU : u.cal.running = [] := by rw [honly]; exact hrun
    have hdraw : draw u 2 = draw s 2 := by rw [honly]; rfl
    have hnext : refLost refclk vref s = detect .cal 3 (draw s 2) (drew u) := by
      have hsome : ¬(!isOn s 1 || !(refclk && getB s F.REFCLK_OK || vref && getB s F.VREF_OK)) = true := by
        rcases hlost with ⟨h1, h2⟩ | ⟨h1, h2⟩ <;> simp [hon, h1, h2]
      have haborts : prioAbort 1 (prioAbort 0 (fgAbort 1 (fgAbort 0 (hkAbort u)))) = u := by
        rw [hkAbort_of_idle hbusyU, fgAbort_of_idle hrunU, fgAbort_of_idle hrunU, prioAbort_of_idle hbgU, prioAbort_of_idle hbgU]
      rw [← hdraw]
      refine (if_neg hsome).trans ?_
      rw [hu, refsLost] at haborts ⊢
      dsimp only at haborts ⊢
      rw [haborts]
    refine ⟨u, congrArg Host.Outcome.next hnext, fun h => ?_, fun h => ?_, hu ▸ tLastValid_refsLost .., by rw [honly], hkept, honly⟩
    · rw [hu, h]
      exact refclk_refsLost _ (by cases getB s F.REFCLK_OK <;> simp)
    · rw [hu, h]
      exact vref_refsLost _ (by cases getB s F.VREF_OK <;> simp)
  case present => exact ⟨_, congrArg Host.Outcome.next (if_pos hon), by simp (disch := decide) only [getB_setB_ne, getB_setB_self],
      by simp (disch := decide) only [getB_setB_self], onlyFields_of (by simp) rfl⟩

end Sys2Proof.Certificates

/-! ### Lane groups (08 R229, R232) -/
namespace Sys2Proof.Machine
open Safety (fieldsKept onlyFields)

/-! #### Adaptation -/

/-- What adaptation may change: coefficients, CTLE values, and draws. -/
structure Adapted (s t : State) : Prop where
  kept : ∀ f : Fld, (∀ k, f.key ≠ (F.LANE_CTLE k).key) → getF t f = getF s f
  only : t = { s with regs := t.regs, host := { s.host with coef := t.host.coef }, freeCnt := t.freeCnt }

theorem Adapted.refl (s : State) : Adapted s s := ⟨fun _ _ => rfl, rfl⟩

theorem Adapted.trans {s t u : State} (hst : Adapted s t) (htu : Adapted t u) : Adapted s u :=
  ⟨fun f h => (htu.kept f h).trans (hst.kept f h), by rw [htu.only, hst.only]⟩

theorem adapted_each {α : Type} {l : List α} {k : State → α → State} {s : State} (h : ∀ s x, Adapted s (k s x)) : Adapted s (each l k s) := by
  induction l generalizing s with
  | nil => exact Adapted.refl s
  | cons x l ih => exact (h s x).trans ih

theorem adapted_onlyIf {c : Bool} {k : State → State} {s : State} (h : ∀ s, Adapted s (k s)) : Adapted s (onlyIf c k s) := by
  unfold onlyIf
  split
  · exact h s
  · exact Adapted.refl s

theorem adapted_adaptLane (st k : Nat) (s : State) : Adapted s (adaptLane st k s) := by
  have hblock (on : Bool) (ix : List Nat) (t : State) :
      Adapted t (onlyIf on (each ix fun s i => drew (setCoef s (128 * k + i) (draw s 1024))) t) :=
    adapted_onlyIf fun _ => adapted_each fun _ _ => ⟨fun _ _ => rfl, rfl⟩
  have hctle (on : Bool) (t : State) : Adapted t (onlyIf on (fun s => drew (setF s (F.LANE_CTLE k) (draw s 25))) t) :=
    adapted_onlyIf fun u => ⟨fun f hf => getF_setF_ne u _ (hf k), rfl⟩
  unfold adaptLane
  exact (((hblock ..).trans (hblock ..)).trans (hblock ..)).trans (hctle ..)

theorem adapted_adaptGroup (l : Nat) (s : State) : Adapted s (adaptGroup l s) := adapted_each fun _ _ => adapted_adaptLane ..

/-- No field of the group's own block is a CTLE value. -/
theorem grpField_key_ne_laneCtle (l k : Nat) {f : Fld} (hf : f ∈ [F.GRP_STATE l, F.HOLDS l, F.GRP_LOOP l]) : f.key ≠ (F.LANE_CTLE k).key := by
  revert f
  simp only [List.forall_mem_cons, List.not_mem_nil, false_imp_iff, implies_true, and_true, Fld.key, F.GRP_STATE, F.HOLDS, F.GRP_LOOP, F.LANE_CTLE]
  omega

theorem grpState_adaptGroup (l : Nat) (s : State) : getF (adaptGroup l s) (F.GRP_STATE l) = getF s (F.GRP_STATE l) :=
  (adapted_adaptGroup l s).kept _ fun k => grpField_key_ne_laneCtle l k (by simp)

/-! #### Timers -/

theorem mem_timers_holdStart (l : Nat) (s : State) : l ∈ (holdStart l s).host.timers := by simp [holdStart]

/-! #### Initialisation (R229) -/

/-- The fields of a lane that its initialisation sets. -/
def initFields (k : Nat) : List Fld := [F.LANE_CTLE k, F.ADAPT_DONE k]

/-- A state whose coefficients alone differ. -/
def CoefOnly (s t : State) : Prop := t = { s with host := { s.host with coef := t.host.coef } }

/-- Set the coefficients of lane `k` with the listed indices as the zone of the group at `l` gives them. -/
def initCoefs (l k : Nat) (ix : List Nat) (s : State) : State := each ix (fun s i => setCoef s (128 * k + i) (initCoef s l (128 * k + i))) s

theorem coefOnly_initCoefs (l k : Nat) (ix : List Nat) (s : State) : CoefOnly s (initCoefs l k ix s) := by
  induction ix generalizing s with
  | nil => rfl
  | cons i ix ih =>
    have h := ih (setCoef s (128 * k + i) (initCoef s l (128 * k + i)))
    unfold CoefOnly at h ⊢
    rw [initCoefs, each_cons, ← initCoefs, h]
    rfl

theorem coef_initCoefs {l k i : Nat} {ix : List Nat} {s : State}
    (h : i ∈ ix ∨ tget s.host.coef (128 * k + i) 0 = initCoef s l (128 * k + i) % 1024) :
    tget (initCoefs l k ix s).host.coef (128 * k + i) 0 = initCoef s l (128 * k + i) % 1024 := by
  induction ix generalizing s with
  | nil => exact h.resolve_left List.not_mem_nil
  | cons j ix ih =>
    refine (ih (s := setCoef s (128 * k + j) (initCoef s l (128 * k + j))) ?_ :)
    rcases eq_or_ne i j with rfl | hne
    · exact .inr (tget_tset_self ..)
    · refine h.imp (fun hi => (List.mem_cons.1 hi).resolve_left hne) fun hi => ?_
      exact (tget_tset_ne _ _ _ _ (by omega)).trans hi

/-- What the initialisation of a lane leaves. -/
structure LaneInit (l k : Nat) (s t : State) : Prop where
  done : getB t (F.ADAPT_DONE k) = false
  ctle : getF t (F.LANE_CTLE k) = min (getF s (F.CTLE_INIT k)) 24
  coef : ∀ i, i < 17 → tget t.host.coef (128 * k + i) 0 = initCoef s l (128 * k + i) % 1024
  kept : fieldsKept (initFields k) s t
  only : t = { s with regs := t.regs, host := { s.host with coef := t.host.coef } }

theorem laneInit (l k : Nat) (s : State) : LaneInit l k s (initLane l k s) := by
  have hkey : (F.LANE_CTLE k).key ≠ (F.ADAPT_DONE k).key := by simp only [Fld.key, F.LANE_CTLE, F.ADAPT_DONE]; omega
  obtain ⟨u, hu⟩ : ∃ u, u = setFs s [(F.LANE_CTLE k, min (getF s (F.CTLE_INIT k)) 24), (F.ADAPT_DONE k, 0)] := ⟨_, rfl⟩
  have honly : u = { s with regs := u.regs } := by rw [hu]; rfl
  have hinit : initLane l k s = initCoefs l k (List.range 17 ++ List.range' 32 48) u := by rw [hu]; rfl
  have hcoefs := coefOnly_initCoefs l k (List.range 17 ++ List.range' 32 48) u
  rw [← hinit] at hcoefs
  have hregs : (initLane l k s).regs = u.regs := by rw [hcoefs]
  refine ⟨?_, ?_, fun i hi => ?_, ?_, ?_⟩
  · rw [getB_of_regs hregs, hu, setFs_cons, setFs_cons, setFs_nil, getB, getF_setF_self]
    rfl
  · rw [getF_of_regs hregs, hu, setFs_cons, setFs_cons, setFs_nil, getF_setF_ne _ _ hkey]
    exact getF_setF_of_lt s (by simp only [F.LANE_CTLE]; omega)
  · rw [hinit, coef_initCoefs (.inl (List.mem_append_left _ (List.mem_range.2 hi))), honly]
    rfl
  · exact fieldsKept_of_regs hregs (hu ▸ fieldsKept_setFs (by simp [initFields]) fieldsKept_refl)
  · rw [hcoefs, honly]

/-- What the initialisation of the lanes of a group leaves. -/
structure LanesInit (ks : List Nat) (s t : State) : Prop where
  done : ∀ k ∈ ks, getB t (F.ADAPT_DONE k) = false
  kept : fieldsKept (ks.flatMap initFields) s t
  only : t = { s with regs := t.regs, host := { s.host with coef := t.host.coef } }

theorem adaptDone_key_ne {k k' : Nat} (h : k ≠ k') : ∀ g ∈ initFields k', (F.ADAPT_DONE k).key ≠ g.key := by
  simp only [initFields, List.forall_mem_cons, List.not_mem_nil, false_imp_iff, implies_true, and_true, Fld.key, F.LANE_CTLE, F.ADAPT_DONE]
  omega

/-- A lane that is initialised stays so while others are. -/
theorem adaptDone_initLanes {l k : Nat} {ks : List Nat} {s : State} (h : k ∈ ks ∨ getB s (F.ADAPT_DONE k) = false) :
    getB (each ks (fun s k => initLane l k s) s) (F.ADAPT_DONE k) = false := by
  induction ks generalizing s with
  | nil => exact h.resolve_left List.not_mem_nil
  | cons k' ks ih =>
    rw [each_cons]
    refine ih ?_
    rcases eq_or_ne k k' with rfl | hne
    · exact .inr (laneInit l k s).done
    · refine h.imp (fun hk => (List.mem_cons.1 hk).resolve_left hne) fun hk => ?_
      rw [getB, (laneInit l k' s).kept _ (adaptDone_key_ne hne)]
      exact hk

theorem lanesInit (l : Nat) (ks : List Nat) (s : State) : LanesInit ks s (each ks (fun s k => initLane l k s) s) := by
  refine ⟨fun k hk => adaptDone_initLanes (.inl hk), ?_, ?_⟩
  · refine fieldsKept_each fieldsKept_refl fun t k hk h => fieldsKept_trans h (fieldsKept_mono (laneInit l k t).kept fun f hf => ?_)
    exact List.mem_flatMap.2 ⟨k, hk, hf⟩
  · induction ks generalizing s with
    | nil => rfl
    | cons k ks ih => rw [each_cons, ih, (laneInit l k s).only]

/-! #### The machine (R232) -/

theorem onGroup_of_able {s : State} {l : Nat} (h : groupAble s l = true) (f : State → State) : onGroup s l f = f s := if_pos h

/-- A group that has come up. -/
structure GroupUp (l : Nat) (s t : State) : Prop where
  state : getF t (F.GRP_STATE l) = 2
  timers : l ∉ t.host.timers
  stream : inHold s l = true → tget t.tx.stream l [] = []
  pending : t.pending = s.pending
  ldg : t.ldg = s.ldg
  fec : t.fec = s.fec

/-- The parts of a group's state that the time spent in HOLD leaves. -/
theorem holdSpent_only (l : Nat) (s : State) : holdSpent l s = { s with regs := (holdSpent l s).regs, freeCnt := (holdSpent l s).freeCnt } := by
  unfold holdSpent
  split <;> rfl

theorem groupUp_spec (l : Nat) (s : State) : GroupUp l s (groupUp l s) := by
  obtain ⟨u, hu⟩ : ∃ u, u = holdSpent l (adaptGroup l s) := ⟨_, rfl⟩
  have honly : u = { s with regs := u.regs, host := { s.host with coef := u.host.coef }, freeCnt := u.freeCnt } := by
    rw [hu, holdSpent_only, (adapted_adaptGroup l s).only]
  obtain ⟨v, hv⟩ : ∃ v, v = onlyIf (inHold s l) (demapFresh l) u := ⟨_, rfl⟩
  have hvonly : v = { u with tx := v.tx } := by
    rw [hv, onlyIf]
    split <;> rfl
  have hup : groupUp l s = setGroup { v with host := { v.host with
      timers := v.host.timers.filter (· != l), alarmed := v.host.alarmed.filter (· != l) } } l 2 := by
    rw [hv, hu]
    rfl
  rw [hup]
  refine ⟨getF_setF_of_lt _ (by simp only [F.GRP_STATE]; decide), by simp [setGroup], fun hhold => ?_, ?_, ?_, ?_⟩
  · rw [hv, hhold]
    exact tget_tdel_self ..
  · rw [hvonly, honly]
    rfl
  · rw [hvonly, honly]
    rfl
  · rw [hvonly, honly]
    rfl

/-- A group that has gone down. -/
structure GroupDown (l : Nat) (s t : State) : Prop where
  state : getF t (F.GRP_STATE l) = 0
  timers : l ∉ t.host.timers
  ldg : t.ldg = s.ldg
  fec : t.fec = s.fec

theorem groupDown_spec (l : Nat) (s : State) : GroupDown l s (groupDown l s) := by
  obtain ⟨u, hu⟩ : ∃ u, u = holdSpent l (adaptGroup l s) := ⟨_, rfl⟩
  have honly : u = { s with regs := u.regs, host := { s.host with coef := u.host.coef }, freeCnt := u.freeCnt } := by
    rw [hu, holdSpent_only, (adapted_adaptGroup l s).only]
  rw [groupDown, ← hu]
  refine ⟨getF_setF_of_lt _ (by simp only [F.GRP_STATE]; decide), by simp, ?_, ?_⟩
  · rw [honly]
    rfl
  · rw [honly]
    rfl

end Sys2Proof.Machine

namespace Sys2Proof.Certificates
open Sys2Proof Sys2Proof.Machine
open Sys2Proof.Safety (onlyFields fieldsKept)

/-- Settles O26: the rows of R232, each under its state and its conditions. -/
theorem laneGroupMachineFollowsItsRows : Obligations.LaneGroupMachineFollowsItsRows := by
  refine fun l s => ⟨fun hable => ⟨fun hdown => ?acquire, fun hstate hlocked => ?aligned, fun hfast => ⟨fun hlocked => ?confirmed, ?failed, fun hsig => ?timeout⟩,
    fun hstate htimer halarm => ?long, fun halarm => ?longAgain⟩, fun hable hup => ?down⟩
  case acquire =>
    obtain ⟨u, hu⟩ : ∃ u, u = initGroup l.val s := ⟨_, rfl⟩
    obtain ⟨hdone, hkept, honly⟩ : LanesInit (grpLanes s l.val) s u := hu ▸ lanesInit ..
    have hexec : exec (.groupZoneStateChange l) s = .next (setGroup (holdStart l.val u) l.val 1) :=
      congrArg Host.Outcome.next ((if_neg (by simp [hable])).trans ((if_pos hdown).trans (by rw [hu])))
    have hregs : (holdStart l.val u).regs = u.regs := rfl
    refine ⟨_, hexec, getF_setF_of_lt _ (by clear * -; decide +revert), mem_timers_holdStart l.val u, fun k hk => ?_, ?_, ?_⟩
    · have hkey : (F.ADAPT_DONE k).key ≠ (F.GRP_STATE l.val).key := by simp only [Fld.key, F.ADAPT_DONE, F.GRP_STATE]; omega
      rw [setGroup, getB_setF_ne _ _ hkey, getB_of_regs hregs, hdone k hk]
    · exact (fieldsKept_setF (by simp)).2 (fieldsKept_of_regs hregs (fieldsKept_mono hkept fun f hf => List.mem_cons_of_mem _ hf))
    · rw [honly]
      rfl
  case aligned =>
    obtain ⟨hst, htimers, -, hpending, hldg, hfec⟩ := groupUp_spec l.val s
    exact ⟨_, congrArg Host.Outcome.next ((onGroup_of_able hable _).trans (if_pos ⟨hstate, hlocked⟩)), hst, htimers, hpending, hldg, hfec⟩
  case confirmed =>
    obtain ⟨hst, htimers, hstream, -, -, -⟩ := groupUp_spec l.val s
    have hexec : exec (.holdConfirmation l true) s = .next (groupUp l.val s) :=
      congrArg Host.Outcome.next ((onGroup_of_able hable _).trans ((if_neg (by simp [hfast])).trans ((if_neg (by simp)).trans (if_pos hlocked))))
    exact ⟨_, hexec, hst, htimers, hstream (by simp [inHold, hfast])⟩
  case failed =>
    have hexec : exec (.holdConfirmation l false) s = .next (setGroup s l.val 4) :=
      congrArg Host.Outcome.next ((onGroup_of_able hable _).trans ((if_neg (by simp [hfast])).trans ((if_pos rfl).trans (if_pos hfast))))
    exact ⟨_, hexec, getF_setF_of_lt s (by clear * -; decide +revert), onlyFields_setF (by simp)⟩
  case timeout =>
    have hexec : exec (.holdFastTimeout l) s = .next (setGroup s l.val 4) :=
      congrArg Host.Outcome.next ((onGroup_of_able hable _).trans ((if_pos (List.all_eq_true.2 hsig)).trans (if_pos hfast)))
    exact ⟨_, hexec, getF_setF_of_lt s (by clear * -; decide +revert), onlyFields_setF (by simp)⟩
  case long =>
    exact ⟨_, congrArg Host.Outcome.next ((onGroup_of_able hable _).trans (if_pos ⟨hstate, htimer, halarm⟩)),
      List.mem_append_right _ (List.mem_singleton_self _), rfl⟩
  case longAgain =>
    exact congrArg Host.Outcome.next ((onGroup_of_able hable _).trans (if_neg fun h => h.2.2 halarm))
  case down =>
    obtain ⟨hst, htimers, hldg, hfec⟩ := groupDown_spec l.val s
    exact ⟨_, congrArg Host.Outcome.next ((if_pos (by simp [hable])).trans (if_neg hup)), hst, htimers, hldg, hfec⟩

end Sys2Proof.Certificates

/-! ### Lane locks and controls (08 R229, R231, R232, R236) -/
namespace Sys2Proof.Machine
open Safety (fieldsKept onlyFields)

/-! #### Locks -/

/-- The bit of a lane that a cause takes. -/
def causeBit (k : Nat) : LossCause → Fld
  | .signal => F.SIG_DET k
  | .cdr => F.CDR_LOCK k
  | .frame => F.FRAME_LOCK k

theorem laneLost_eq (lane : Fin 8) (cause : LossCause) (l : Nat) (s : State) :
    laneLost lane cause l s = relock lane l (setB s (causeBit lane.val cause) false) := by
  cases cause <;> rfl

/-- Without the bit that a cause takes, the lane does not hold its lock. -/
theorem lockHolds_of_cause (k : Fin 8) {cause : LossCause} {s : State} (h : cause ≠ .frame ∨ getF s (F.LANE_RATE k.val) = 5) :
    lockHolds (setB s (causeBit k.val cause) false) k.val = false := by
  cases cause with
  | signal => simp (disch := (clear * -; decide +revert)) only [lockHolds, causeBit, getB_setB_self, Bool.false_and]
  | cdr => simp (disch := (clear * -; decide +revert)) only [lockHolds, causeBit, getB_setB_self, Bool.and_false, Bool.false_and]
  | frame =>
    have hrate : getF s (F.LANE_RATE k.val) = 5 := h.resolve_left fun h => h rfl
    simp (disch := (clear * -; decide +revert)) only [lockHolds, causeBit, getB_setB_self, getF_setB_ne, hrate]
    simp

/-- A field of a lane is none of a group's. -/
theorem grpState_key_ne_lane (l k : Nat) {f : Fld} (hf : f ∈ [F.LOCKED k, F.SIG_DET k, F.CDR_LOCK k, F.FRAME_LOCK k, F.FREQ_KEPT k]) :
    (F.GRP_STATE l).key ≠ f.key := by
  revert f
  simp only [List.forall_mem_cons, List.not_mem_nil, false_imp_iff, implies_true, and_true, Fld.key, F.GRP_STATE, F.LOCKED, F.SIG_DET, F.CDR_LOCK,
    F.FRAME_LOCK, F.FREQ_KEPT]
  omega

theorem lockLost_of_unlocked {lane : Fin 8} {l : Nat} {s : State} (h : getB s (F.LOCKED lane.val) = false) :
    lockLost lane l s = setB s (F.LOCKED lane.val) false := if_pos (by simp [h])

/-- An UP group whose lane stops being locked, before its events. -/
def groupHeld (k l : Nat) (s : State) : State := satF (setGroup (holdStart l (adaptGroup l (setB s (F.LOCKED k) false))) l 3) (F.HOLDS l) 1

theorem lockLost_of_up {lane : Fin 8} {l : Nat} {s : State} (hlocked : getB s (F.LOCKED lane.val) = true) (hup : getF s (F.GRP_STATE l) = 2) :
    lockLost lane l s = detect .hpcs 0 l (detect (.hl lane) 0 0 (groupHeld lane.val l s)) := by
  have hstate : getF (setB s (F.LOCKED lane.val) false) (F.GRP_STATE l) = 2 :=
    (getF_setB_ne s _ (grpState_key_ne_lane l lane.val (by simp))).trans hup
  exact (if_neg (by simp [hlocked, hstate])).trans (if_pos hstate)

/-- What the loss leaves of the group. -/
structure GroupHeld (k l : Nat) (s t : State) : Prop where
  state : getF t (F.GRP_STATE l) = 3
  locked : getB t (F.LOCKED k) = false
  timers : l ∈ t.host.timers
  holds : getF t (F.HOLDS l) = min (getF s (F.HOLDS l) + 1) (2 ^ (F.HOLDS l).width - 1)
  only : t = { s with regs := t.regs, host := t.host, freeCnt := t.freeCnt }

theorem groupHeld_spec (k l : Nat) (s : State) : GroupHeld k l s (groupHeld k l s) := by
  obtain ⟨u, hu⟩ : ∃ u, u = adaptGroup l (setB s (F.LOCKED k) false) := ⟨_, rfl⟩
  obtain ⟨hkept, honly⟩ : Adapted (setB s (F.LOCKED k) false) u := hu ▸ adapted_adaptGroup ..
  have hkeys : (F.GRP_STATE l).key ≠ (F.HOLDS l).key ∧ (F.LOCKED k).key ≠ (F.HOLDS l).key ∧ (F.LOCKED k).key ≠ (F.GRP_STATE l).key ∧
      (F.HOLDS l).key ≠ (F.LOCKED k).key := by
    simp only [Fld.key, F.GRP_STATE, F.HOLDS, F.LOCKED]
    omega
  obtain ⟨hgh, hlh, hlg, hhl⟩ := hkeys
  have hlc (k' : Nat) : (F.LOCKED k).key ≠ (F.LANE_CTLE k').key := by
    simp only [Fld.key, F.LOCKED, F.LANE_CTLE]
    omega
  have hregs : (holdStart l u).regs = u.regs := rfl
  have hheld : groupHeld k l s = satF (setGroup (holdStart l u) l 3) (F.HOLDS l) 1 := by rw [groupHeld, hu]
  rw [hheld]
  refine ⟨?_, ?_, mem_timers_holdStart l u, ?_, ?_⟩
  · rw [getF_satF_ne _ _ hgh]
    exact getF_setF_of_lt _ (by simp only [F.GRP_STATE]; decide)
  · rw [getB, getF_satF_ne _ _ hlh, setGroup, getF_setF_ne _ _ hlg, getF_of_regs hregs, hkept _ hlc]
    exact getB_setB_self s _ _ Nat.one_ne_zero
  · have hholds : getF (setGroup (holdStart l u) l 3) (F.HOLDS l) = getF s (F.HOLDS l) := by
      rw [setGroup, getF_setF_ne _ _ (Ne.symm hgh), getF_of_regs hregs, hkept _ fun k' => grpField_key_ne_laneCtle l k' (by simp), getF_setB_ne s _ hhl]
    rw [satF, hholds]
    exact getF_setF_of_lt _ (by have := Nat.two_pow_pos (F.HOLDS l).width; omega)
  · rw [honly]
    rfl

/-! #### Frequency (R232) -/

theorem judgeFreq_of_kept {k l : Nat} {ppm : Int} (hlo : -50 ≤ ppm) (hhi : ppm ≤ 50) (s : State) :
    judgeFreq k l ppm s = setB s (F.FREQ_KEPT k) true := by
  simp [judgeFreq, hlo, hhi]

theorem judgeFreq_of_off {k l : Nat} {ppm : Int} (h : ppm < -50 ∨ 50 < ppm) {s : State} (hfast : getF s (F.GRP_STATE l) = 3) :
    judgeFreq k l ppm s = setGroup (setB s (F.FREQ_KEPT k) false) l 4 := by
  have hkept : (decide (-50 ≤ ppm) && decide (ppm ≤ 50)) = false := by simp; omega
  have hstate : getF (setB s (F.FREQ_KEPT k) false) (F.GRP_STATE l) = 3 := (getF_setB_ne s _ (grpState_key_ne_lane l k (by simp))).trans hfast
  rw [judgeFreq, hkept]
  exact if_pos hstate

/-- The conditions of a lane set, before LOCKED follows. -/
def lockBits (k : Nat) (s : State) : State :=
  onlyIf (getF s (F.LANE_RATE k) == 5) (fun s => setB s (F.FRAME_LOCK k) true) (setFs s [(F.SIG_DET k, 1), (F.CDR_LOCK k, 1)])

theorem lockHolds_lockBits (k : Fin 8) (s : State) : lockHolds (lockBits k.val s) k.val = true := by
  cases hrate : getF s (F.LANE_RATE k.val) == 5 with
  | true =>
    simp (disch := (clear * -; decide +revert)) only [lockHolds, lockBits, hrate, onlyIf_true, setFs_cons, setFs_nil, getB_setB_ne, getB_setF_ne,
      getB_setB_self, getF_setB_ne, getF_setF_ne]
    simp [getB]
  | false =>
    simp (disch := (clear * -; decide +revert)) only [lockHolds, lockBits, hrate, onlyIf_false, setFs_cons, setFs_nil, getB_setF_ne, getF_setF_ne, bne]
    simp (disch := (clear * -; decide +revert)) [getB]

theorem lockBits_kept (k : Nat) (s : State) : fieldsKept [F.SIG_DET k, F.CDR_LOCK k, F.FRAME_LOCK k] s (lockBits k s) :=
  fieldsKept_onlyIf (fieldsKept_setFs (by simp) fieldsKept_refl) fun _ h => (fieldsKept_setB (by simp)).2 h

theorem lockBits_only (k : Nat) (s : State) : lockBits k s = { s with regs := (lockBits k s).regs } := by
  unfold lockBits onlyIf
  split <;> rfl

/-! #### LOOP (R236) -/

/-- LOOP stored, with nothing left to return. -/
def loopSet (l v : Nat) (s : State) : State := setF { s with host := { s.host with back := tdel s.host.back l } } (F.GRP_LOOP l) v

theorem loop_loopSet (l : Nat) {v : Nat} (hv : v < 2 ^ 2) (s : State) : getF (loopSet l v s) (F.GRP_LOOP l) = v := getF_setF_of_lt _ hv

theorem grpState_loopSet (l v : Nat) (s : State) : getF (loopSet l v s) (F.GRP_STATE l) = getF s (F.GRP_STATE l) :=
  getF_setF_ne _ _ (by simp only [Fld.key, F.GRP_STATE, F.GRP_LOOP]; omega)

end Sys2Proof.Machine

namespace Sys2Proof.Certificates
open Sys2Proof Sys2Proof.Machine
open Sys2Proof.Safety (onlyFields fieldsKept)

/-- Settles O27: a lane's bits come first, LOCKED follows them, and the group's row follows LOCKED; the controls act on their own lane. -/
theorem laneLocksAndControlsTakeEffect : Obligations.LaneLocksAndControlsTakeEffect := by
  refine ⟨fun k l cause ppm s hin => ⟨fun hcause => ⟨fun hlocked hup => ?held, fun hunlocked => ?bits⟩, fun hlo hhi => ?locks, fun hlock hfreq hfast => ?drift⟩,
    fun k l v s => ⟨fun hin => ?restart, fun hin hmode hdone => ?oneShot, fun hdone => ?again, fun hon hpresent hloop => ⟨fun hup => ?loopUp, fun hnot => ?loopOther⟩,
      fun hloop => ?loopSame⟩⟩
  case held =>
    obtain ⟨u, hu⟩ : ∃ u, u = setB s (causeBit k.val cause) false := ⟨_, rfl⟩
    have honlyU : onlyFields [causeBit k.val cause] s u := hu ▸ onlyFields_setB (by simp)
    have hkeys : (F.LOCKED k.val).key ≠ (causeBit k.val cause).key := by cases cause <;> clear * - <;> decide +revert
    have hlockedU : getB u (F.LOCKED k.val) = true := by rw [hu, getB_setB_ne s _ hkeys, hlocked]
    have hfree : lockHolds u k.val = false := hu ▸ lockHolds_of_cause k hcause
    have hupU : getF u (F.GRP_STATE l) = 2 := by
      rw [hu, getF_setB_ne s _ (grpState_key_ne_lane l k.val (by cases cause <;> simp [causeBit])), hup]
    obtain ⟨hstate, hlost, htimers, hholds, honly⟩ := groupHeld_spec k.val l u
    have hexec : exec (.laneLockLost k cause) s = .next (detect .hpcs 0 l (detect (.hl k) 0 0 (groupHeld k.val l u))) := by
      refine congrArg Host.Outcome.next ?_
      simp only [hin, laneLost_eq]
      rw [← hu, relock, if_neg (by simp [hfree]), lockLost_of_up hlockedU hupU]
    refine ⟨_, hexec, hstate, hlost, htimers, ?_, ?_⟩
    · rw [hholds, honlyU.1 _ (by cases cause <;> simp [causeBit, Fld.key, F.HOLDS, F.SIG_DET, F.CDR_LOCK, F.FRAME_LOCK] <;> omega)]
    · rw [honly, honlyU.2]
  case bits =>
    have hkeys : (F.LOCKED k.val).key ≠ (causeBit k.val cause).key := by cases cause <;> clear * - <;> decide +revert
    have hexec : exec (.laneLockLost k cause) s = .next (setB (setB s (causeBit k.val cause) false) (F.LOCKED k.val) false) := by
      refine congrArg Host.Outcome.next ?_
      simp only [hin, laneLost_eq, relock, lockHolds_of_cause k hcause, lockLost_of_unlocked ((getB_setB_ne s _ hkeys).trans hunlocked)]
      rfl
    refine ⟨_, hexec, getB_setB_self _ _ _ Nat.one_ne_zero, onlyFields_of ?_ rfl⟩
    cases cause <;> simp [causeBit]
  case locks =>
    obtain ⟨u, hu⟩ : ∃ u, u = lockBits k.val s := ⟨_, rfl⟩
    have hholds : lockHolds u k.val = true := hu ▸ lockHolds_lockBits k s
    have hkept : fieldsKept [F.SIG_DET k.val, F.CDR_LOCK k.val, F.FRAME_LOCK k.val] s u := hu ▸ lockBits_kept k.val s
    have honly : u = { s with regs := u.regs } := hu ▸ lockBits_only k.val s
    have hexec : exec (.laneLocked k ppm) s = .next (setB (setB u (F.LOCKED k.val) true) (F.FREQ_KEPT k.val) true) := by
      have hrate : getF (setFs s [(F.SIG_DET k.val, 1), (F.CDR_LOCK k.val, 1)]) (F.LANE_RATE k.val) = getF s (F.LANE_RATE k.val) := by
        simp (disch := (clear * -; decide +revert)) only [setFs_cons, setFs_nil, getF_setF_ne]
      refine congrArg Host.Outcome.next ?_
      simp only [hin, hrate]
      rw [← lockBits, ← hu, relock, if_pos hholds, judgeFreq_of_kept hlo hhi]
    have hall : fieldsKept [F.LOCKED k.val, F.SIG_DET k.val, F.CDR_LOCK k.val, F.FRAME_LOCK k.val, F.FREQ_KEPT k.val] s
        (setB (setB u (F.LOCKED k.val) true) (F.FREQ_KEPT k.val) true) :=
      (fieldsKept_setB (by simp)).2 ((fieldsKept_setB (by simp)).2 (fieldsKept_mono hkept (by simp)))
    refine ⟨_, hexec, ?_, ?_, getB_setB_self _ _ _ Nat.one_ne_zero, ?_, hall, ?_⟩
    · simp (disch := (clear * -; decide +revert)) only [getB_setB_ne, getB_setB_self]
    · simp (disch := (clear * -; decide +revert)) only [lockHolds, getB_setB_ne, getF_setB_ne]
      exact hholds
    · exact hall _ fun f hf => grpState_key_ne_lane l k.val hf
    · rw [honly]
      rfl
  case drift =>
    obtain ⟨u, hu⟩ : ∃ u, u = setB s (F.SIG_DET k.val) true := ⟨_, rfl⟩
    have hlockedU : getB u (F.LOCKED k.val) = getB s (F.LOCKED k.val) := hu ▸ getB_setB_ne s _ (by clear * -; decide +revert)
    have hsigU : getB u (F.SIG_DET k.val) = true := hu ▸ getB_setB_self s _ _ Nat.one_ne_zero
    have honlyU : onlyFields [F.SIG_DET k.val] s u := hu ▸ onlyFields_setB (by simp)
    have hfastU : getF u (F.GRP_STATE l) = 3 := (honlyU.1 _ fun f hf => grpState_key_ne_lane l k.val (by simp_all)).trans hfast
    have hrelock : relock k l u = setB u (F.LOCKED k.val) (lockHolds u k.val) := by
      cases hholds : lockHolds u k.val with
      | true => exact if_pos hholds
      | false =>
        have hnone : getB s (F.LOCKED k.val) = false := by
          by_contra hlocked
          have hs := hlock (by simpa using hlocked)
          have hu' : lockHolds u k.val = (getB s (F.CDR_LOCK k.val) && (getF s (F.LANE_RATE k.val) != 5 || getB s (F.FRAME_LOCK k.val))) := by
            simp (disch := (clear * -; decide +revert)) only [hu, lockHolds, getB_setB_ne, getB_setB_self, getF_setB_ne, Bool.true_and]
          rw [lockHolds, Bool.and_assoc, ← hu', hholds, Bool.and_false] at hs
          exact Bool.false_ne_true hs
        rw [relock, if_neg (by simp [hholds]), lockLost_of_unlocked (hlockedU.trans hnone)]
    obtain ⟨w, hw⟩ : ∃ w, w = setB u (F.LOCKED k.val) (lockHolds u k.val) := ⟨_, rfl⟩
    have hfastW : getF w (F.GRP_STATE l) = 3 := hw ▸ (getF_setB_ne u _ (grpState_key_ne_lane l k.val (by simp))).trans hfastU
    have hexec : exec (.signalDetect k ppm) s = .next (setGroup (setB w (F.FREQ_KEPT k.val) false) l 4) := by
      refine congrArg Host.Outcome.next ?_
      simp only [hin]
      rw [← hu, hrelock, ← hw, judgeFreq_of_off hfreq hfastW]
    have hgrp {f : Fld} (hf : f ∈ [F.LOCKED k.val, F.SIG_DET k.val, F.CDR_LOCK k.val, F.FRAME_LOCK k.val, F.FREQ_KEPT k.val]) :
        f.key ≠ (F.GRP_STATE l).key := Ne.symm (grpState_key_ne_lane l k.val hf)
    have hrate : (F.LANE_RATE k.val).key ≠ (F.GRP_STATE l).key := by simp only [Fld.key, F.LANE_RATE, F.GRP_STATE]; omega
    refine ⟨_, hexec, ?_, ?_, ?_, getF_setF_of_lt _ (by simp only [F.GRP_STATE]; decide), onlyFields_of ?_ ?_⟩
    · rw [setGroup, getB_setF_ne _ _ (hgrp (by simp)), hw]
      simp (disch := (clear * -; decide +revert)) only [getB_setB_ne, hsigU]
    · rw [lockHolds, setGroup, getB_setF_ne _ _ (hgrp (by simp)), getB_setF_ne _ _ (hgrp (by simp)), getB_setF_ne _ _ (hgrp (by simp)),
        getB_setF_ne _ _ (hgrp (by simp)), getF_setF_ne _ _ hrate, hw]
      simp (disch := (clear * -; decide +revert)) only [getB_setB_ne, getB_setB_self, getF_setB_ne]
      rfl
    · rw [setGroup, getB_setF_ne _ _ (hgrp (by simp))]
      exact getB_setB_self w _ _ Nat.one_ne_zero
    · refine (fieldsKept_setF (by simp)).2 ((fieldsKept_setB (by simp)).2 ?_)
      rw [hw]
      exact (fieldsKept_setB (by simp)).2 (fieldsKept_mono honlyU.1 (by simp))
    · rw [hw, honlyU.2]
      rfl
  case restart =>
    obtain ⟨hdone, hctle, hcoef, hkept, honly⟩ := laneInit l k.val s
    refine ⟨initLane l k.val s, congrArg Host.Outcome.next ?_, hdone, hctle, hcoef, hkept, honly⟩
    rw [laneRestart, hin]
  case oneShot =>
    exact ⟨_, congrArg Host.Outcome.next (if_pos (by simp [hin, hmode, hdone])), getB_setB_self s _ _ Nat.one_ne_zero, onlyFields_setB (by simp)⟩
  case again => exact congrArg Host.Outcome.next (if_neg (by simp [hdone]))
  case loopUp =>
    obtain ⟨u, hu⟩ : ∃ u, u = loopSet k.val v.toNat s := ⟨_, rfl⟩
    obtain ⟨t, ht⟩ : ∃ t, t = adaptGroup k.val u := ⟨_, rfl⟩
    obtain ⟨hkept, honly⟩ : Adapted u t := ht ▸ adapted_adaptGroup ..
    have hupU : getF u (F.GRP_STATE k.val) = 2 := hu ▸ (grpState_loopSet ..).trans hup
    have hfull : groupToFull k.val u = setGroup (holdStart k.val t) k.val 4 := by rw [groupToFull, if_pos hupU, ht]
    have hexec : exec (.loop k v) s = .next (setGroup (holdStart k.val t) k.val 4) := by
      rw [← hfull, hu]
      exact congrArg Host.Outcome.next (if_pos ⟨hon, hpresent, hloop⟩)
    refine ⟨_, hexec, ?_, getF_setF_of_lt _ (by clear * -; decide +revert), mem_timers_holdStart .., ?_⟩
    · rw [setGroup, getF_setF_ne _ _ (by clear * -; decide +revert)]
      exact (hkept _ fun k' => grpField_key_ne_laneCtle k.val k' (by simp)).trans (hu ▸ loop_loopSet k.val v.isLt s)
    · rw [honly, hu]
      rfl
  case loopOther =>
    have hexec : exec (.loop k v) s = .next (loopSet k.val v.toNat s) :=
      congrArg Host.Outcome.next ((if_pos ⟨hon, hpresent, hloop⟩).trans (if_neg fun h => hnot ((grpState_loopSet ..).symm.trans h)))
    exact ⟨_, hexec, loop_loopSet k.val v.isLt s, (fieldsKept_setF (by simp)).2 fun _ _ => rfl, rfl⟩
  case loopSame => exact congrArg Host.Outcome.next (if_neg fun h => h.2.2 hloop)

end Sys2Proof.Certificates

/-! ### Lane receivers (08 R222, R223, R231, R239) -/
namespace Sys2Proof.Machine
open Safety (fieldsKept onlyFields)

/-! #### Frames -/

theorem inner_setInner (s : State) (k : Nat) (x : InnerSt) : tget (setInner s k x).host.inner k InnerSt.blank = x := tget_tset_self ..

/-- The frame that the next bits of a lane complete (R222). -/
def nextFrame (x : InnerSt) (bs : List Bool) : List Bool :=
  ((lastBits 448 (List.replicate 448 false ++ x.bits) ++ bs).drop (448 - x.tail)).take 448

section Frame
variable {k : Fin 8} {bs : List Bool} {s : State}

/-- A frame with a wrong SYNC that is the fourth in a row. -/
theorem innerFrame_of_lost (hlock : getB s (F.FRAME_LOCK k.val) = true) {x : InnerSt} (hx : tget s.host.inner k.val InnerSt.blank = x)
    (hsync : syncKind (nextFrame x bs) ≠ syncOf ((x.quad + 1) % 4)) (hbad : 3 ≤ x.bad) :
    innerFrame k bs s = setB (setInner s k.val InnerSt.blank) (F.FRAME_LOCK k.val) false := by
  have hfour : 4 ≤ (if syncKind (nextFrame x bs) = syncOf ((x.quad + 1) % 4) then 0 else x.bad + 1) := by
    rw [if_neg hsync]
    omega
  rw [innerFrame, if_pos hlock, hx]
  exact if_pos hfour

/-- A frame with the SYNC of its place. -/
theorem innerFrame_of_sync (hlock : getB s (F.FRAME_LOCK k.val) = true) {x : InnerSt} (hx : tget s.host.inner k.val InnerSt.blank = x)
    (hsync : syncKind (nextFrame x bs) = syncOf ((x.quad + 1) % 4)) :
    innerFrame k bs s = innerCount k (innerMsg (nextFrame x bs)).2 (setInner s k.val ⟨bs, x.tail, 0, (x.quad + 1) % 4,
      if (x.quad + 1) % 4 = 0 then (innerMsg (nextFrame x bs)).1 else x.msg ++ (innerMsg (nextFrame x bs)).1⟩) := by
  have hzero : (if syncKind (nextFrame x bs) = syncOf ((x.quad + 1) % 4) then 0 else x.bad + 1) = 0 := if_pos hsync
  have hlt : ¬4 ≤ (if syncKind (nextFrame x bs) = syncOf ((x.quad + 1) % 4) then 0 else x.bad + 1) := by
    rw [hzero]
    decide
  rw [innerFrame, if_pos hlock, hx]
  refine (if_neg hlt).trans ?_
  unfold nextFrame at hzero ⊢
  rw [hzero]

theorem innerFrame_of_found (hlock : getB s (F.FRAME_LOCK k.val) = false) {e q : Nat}
    (hfound : innerSearch (lastBits 4032 ((tget s.host.inner k.val InnerSt.blank).bits ++ bs)) = some (e, q)) :
    innerFrame k bs s = setB (setInner s k.val ⟨bs, e, 0, q, []⟩) (F.FRAME_LOCK k.val) true := by
  unfold innerFrame
  dsimp only
  rw [if_neg (by simp [hlock]), hfound]

theorem innerFrame_of_seeking (hlock : getB s (F.FRAME_LOCK k.val) = false) {seen : List Bool}
    (hseen : lastBits 4032 ((tget s.host.inner k.val InnerSt.blank).bits ++ bs) = seen) (hnone : innerSearch seen = none) :
    innerFrame k bs s = setInner s k.val ⟨seen, 0, 0, 0, []⟩ := by
  unfold innerFrame
  dsimp only
  rw [if_neg (by simp [hlock]), hseen, hnone]

end Frame

/-- INNER_FRAME of a lane at RATE 5. -/
theorem exec_innerFrame {k : Fin 8} {l : Nat} {s : State} (hin : laneIn s k.val = some l) (hrate : getF s (F.LANE_RATE k.val) = 5) (bits : BitVec 448) :
    exec (.innerFrame k bits) s = .next (relock k l (innerFrame k (bitsMsb 448 bits.toNat) s)) := by
  refine congrArg Host.Outcome.next ?_
  simp only [hin]
  exact if_pos hrate

/-- A lane at RATE 5 without frame lock does not hold its lock. -/
theorem relock_of_no_frame {k : Fin 8} {l : Nat} {s : State} (hrate : getF s (F.LANE_RATE k.val) = 5) (hlock : getB s (F.FRAME_LOCK k.val) = false) :
    relock k l s = lockLost k l s := if_neg (by simp [lockHolds, hrate, hlock])

/-! #### Samples of the pattern checker -/

/-- A decided sample touches the lane's windows alone. -/
theorem laneSample_only (k : Nat) (r : Int) (s : State) : (laneSample k r s).1 =
    { s with host := { s.host with smp := (laneSample k r s).1.host.smp, dec := (laneSample k r s).1.host.dec } } := rfl

theorem head_smp_laneSample (k : Nat) (r : Int) (s : State) :
    (tget (laneSample k r s).1.host.smp k []).head? = some (if getB s (F.RX_INV k) then -r else r) := by
  have hsmp : tget (laneSample k r s).1.host.smp k [] = ((if getB s (F.RX_INV k) then -r else r) :: tget s.host.smp k []).take 16 := by
    unfold laneSample
    dsimp only
    rw [tget_tset_self]
  rw [hsmp]
  rfl

/-- A symbol in lock that finds no errors before it: bits and errors count, and the window begins. -/
theorem patSymbol_of_lock {k : Fin 8} {deg w : Nat} {taps : List Nat} {s : State} {sym : Nat} (hlock : getB s (F.CHK_LOCK k.val) = true)
    (hwin : (tget s.host.pat k.val PatSt.blank).win = []) :
    ∃ errs t, patSymbol k deg taps w s sym = t ∧ t.regs = (addF (addF s (F.PAT_ERR k.val) errs) (F.PAT_BITS k.val) w).regs ∧
      t = { s with regs := t.regs, host := { s.host with pat := t.host.pat } } := by
  have hone (b : Bool) : ¬32 ≤ (((b :: ([] : List Bool)).take 256).filter id).length := by cases b <;> decide
  unfold patSymbol
  dsimp only
  rw [if_pos hlock, hwin, if_neg (hone _)]
  exact ⟨_, _, rfl, rfl, rfl⟩

end Sys2Proof.Machine

namespace Sys2Proof.Certificates
open Sys2Proof Sys2Proof.Machine
open Sys2Proof.Safety (onlyFields fieldsKept)

/-- Settles O28: frames by the SYNC of their place, samples by the checker's lock, codewords by what the decoder finds. -/
theorem laneReceiversCountAndLock : Obligations.LaneReceiversCountAndLock := by
  refine ⟨fun k l bits s hin hrate => ?frames, fun k l deg taps x r s hin hpoly hen hlock hwin => ?checker, fun l w s hable hrate hstate => ?codewords⟩
  case frames =>
    intro x bs frame q
    have hexec : exec (.innerFrame k bits) s = .next (relock k l (innerFrame k bs s)) := exec_innerFrame hin hrate bits
    clear_value bs
    refine ⟨fun hlock hsync hbad => ?lost, fun hlock hsync => ⟨fun n hn => ?corrected, fun hn => ?uncorrectable⟩,
      fun hlock => ⟨fun e p hfound => ?found, fun hnone => ?seeking⟩⟩
    case lost =>
      have hnext := innerFrame_of_lost hlock (x := x) rfl hsync hbad
      obtain ⟨u, hu⟩ : ∃ u, u = setB (setInner s k.val InnerSt.blank) (F.FRAME_LOCK k.val) false := ⟨_, rfl⟩
      have hrateU : getF u (F.LANE_RATE k.val) = 5 := hu ▸ (getF_setB_ne _ _ (by clear * -; decide +revert)).trans hrate
      have hlockU : getB u (F.FRAME_LOCK k.val) = false := hu ▸ getB_setB_self _ _ _ Nat.one_ne_zero
      refine ⟨u, ?_, hlockU, hu ▸ inner_setInner .., ?_, hu ▸ rfl⟩
      · rw [hexec, hnext, ← hu, relock_of_no_frame hrateU hlockU]
      · rw [hu]
        exact (fieldsKept_setB (by simp)).2 fun _ _ => rfl
    case corrected =>
      have hnext := innerFrame_of_sync hlock (x := x) rfl hsync
      rw [show (innerMsg (nextFrame x bs)).2 = some n from hn] at hnext
      refine ⟨_, hexec.trans (congrArg (fun t => Host.Outcome.next (relock k l t)) hnext), ?_, ?_, ?_, getF_setF_self .., ?_, rfl⟩
      · exact congrArg InnerSt.quad (inner_setInner ..)
      · exact congrArg InnerSt.bad (inner_setInner ..)
      · exact congrArg InnerSt.msg (inner_setInner ..)
      · exact (fieldsKept_addF (by simp)).2 fun _ _ => rfl
    case uncorrectable =>
      have hnext := innerFrame_of_sync hlock (x := x) rfl hsync
      rw [show (innerMsg (nextFrame x bs)).2 = none from hn] at hnext
      exact ⟨_, hexec.trans (congrArg (fun t => Host.Outcome.next (relock k l t)) hnext), getF_setF_self ..⟩
    case found =>
      have hnext := innerFrame_of_found (bs := bs) hlock hfound
      refine ⟨_, hexec.trans (congrArg (fun t => Host.Outcome.next (relock k l t)) hnext), getB_setB_self _ _ _ Nat.one_ne_zero, inner_setInner .., ?_⟩
      exact (fieldsKept_setB (by simp)).2 fun _ _ => rfl
    case seeking =>
      obtain ⟨seen, hseen⟩ : ∃ seen, lastBits 4032 (x.bits ++ bs) = seen := ⟨_, rfl⟩
      rw [hseen] at hnone ⊢
      have hnext := innerFrame_of_seeking (bs := bs) hlock hseen hnone
      exact ⟨_, hexec.trans (congrArg (fun t => Host.Outcome.next (relock k l t)) hnext), inner_setInner .., rfl⟩
  case checker =>
    obtain ⟨u, hu⟩ : ∃ u, u = (laneSample k.val r s).1 := ⟨_, rfl⟩
    have honly : u = { s with host := { s.host with smp := u.host.smp, dec := u.host.dec } } := hu ▸ laneSample_only k.val r s
    have hregs : u.regs = s.regs := by rw [honly]
    obtain ⟨errs, t, hsym, hregsT, honlyT⟩ := patSymbol_of_lock (deg := deg) (w := laneWidth u k.val) (taps := taps)
      (sym := (laneSample k.val r s).2) ((getB_of_regs hregs _).trans hlock) (by rw [honly]; exact hwin)
    have hexec : exec (.patternCheck k [r]) s = .next t := by
      refine congrArg Host.Outcome.next ((if_pos (by rw [hin]; rfl)).trans ?_)
      rw [each_cons, each_nil, laneInput]
      simp only [← hu, getF_of_regs hregs, getB_of_regs hregs, hpoly, hen, if_true]
      exact hsym
    have hwidth : laneWidth u k.val = laneWidth s k.val := by rw [laneWidth, getF_of_regs hregs, laneWidth]
    refine ⟨t, hexec, ?_, ?_, ?_, ?_, ?_⟩
    · rw [getB, getF_of_regs hregsT, getF_addF_ne _ _ (by clear * -; decide +revert), getF_addF_ne _ _ (by clear * -; decide +revert),
        getF_of_regs hregs]
      exact hlock
    · rw [getF_of_regs hregsT, addF, getF_setF_self, getF_addF_ne _ _ (by clear * -; decide +revert), getF_of_regs hregs, hwidth]
    · rw [honlyT, hu]
      exact head_smp_laneSample k.val r s
    · exact fieldsKept_of_regs hregsT ((fieldsKept_addF (by simp)).2 ((fieldsKept_addF (by simp)).2 (fieldsKept_of_regs hregs fieldsKept_refl)))
    · rw [honlyT, honly]
  case codewords =>
    intro n
    have hexec : exec (.hostRsCodeword l w) s = .next (rsTake l.val (w.map (·.toNat)) s) :=
      congrArg Host.Outcome.next (if_pos (by simp [hable, hrate, hstate]))
    refine ⟨fun j hj => ?_, fun hnone => ?_⟩
    · have hnext : rsTake l.val (w.map (·.toNat)) s =
          addF { s with host := { s.host with rsSeq := tset s.host.rsSeq l.val (n + 1) 0 } } (F.RS_CORR l.val) j := by
        unfold rsTake
        dsimp only
        rw [hj]
      refine ⟨_, hexec.trans (congrArg Host.Outcome.next hnext), getF_setF_self .., ?_, ?_, rfl⟩
      · exact (tget_tset_self s.host.rsSeq l.val (n + 1) 0 :)
      · exact (fieldsKept_addF (by simp)).2 fun _ _ => rfl
    · obtain ⟨v, hv⟩ : ∃ v, v = { s with host := { s.host with
          rsSeq := tset s.host.rsSeq l.val (n + 1) 0, rsBad := tset s.host.rsBad l.val (tget s.host.rsBad l.val [] ++ [n]) [] } } := ⟨_, rfl⟩
      have hnext : rsTake l.val (w.map (·.toNat)) s = detect .hpcs 1 l.val (addF v (F.RS_UNCORR l.val) 1) := by
        unfold rsTake
        dsimp only
        rw [hnone, hv]
      have hregs : v.regs = s.regs := hv ▸ rfl
      refine ⟨_, hexec.trans (congrArg Host.Outcome.next hnext), ?_, ?_, ?_⟩
      · rw [addF, getF_setF_self, getF_of_regs hregs]
      · rw [hv]
        exact tget_tset_self ..
      · exact (fieldsKept_addF (by simp)).2 (fieldsKept_of_regs hregs fieldsKept_refl)

end Sys2Proof.Certificates

/-! ### Blocks to the line (03 R72-R74; 06 R185-R187) -/
namespace Sys2Proof.Machine
open Safety (fieldsKept onlyFields)

/-! #### Block slots (R74) -/

/-- A slot with room in its run leaves the end of the run to `pushBlock`. -/
def pushSlot (c k g : Nat) (b : Blk) (s0 s : State) : State :=
  let key := scKey c k
  let x := cwCfg s0 c k g
  let n := runCws x (getF s0 (F.SHAPE_B c k)) (runLen s0 g)
  { s with tx := { s.tx with
      sent := tput s.tx.sent key b
      run := tset s.tx.run key (pushBlock x n (dataCws x n * x.dataBits) (blkBits b) (tget s0.tx.run key TxRun.blank)) TxRun.blank } }

/-- The run of a subcarrier has room for a block. -/
def slotRoom (s : State) (c k g : Nat) : Prop :=
  (tget s.tx.run (scKey c k) TxRun.blank).count * (cwCfg s c k g).dataBits + (tget s.tx.run (scKey c k) TxRun.blank).bits.length + 2112 ≤
    dataCws (cwCfg s c k g) (runCws (cwCfg s c k g) (getF s (F.SHAPE_B c k)) (runLen s g)) * (cwCfg s c k g).dataBits

section FillSlot
variable {s : State} {c k g : Nat} (hroom : slotRoom s c k g)
include hroom

theorem fillSlot_of_queued {f : Nat} {b : Blk} {q : List Blk} (hnext : nextFirkin s (scFirkins s g k) (tfind s.tx.served (scKey c k)) = some f)
    (hq : tget s.tx.queue f [] = b :: q) :
    fillSlot s c k g = pushSlot c k g b s { s with tx := { s.tx with queue := tset s.tx.queue f q [], served := tput s.tx.served (scKey c k) f } } := by
  have hfull : ¬_ < _ := Nat.not_lt.2 hroom
  unfold fillSlot
  dsimp only
  rw [if_neg hfull, hnext]
  dsimp only
  rw [hq]
  rfl

theorem fillSlot_of_none (hnext : nextFirkin s (scFirkins s g k) (tfind s.tx.served (scKey c k)) = none) :
    fillSlot s c k g = pushSlot c k g idleBlk s s := by
  have hfull : ¬_ < _ := Nat.not_lt.2 hroom
  unfold fillSlot
  dsimp only
  rw [if_neg hfull, hnext]
  rfl

end FillSlot

/-! #### Firkin queues (R72) -/

theorem reuseEntry_kept (m : Nat) (s : State) : fieldsKept [F.POISONED m] s (reuseEntry m s) := by
  unfold reuseEntry unpoison
  split
  · exact fieldsKept_refl
  · dsimp only
    split
    · exact (fieldsKept_setF (by simp)).2 fun _ _ => rfl
    · exact fun _ _ => rfl

theorem reuseEntry_only (m : Nat) (s : State) : reuseEntry m s =
    { s with regs := (reuseEntry m s).regs, prot := (reuseEntry m s).prot, freeCnt := (reuseEntry m s).freeCnt } := by
  unfold reuseEntry unpoison
  split
  · rfl
  · dsimp only
    split <;> rfl

/-- A block queued on a firkin that has a peer group. -/
structure BlkQueued (typ f : Nat) (words : List Word) (s t : State) : Prop where
  queue : tget t.tx.queue f [] = tget s.tx.queue f [] ++ [⟨typ, f, tget s.tx.fseq f 0, words⟩]
  fseq : tget t.tx.fseq f 0 = (tget s.tx.fseq f 0 + 1) % 65536
  others : ∀ f', f' ≠ f → tget t.tx.queue f' [] = tget s.tx.queue f' [] ∧ tget t.tx.fseq f' 0 = tget s.tx.fseq f' 0
  kept : fieldsKept [F.POISONED 3] s t
  only : t = { s with regs := t.regs, tx := { s.tx with queue := t.tx.queue, fseq := t.tx.fseq }, prot := t.prot, freeCnt := t.freeCnt }

theorem blkQueued {s : State} {typ f : Nat} {words : List Word} (hline : tget s.fec.line f 0 ≠ 0) : BlkQueued typ f words s (queueBlk s typ f words) := by
  obtain ⟨u, hu⟩ : ∃ u, u = reuseEntry 3 s := ⟨_, rfl⟩
  have hkept : fieldsKept [F.POISONED 3] s u := hu ▸ reuseEntry_kept 3 s
  have honly := hu ▸ reuseEntry_only 3 s
  have htx : u.tx = s.tx := by rw [honly]
  have hnext : queueBlk s typ f words = { u with tx := { s.tx with
      queue := tset s.tx.queue f (tget s.tx.queue f [] ++ [⟨typ, f, tget s.tx.fseq f 0, words⟩]) []
      fseq := tset s.tx.fseq f ((tget s.tx.fseq f 0 + 1) % 65536) 0 } } := by
    rw [queueBlk, if_neg hline, ← hu]
    dsimp only
    rw [htx]
  rw [hnext]
  refine ⟨tget_tset_self .., tget_tset_self .., fun f' hne => ⟨tget_tset_ne _ _ _ _ hne, tget_tset_ne _ _ _ _ hne⟩,
    fieldsKept_of_regs (t := u) rfl hkept, ?_⟩
  rw [honly]

theorem queueBlk_of_no_line {s : State} {f : Nat} (hline : tget s.fec.line f 0 = 0) (typ : Nat) (words : List Word) : queueBlk s typ f words = s :=
  if_pos hline

/-- One GAP block on each of the listed firkins that has a peer group (R73). -/
structure GapsQueued (l : List Nat) (s t : State) : Prop where
  queued : ∀ f ∈ l, tget s.fec.line f 0 ≠ 0 →
    tget t.tx.queue f [] = tget s.tx.queue f [] ++ [⟨1, f, tget s.tx.fseq f 0, []⟩] ∧ tget t.tx.fseq f 0 = (tget s.tx.fseq f 0 + 1) % 65536
  others : ∀ f, f ∉ l ∨ tget s.fec.line f 0 = 0 → tget t.tx.queue f [] = tget s.tx.queue f [] ∧ tget t.tx.fseq f 0 = tget s.tx.fseq f 0
  kept : fieldsKept [F.POISONED 3] s t
  only : t = { s with regs := t.regs, tx := { s.tx with queue := t.tx.queue, fseq := t.tx.fseq }, prot := t.prot, freeCnt := t.freeCnt }

theorem gapsQueued {l : List Nat} (hl : l.Nodup) (s : State) : GapsQueued l s (each l (fun s f => queueBlk s 1 f []) s) := by
  induction l generalizing s with
  | nil => exact ⟨fun f hf => absurd hf List.not_mem_nil, fun _ _ => ⟨rfl, rfl⟩, fieldsKept_refl, rfl⟩
  | cons g l ih =>
    obtain ⟨hnot, hl⟩ := List.nodup_cons.1 hl
    rw [each_cons]
    by_cases hline : tget s.fec.line g 0 = 0
    · rw [queueBlk_of_no_line hline]
      obtain ⟨hqueued, hothers, hkept, honly⟩ := ih hl s
      refine ⟨fun f hf hne => ?_, fun f hf => ?_, hkept, honly⟩
      · rcases List.mem_cons.1 hf with rfl | hf
        · exact absurd hline hne
        · exact hqueued f hf hne
      · exact hothers f (hf.imp_left fun h hf => h (List.mem_cons_of_mem _ hf))
    · have hfirst := blkQueued (typ := 1) (words := []) hline
      obtain ⟨u, hu⟩ : ∃ u, u = queueBlk s 1 g [] := ⟨_, rfl⟩
      rw [← hu] at hfirst ⊢
      have hfec : u.fec = s.fec := by rw [hfirst.only]
      obtain ⟨hqueued, hothers, hkept, honly⟩ := ih hl u
      rw [hfec] at hqueued hothers
      refine ⟨fun f hf hne => ?_, fun f hf => ?_, fieldsKept_trans hfirst.kept hkept, ?_⟩
      · rcases List.mem_cons.1 hf with rfl | hf
        · rw [(hothers f (.inl hnot)).1, (hothers f (.inl hnot)).2]
          exact ⟨hfirst.queue, hfirst.fseq⟩
        · have hfg : f ≠ g := fun h => hnot (h ▸ hf)
          rw [(hqueued f hf hne).1, (hqueued f hf hne).2, (hfirst.others f hfg).1, (hfirst.others f hfg).2]
          exact ⟨rfl, rfl⟩
      · have hfg : f ≠ g := by
          rintro rfl
          exact hf.elim (fun h => h (List.mem_cons_self ..)) hline
        obtain ⟨hq, hs⟩ := hothers f (hf.imp_left fun h hf => h (List.mem_cons_of_mem _ hf))
        exact ⟨hq.trans (hfirst.others f hfg).1, hs.trans (hfirst.others f hfg).2⟩
      · rw [honly, hfirst.only]

/-! #### Chunks (06 R186, R187) -/

/-- A chunk cut from a client's stream, before its block is queued. -/
def chunkCut (s : State) (l : Nat) (items : List ClientItem) : State :=
  { addF s (F.TX_OVERSIZE l) (items.filter oversize).length with tx := { s.tx with
      stream := tset s.tx.stream l ((tget s.tx.stream l [] ++ (items.filter emitted).flatMap itemWords).drop 64) []
      chunk := tset s.tx.chunk l ((tget s.tx.chunk l 0 + 1) % max (clientFirkins s l).length 1) 0 } }

/-- The words of the chunk. -/
def chunkWords (s : State) (l : Nat) (items : List ClientItem) : List Word :=
  let ws := tget s.tx.stream l [] ++ (items.filter emitted).flatMap itemWords
  ws.take 64 ++ List.replicate (64 - ws.length) fillWord

theorem cutChunk_of_firkin {s : State} {l f : Nat} (items : List ClientItem) (hf : (clientFirkins s l)[tget s.tx.chunk l 0]? = some f) :
    cutChunk s l items = queueBlk (chunkCut s l items) 0 f (chunkWords s l items) := by
  have hf' : (clientFirkins (addF s (F.TX_OVERSIZE l) (items.filter oversize).length) l)[tget s.tx.chunk l 0]? = some f := hf
  unfold cutChunk
  dsimp only
  rw [show (addF s (F.TX_OVERSIZE l) (items.filter oversize).length).tx = s.tx from rfl, hf']
  rfl

end Sys2Proof.Machine

namespace Sys2Proof.Certificates
open Sys2Proof Sys2Proof.Machine
open Sys2Proof.Safety (onlyFields fieldsKept)

/-- Settles O17: the next firkin with a block gives it to the slot, and only its queue changes; with none, the slot is IDLE. -/
theorem blockSlotSendsNextQueuedBlock : Obligations.BlockSlotSendsNextQueuedBlock := by
  intro c sc u s hgroup
  refine ⟨fun hfec hmode hroom => ?_, fun hoff => ?_⟩
  · have hexec : exec (.blockSlot c sc) s = .next (fillSlot s c.val sc.val (unitKey c.val u)) := by
      refine congrArg Host.Outcome.next ?_
      simp only [hgroup]
      exact if_pos (by simp [hfec, hmode])
    refine ⟨fun f b q hnext hq => ?_, fun hnext => ?_⟩
    · refine ⟨_, hexec.trans (congrArg Host.Outcome.next (fillSlot_of_queued hroom hnext hq)), tfind_tput_self .., tget_tset_self .., fun f' hne => ?_,
        tfind_tput_self .., rfl⟩
      exact tget_tset_ne _ _ _ _ hne
    · exact ⟨_, hexec.trans (congrArg Host.Outcome.next (fillSlot_of_none hroom hnext)), tfind_tput_self .., rfl, rfl, rfl⟩
  · refine congrArg Host.Outcome.next ?_
    simp only [hgroup]
    exact if_neg (by rcases hoff with h | h <;> simp [h])

/-- Settles O18: a chunk is cut and its block queued; a gap slot queues one GAP block on each firkin of the client. -/
theorem chunksAndGapBlocksGoOutInOrder : Obligations.ChunksAndGapBlocksGoOutInOrder := by
  refine ⟨fun l ext s f hfec hpresent => ?chunks, fun l ext s => ⟨fun hnear => if_pos hnear, fun hnear => if_neg (by simp [hnear])⟩,
    fun l s hfec hpresent => ⟨fun hhold hnodup => ?gaps, fun hhold => congrArg Host.Outcome.next (if_neg (by simp [hhold]))⟩⟩
  case chunks =>
    intro items
    refine ⟨fun hup hfirkin hline => ?_, fun hdown => congrArg Host.Outcome.next (if_neg (by simp [hdown]))⟩
    obtain ⟨s', hs'⟩ : ∃ s', s' = { s with host := { s.host with back := tdel s.host.back l.val } } := ⟨_, rfl⟩
    have htx : s'.tx = s.tx := hs' ▸ rfl
    have hfec' : s'.fec = s.fec := hs' ▸ rfl
    have hregs : s'.regs = s.regs := hs' ▸ rfl
    have hclient : clientFirkins s' l.val = clientFirkins s l.val := by rw [clientFirkins, hfec', clientFirkins]
    have hlen : max (clientFirkins s l.val).length 1 = (clientFirkins s l.val).length := by
      have := (List.getElem?_eq_some_iff.1 hfirkin).1
      omega
    obtain ⟨u, hu⟩ : ∃ u, u = chunkCut s' l.val items := ⟨_, rfl⟩
    have hqueued := blkQueued (s := u) (typ := 0) (f := f) (words := chunkWords s' l.val items) (by rw [hu]; exact hfec' ▸ hline)
    have hexec : exec (.demapperChunk l ext) s = .next (queueBlk u 0 f (chunkWords s' l.val items)) := by
      rw [hu, ← cutChunk_of_firkin items (by rw [htx, hclient]; exact hfirkin), hs']
      exact congrArg Host.Outcome.next (if_pos (by simp [hfec, hpresent, hup]))
    have htxU : u.tx = (chunkCut s' l.val items).tx := by rw [hu]
    obtain ⟨t, ht⟩ : ∃ t, t = queueBlk u 0 f (chunkWords s' l.val items) := ⟨_, rfl⟩
    rw [← ht] at hqueued hexec
    obtain ⟨hqueue, hfseq, hothers, hkept, honly⟩ := hqueued
    have hkeptU : fieldsKept [F.TX_OVERSIZE l.val] s u := by
      rw [hu]
      exact fieldsKept_of_regs (t := addF s' (F.TX_OVERSIZE l.val) (items.filter oversize).length) rfl
        ((fieldsKept_addF (by simp)).2 (fieldsKept_of_regs hregs fieldsKept_refl))
    have hstream : t.tx.stream = u.tx.stream ∧ t.tx.chunk = u.tx.chunk := by rw [honly]; exact ⟨rfl, rfl⟩
    have hqueueU : u.tx.queue = s.tx.queue ∧ u.tx.fseq = s.tx.fseq := by rw [htxU, ← htx]; exact ⟨rfl, rfl⟩
    rw [hqueueU.1, hqueueU.2] at hqueue
    rw [hqueueU.2] at hfseq
    refine ⟨t, hexec, hqueue.trans ?_, hfseq, ?_, ?_, ?_, fun f' hne => ?_, ?_, ?_⟩
    · rw [chunkWords, htx]
    · rw [hstream.1, htxU, chunkCut, tget_tset_self, htx]
    · rw [hstream.2, htxU, chunkCut, tget_tset_self, hclient, hlen, htx]
    · have hkey : (F.TX_OVERSIZE l.val).key ≠ (F.POISONED 3).key := by clear * -; decide +revert
      rw [hkept _ (by simpa using hkey), hu]
      exact (getF_setF_self ..).trans (by rw [getF_of_regs hregs])
    · exact ((hothers f' hne).1).trans (by rw [hqueueU.1])
    · exact fieldsKept_trans (fieldsKept_mono hkeptU (by simp)) (fieldsKept_mono hkept (by simp))
    · rw [honly, hu, hs']
      rfl
  case gaps =>
    obtain ⟨hqueued, hothers, hkept, honly⟩ := gapsQueued hnodup s
    exact ⟨_, congrArg Host.Outcome.next (if_pos (by simp [hfec, hpresent, hhold])), hqueued, fun f hf => (hothers f hf).1, hkept, honly⟩

end Sys2Proof.Certificates

/-! ### The peer table (07 R192, R196, R200) -/
namespace Sys2Proof.Machine
open Safety (fieldsKept onlyFields)

theorem unpoison_kept (m : Nat) (ws : List Nat) (s : State) : fieldsKept [F.POISONED m] s (unpoison m ws s) := by
  unfold unpoison
  dsimp only
  split
  · exact (fieldsKept_setF (by simp)).2 fun _ _ => rfl
  · exact fieldsKept_refl

theorem unpoison_only (m : Nat) (ws : List Nat) (s : State) :
    unpoison m ws s = { s with regs := (unpoison m ws s).regs, prot := (unpoison m ws s).prot } := by
  unfold unpoison
  dsimp only
  split <;> rfl

/-- EVENTS and INTR of an entry restart where TAG or KIND changes (R196). -/
def peerChanged (s : State) (n kind tag : Nat) : Bool :=
  tag != getF s (F.PEER_TAG n) || kind != getF s (F.PEER_KIND n) || tag != peerTag s n || kind != peerKind s n

theorem peerChanged_of_same {s : State} {n kind tag : Nat} (htag : tag = getF s (F.PEER_TAG n)) (hkind : kind = getF s (F.PEER_KIND n))
    (hfirst : unusable s 10 (2 * n) = false) (hsecond : unusable s 10 (2 * n + 1) = false) (hfree : kind = 0 → tag = 0) :
    peerChanged s n kind tag = false := by
  have hk : peerKind s n = kind := by simp [peerKind, hfirst, hsecond, hkind]
  have ht : peerTag s n = tag := by
    rw [peerTag, hk, ← htag]
    split
    · next h => exact (hfree h).symm
    · rfl
  simp [peerChanged, hk, ht, ← htag, ← hkind]

/-- An entry's counters restart. -/
def peerRestart (n : Nat) (s : State) : State := setFs s [(F.PEER_EVENTS n, 0), (F.PEER_INTR n, 0), (F.CARRIED_MASK n, peerMask s n)]

/-- A write that passes its checks. -/
theorem peerCtrlWrite_of_taken {s : State} {n v : Nat} (hon : isOn s 1 = true) (hkind : bitsOf v 30 2 < 2) (hrange : bitsOf v 8 5 ≤ bitsOf v 16 5) :
    peerCtrlWrite n v s =
      let tag := if bitsOf v 30 2 = 0 then 0 else getF s F.PEER_STAGE_TAG
      peerCount (onlyIf (peerChanged s n (bitsOf v 30 2) tag) (peerRestart n)
        (peerPut s n (bitsOf v 30 2) tag (bitsOf v 24 1) (bitsOf v 8 5) (bitsOf v 16 5))) := by
  unfold peerCtrlWrite
  dsimp only
  rw [if_neg (by simp [hon]), if_neg (by omega)]
  rfl

end Sys2Proof.Machine

namespace Sys2Proof.Certificates
open Sys2Proof Sys2Proof.Machine
open Sys2Proof.Safety (onlyFields fieldsKept)

/-- Settles O29: the entry's words are put first; the counters restart where what was there differs, then FREE_COUNT follows. -/
theorem peerEntryWriteIsCheckedAndTaken : Obligations.PeerEntryWriteIsCheckedAndTaken := by
  intro n v s
  refine ⟨fun hoff => congrArg Host.Outcome.next (if_pos (by simp [hoff])), fun hon hbad => ?_, fun hon hkind hrange => ?_⟩
  · exact congrArg Host.Outcome.next ((if_neg (by simp [hon])).trans (if_pos hbad))
  obtain ⟨tag, htag⟩ : ∃ tag, tag = if bitsOf v.toNat 30 2 = 0 then 0 else getF s F.PEER_STAGE_TAG := ⟨_, rfl⟩
  obtain ⟨w, hw⟩ : ∃ w, w = unpoison 10 [2 * n.val, 2 * n.val + 1] s := ⟨_, rfl⟩
  have hwkept : fieldsKept [F.POISONED 10] s w := hw ▸ unpoison_kept 10 _ s
  obtain ⟨u, hu⟩ : ∃ u, u = setFs w [(F.PEER_TAG n.val, tag), (F.PEER_KIND n.val, bitsOf v.toNat 30 2), (F.PEER_CARRIER n.val, bitsOf v.toNat 24 1),
    (F.PEER_FIRST n.val, bitsOf v.toNat 8 5), (F.PEER_LAST n.val, bitsOf v.toNat 16 5)] := ⟨_, rfl⟩
  obtain ⟨changed, hchanged⟩ : ∃ b, b = peerChanged s n.val (bitsOf v.toNat 30 2) tag := ⟨_, rfl⟩
  obtain ⟨t, ht⟩ : ∃ t, t = peerCount (onlyIf changed (peerRestart n.val) u) := ⟨_, rfl⟩
  have hexec : exec (.peerCtrlWrite n v) s = .next t := by
    refine congrArg Host.Outcome.next ((peerCtrlWrite_of_taken hon hkind hrange).trans ?_)
    rw [ht, hu, hw, hchanged, htag]
    rfl
  have hcounters : fieldsKept [F.PEER_EVENTS n.val, F.PEER_INTR n.val, F.CARRIED_MASK n.val, F.FREE_COUNT] u t := by
    rw [ht]
    exact (fieldsKept_setF (by simp)).2 (fieldsKept_onlyIf fieldsKept_refl fun _ h => fieldsKept_setFs (by simp) h)
  have hwords : fieldsKept [F.PEER_TAG n.val, F.PEER_KIND n.val, F.PEER_CARRIER n.val, F.PEER_FIRST n.val, F.PEER_LAST n.val] w u :=
    hu ▸ fieldsKept_setFs (by simp) fieldsKept_refl
  have hword {f : Fld} {x : Nat} (hf : ∀ g ∈ [F.PEER_EVENTS n.val, F.PEER_INTR n.val, F.CARRIED_MASK n.val, F.FREE_COUNT], f.key ≠ g.key)
      (hx : getF u f = x) : getF t f = x := (hcounters f hf).trans hx
  have hlt (i k : Nat) : bitsOf v.toNat i k < 2 ^ k := Nat.mod_lt _ (Nat.two_pow_pos k)
  refine ⟨t, hexec, hword (by clear * -; decide +revert) ?_, hword (by clear * -; decide +revert) ?_, hword (by clear * -; decide +revert) ?_,
    hword (by clear * -; decide +revert) ?_, hword (by clear * -; decide +revert) ?_, fun hsame hfirst hsecond => ?_, fun hother => ?_, ?_, ?_⟩
  · simp (disch := (clear * -; decide +revert)) only [hu, setFs_cons, setFs_nil, getF_setF_ne, getF_setF_self]
    exact Nat.mod_eq_of_lt (hlt 30 2)
  · simp (disch := (clear * -; decide +revert)) only [hu, setFs_cons, setFs_nil, getF_setF_ne, getF_setF_self]
    exact Nat.mod_eq_of_lt (hlt 24 1)
  · simp (disch := (clear * -; decide +revert)) only [hu, setFs_cons, setFs_nil, getF_setF_ne, getF_setF_self]
    exact Nat.mod_eq_of_lt (hlt 8 5)
  · simp (disch := (clear * -; decide +revert)) only [hu, setFs_cons, setFs_nil, getF_setF_self]
    exact Nat.mod_eq_of_lt (hlt 16 5)
  · simp (disch := (clear * -; decide +revert)) only [hu, setFs_cons, setFs_nil, getF_setF_ne, getF_setF_self, htag]
    split <;> rfl
  · have hunchanged : changed = false := by
      rw [hchanged, htag]
      exact peerChanged_of_same hsame.1 hsame.2 hfirst hsecond fun h => if_pos h
    have htu : t = peerCount u := by rw [ht, hunchanged]; rfl
    have hread {f : Fld} (hcount : f.key ≠ F.FREE_COUNT.key) (hword : ∀ g ∈ [F.PEER_TAG n.val, F.PEER_KIND n.val, F.PEER_CARRIER n.val,
        F.PEER_FIRST n.val, F.PEER_LAST n.val], f.key ≠ g.key) (hpoison : ∀ g ∈ [F.POISONED 10], f.key ≠ g.key) : getF t f = getF s f := by
      rw [htu, peerCount, getF_setF_ne _ _ hcount, hwords f hword, hwkept f hpoison]
    exact ⟨hread (by clear * -; decide +revert) (by clear * -; decide +revert) (by clear * -; decide +revert),
      hread (by clear * -; decide +revert) (by clear * -; decide +revert) (by clear * -; decide +revert)⟩
  · have hrestart : t = peerCount (peerRestart n.val u) := by
      have hyes : changed = true := by
        rw [hchanged, peerChanged]
        rcases hother with h | h <;> simp [h]
      rw [ht, hyes]
      rfl
    rw [hrestart, peerCount, peerRestart]
    simp (disch := (clear * -; decide +revert)) only [setFs_cons, setFs_nil, getF_setF_ne, getF_setF_self, Nat.zero_mod, and_self]
  · exact fieldsKept_trans (fieldsKept_mono hwkept (by simp)) (fieldsKept_trans (fieldsKept_mono hwords (by simp)) (fieldsKept_mono hcounters (by simp)))
  · have honlyU : u = { s with regs := u.regs, prot := u.prot } := by
      rw [hu, hw, unpoison_only]
      rfl
    rw [ht, honlyU]
    cases changed <;> rfl

end Sys2Proof.Certificates

/-! ### Record writes and snapshots (05 R140, R141; 07 R200; 15 R371, R372, R444) -/
namespace Sys2Proof.Machine
open Safety (fieldsKept onlyFields)

/-! #### Starting a write -/

theorem mgmtWorks_of_on {s : State} (h : isOn s 1 = true) : mgmtWorks s = true := by
  have hdom : domAt s 1 = .on := by simpa [isOn] using h
  rw [mgmtWorks, hdom]

theorem startRec_of_ready {k : RecKind} {bytes : List Byte} {cause : Nat} {s : State} (hworks : mgmtWorks s = true) (hsize : s.st.small = false) :
    startRec k bytes cause s =
      { s with st := { s.st with writes := s.st.writes ++ [⟨k, bytes, cause⟩], waiting := s.st.waiting ++ [recRank k] } } :=
  if_neg (by simp [hworks, hsize])

/-! #### Ending a write (R371, R372, R444) -/

theorem storeDone_only (s : State) (r : Nat) : storeDone s r = { s with regs := (storeDone s r).regs, st := { s.st with waiting := (storeDone s r).st.waiting } } := by
  unfold storeDone
  split <;> rfl

theorem storeDone_kept (s : State) (r : Nat) : fieldsKept [F.STORE_ACTIVE] s (storeDone s r) := by
  unfold storeDone
  split
  · exact (fieldsKept_setF (by simp)).2 fieldsKept_refl
  · exact fun _ _ => rfl

section Slots
variable {s t : State} {k : RecKind} (hk : k ≠ .snapshot) (hcells : t.st.cells = s.st.cells)
include hk hcells

/-- The slots of a kind but the snapshot's are judged by the flash alone. -/
theorem newest_of_cells : newest t k = newest s k := by
  have hne : (k != .snapshot) = true := by
    cases k with
    | snapshot => exact absurd rfl hk
    | _ => rfl
  have hvalid (i : Nat) : slotValid t k i = slotValid s k i := by simp only [slotValid, hcells, hne, Bool.true_or]
  have hseq (i : Nat) : slotSeq t k i = slotSeq s k i := by rw [slotSeq, hcells, slotSeq]
  simp only [newest, hvalid, hseq]

theorem nextSlot_of_cells : nextSlot t k = nextSlot s k := by rw [nextSlot, newest_of_cells hk hcells, nextSlot]

theorem nextSeq_of_cells : nextSeq t k = nextSeq s k := by
  have hseq (i : Nat) : slotSeq t k i = slotSeq s k i := by rw [slotSeq, hcells, slotSeq]
  simp only [nextSeq, newest_of_cells hk hcells, hseq]

end Slots

/-- A write that is over, out of the list and of the port. -/
def recOver (k : RecKind) (w : RecWrite) (s : State) : State := storeDone { s with st := { s.st with writes := s.st.writes.erase w } } (recRank k)

theorem recOver_only (k : RecKind) (w : RecWrite) (s : State) : recOver k w s =
    { s with regs := (recOver k w s).regs, st := { s.st with writes := s.st.writes.erase w, waiting := (recOver k w s).st.waiting } } :=
  storeDone_only ..

theorem recOver_kept (k : RecKind) (w : RecWrite) (s : State) : fieldsKept [F.STORE_ACTIVE] s (recOver k w s) :=
  
  fieldsKept_trans (t := { s with st := { s.st with writes := s.st.writes.erase w } }) (fun _ _ => rfl) (storeDone_kept _ _)

section EndRec
variable {s : State} {k : RecKind} {w : RecWrite} (hw : (s.st.writes.find? fun x => x.kind == k) = some w)
include hw

theorem endRec_of_ok (hworks : mgmtWorks (recOver k w s) = true) (hsize : (recOver k w s).st.small = false) : endRec k true s =
    recDone k (bufferDone k w.bytes (setCells (recOver k w s)
      (flashPut (flashErase (recOver k w s).st.cells (slotAddr k (nextSlot (recOver k w s) k)) (recBlocks k)) (slotAddr k (nextSlot (recOver k w s) k))
        (sealRec k (nextSeq (recOver k w s) k) w.bytes)))) := by
  unfold endRec
  simp only [hw]
  refine if_pos ?_
  change (true && mgmtWorks (recOver k w s) && !(recOver k w s).st.small) = true
  rw [hworks, hsize]
  rfl

theorem endRec_of_fail : endRec k false s = recFailed k w.cause (killSlot (recOver k w s) k (nextSlot (recOver k w s) k)) := by
  unfold endRec
  simp only [hw]
  exact if_neg (by simp)

end EndRec

/-! #### Snapshots (R141) -/

theorem snapStart_of_ready {s : State} (hon : isOn s 9 = true) (hidle : getB s F.SNAP_BUSY = false) :
    snapStart s = startRec .snapshot [] 0 (setB { s with fth := { s.fth with snap := some ⟨0, snapHead s, []⟩ } } F.SNAP_BUSY true) :=
  if_neg (by simp [hon, hidle])

end Sys2Proof.Machine

namespace Sys2Proof.Certificates
open Sys2Proof Sys2Proof.Machine
open Sys2Proof.Safety (onlyFields fieldsKept)

/-- Settles O30: a write is asked for and is over by its kind; a snapshot is one whose pages are copied first. -/
theorem recordWritesAndSnapshotsGoToTheStore : Obligations.RecordWritesAndSnapshotsGoToTheStore := by
  refine ⟨⟨fun s => ⟨fun hon hidle hsize => ?save, fun hno => congrArg Host.Outcome.next (if_pos (by rcases hno with h | h <;> simp [h]))⟩,
    fun k ok w s hk hworks hsize hw => ?ends, fun k ok s hk hnone => ?nothing⟩,
    fun s => ⟨fun c hc hon hidle hworks hsize => ?starts, fun hbusy => ?busy, fun x hsnap hnext hon hworks hdma => ⟨fun hclean => ?copies, fun w hbad => ?halts, ?early⟩,
      fun x hsnap => ?fails, fun hnone ok => ?none⟩⟩
  case save =>
    have hready := startRec_of_ready (k := .peer) (bytes := peerBytes s) (cause := 0) (s := setB s F.SAVE_BUSY true) (mgmtWorks_of_on hon) hsize
    refine ⟨_, congrArg Host.Outcome.next ((if_neg (by simp [hon, hidle])).trans hready), ?_, rfl, rfl, ?_, rfl⟩
    · exact getB_setB_self s F.SAVE_BUSY true Nat.one_ne_zero
    · exact fieldsKept_of_regs (t := setB s F.SAVE_BUSY true) rfl (by simp)
  case ends =>
    obtain ⟨t, ht⟩ : ∃ t, t = recOver k w s := ⟨_, rfl⟩
    have honly := ht ▸ recOver_only k w s
    have hkept : fieldsKept [F.STORE_ACTIVE] s t := ht ▸ recOver_kept k w s
    have hcells : t.st.cells = s.st.cells := by rw [honly]
    have hworksT : mgmtWorks t = true := by rw [honly]; exact hworks
    have hsizeT : t.st.small = false := by rw [honly]; exact hsize
    have hslot : nextSlot t k = nextSlot s k := nextSlot_of_cells hk hcells
    have hseq : nextSeq t k = nextSeq s k := nextSeq_of_cells hk hcells
    have hsealed (cells : List Host.Cell) : (setCells t cells).st.writes = s.st.writes.erase w ∧ fieldsKept [F.STORE_ACTIVE] s (setCells t cells) ∧
        setCells t cells = { s with regs := (setCells t cells).regs, st := { s.st with
          writes := (setCells t cells).st.writes, waiting := (setCells t cells).st.waiting, cells := (setCells t cells).st.cells } } := by
      refine ⟨?_, fieldsKept_of_regs (t := t) rfl hkept, ?_⟩ <;> rw [honly] <;> rfl
    cases ok with
    | true =>
      have hend := endRec_of_ok hw (ht ▸ hworksT) (ht ▸ hsizeT)
      rw [← ht, hslot, hseq, hcells] at hend
      obtain ⟨hwrites, hkeptV, honlyV⟩ := hsealed (flashPut (flashErase s.st.cells (slotAddr k (nextSlot s k)) (recBlocks k))
        (slotAddr k (nextSlot s k)) (sealRec k (nextSeq s k) w.bytes))
      exact ⟨_, hwrites, hkeptV, honlyV, fun _ => ⟨congrArg Host.Outcome.next ((if_neg hk).trans hend), rfl⟩, fun h => absurd h Bool.false_ne_true.symm⟩
    | false =>
      have hend := endRec_of_fail hw
      rw [← ht, hslot, killSlot, hcells] at hend
      obtain ⟨hwrites, hkeptV, honlyV⟩ := hsealed (flashErase s.st.cells (slotAddr k (nextSlot s k)) 0x10000)
      exact ⟨_, hwrites, hkeptV, honlyV, fun h => absurd h Bool.false_ne_true, fun _ => ⟨congrArg Host.Outcome.next ((if_neg hk).trans hend), rfl⟩⟩
  case nothing =>
    refine congrArg Host.Outcome.next ((if_neg hk).trans ?_)
    rw [endRec, hnone]
  case starts =>
    obtain ⟨u, hu⟩ : ∃ u, u = { s with fth := { s.fth with snap := some ⟨0, snapHead s, []⟩ } } := ⟨_, rfl⟩
    have hregs : u.regs = s.regs := hu ▸ rfl
    have hst : u.st = s.st := hu ▸ rfl
    have hworksU : mgmtWorks (setB u F.SNAP_BUSY true) = true := by rw [hu]; exact hworks
    have hstart : snapStart s = startRec .snapshot [] 0 (setB u F.SNAP_BUSY true) := by
      rw [hu]
      exact snapStart_of_ready hon hidle
    rw [startRec_of_ready hworksU (hst ▸ hsize)] at hstart
    have hexec : exec c s = .next (snapStart s) := by
      rcases hc with rfl | ⟨rfl, hperiod⟩
      · rfl
      · exact congrArg Host.Outcome.next (if_neg hperiod)
    refine ⟨_, hexec.trans (congrArg Host.Outcome.next hstart), ?_, ?_, ?_, ?_, ?_⟩
    · exact getB_setB_self u F.SNAP_BUSY true Nat.one_ne_zero
    · rw [hu]
      rfl
    · rw [hu]
      rfl
    · rw [hu]
      rfl
    · exact fieldsKept_of_regs (t := setB u F.SNAP_BUSY true) rfl ((fieldsKept_setB (by simp)).2 (fieldsKept_of_regs hregs fieldsKept_refl))
  case busy =>
    have hstay : snapStart s = s := if_pos (by simp [hbusy])
    refine ⟨congrArg Host.Outcome.next hstay, congrArg Host.Outcome.next ?_⟩
    rw [hstay]
    exact ite_self s
  case copies =>
    have hexec : exec .snapshotPageCopy s = .next (copyPage x s) := by
      refine congrArg Host.Outcome.next ?_
      simp only [hsnap, hclean]
      exact if_neg (by simp [hnext, hon, hworks, hdma])
    exact ⟨copyPage x s, _, hexec, rfl, rfl, rfl, fun h => if_neg (by omega), rfl⟩
  case halts =>
    refine congrArg Host.Outcome.next ?_
    simp only [hsnap, hbad]
    exact if_neg (by simp [hnext, hon, hworks, hdma])
  case early =>
    refine congrArg Host.Outcome.next ?_
    rw [endSnap]
    simp only [hsnap]
    exact (if_neg (by simp)).trans (if_pos hnext)
  case fails =>
    refine congrArg Host.Outcome.next ?_
    rw [endSnap]
    simp only [hsnap]
    exact if_pos rfl
  case none =>
    constructor
    · refine congrArg Host.Outcome.next ?_
      simp only [hnone]
    · refine congrArg Host.Outcome.next ?_
      rw [endSnap]
      simp only [hnone]

end Sys2Proof.Certificates

/-! ### Pages of the triplet table (05 R135, R138, R139, R142) -/
namespace Sys2Proof.Machine
open Safety (fieldsKept onlyFields)

/-! #### Pages cleared -/

theorem tget_tkeep {α : Type} (t : Tab α) (p : Nat → Bool) (i : Nat) (d : α) : tget (tkeep p t) i d = if p i then tget t i d else d := by
  have hfind : tfind (tkeep p t) i = if p i then tfind t i else none := tfind_filter t p i
  rw [tget, hfind, tget]
  split <;> rfl

/-- What clearing pages leaves. -/
structure PagesCleared (ps : List Nat) (s t : State) : Prop where
  zero : ∀ i, i / 65536 ∈ ps → tableEntry t i = 0
  others : ∀ i, i / 65536 ∉ ps → tableEntry t i = tableEntry s i
  kept : fieldsKept [F.POISONED 0] s t
  only : t = { s with regs := t.regs, prot := t.prot, fth := { s.fth with table := t.fth.table, acc := t.fth.acc } }

theorem pagesCleared (ps : List Nat) (s : State) : PagesCleared ps s (clearPages ps s) := by
  have htable : (clearPages ps s).fth.table = tkeep (fun k => !ps.contains (k / 65536)) s.fth.table := by
    unfold clearPages
    dsimp only
    split <;> rfl
  refine ⟨fun i hi => ?_, fun i hi => ?_, ?_, ?_⟩
  · rw [tableEntry, htable, tget_tkeep, if_neg (by simp [hi])]
  · rw [tableEntry, htable, tget_tkeep, if_pos (by simp [hi]), tableEntry]
  · unfold clearPages
    dsimp only
    split
    · exact (fieldsKept_setF (by simp)).2 fun _ _ => rfl
    · exact fun _ _ => rfl
  · unfold clearPages
    dsimp only
    split <;> rfl

/-! #### A field of every group -/

section EachGroup
variable {G : Nat → Fld} (hG : ∀ g g', g ≠ g' → (G g).key ≠ (G g').key) {k : State → Nat → State}
  (hk : ∀ s g f, f.key ≠ (G g).key → getF (k s g) f = getF s f) {v : Nat → Nat} (hv : ∀ s g, getF (k s g) (G g) = v (getF s (G g)))
include hG hk

theorem getF_each_of_not_mem {l : List Nat} {s : State} {g : Nat} (hg : g ∉ l) : getF (each l k s) (G g) = getF s (G g) := by
  induction l generalizing s with
  | nil => rfl
  | cons g' l ih =>
    rw [each_cons, ih fun h => hg (List.mem_cons_of_mem _ h)]
    exact hk s g' _ (hG g g' fun h => hg (h ▸ List.mem_cons_self ..))

include hv in
/-- Each group's field is updated once. -/
theorem getF_each_of_mem {l : List Nat} (hl : l.Nodup) {s : State} {g : Nat} (hg : g ∈ l) : getF (each l k s) (G g) = v (getF s (G g)) := by
  induction l generalizing s with
  | nil => exact absurd hg List.not_mem_nil
  | cons g' l ih =>
    obtain ⟨hnot, hl⟩ := List.nodup_cons.1 hl
    rw [each_cons]
    rcases List.mem_cons.1 hg with rfl | hg
    · rw [getF_each_of_not_mem hG hk hnot, hv]
    · rw [ih hl hg, hk s g' _ (hG g g' fun h => hnot (h ▸ hg))]

end EachGroup

theorem adaptEpoch_key_ne (g g' : Nat) (h : g ≠ g') : (F.ADAPT_EPOCH g).key ≠ (F.ADAPT_EPOCH g').key := by
  simp only [Fld.key, F.ADAPT_EPOCH]
  omega

theorem poisoned_key_ne_adaptEpoch (m g : Nat) : (F.ADAPT_EPOCH g).key ≠ (F.POISONED m).key := by
  simp only [Fld.key, F.ADAPT_EPOCH, F.POISONED]
  omega

/-- Every group's ADAPT_EPOCH goes up by one. -/
theorem adaptEpoch_bumped {l : List Nat} (hl : l.Nodup) {s : State} {g : Nat} (hg : g ∈ l) :
    getF (each l bumpEpoch s) (F.ADAPT_EPOCH g) = (getF s (F.ADAPT_EPOCH g) + 1) % 2 ^ 32 :=
  getF_each_of_mem (v := fun n => (n + 1) % 2 ^ 32) adaptEpoch_key_ne (fun s _ _ hf => getF_addF_ne s 1 hf) (fun _ _ => getF_setF_self ..) hl hg

theorem bumped_kept {l fs} {s : State} (h : ∀ g ∈ l, F.ADAPT_EPOCH g ∈ fs) : fieldsKept fs s (each l bumpEpoch s) :=
  fieldsKept_each fieldsKept_refl fun _ g hg hkept => (fieldsKept_addF (h g hg)).2 hkept

theorem regsOnly_each {α : Type} {l : List α} {k : State → α → State} (hk : ∀ s x, k s x = { s with regs := (k s x).regs }) (s : State) :
    each l k s = { s with regs := (each l k s).regs } := by
  induction l generalizing s with
  | nil => rfl
  | cons x l ih =>
    rw [each_cons, ih, hk]

theorem bumped_only (l : List Nat) (s : State) : each l bumpEpoch s = { s with regs := (each l bumpEpoch s).regs } :=
  regsOnly_each (fun _ _ => rfl) s

/-- Steps that change nothing change nothing together. -/
theorem each_of_fixed {α : Type} {l : List α} {k : State → α → State} {s : State} (h : ∀ x ∈ l, k s x = s) : each l k s = s := by
  induction l with
  | nil => rfl
  | cons x l ih => rw [each_cons, h x (List.mem_cons_self ..), ih fun y hy => h y (List.mem_cons_of_mem _ hy)]

/-! #### Snapshots loaded (R142) -/

theorem newest_congr {s t : State} (hcells : t.st.cells = s.st.cells) (hbuild : getF t (F.ZONE_BUILD 2) = getF s (F.ZONE_BUILD 2)) (k : RecKind) :
    newest t k = newest s k := by
  have hvalid (i : Nat) : slotValid t k i = slotValid s k i := by simp only [slotValid, hcells, hbuild]
  have hseq (i : Nat) : slotSeq t k i = slotSeq s k i := by rw [slotSeq, hcells, slotSeq]
  simp only [newest, hvalid, hseq]

/-- The state from which a load in progress takes the newest snapshot. -/
def loadTaken (s : State) : State := setB { s with fth := { s.fth with loading := false } } F.FTH_CLEARING (s.fth.clear.length != 0)

theorem newest_loadTaken (s : State) : newest (loadTaken s) .snapshot = newest s .snapshot :=
  newest_congr (s := s) (t := loadTaken s) rfl (getF_setB_ne { s with fth := { s.fth with loading := false } } (f := F.FTH_CLEARING) (g := F.ZONE_BUILD 2) _ (by decide))
    .snapshot

theorem newest_lt_two {s : State} {k : RecKind} {i : Nat} (h : newest s k = some i) : i < 2 := by
  unfold newest at h
  split at h
  · obtain rfl := Option.some.inj h
    split <;> omega
  · obtain rfl := Option.some.inj h
    omega
  · obtain rfl := Option.some.inj h
    omega
  · exact absurd h (by simp)

/-- The load of the pages of a group does not end the load. -/
theorem loading_loadPage (slot : Nat) (s : State) (p : Nat) : (loadPage slot s p).fth.loading = s.fth.loading := by
  have hclear : (clearPages [p] s).fth.loading = s.fth.loading := by rw [(pagesCleared [p] s).only]
  unfold loadPage
  dsimp only
  split <;> exact hclear

theorem loading_each {α : Type} {l : List α} {k : State → α → State} (h : ∀ s x, (k s x).fth.loading = s.fth.loading) (s : State) :
    (each l k s).fth.loading = s.fth.loading := by
  induction l generalizing s with
  | nil => rfl
  | cons x l ih => rw [each_cons, ih, h]

theorem loading_loadGroup (slot : Nat) (s : State) (g : Nat) : (loadGroup slot s g).fth.loading = s.fth.loading := by
  unfold loadGroup
  dsimp only
  split
  · exact loading_each (loading_loadPage slot) _
  · have hclear : (clearPages (grpPages s g) s).fth.loading = s.fth.loading := by rw [(pagesCleared _ s).only]
    exact hclear

end Sys2Proof.Machine

namespace Sys2Proof.Certificates
open Sys2Proof Sys2Proof.Machine
open Sys2Proof.Safety (onlyFields fieldsKept)

/-- Settles O31: pages are cleared first, each group's epoch follows once; a load without a snapshot clears them all. -/
theorem fathomPagesClearAndLoad : Obligations.FathomPagesClearAndLoad := by
  refine ⟨fun s => ⟨fun hon => ?clearAll, fun hon howed => ?owed, fun hoff => congrArg Host.Outcome.next (if_pos (by simp [hoff])),
    fun hno => congrArg Host.Outcome.next (if_pos (by rcases hno with h | h <;> simp [h]))⟩,
    fun s => ⟨fun hon hload hnone => ?fresh, fun slot hon hload hsome => ?loaded, fun hall => ?tags,
      fun hno => congrArg Host.Outcome.next (if_pos (by rcases hno with h | h <;> simp [h]))⟩⟩
  case clearAll =>
    obtain ⟨u, hu⟩ : ∃ u, u = clearPages ((List.range 32).flatMap (grpPages s)) s := ⟨_, rfl⟩
    obtain ⟨hzero, hothers, hkept, honly⟩ : PagesCleared ((List.range 32).flatMap (grpPages s)) s u := hu ▸ pagesCleared _ s
    have hnext : clearAll s = each (List.range 32) bumpEpoch u := by rw [hu]; exact if_neg (by simp [hon])
    obtain ⟨t, ht⟩ : ∃ t, t = each (List.range 32) bumpEpoch u := ⟨_, rfl⟩
    have honlyT : t = { u with regs := t.regs } := ht ▸ bumped_only _ u
    have hentry (i : Nat) : tableEntry t i = tableEntry u i := by rw [honlyT]; rfl
    refine ⟨t, congrArg Host.Outcome.next (hnext.trans ht.symm), fun i hi => ?_, fun i hi => ?_, fun g hg => ?_, ?_, ?_⟩
    · obtain ⟨g, hg, hi⟩ := hi
      rw [hentry]
      exact hzero i (List.mem_flatMap.2 ⟨g, List.mem_range.2 hg, hi⟩)
    · rw [hentry]
      refine hothers i fun h => ?_
      obtain ⟨g, hg, hmem⟩ := List.mem_flatMap.1 h
      exact hi g (List.mem_range.1 hg) hmem
    · rw [ht, adaptEpoch_bumped List.nodup_range (List.mem_range.2 hg), hkept _ (by simpa using poisoned_key_ne_adaptEpoch 0 g)]
    · refine fieldsKept_trans (fieldsKept_mono hkept (by simp)) (ht ▸ bumped_kept fun g hg => ?_)
      exact List.mem_cons_of_mem _ (List.mem_map_of_mem hg)
    · rw [honlyT, honly]
  case owed =>
    obtain ⟨s₁, hs₁⟩ : ∃ s₁, s₁ = { s with fth := { s.fth with clear := [] } } := ⟨_, rfl⟩
    obtain ⟨v, hv⟩ : ∃ v, v = clearPages s.fth.clear s₁ := ⟨_, rfl⟩
    obtain ⟨hzero, hothers, hkept, honly⟩ : PagesCleared s.fth.clear s₁ v := hv ▸ pagesCleared _ s₁
    obtain ⟨gs, hgs, hin⟩ : ∃ gs, gs = (List.range 32).filter (fun g => (grpPages v g).any s.fth.clear.contains) ∧ ∀ g ∈ gs, g < 32 :=
      ⟨_, rfl, fun g hg => List.mem_range.1 (List.mem_filter.1 hg).1⟩
    obtain ⟨w, hw⟩ : ∃ w, w = each gs bumpEpoch v := ⟨_, rfl⟩
    have honlyW : w = { v with regs := w.regs } := hw ▸ bumped_only gs v
    have hfth : w.fth = v.fth := by rw [honlyW]
    have hloading : v.fth.loading = s.fth.loading := by rw [honly, hs₁]
    have hexec : exec .fathomPageClear s = .next (detect .fth 3 0 (setB w F.FTH_CLEARING w.fth.loading)) := by
      rw [hw, hgs, hv, hs₁]
      exact congrArg Host.Outcome.next (if_neg (by simp [hon, howed]))
    refine ⟨_, hexec, ?_, ?_, fun i hi => ?_, fun i hi => ?_, ?_⟩
    · rw [setB_fth, hfth, honly, hs₁]
    · rw [getB_setB_self w F.FTH_CLEARING _ Nat.one_ne_zero, hfth, hloading]
    · rw [tableEntry, setB_fth, hfth]
      exact hzero i hi
    · rw [tableEntry, setB_fth, hfth]
      exact (hothers i hi).trans (by rw [hs₁]; rfl)
    · have hbumps : fieldsKept ((List.range 32).map F.ADAPT_EPOCH) v w :=
        hw ▸ bumped_kept fun g hg => List.mem_map_of_mem (List.mem_range.2 (hin g hg))
      have hs : fieldsKept [] s s₁ := hs₁ ▸ fun _ _ => rfl
      exact (fieldsKept_setB (by simp)).2 (fieldsKept_mono (fieldsKept_trans (fieldsKept_trans (fieldsKept_mono hs (by simp))
        (fieldsKept_mono hkept (List.cons_subset_cons _ (List.nil_subset _)))) (fieldsKept_mono hbumps (List.subset_cons_self _ _)))
        (List.subset_cons_self _ _))
  case fresh =>
    obtain ⟨s₁, hs₁⟩ : ∃ s₁, s₁ = loadTaken s := ⟨_, rfl⟩
    have hnewest : newest s₁ .snapshot = none := (hs₁ ▸ newest_loadTaken s).trans hnone
    obtain ⟨ps, hps⟩ : ∃ ps, ps = List.range 256 := ⟨_, rfl⟩
    obtain ⟨v, hv⟩ : ∃ v, v = clearPages ps s₁ := ⟨_, rfl⟩
    obtain ⟨hzero, -, -, honly⟩ : PagesCleared ps s₁ v := hv ▸ pagesCleared _ s₁
    obtain ⟨w, hw⟩ : ∃ w, w = each (List.range 32) (fun s g => setF s (F.ADAPT_EPOCH g) 0) v := ⟨_, rfl⟩
    have honlyW : w = { v with regs := w.regs } := hw ▸ regsOnly_each (fun _ _ => rfl) v
    have hfth : w.fth = v.fth := by rw [honlyW]
    have hexec : exec .snapshotLoadDone s = .next (fthTags (detect .fth 0 0 (setF w F.START_SRC 0))) := by
      rw [hw, hv, hps]
      refine congrArg Host.Outcome.next ((if_neg (by simp [hon, hload])).trans ?_)
      rw [hs₁, loadTaken] at *
      simp only [hnewest]
    refine ⟨_, hexec, ?_, getF_setF_self .., fun i hi => ?_, fun g hg => ?_⟩
    · rw [setF_fth, hfth, honly, hs₁]
      rfl
    · rw [tableEntry, setF_fth, hfth]
      exact hzero i (by rw [hps, List.mem_range]; omega)
    · rw [getF_setF_ne _ _ (by simp only [Fld.key, F.ADAPT_EPOCH, F.START_SRC]; omega), hw]
      exact getF_each_of_mem (v := fun _ => 0) adaptEpoch_key_ne (fun _ _ _ hf => getF_setF_ne _ 0 hf) (fun _ _ => getF_setF_self ..)
        List.nodup_range (List.mem_range.2 hg)
  case loaded =>
    obtain ⟨s₁, hs₁⟩ : ∃ s₁, s₁ = loadTaken s := ⟨_, rfl⟩
    have hnewest : newest s₁ .snapshot = some slot := (hs₁ ▸ newest_loadTaken s).trans hsome
    have hexec : exec .snapshotLoadDone s = .next (fthTags (setF (each (List.range 32) (loadGroup slot) s₁) F.START_SRC (1 + slot))) := by
      refine congrArg Host.Outcome.next ((if_neg (by simp [hon, hload])).trans ?_)
      rw [hs₁, loadTaken] at *
      simp only [hnewest]
    refine ⟨_, hexec, ?_, getF_setF_of_lt _ ?_⟩
    · rw [setF_fth, loading_each (loading_loadGroup slot), hs₁]
      rfl
    · have := newest_lt_two hsome
      rw [F.START_SRC_width]
      omega
  case tags =>
    exact each_of_fixed fun g hg => if_neg (by have := hall g (List.mem_range.1 hg); omega)

end Sys2Proof.Certificates

/-! ### Offset, gain, quality and equaliser steps of the receive path (04 R105, R110, R111; 05 R145, R155-R157) -/
namespace Sys2Proof.Machine
open Safety (fieldsKept onlyFields)

/-! #### Updates of the register file, one after another -/

section OnlyFields
variable {fs : List Fld} {s t u : State}

theorem onlyFields_trans (hst : onlyFields fs s t) (htu : onlyFields fs t u) : onlyFields fs s u := by
  obtain ⟨hkeptT, hregsT⟩ := hst
  obtain ⟨hkeptU, hregsU⟩ := htu
  refine ⟨fieldsKept_trans hkeptT hkeptU, ?_⟩
  rw [hregsU, hregsT]

theorem onlyFields_mono {gs : List Fld} (h : onlyFields fs s t) (hsub : ∀ f ∈ fs, f ∈ gs) : onlyFields gs s t :=
  ⟨fieldsKept_mono h.1 hsub, h.2⟩

theorem onlyFields_refl : onlyFields fs s s := ⟨fieldsKept_refl, rfl⟩

theorem onlyFields_addF {f : Fld} (n : Nat) (hf : f ∈ fs) (h : onlyFields fs s t) : onlyFields fs s (addF t f n) :=
  onlyFields_trans h (onlyFields_setF hf)

theorem onlyFields_setFs {l : List (Fld × Nat)} (hl : ∀ p ∈ l, p.1 ∈ fs) (h : onlyFields fs s t) : onlyFields fs s (setFs t l) := by
  induction l generalizing t with
  | nil => exact h
  | cons p l ih =>
    rw [setFs_cons]
    exact ih (fun q hq => hl q (List.mem_cons_of_mem _ hq)) (onlyFields_trans h (onlyFields_setF (hl p (List.mem_cons_self ..))))

theorem onlyFields_each {α : Type} {l : List α} {k : State → α → State} (hk : ∀ t, ∀ x ∈ l, onlyFields fs t (k t x)) (h : onlyFields fs s t) :
    onlyFields fs s (each l k t) := by
  induction l generalizing t with
  | nil => exact h
  | cons x l ih => exact ih (fun t y hy => hk t y (List.mem_cons_of_mem x hy)) (onlyFields_trans h (hk t x (List.mem_cons_self ..)))

end OnlyFields

/-! #### A field of every group, step by step -/

/-- Where every step brings its own field from an old value to a new one of a relation, all of them together do. -/
theorem rel_each_of_mem {G : Nat → Fld} (hG : ∀ g g', g ≠ g' → (G g).key ≠ (G g').key) {k : State → Nat → State}
    (hk : ∀ s g f, f.key ≠ (G g).key → getF (k s g) f = getF s f) {Q : State → Prop} (hQ : ∀ s g, Q s → Q (k s g))
    {R : Nat → Nat → Nat → Prop} (hR : ∀ s g, Q s → R g (getF s (G g)) (getF (k s g) (G g))) {l : List Nat} (hl : l.Nodup) {s : State}
    (hs : Q s) {g : Nat} (hg : g ∈ l) : R g (getF s (G g)) (getF (each l k s) (G g)) := by
  induction l generalizing s with
  | nil => exact absurd hg List.not_mem_nil
  | cons g' l ih =>
    obtain ⟨hnot, hl⟩ := List.nodup_cons.1 hl
    rw [each_cons]
    rcases List.mem_cons.1 hg with rfl | hg
    · rw [getF_each_of_not_mem hG hk hnot]
      exact hR s g hs
    · rw [← hk s g' _ (hG g g' fun h => hnot (h ▸ hg))]
      exact ih hl (hQ s g' hs) hg

/-! #### Gains (R110, R111) -/

theorem gainLimit_range (g : Nat) : 0x100 ≤ gainLimit g ∧ gainLimit g ≤ 0xFFFF := by
  unfold gainLimit clampN
  split_ifs <;> omega

theorem fastGain_range (g target rms d : Nat) : 0x100 ≤ fastGain g target rms d ∧ fastGain g target rms d ≤ 0xFFFF := by
  unfold fastGain
  split
  · omega
  · exact gainLimit_range _

/-- Below the target a gain rises no further than its step, above it falls no further. -/
theorem slowGain_between {g target rms d : Nat} (hlo : 0x100 ≤ g) (hhi : g ≤ 0xFFFF) :
    (rms = target → slowGain g target rms d = g) ∧
    (rms < target → g ≤ slowGain g target rms d ∧ slowGain g target rms d ≤ 0xFFFF ∧ slowGain g target rms d ≤ g + d) ∧
    (target < rms → slowGain g target rms d ≤ g ∧ g - d ≤ slowGain g target rms d) := by
  unfold slowGain gainLimit clampN
  refine ⟨fun h => ?_, fun h => ?_, fun h => ?_⟩
  · rw [if_neg (by omega), if_neg (by omega)]
  · rw [if_pos h]
    split_ifs <;> omega
  · rw [if_neg (by omega), if_pos h]
    split_ifs <;> omega

theorem pow_le_ten_mul_pow_mono {a a' b b' : Nat} (ha : a' ≤ a) (hb : b ≤ b') (n : Nat) (h : a ^ n ≤ 10 * b ^ n) : a' ^ n ≤ 10 * b' ^ n :=
  (Nat.pow_le_pow_left ha n).trans (h.trans (Nat.mul_le_mul_left 10 (Nat.pow_le_pow_left hb n)))

theorem slowGain_le {g : Nat} (h : g ≤ 0xFFFF) (target rms d : Nat) : slowGain g target rms d ≤ 0xFFFF := by
  unfold slowGain gainLimit clampN
  split_ifs <;> omega

theorem within001_mono {a a' b b' : Nat} (ha : a' ≤ a) (hb : b ≤ b') (h : within001 a b = true) : within001 a' b' = true :=
  decide_eq_true (pow_le_ten_mul_pow_mono ha hb _ (of_decide_eq_true h))

/-- What holds below every step that has it holds below the number of steps that have it. -/
theorem holds_of_lt_filter_length {p : Nat → Bool} (hdown : ∀ a b, a ≤ b → p b = true → p a = true) {n d : Nat}
    (hd : d < ((List.range n).filter p).length) : p d = true := by
  by_contra hnot
  have hbelow : ∀ x ∈ (List.range n).filter p, x ∈ List.range d := fun x hx => by
    obtain ⟨-, hp⟩ := List.mem_filter.1 hx
    rw [List.mem_range]
    by_contra hge
    exact hnot (hdown d x (by omega) hp)
  have hle : ((List.range n).filter p).length ≤ (List.range d).length := (List.nodup_range.filter p).length_le_of_subset hbelow
  rw [List.length_range] at hle
  omega

/-- The step that a slow update of the gain may draw. -/
def slowStep (g target rms d : Nat) : Bool := if rms < target then within001 (g + d) g else decide (d ≤ g) && within001 g (g - d)

theorem slowStep_mono {g target rms a b : Nat} (h : a ≤ b) (hb : slowStep g target rms b = true) : slowStep g target rms a = true := by
  unfold slowStep at hb ⊢
  split_ifs at hb ⊢ with hlt
  · exact within001_mono (Nat.add_le_add_left h g) le_rfl hb
  · obtain ⟨hle, hb⟩ := Bool.and_eq_true_iff.1 hb
    exact Bool.and_eq_true_iff.2
      ⟨decide_eq_true (h.trans (of_decide_eq_true hle)), within001_mono le_rfl (Nat.sub_le_sub_left h g) hb⟩

theorem slowStep_zero (g target rms : Nat) : slowStep g target rms 0 = true := by
  have hself : within001 g g = true := decide_eq_true (Nat.le_mul_of_pos_left _ (by omega))
  unfold slowStep
  split <;> simpa using hself

theorem slowStep_of_le_slowBound {g target rms d : Nat} (h : d ≤ slowBound g target rms) : slowStep g target rms d = true := by
  have hdef : slowBound g target rms = ((List.range 78).filter (slowStep g target rms)).length - 1 := rfl
  rcases Nat.eq_zero_or_pos d with rfl | hd
  · exact slowStep_zero g target rms
  · exact holds_of_lt_filter_length (p := slowStep g target rms) (n := 78) (fun _ _ => slowStep_mono) (by omega)

theorem draw_lt (s : State) (n : Nat) : draw s (n + 1) < n + 1 :=
  (Nat.mod_lt _ (by omega)).trans_eq (by omega)

/-- A gain on a slow update, by the level it measures (R111). -/
structure SlowMoved (target rms old new : Nat) : Prop where
  stays : rms = target → new = old
  rises : rms < target → old ≤ new ∧ new ≤ 0xFFFF ∧ within001 new old = true
  falls : target < rms → new ≤ old ∧ within001 old new = true

theorem slowMoved {g target rms d : Nat} (hlo : 0x100 ≤ g) (hhi : g ≤ 0xFFFF) (hd : d ≤ slowBound g target rms) :
    SlowMoved target rms g (slowGain g target rms d) := by
  obtain ⟨hstay, hrise, hfall⟩ := slowGain_between (target := target) (rms := rms) (d := d) hlo hhi
  have hstep := slowStep_of_le_slowBound hd
  refine ⟨hstay, fun h => ?_, fun h => ?_⟩
  · obtain ⟨hge, hle, htop⟩ := hrise h
    rw [slowStep, if_pos h] at hstep
    exact ⟨hge, hle, within001_mono htop le_rfl hstep⟩
  · obtain ⟨hle, hbot⟩ := hfall h
    rw [slowStep, if_neg (by omega)] at hstep
    exact ⟨hle, within001_mono le_rfl hbot (Bool.and_eq_true_iff.1 hstep).2⟩

theorem agcGain_key_ne (c g g' : Nat) (h : g ≠ g') : (F.AGC_GAIN c g).key ≠ (F.AGC_GAIN c g').key := by
  simp only [Fld.key, F.AGC_GAIN]
  omega

theorem agcTarget_key_ne (c g : Nat) : (F.AGC_TARGET c).key ≠ (F.AGC_GAIN c g).key := by
  simp only [Fld.key, F.AGC_TARGET, F.AGC_GAIN]
  omega

/-- Sets the gains of a carrier one by one, each with its draw. -/
def gainsSet (c : Nat) (v : State → Nat → Nat) (s : State) (i : Nat) : State := drew (setF s (F.AGC_GAIN c i) (v s i))

theorem gainsSet_only (c : Nat) (v : State → Nat → Nat) (l : List Nat) (s : State) :
    each l (gainsSet c v) s = { s with regs := (each l (gainsSet c v) s).regs, freeCnt := (each l (gainsSet c v) s).freeCnt } := by
  induction l generalizing s with
  | nil => rfl
  | cons x l ih =>
    rw [each_cons, ih]
    rfl

theorem gainsSet_kept (c : Nat) (v : State → Nat → Nat) (s : State) :
    fieldsKept ((List.range 4).map (F.AGC_GAIN c)) s (each (List.range 4) (gainsSet c v) s) :=
  fieldsKept_each fieldsKept_refl fun _ _ hi hkept => (fieldsKept_setF (List.mem_map_of_mem hi)).2 hkept

theorem getF_gainsSet_ne (c : Nat) (v : State → Nat → Nat) (s : State) (i : Nat) (f : Fld) (h : f.key ≠ (F.AGC_GAIN c i).key) :
    getF (gainsSet c v s i) f = getF s f :=
  getF_setF_ne s _ h

theorem getF_gainsSet_self (c : Nat) {v : State → Nat → Nat} (s : State) (i : Nat) (h : v s i ≤ 0xFFFF) :
    getF (gainsSet c v s i) (F.AGC_GAIN c i) = v s i :=
  getF_setF_of_lt s (Nat.lt_succ_of_le h)

/-- The gain that a fast update gives a converter. -/
def fastGainAt (c : Nat) (rms : List Nat) (s : State) (i : Nat) : Nat :=
  fastGain (getF s (F.AGC_GAIN c i)) (getF s (F.AGC_TARGET c)) (rms.getD i 0) (draw s 2)

/-- The gain that a slow update gives a converter. -/
def slowGainAt (c : Nat) (rms : List Nat) (s : State) (i : Nat) : Nat :=
  slowGain (getF s (F.AGC_GAIN c i)) (getF s (F.AGC_TARGET c)) (rms.getD i 0)
    (draw s (slowBound (getF s (F.AGC_GAIN c i)) (getF s (F.AGC_TARGET c)) (rms.getD i 0) + 1))

theorem fastGains_moved (c : Nat) (rms : List Nat) (s : State) {i : Nat} (hi : i ∈ List.range 4) :
    (rms.getD i 0 = 0 → getF (each (List.range 4) (gainsSet c (fastGainAt c rms)) s) (F.AGC_GAIN c i) = 0xFFFF) ∧
      0x100 ≤ getF (each (List.range 4) (gainsSet c (fastGainAt c rms)) s) (F.AGC_GAIN c i) := by
  refine rel_each_of_mem (k := gainsSet c (fastGainAt c rms)) (R := fun i _ new => (rms.getD i 0 = 0 → new = 0xFFFF) ∧ 0x100 ≤ new)
    (Q := fun _ => True) (agcGain_key_ne c) (getF_gainsSet_ne c _) (fun _ _ => id) (fun s i _ => ?_) List.nodup_range trivial hi
  obtain ⟨hlo, hhi⟩ : 0x100 ≤ fastGainAt c rms s i ∧ fastGainAt c rms s i ≤ 0xFFFF := fastGain_range ..
  rw [getF_gainsSet_self c s i hhi]
  exact ⟨fun hzero => if_pos hzero, hlo⟩

theorem slowGains_moved (c : Nat) (rms : List Nat) (s : State) {i : Nat} (hi : i ∈ List.range 4) (hlo : 0x100 ≤ getF s (F.AGC_GAIN c i))
    (hhi : getF s (F.AGC_GAIN c i) ≤ 0xFFFF) : SlowMoved (getF s (F.AGC_TARGET c)) (rms.getD i 0) (getF s (F.AGC_GAIN c i))
      (getF (each (List.range 4) (gainsSet c (slowGainAt c rms)) s) (F.AGC_GAIN c i)) := by
  refine rel_each_of_mem (k := gainsSet c (slowGainAt c rms))
    (R := fun i old new => 0x100 ≤ old → old ≤ 0xFFFF → SlowMoved (getF s (F.AGC_TARGET c)) (rms.getD i 0) old new)
    (Q := fun t => getF t (F.AGC_TARGET c) = getF s (F.AGC_TARGET c)) (agcGain_key_ne c) (getF_gainsSet_ne c _)
    (fun t i h => (getF_gainsSet_ne c _ t i _ (agcTarget_key_ne c i)).trans h) (fun t i htarget hlo hhi => ?_) List.nodup_range rfl hi hlo hhi
  rw [getF_gainsSet_self c t i (slowGain_le hhi ..), slowGainAt, htarget]
  exact slowMoved hlo hhi (Nat.le_of_lt_succ (draw_lt t _))

/-! #### Quality intervals (05 R155-R157) -/

/-- The fields of a subcarrier's quality. -/
def qualityFields (c k : Nat) : List Fld := [F.SC_SNR c k, F.SC_GMI c k, F.SC_EVM c k, F.SC_PILOT_ONLY c k, F.SC_VALID c k, F.SC_Q_SEQ c k]

theorem scInterval_only (c u : Nat) (long : Bool) (qs : List QSample) (s : State) (k : Nat) :
    onlyFields (F.BER_ERR c u :: F.BER_BITS c u :: qualityFields c k) s (scInterval c u long qs s k) := by
  unfold scInterval
  dsimp only
  obtain ⟨v, hv⟩ : ∃ v, v = scSnr long (tget s.rx.qDone (scKey c k) .zero) (sampleOf qs k) := ⟨_, rfl⟩
  rw [← hv]
  have hsnr : onlyFields (F.BER_ERR c u :: F.BER_BITS c u :: qualityFields c k) s (setS s (F.SC_SNR c k) v) :=
    onlyFields_setS (by simp [qualityFields])
  have hseq (g e p : Nat) : onlyFields (F.BER_ERR c u :: F.BER_BITS c u :: qualityFields c k) s (addF (setFs (setS s (F.SC_SNR c k) v)
      [(F.SC_GMI c k, g), (F.SC_EVM c k, e), (F.SC_PILOT_ONLY c k, p), (F.SC_VALID c k, 1)]) (F.SC_Q_SEQ c k) 1) :=
    onlyFields_addF 1 (by simp [qualityFields]) (onlyFields_setFs (by simp [qualityFields]) hsnr)
  split
  · exact hseq _ _ _
  · exact onlyFields_addF _ (by simp) (onlyFields_addF _ (by simp) (hseq _ _ _))

/-- The fields that the intervals of the subcarriers of a unit change. -/
def intervalFields (c u : Nat) (ks : List Nat) : List Fld := F.BER_ERR c u :: F.BER_BITS c u :: ks.flatMap (qualityFields c)

theorem scIntervals_only (c u : Nat) (long : Bool) (qs : List QSample) (ks : List Nat) (s : State) :
    onlyFields (intervalFields c u ks) s (each ks (scInterval c u long qs) s) :=
  onlyFields_each (fun t k hk => onlyFields_mono (scInterval_only c u long qs t k) fun f hf => by
    simp only [List.mem_cons, intervalFields, List.mem_flatMap] at hf ⊢
    rcases hf with h | h | h
    · exact .inl h
    · exact .inr (.inl h)
    · exact .inr (.inr ⟨k, hk, h⟩)) onlyFields_refl

/-- The fields of a unit's range and its count of intervals stay, whatever its subcarriers' intervals change. -/
theorem unitField_key_ne_intervalFields (c : Fin 2) (u : Fin 16) (ks : List Nat) {g : Fld} (hg : g ∈ intervalFields c u ks) :
    (F.U_Q_SEQ c u).key ≠ g.key ∧ (F.FIRST_SC c u).key ≠ g.key ∧ (F.SC_COUNT c u).key ≠ g.key := by
  simp only [intervalFields, List.mem_cons, List.mem_flatMap, qualityFields, List.not_mem_nil, or_false] at hg
  rcases hg with rfl | rfl | ⟨k, -, rfl | rfl | rfl | rfl | rfl | rfl⟩ <;>
    simp only [Fld.key, F.U_Q_SEQ, F.FIRST_SC, F.SC_COUNT, F.BER_ERR, F.BER_BITS, F.SC_SNR, F.SC_GMI, F.SC_EVM, F.SC_PILOT_ONLY, F.SC_VALID,
      F.SC_Q_SEQ] <;> omega

theorem intervalDone_of_tkeep {s t : State} (c u : Nat) (hscs : unitScs t c u = unitScs s c u)
    (hdone : t.rx.qDone = tkeep (fun k => !((unitScs s c u).map (scKey c)).contains k) s.rx.qDone) : intervalDone t c u = false := by
  rw [intervalDone, hscs, List.any_eq_false]
  intro k hk
  have hfind := tfind_filter s.rx.qDone (fun k => !((unitScs s c u).map (scKey c)).contains k) (scKey c k)
  rw [hdone]
  exact fun h => absurd h (by rw [tkeep, hfind, if_neg (by simpa using ⟨k, hk, rfl⟩)]; simp)

theorem unitHist_of_mgmt_off {s : State} (h : mgmtWorks s = false) (g : Nat) (snr : Int) (gmi : Nat) (ber : Int) :
    ∃ p, unitHist g snr gmi ber s = { s with rx := { s.rx with qPrev := p } } := by
  have hskip (n : Nat) (v w d : Int) : histSample n v w d s = s := if_pos (by simp [h])
  unfold unitHist
  simp only [hskip, ite_self]
  exact ⟨_, rfl⟩

/-- The quality of a unit is shown: its SNR, GMI, PILOT_ONLY and VALID, with one more interval counted. -/
def unitShown (c u : Nat) (snr : Int) (gmi po : Nat) (s : State) : State :=
  addF (setFs (setS s (F.U_SNR c u) snr) [(F.U_GMI c u, gmi), (F.U_PILOT_ONLY c u, po), (F.U_VALID c u, 1)]) (F.U_Q_SEQ c u) 1

/-- The intervals of subcarriers are no longer there to show. -/
def intervalsTaken (c : Nat) (ks : List Nat) (s : State) : State :=
  { s with rx := { s.rx with qDone := tkeep (fun k => !(ks.map (scKey c)).contains k) s.rx.qDone } }

/-- The fields of a unit's quality. -/
def shownFields (c u : Nat) : List Fld := [F.U_SNR c u, F.U_GMI c u, F.U_PILOT_ONLY c u, F.U_VALID c u, F.U_Q_SEQ c u]

theorem unitShown_only (c u : Nat) (snr : Int) (gmi po : Nat) (s : State) : onlyFields (shownFields c u) s (unitShown c u snr gmi po s) :=
  onlyFields_addF 1 (by simp [shownFields]) (onlyFields_setFs (by simp [shownFields]) (onlyFields_setS (by simp [shownFields])))

/-- The range of a unit stays at the end of its interval. -/
theorem unitRange_kept_of_interval (c : Fin 2) (u : Fin 16) (ks : List Nat) {s t : State}
    (h : fieldsKept (intervalFields c u ks ++ (shownFields c u ++ [F.FTH_GAIN (unitKey c u)])) s t) :
    getF t (F.FIRST_SC c u) = getF s (F.FIRST_SC c u) ∧ getF t (F.SC_COUNT c u) = getF s (F.SC_COUNT c u) := by
  have hrest : ∀ g ∈ shownFields c u ++ [F.FTH_GAIN (unitKey c u)], (F.FIRST_SC c u).key ≠ g.key ∧ (F.SC_COUNT c u).key ≠ g.key := by
    clear * -
    decide +revert
  refine ⟨h _ fun g hg => ?_, h _ fun g hg => ?_⟩ <;> rcases List.mem_append.1 hg with hg | hg
  · exact (unitField_key_ne_intervalFields c u ks hg).2.1
  · exact (hrest g hg).1
  · exact (unitField_key_ne_intervalFields c u ks hg).2.2
  · exact (hrest g hg).2

/-- What a unit shows reads so. -/
structure UnitShows (c u : Nat) (snr : Int) (gmi po seq : Nat) (t : State) : Prop where
  valid : getB t (F.U_VALID c u) = true
  pilotOnly : getF t (F.U_PILOT_ONLY c u) = po
  gmi : getF t (F.U_GMI c u) = gmi % 2 ^ 16
  snr : getF t (F.U_SNR c u) = ofS 16 snr
  seq : getF t (F.U_Q_SEQ c u) = (seq + 1) % 2 ^ 16

theorem unitShows_unitShown (c : Fin 2) (u : Fin 16) (snr : Int) (gmi : Nat) {po : Nat} (hpo : po < 2) (s : State) :
    UnitShows c u snr gmi po (getF s (F.U_Q_SEQ c u)) (unitShown c u snr gmi po s) := by
  unfold unitShown
  constructor <;> simp (disch := (clear * -; decide +revert)) only
    [getB, addF, setS, setFs_cons, setFs_nil, getF_setF_ne, getF_setF_self, F.U_VALID_width, F.U_PILOT_ONLY_width, F.U_GMI_width,
      F.U_SNR_width, F.U_Q_SEQ_width]
  · decide
  · exact Nat.mod_eq_of_lt hpo
  · exact Nat.mod_eq_of_lt (ofS_lt 16 snr)

/-- Fields that keep what a unit shows. -/
theorem unitShows_of_getF {c u : Nat} {snr : Int} {gmi po seq : Nat} {s t : State} (h : ∀ f ∈ shownFields c u, getF t f = getF s f)
    (hs : UnitShows c u snr gmi po seq s) : UnitShows c u snr gmi po seq t := by
  obtain ⟨hvalid, hpo, hgmi, hsnr, hseq⟩ := hs
  refine ⟨?_, ?_, ?_, ?_, ?_⟩
  · rw [getB, h _ (by simp [shownFields])]
    exact hvalid
  all_goals rwa [h _ (by simp [shownFields])]

/-! #### Equaliser taps (05 R145) -/

theorem getD_zipIdx_map (l : List Int) (f : Int × Nat → Int) (i : Nat) :
    (l.zipIdx.map f).getD i 0 = if i < l.length then f (l.getD i 0, i) else 0 := by
  split
  next h => simp [List.getD_eq_getElem?_getD, h]
  next h => simp [List.getD_eq_getElem?_getD, Nat.le_of_not_lt h]

theorem getD_lmsTaps_of_dropped {s : State} {c u k i : Nat} (y : RxSyms)
    (h : i / 8 < dropped s c u ∨ getF s (F.NTAPS c u) - dropped s c u ≤ i / 8) : (lmsTaps s c u k y).getD i 0 = (scTaps s c u k).getD i 0 := by
  refine (getD_zipIdx_map _ _ i).trans ?_
  split
  · exact if_neg (by omega)
  next h => exact (List.getD_eq_default _ _ (Nat.le_of_not_lt h)).symm

theorem getD_lmsTaps_of_used {s : State} {c u k i : Nat} (y : RxSyms) (hlo : dropped s c u ≤ i / 8)
    (hhi : i / 8 < getF s (F.NTAPS c u) - dropped s c u) (hlt : i < (scTaps s c u k).length) :
    (lmsTaps s c u k y).getD i 0 = (scTaps s c u k).getD i 0 +
      rdiv (if i % 2 = 0 then (lmsStep (getF s (F.NTAPS c u)) (lmsErrors s c u k (subtractFathom s (unitKey c u) k (getF s (F.NTAPS c u)) y))
          (subtractFathom s (unitKey c u) k (getF s (F.NTAPS c u)) y) (i / 8) (i % 8 / 2)).re
        else (lmsStep (getF s (F.NTAPS c u)) (lmsErrors s c u k (subtractFathom s (unitKey c u) k (getF s (F.NTAPS c u)) y))
          (subtractFathom s (unitKey c u) k (getF s (F.NTAPS c u)) y) (i / 8) (i % 8 / 2)).im) (2 ^ getF s (F.EQ_MU c u)) :=
  (getD_zipIdx_map _ _ i).trans ((if_pos hlt).trans (if_pos ⟨hlo, hhi⟩))

theorem tget_tset_of_ne {α : Type} [DecidableEq α] (t : Tab α) (i : Nat) {x d d' : α} (h : x ≠ d) : tget (tset t i x d) i d' = x := by
  rw [tset, if_neg h, tget_tput_self]

theorem tget_of_listed {α : Type} {t : Tab α} {i : Nat} {d : α} (h : tget t i d ≠ d) (d' : α) : tget t i d' = tget t i d := by
  unfold tget at h ⊢
  cases hfind : tfind t i with
  | none => exact absurd (by rw [hfind]; rfl) h
  | some x => rfl

end Sys2Proof.Machine

namespace Sys2Proof.Certificates
open Sys2Proof Sys2Proof.Machine
open Sys2Proof.Safety (onlyFields fieldsKept)

/-- Settles O32: each update with the fields and taps it may change. -/
theorem receiveLoopsAndMeasuresFollowTheirRules : Obligations.ReceiveLoopsAndMeasuresFollowTheirRules := by
  refine ⟨⟨fun c v sum2 s hon hrun => ⟨fun hhi => ?down, fun hlo => ?up, fun hlo hhi => ?held⟩,
    fun c rms s hon => ⟨fun hmode => ?frozen, fun hmode => ?fast, fun hmode hrange => ?slow, fun hin hmode => ?ends, fun hnot =>
      congrArg Host.Outcome.next (if_neg (by simpa using hnot))⟩⟩,
    fun c u q scs s => ⟨fun hst hdone hmgmt => ?quality, fun hno => congrArg Host.Outcome.next (if_pos (by simpa using hno))⟩,
    fun c sc y s => ⟨fun hnone => ?away, fun u hunit htaps => ?taps⟩⟩
  case down =>
    refine ⟨_, congrArg Host.Outcome.next ((if_neg (by simp [hon, hrun])).trans (if_pos hhi)), ?_, onlyFields_setS (by simp)⟩
    have hbounds := toS_bounds (w := 8) (by decide) (getF s (F.RX_TRIM c.val v.val))
    change _ ≤ getS s (F.RX_TRIM c.val v.val) ∧ getS s (F.RX_TRIM c.val v.val) < _ at hbounds
    rw [clampI_eq_max_min (by decide), getS_setS_self s (Nat.succ_ne_zero 7)]
    · omega
    · simp only [F.RX_TRIM_width]; omega
    · simp only [F.RX_TRIM_width]; omega
  case up =>
    refine ⟨_, congrArg Host.Outcome.next ((if_neg (by simp [hon, hrun])).trans ((if_neg (by omega)).trans (if_pos hlo))), ?_,
      onlyFields_setS (by simp)⟩
    have hbounds := toS_bounds (w := 8) (by decide) (getF s (F.RX_TRIM c.val v.val))
    change _ ≤ getS s (F.RX_TRIM c.val v.val) ∧ getS s (F.RX_TRIM c.val v.val) < _ at hbounds
    rw [clampI_eq_max_min (by decide), getS_setS_self s (Nat.succ_ne_zero 7)]
    · omega
    · simp only [F.RX_TRIM_width]; omega
    · simp only [F.RX_TRIM_width]; omega
  case held => exact congrArg Host.Outcome.next ((if_neg (by simp [hon, hrun])).trans ((if_neg (by omega)).trans (if_neg (by omega))))
  case frozen => exact ⟨congrArg Host.Outcome.next (if_neg (by simp [hmode])), congrArg Host.Outcome.next (if_neg (by simp [hmode]))⟩
  case fast =>
    refine ⟨each (List.range 4) (gainsSet c.val (fastGainAt c.val rms)) s, congrArg Host.Outcome.next (if_pos (by simp [hon, hmode])),
      fun i hi => (fastGains_moved c.val rms s (List.mem_range.2 hi)).1, fun i hi => (fastGains_moved c.val rms s (List.mem_range.2 hi)).2,
      gainsSet_kept _ _ s, gainsSet_only ..⟩
  case slow =>
    refine ⟨each (List.range 4) (gainsSet c.val (slowGainAt c.val rms)) s, congrArg Host.Outcome.next (if_pos (by simp [hon, hmode])),
      fun i hi => ?_, gainsSet_kept _ _ s, gainsSet_only ..⟩
    obtain ⟨hlo, hhi⟩ := hrange i hi
    obtain ⟨hstays, hrises, hfalls⟩ := slowGains_moved c.val rms s (List.mem_range.2 hi) hlo hhi
    exact ⟨hstays, hrises, hfalls⟩
  case ends =>
    obtain ⟨u, hu⟩ : ∃ u, u = { s with rx := { s.rx with agcRep := s.rx.agcRep.filter (· != c.val) } } := ⟨_, rfl⟩
    have hgone : c.val ∉ u.rx.agcRep := by rw [hu]; simp
    have hmodeU : agcModeOf u c.val = 1 := by rw [hu]; exact hmode
    have hexec : exec (.agcReplacementEnd c) s = .next
        (setF { u with rx := { u.rx with agcRep := u.rx.agcRep.filter (· != c.val) } } (F.AGC_MODE c.val) 1) := by
      refine congrArg Host.Outcome.next ((if_pos (by simpa using hin)).trans ?_)
      rw [← hu, agcUpdate]
      simp only [hmodeU]
      exact if_neg fun h => hgone h.2
    refine ⟨_, hexec, by simp, getF_setF_of_lt _ (Nat.one_lt_two_pow (Nat.succ_ne_zero 1)), (fieldsKept_setF (by simp)).2 ?_⟩
    exact fieldsKept_of_regs (t := s) (by rw [hu]) fieldsKept_refl
  case quality =>
    obtain ⟨po, hpo, hpo2⟩ : ∃ po, po = (if (unitAccs s c.val u.val).any (fun e => QAcc.pilotOnly e.2) then 1 else 0) ∧ po < 2 :=
      ⟨_, rfl, by split <;> omega⟩
    obtain ⟨snr, hsnr⟩ : ∃ snr, snr = unitSnr s c.val u.val scs := ⟨_, rfl⟩
    obtain ⟨gmi, hgmi⟩ : ∃ gmi, gmi = unitGmi s c.val u.val scs := ⟨_, rfl⟩
    obtain ⟨gain, hgain⟩ : ∃ gain, gain = unitGain s c.val u.val q := ⟨_, rfl⟩
    obtain ⟨ber, hber⟩ : ∃ ber, ber = unitBits s c.val u.val := ⟨_, rfl⟩
    obtain ⟨ks, hks⟩ : ∃ ks, ks = unitScs s c.val u.val := ⟨_, rfl⟩
    obtain ⟨v, hv⟩ : ∃ v, v = each ks (scInterval c.val u.val (longInterval s c.val u.val) scs) s := ⟨_, rfl⟩
    have honlyV : onlyFields (intervalFields c u ks) s v := hv ▸ scIntervals_only ..
    obtain ⟨w, hw⟩ : ∃ w, w = unitShown c u snr gmi po v := ⟨_, rfl⟩
    have honlyW : onlyFields (shownFields c u) v w := hw ▸ unitShown_only ..
    obtain ⟨x, hx⟩ : ∃ x, x = if isOn w 9 then setS w (F.FTH_GAIN (unitKey c.val u.val)) gain else w := ⟨_, rfl⟩
    have honlyX : onlyFields [F.FTH_GAIN (unitKey c.val u.val)] w x := by
      rw [hx]
      split
      · exact onlyFields_setS (by simp)
      · exact onlyFields_refl
    have honly := onlyFields_trans (onlyFields_mono honlyV fun f hf => List.mem_append.2 (.inl hf))
      (onlyFields_mono (onlyFields_trans (onlyFields_mono honlyW fun f hf => List.mem_append.2 (.inl hf))
        (onlyFields_mono honlyX fun f hf => List.mem_append.2 (.inr hf))) fun f hf => List.mem_append.2 (.inr hf))
    obtain ⟨hkept, hregs⟩ := honly
    have hmgmtX : mgmtWorks x = false := by rw [hregs]; exact hmgmt
    obtain ⟨qPrev, hprev⟩ := unitHist_of_mgmt_off hmgmtX (unitKey c.val u.val) snr gmi (logBer ber.1 ber.2)
    obtain ⟨t, ht⟩ : ∃ t, t = { x with rx := { x.rx with qPrev := qPrev, qDone := tkeep (fun k => !(ks.map (scKey c.val)).contains k) x.rx.qDone } } :=
      ⟨_, rfl⟩
    have hregsT : t.regs = x.regs := by rw [ht]
    have hkeptT := fieldsKept_of_regs hregsT hkept
    have hexec : exec (.qualityIntervalEnd c u q scs) s = .next t := by
      refine (congrArg Host.Outcome.next (if_neg (by simp [hdone, hst]))).trans ?_
      rw [← hpo, ← hsnr, ← hgmi, ← hgain, ← hber, ← hks, ← hv]
      change Host.Outcome.next (intervalsTaken c ks (unitHist (unitKey c.val u.val) snr gmi (logBer ber.1 ber.2)
        (if isOn (unitShown c u snr gmi po v) 9 then setS (unitShown c u snr gmi po v) (F.FTH_GAIN (unitKey c.val u.val)) gain
          else unitShown c u snr gmi po v))) = _
      rw [← hw, ← hx, hprev, ht]
      rfl
    have hshows : UnitShows c u snr gmi po (getF s (F.U_Q_SEQ c u)) t := by
      rw [← honlyV.1 _ fun g hg => (unitField_key_ne_intervalFields c u ks hg).1]
      refine unitShows_of_getF (s := w) (fun f hf => (getF_of_regs hregsT f).trans (honlyX.1 f fun g hg => ?_))
        (hw ▸ unitShows_unitShown c u snr gmi hpo2 v)
      obtain rfl := List.mem_singleton.1 hg
      simp only [shownFields, List.mem_cons, List.not_mem_nil, or_false] at hf
      rcases hf with rfl | rfl | rfl | rfl | rfl <;> (clear * -; decide +revert)
    obtain ⟨hvalid, hpoT, hgmiT, hsnrT, hseqT⟩ := hshows
    refine ⟨t, hexec, hvalid, hpo ▸ hpoT, hgmi ▸ hgmiT, hsnr ▸ hsnrT, hseqT, ?_, ?_⟩
    · refine intervalDone_of_tkeep (s := s) c.val u.val ?_ ?_
      · obtain ⟨hfirst, hcount⟩ := unitRange_kept_of_interval c u ks hkeptT
        rw [unitScs, hfirst, hcount, unitScs]
      · rw [ht, hregs, hks]
    · refine fieldsKept_mono hkeptT fun f hf => ?_
      rw [← hks]
      simp only [intervalFields, shownFields, qualityFields, List.mem_append, List.mem_cons, List.mem_flatMap, List.not_mem_nil, or_false] at hf ⊢
      rcases hf with (hf | hf | hf) | hf | hf
      · exact .inl (by simp [hf])
      · exact .inl (by simp [hf])
      · exact .inr hf
      · exact .inl (by tauto)
      · exact .inl (by simp [hf])
  case away => exact congrArg Host.Outcome.next (by rw [hnone])
  case taps =>
    intro n d z tap
    obtain ⟨ts, hts⟩ : ∃ ts, ts = lmsTaps s c.val u sc.val y := ⟨_, rfl⟩
    have hexec : exec (.eqTapUpdate c sc y) s = .next { s with rx := { s.rx with taps := tset s.rx.taps (scKey c.val sc.val) ts [] } } := by
      rw [hts]
      exact congrArg Host.Outcome.next (by rw [hunit])
    have hlen : ts.length = (scTaps s c.val u sc.val).length := by rw [hts, lmsTaps, List.length_map, List.length_zipIdx]
    have hne : ts ≠ [] := by
      rw [← List.length_pos_iff_ne_nil, hlen, scTaps, tget_of_listed htaps, List.length_pos_iff_ne_nil]
      exact htaps
    obtain ⟨t, ht⟩ : ∃ t, t = { s with rx := { s.rx with taps := tset s.rx.taps (scKey c.val sc.val) ts [] } } := ⟨_, rfl⟩
    have htap (i : Nat) : tap t i = ts.getD i 0 := by
      have hscs : scTaps t c.val u sc.val = ts := by rw [ht]; exact tget_tset_of_ne _ _ hne
      exact congrArg (fun l : List Int => l.getD i 0) hscs
    rw [← ht] at hexec
    refine ⟨t, hexec, fun k hk => by rw [ht]; exact tget_tset_ne _ _ _ _ hk, fun i hi => ?_, fun i hlo hhi hlt => ?_, by rw [ht]⟩
    · rw [htap, hts]
      exact getD_lmsTaps_of_dropped y hi
    · rw [htap, hts]
      exact getD_lmsTaps_of_used y hlo hhi hlt

end Sys2Proof.Certificates

/-! ### The acquisition machine up to VERIFY (04 R121) -/
namespace Sys2Proof.Machine
open Safety (fieldsKept onlyFields)

/-! #### Units and the AGC mode they give -/

@[simp] theorem unitAt_setUnit_self (s : State) (c u : Nat) (x : AcqU) : unitAt (setUnit s c u x) c u = x := tget_tset_self ..

theorem unitAt_of_unit {s t : State} (h : t.rx.unit = s.rx.unit) (c u : Nat) : unitAt t c u = unitAt s c u := by rw [unitAt, h, unitAt]

theorem agcUpdate_kept (c : Nat) (s : State) : fieldsKept [F.AGC_MODE c] s (agcUpdate c s) := by
  unfold agcUpdate
  dsimp only
  split <;> exact (fieldsKept_setF (by simp)).2 fun _ _ => rfl

theorem unitAt_agcUpdate (c u : Nat) (s : State) : unitAt (agcUpdate c s) c u = unitAt s c u := by
  refine unitAt_of_unit ?_ c u
  unfold agcUpdate
  dsimp only
  split <;> rfl

theorem agcUpdate_only (c : Nat) (s : State) : agcUpdate c s = { s with regs := (agcUpdate c s).regs, rx := (agcUpdate c s).rx } := by
  unfold agcUpdate
  dsimp only
  split <;> rfl

/-- A unit in a state below ALIGN has gone to another one. -/
structure UnitLeft (c u st : Nat) (s t : State) : Prop where
  state : getF t (F.ACQ_STATE c u) = st
  unit : unitAt t c u = { AcqU.blank with
    trialD := (unitAt s c u).trialD, timer := if st = 2 then (unitAt s c u).timer else none, unexp := (unitAt s c u).unexp,
    intr := (unitAt s c u).intr, foffHz := (unitAt s c u).foffHz, timing := (unitAt s c u).timing }
  kept : fieldsKept [F.ACQ_STATE c u, F.AGC_MODE c] s t
  only : t = { s with regs := t.regs, rx := t.rx }

theorem acqState_key_ne_agcMode (c : Fin 2) (u : Fin 16) : (F.ACQ_STATE c u).key ≠ (F.AGC_MODE c).key := by
  decide +revert

/-- The state of a unit and the mode that it gives the AGC. -/
theorem getF_acqState_agcUpdate (c : Fin 2) (u : Fin 16) {st : Nat} (hst : st < 8) (s : State) :
    getF (agcUpdate c (setF s (F.ACQ_STATE c u) st)) (F.ACQ_STATE c u) = st := by
  rw [agcUpdate_kept c _ _ (by simpa using acqState_key_ne_agcMode c u), getF_setF_of_lt _ hst]

theorem fieldsKept_agcUpdate {fs : List Fld} {c : Nat} {s t : State} (hmem : F.AGC_MODE c ∈ fs) (h : fieldsKept fs s t) :
    fieldsKept fs s (agcUpdate c t) :=
  fieldsKept_trans h (fieldsKept_mono (agcUpdate_kept c t) (by simpa using hmem))

theorem unitLeft (c : Fin 2) (u : Fin 16) {st : Nat} (hst : st < 8) {s : State} (hbelow : getF s (F.ACQ_STATE c u) ≤ 3) :
    UnitLeft c u st s (unitLeave c u st s) := by
  obtain ⟨x, hx⟩ : ∃ x, x = { AcqU.blank with
      trialD := (unitAt s c u).trialD, timer := if st = 2 then (unitAt s c u).timer else none, unexp := (unitAt s c u).unexp,
      intr := (unitAt s c u).intr, foffHz := (unitAt s c u).foffHz, timing := (unitAt s c u).timing } := ⟨_, rfl⟩
  have hleave : unitLeave c u st s = agcUpdate c (setF (setUnit s c u x) (F.ACQ_STATE c u) st) := by
    unfold unitLeave
    simp only [show decide (4 ≤ getF s (F.ACQ_STATE c u)) = false from decide_eq_false (by omega), onlyIf_false, ← hx]
  rw [hleave]
  refine ⟨getF_acqState_agcUpdate c u hst _, ?_, ?_, ?_⟩
  · rw [unitAt_agcUpdate, ← hx]
    exact unitAt_setUnit_self s c u x
  · exact fieldsKept_agcUpdate (by simp) ((fieldsKept_setF (by simp)).2 fun _ _ => rfl)
  · rw [agcUpdate_only]
    rfl

/-- A unit below ALIGN has entered CD_SCAN. -/
theorem scanEntered (c : Fin 2) (u : Fin 16) {s : State} (hbelow : getF s (F.ACQ_STATE c u) ≤ 3) :
    getF (enterScan c u s) (F.ACQ_STATE c u) = 1 ∧ (unitAt (enterScan c u s) c u).trialD = cdMin s c u ∧
      (unitAt (enterScan c u s) c u).timer = none ∧ fieldsKept [F.ACQ_STATE c u, F.AGC_MODE c] s (enterScan c u s) ∧
      enterScan c u s = { s with regs := (enterScan c u s).regs, rx := (enterScan c u s).rx } := by
  obtain ⟨hstate, hunit, hkept, honly⟩ := unitLeft c u (st := 1) (by omega) hbelow
  have hmin : cdMin (unitLeave c u 1 s) c u = cdMin s c u := by
    have hcd : getF (unitLeave c u 1 s) (F.CD_MIN c u) = getF s (F.CD_MIN c u) := hkept _ (by clear * -; decide +revert)
    rw [cdMin, cdMin, getS, hcd, getS]
  unfold enterScan
  refine ⟨hstate, ?_, ?_, hkept, ?_⟩
  · rw [unitAt_setUnit_self, hmin]
  · rw [unitAt_setUnit_self, hunit]
    rfl
  · rw [honly]
    rfl

/-- A peak has become the candidate of a unit. -/
structure CandSet (c u : Nat) (p : Peak) (later : List (Peak × List HdrSc)) (s t : State) : Prop where
  unit : unitAt t c u = { unitAt s c u with
    cand := some p, passes := 0, retained := later, first := true, lastFur := [], prevEp := none, prevFur := none,
    passFur := none, foffHz := p.foff * 1000000, timing := p.timing, rate := 0 }
  foff : getF t (F.FOFF c u) = ofS (F.FOFF c u).width p.foff
  power : getF t (F.ACQ_POWER c u) = ofS (F.ACQ_POWER c u).width (peakPower s c u p)
  kept : fieldsKept [F.FOFF c u, F.ACQ_POWER c u] s t
  only : t = { s with regs := t.regs, rx := t.rx }

theorem candSet (c : Fin 2) (u : Fin 16) (p : Peak) (later : List (Peak × List HdrSc)) (s : State) :
    CandSet c u p later s (setCand c u p later s) := by
  obtain ⟨v, hv⟩ : ∃ v, v = setS (setS s (F.FOFF c u) p.foff) (F.ACQ_POWER c u) (peakPower s c u p) := ⟨_, rfl⟩
  have hcand : setCand c u p later s = setUnit v c u { unitAt v c u with
      cand := some p, passes := 0, retained := later, first := true, lastFur := [], prevEp := none, prevFur := none,
      passFur := none, foffHz := p.foff * 1000000, timing := p.timing, rate := 0 } := by
    unfold setCand
    rw [← hv]
  obtain ⟨hkept, honly⟩ : onlyFields [F.FOFF c u, F.ACQ_POWER c u] s v :=
    hv ▸ onlyFields_trans (onlyFields_setS (by simp)) (onlyFields_setS (by simp))
  have hunit : unitAt v c u = unitAt s c u := unitAt_of_unit (by rw [honly]) _ _
  rw [hcand, hunit]
  refine ⟨unitAt_setUnit_self .., ?_, ?_, fieldsKept_of_regs (t := v) rfl hkept, ?_⟩
  · change getF v _ = _
    rw [hv, getF_setS_ne _ _ (by clear * -; decide +revert), getF_setS_self]
  · change getF v _ = _
    rw [hv, getF_setS_self]
  · rw [setUnit, honly]

theorem settle_of_reported {s : State} (h : s.ldg.unrep = 0) : settle s = s := if_pos h

end Sys2Proof.Machine

namespace Sys2Proof.Certificates
open Sys2Proof Sys2Proof.Machine
open Sys2Proof.Safety (onlyFields fieldsKept)

/-- Settles O33: a unit below ALIGN leaves its state with nothing of the line changed but its own part. -/
theorem acquisitionFollowsItsRows : Obligations.AcquisitionFollowsItsRows := by
  intro c u s
  refine ⟨fun hable hidle => ?enable, fun hable hbusy => congrArg Host.Outcome.next (if_neg (by simp [hbusy])), fun hnot hbelow hunrep => ?disable,
    fun hable => congrArg Host.Outcome.next (if_pos hable), fun d hst => ⟨fun hmore => ?scan, fun hlast hlo hhi => ?peak⟩,
    fun p hst => ⟨fun hthr => ?candidate, fun hthr => congrArg Host.Outcome.next (if_neg (by simp; omega))⟩, fun hst htimer => ?timeout⟩
  case enable =>
    obtain ⟨hstate, htrial, -, hkept, honly⟩ := scanEntered c u (s := s) (by omega)
    exact ⟨_, congrArg Host.Outcome.next (if_pos (by simp [hable, hidle])), hstate, htrial, hkept, honly⟩
  case disable =>
    have hexec (t : State) (ht : unitIdle c u s = t) (hun : t.ldg.unrep = 0) : exec (.unitDisabled c u) s = .next t := by
      refine congrArg Host.Outcome.next ((if_neg (by simp [hnot])).trans ?_)
      rw [ht, settle_of_reported hun]
    by_cases hidle : getF s (F.ACQ_STATE c.val u.val) = 0
    · exact ⟨s, hexec s (if_pos hidle) hunrep, hidle, fieldsKept_refl, rfl⟩
    · obtain ⟨hstate, -, hkept, honly⟩ := unitLeft c u (st := 0) (by omega) hbelow
      exact ⟨_, hexec _ (if_neg hidle) (by rw [honly]; exact hunrep), hstate, hkept, honly⟩
  case scan =>
    refine ⟨_, congrArg Host.Outcome.next ((if_neg (by simp [hst])).trans (if_pos hmore)), ?_, rfl⟩
    rw [unitAt_setUnit_self]
  case peak =>
    obtain ⟨v, hv⟩ : ∃ v, v = setS s (F.D_EST c.val u.val) (clampI (-51000) 51000 d) := ⟨_, rfl⟩
    have hstV : getF v (F.ACQ_STATE c.val u.val) = 1 := by rw [hv, getF_setS_ne _ _ (by clear * -; decide +revert), hst]
    obtain ⟨hstate, hunit, hkept, honly⟩ := unitLeft c u (st := 2) (by omega) (s := v) (by omega)
    obtain ⟨w, hw⟩ : ∃ w, w = unitLeave c.val u.val 2 v := ⟨_, rfl⟩
    rw [← hw] at hstate hunit hkept honly
    have hexec : exec (.cdScanStep c u d) s = .next (searchStart c.val u.val w) := by
      rw [hw, hv]
      exact congrArg Host.Outcome.next ((if_neg (by simp [hst])).trans (if_neg (by omega)))
    have hclamp : clampI (-51000) 51000 d = d := by rw [clampI_eq_max_min (by decide)]; omega
    refine ⟨_, hexec, hstate, ?_, ?_, ?_, ?_⟩
    · have hdest : getF w (F.D_EST c.val u.val) = getF v (F.D_EST c.val u.val) := hkept _ (by clear * -; decide +revert)
      change toS _ (getF w (F.D_EST c.val u.val)) = d
      rw [hdest, hv, hclamp]
      exact getS_setS_self s (Nat.succ_ne_zero 31) (by simp only [F.D_EST_width]; omega) (by simp only [F.D_EST_width]; omega)
    · have htimeout : getF w (F.SEARCH_TIMEOUT c.val) = getF s (F.SEARCH_TIMEOUT c.val) := by
        rw [hkept _ (by clear * -; decide +revert), hv, getF_setS_ne _ _ (by clear * -; decide +revert)]
      rw [searchStart, unitAt_setUnit_self, htimeout]
    · refine fieldsKept_of_regs (t := w) rfl (fieldsKept_trans ?_ (fieldsKept_mono hkept (by simp)))
      rw [hv]
      exact (fieldsKept_setS (by simp)).2 fieldsKept_refl
    · rw [searchStart, honly, hv]
      rfl
  case candidate =>
    obtain ⟨hunit, hfoff, hpower, hkept, honly⟩ := candSet c u p [] s
    obtain ⟨v, hv⟩ : ∃ v, v = setCand c.val u.val p [] s := ⟨_, rfl⟩
    rw [← hv] at hunit hfoff hpower hkept honly
    obtain ⟨w, hw⟩ : ∃ w, w = setF v (F.ACQ_STATE c.val u.val) 3 := ⟨_, rfl⟩
    have hexec : exec (.candidateDeclared c u p) s = .next (agcUpdate c.val w) := by
      rw [hw, hv]
      exact congrArg Host.Outcome.next (if_pos (by simp [hst, hthr]))
    have hunitW : unitAt w c.val u.val = unitAt v c.val u.val := unitAt_of_unit (by rw [hw]; rfl) _ _
    refine ⟨_, hexec, ?_, ?_, ?_, ?_, ?_, ?_, ?_⟩
    · rw [hw]
      exact getF_acqState_agcUpdate c u (by omega) v
    · rw [unitAt_agcUpdate, hunitW, hunit]
    · rw [unitAt_agcUpdate, hunitW, hunit]
    · rw [agcUpdate_kept c w _ (by clear * -; decide +revert), hw, getF_setF_ne _ _ (by clear * -; decide +revert), hfoff]
    · rw [agcUpdate_kept c w _ (by clear * -; decide +revert), hw, getF_setF_ne _ _ (by clear * -; decide +revert), hpower]
    · refine fieldsKept_agcUpdate (by simp) ?_
      rw [hw]
      exact (fieldsKept_setF (by simp)).2 (fieldsKept_mono hkept (by simp))
    · rw [agcUpdate_only, hw, honly]
      rfl
  case timeout =>
    obtain ⟨hstate, htrial, htimerN, hkept, honly⟩ := scanEntered c u (s := s) (by omega)
    exact ⟨_, congrArg Host.Outcome.next (if_pos ⟨hst, htimer⟩), hstate, htrial, htimerN, hkept, honly⟩

end Sys2Proof.Certificates

/-! ### Headers and further peaks in VERIFY and before (04 R119-R122) -/
namespace Sys2Proof.Machine
open Safety (fieldsKept onlyFields)

/-- A header of a unit that no zone waits for switches no perch. -/
theorem headerSwitch_of_no_waits {c u : Nat} {s : State} (h : ∀ z, z < 3 → unitKey c u ∉ (zoneAt s z).waits) : headerSwitch c u s = s := by
  refine each_of_fixed fun z hz => ?_
  have hwaits : (zoneAt s z).waits.contains (unitKey c u) = false := by
    simpa using h z (by simp only [List.mem_cons, List.not_mem_nil, or_false] at hz; omega)
  split
  · exact if_neg (by rw [hwaits]; exact Bool.false_ne_true)
  · rfl

/-- A header that stopped no carrier ends as it was worked on. -/
theorem headerEnd_of_lp {c u : Nat} {s t : State} (h : t.lp = s.lp) : headerEnd c u s t = t :=
  if_neg (by rw [h]; cases s.lp.stopped.contains c <;> simp)

theorem exec_rxHeader {c : Fin 2} {u : Fin 16} {s : State} (hwaits : ∀ z, z < 3 → unitKey c.val u.val ∉ (zoneAt s z).waits) (hdr : List HdrSc)
    (meas : HdrMeas) : exec (.rxHeader c u hdr meas) s = .next (headerEnd c.val u.val s
      (if getF s (F.ACQ_STATE c.val u.val) = 3 then verifyHeader c u hdr s
        else if 4 ≤ getF s (F.ACQ_STATE c.val u.val) then stayHeader c u hdr meas s else s)) := by
  change Host.Outcome.next (headerEnd c.val u.val s
    (if getF s (F.ACQ_STATE c.val u.val) = 3 then verifyHeader c u hdr (headerSwitch c.val u.val s)
      else if 4 ≤ getF s (F.ACQ_STATE c.val u.val) then stayHeader c u hdr meas (headerSwitch c.val u.val s) else headerSwitch c.val u.val s)) = _
  rw [headerSwitch_of_no_waits hwaits]

/-- A header that passes the group check, before the third. -/
theorem verifyHeader_of_pass {c : Fin 2} {u : Fin 16} {hdr : List HdrSc} {s : State} {h : Hdr} {hs : List Hdr}
    (hps : passing (unitAt s c.val u.val) (unitAt s c.val u.val).first (expected s c.val u.val) (unitHdrs s c.val u.val hdr) = h :: hs)
    (hpass : groupPass s c.val u.val (h :: hs) = true) (hfew : (unitAt s c.val u.val).passes < 2) :
    verifyHeader c u hdr s = setUnit s c.val u.val { unitAt s c.val u.val with
      passes := (unitAt s c.val u.val).passes + 1, first := false, retained := [],
      lastFur := advanceFur (unitAt s c.val u.val).lastFur (h :: hs), prevEp := some h.ep, prevFur := some h.fur, passFur := some h.fur } := by
  unfold verifyHeader
  simp only [hps, hpass]
  exact if_pos (by omega)

/-- Headers whose CRCs are all wrong give none that passes. -/
theorem passing_of_no_crc {hs : List Hdr} (h : ∀ k ∈ hs, k.crc = false) (x : AcqU) (free : Bool) (tagOk : Nat → Bool) :
    passing x free tagOk hs = [] := by
  have hnone : (hs.filter fun k => k.crc && furOk x free k && tagOk k.tag) = [] := by
    rw [List.filter_eq_nil_iff]
    intro k hk
    simp [h k hk]
  rw [passing, hnone]
  rfl

theorem verifyFail_of_no_crc {c : Fin 2} {u : Fin 16} {hs : List Hdr} {s : State} (h : ∀ k ∈ hs, k.crc = false) :
    verifyFail c u hs s = detect (.rx c) 2 u.val (addF s (F.RX_FALSE_CNT c.val) 1) := by
  have hnone : (hs.find? fun k => k.crc && furOk (unitAt s c.val u.val) (unitAt s c.val u.val).first k && !expected s c.val u.val k.tag) = none :=
    List.find?_eq_none.2 fun k hk => by simp [h k hk]
  unfold verifyFail
  simp only [hnone]

theorem verifyHeader_of_no_crc {c : Fin 2} {u : Fin 16} {hdr : List HdrSc} {s : State} (h : ∀ k ∈ unitHdrs s c.val u.val hdr, k.crc = false)
    (hnone : (unitAt s c.val u.val).retained = []) :
    verifyHeader c u hdr s = unitLeave c.val u.val 2 (detect (.rx c) 2 u.val (addF s (F.RX_FALSE_CNT c.val) 1)) := by
  unfold verifyHeader
  simp only [passing_of_no_crc h, verifyFail_of_no_crc h, hnone, strongest]
  cases groupPass s c.val u.val [] <;> rfl

end Sys2Proof.Machine

namespace Sys2Proof.Certificates
open Sys2Proof Sys2Proof.Machine
open Sys2Proof.Safety (onlyFields fieldsKept)

/-- Settles O34: no zone waits for the header, so it is only checked; a peak is judged by its state and the candidate. -/
theorem headersVerifyTheCandidate : Obligations.HeadersVerifyTheCandidate := by
  intro c u hdr meas s hwaits
  have hheader := exec_rxHeader hwaits hdr meas
  refine ⟨fun hst => ?early, fun hst => ⟨fun hpass hne hfew => ?pass, fun hcrc hnone => ?wrong⟩, fun p hno => ?ignored,
    fun p cand hst hcand hgap hweak => ⟨fun hthr => ?below, fun hthr => ?kept⟩⟩
  case early =>
    rw [hheader, if_neg (by omega), if_neg (by omega), headerEnd_of_lp rfl]
  case pass =>
    obtain ⟨h, hs, hps⟩ := List.exists_cons_of_ne_nil hne
    rw [hps] at hpass
    obtain ⟨t, ht⟩ : ∃ t, t = verifyHeader c u hdr s := ⟨_, rfl⟩
    rw [if_pos hst, ← ht] at hheader
    rw [verifyHeader_of_pass hps hpass hfew] at ht
    rw [headerEnd_of_lp (by rw [ht]; rfl)] at hheader
    refine ⟨t, hheader, ?_, ?_, ?_, ?_, by rw [ht]; rfl⟩
    all_goals rw [ht, unitAt_setUnit_self]
  case wrong =>
    refine ⟨addF s (F.RX_FALSE_CNT c.val) 1, ?_, getF_setF_self .., onlyFields_setF (by simp)⟩
    rw [hheader, if_pos hst, verifyHeader_of_no_crc hcrc hnone]
  case ignored =>
    refine congrArg Host.Outcome.next ?_
    rcases hno with hst | hgap
    · split
      · rfl
      · exact (if_neg (by omega)).trans (if_neg (by omega))
    · exact if_pos hgap
  case below =>
    refine congrArg Host.Outcome.next ((if_neg (by omega)).trans ((if_pos hst).trans ?_))
    rw [verifyPeak]
    simp only [hcand]
    exact (if_neg (by omega)).trans (if_pos hthr)
  case kept =>
    have hpeak : verifyPeak c u p hdr s = setUnit s c u { unitAt s c u with retained := (unitAt s c u).retained ++ [(p, hdr)] } := by
      rw [verifyPeak]
      simp only [hcand]
      exact (if_neg (by omega)).trans (if_neg (by omega))
    exact ⟨_, congrArg Host.Outcome.next ((if_neg (by omega)).trans ((if_pos hst).trans hpeak)), by rw [unitAt_setUnit_self], rfl⟩

end Sys2Proof.Certificates

/-! ### The decoder pool (06 R167, R170-R172) -/
namespace Sys2Proof.Machine
open Safety (fieldsKept onlyFields)

theorem bank_lt (s : State) (g : Nat) : bank s g < 32768 := (toS_bounds (w := 16) (by decide) _).2

theorem bank_ge (s : State) (g : Nat) : -32768 ≤ bank s g := (toS_bounds (w := 16) (by decide) _).1

/-- BANK reads as it was set, within its 16 bits. -/
theorem bank_setS (s : State) (g : Nat) {i : Int} (hlo : -32768 ≤ i) (hhi : i < 32768) : bank (setS s (F.FEC_BANK g) i) g = i :=
  getS_setS_self s (Nat.succ_ne_zero 15) (by simp only [F.FEC_BANK_width]; omega) (by simp only [F.FEC_BANK_width]; omega)

theorem bank_addF_ne (s : State) {f : Fld} (g n : Nat) (h : (F.FEC_BANK g).key ≠ f.key) : bank (addF s f n) g = bank s g := by
  rw [bank, getS, getF_addF_ne s n h, bank, getS]

/-- Starting an iteration takes 4 units of credit. -/
theorem bank_debit {s : State} {g : Nat} (h : -32764 ≤ bank s g) : bank (debit s g) g = bank s g - 4 :=
  bank_setS s g (by omega) (by have := bank_lt s g; omega)

theorem fecBank_key_ne_fecCw (g : Nat) : (F.FEC_BANK g).key ≠ (F.FEC_CW g).key := by
  simp only [Fld.key, F.FEC_BANK, F.FEC_CW]; omega

theorem fecBank_key_ne_fecIter (g : Nat) : (F.FEC_BANK g).key ≠ (F.FEC_ITER g).key := by
  simp only [Fld.key, F.FEC_BANK, F.FEC_ITER]; omega

theorem getD_dropPoison_of_bad {bad : List Nat} {i : Nat} (h : i / 32 ∈ bad) (ls : List Int) : (dropPoison bad ls).getD i 0 = 0 := by
  refine (getD_zipIdx_map ls _ i).trans ?_
  split
  · exact if_pos (by simpa using h)
  · rfl

theorem getD_demap_of_bad {bad : List Nat} {i : Nat} (h : i / 32 ∈ bad) (s : State) (g k num : Nat) (pts : List Cx) :
    (demap s g k num pts bad).getD i 0 = 0 := by
  unfold demap
  dsimp only
  split
  · rw [List.getD_eq_getElem?_getD, List.getElem?_replicate]
    split <;> rfl
  · exact getD_dropPoison_of_bad h _

/-- The codeword that enters the pool. -/
def entering (g k : Nat) (y : RxSyms) (poison : List Nat) (s : State) : Cw :=
  let num := if s.fec.runMark.contains (scKey (g / 16) k) then 0 else tget s.fec.runPos (scKey (g / 16) k) 0
  let pts := payloadPoints (corPoints s g k y)
  let llr := demap s g k num pts poison
  { id := s.fec.nextId, grp := g, sc := scKey (g / 16) k, cfg := rxCwCfg s (g / 16) k g, num := num, phase := 0, iter := 0,
    hard := hardBits s (llr.map llrQ), zero := false,
    erased := s.rx.slipped.contains (scKey (g / 16) k) || bitOf (getF s (F.RX_SC_MASK (g / 16))) k,
    first := s.fec.runMark.contains (scKey (g / 16) k), llr := llr, post := llr.map llrQ, msgs := [], pts := pts,
    raw := payloadPoints (rxPoints s g k y), times := payloadTimes (getF s (F.NTAPS (g / 16) (g % 16))) y }

/-- The pool with a codeword behind all others, before its group's credit and count. -/
def entered (key : Nat) (w : Cw) (s : State) : State :=
  { s with
    freeCnt := s.freeCnt + 23040
    rx := { s.rx with slipped := if (tfind s.fab.bushel (6 * (w.grp / 16))).any (·.slipping) then s.rx.slipped else s.rx.slipped.filter (· != key) }
    fec := { s.fec with
      nextId := s.fec.nextId + 1, pool := s.fec.pool ++ [w], runMark := s.fec.runMark.filter (· != key)
      runPos := tset s.fec.runPos key (w.num + 1) 0 } }

theorem enterPool_eq (g k : Nat) (y : RxSyms) (poison : List Nat) (s : State) :
    enterPool g k y poison s =
      let v := holdDecisions (scKey (g / 16) k) y.t0 (tentative s g k y) s
      let w := entered (scKey (g / 16) k) (entering g k y poison v) v
      addF (setS w (F.FEC_BANK g) (min (bank w g + avgEff w g) 1024)) (F.FEC_CW g) 1 := rfl

end Sys2Proof.Machine

namespace Sys2Proof.Certificates
open Sys2Proof Sys2Proof.Machine
open Sys2Proof.Safety (onlyFields fieldsKept)

/-- Settles O35: the pool changes at its own codeword alone, with the credit and counts of its group. -/
theorem decoderPoolFollowsItsRules : Obligations.DecoderPoolFollowsItsRules := by
  intro s hon
  refine ⟨fun g sc y bad hcarry hin => ?enter, fun g sc y bad hst => congrArg Host.Outcome.next (if_neg (by simp [hst])), fun w hwait hfree hbank => ?assign,
    fun hno => ?idle, fun id up w hw hphase => ?iterate, fun id w hw => ⟨fun hphase => ?late, fun hphase => ?done⟩⟩
  case enter =>
    intro key
    obtain ⟨v, hv⟩ : ∃ v, v = holdDecisions key y.t0 (tentative s g.val sc.val y) s := ⟨_, rfl⟩
    have honlyV : v = { s with rx := { s.rx with dec := v.rx.dec } } := by rw [hv]; rfl
    obtain ⟨w, hw⟩ : ∃ w, w = entering g.val sc.val y bad v := ⟨_, rfl⟩
    obtain ⟨u, hu⟩ : ∃ u, u = entered key w v := ⟨_, rfl⟩
    obtain ⟨x, hx⟩ : ∃ x, x = setS u (F.FEC_BANK g.val) (min (bank u g.val + avgEff u g.val) 1024) := ⟨_, rfl⟩
    have hregsU : u.regs = s.regs := by rw [hu, honlyV]; rfl
    have hbankU : bank u g.val = bank s g.val := by rw [bank, getS, getF_of_regs hregsU, bank, getS]
    have havg : avgEff u g.val = avgEff s g.val := by rw [avgEff, avgEff, getF_of_regs hregsU, getF_of_regs hregsU]
    have hexec : exec (.codewordEntersPool g sc y bad) s = .next (addF x (F.FEC_CW g.val) 1) := by
      refine congrArg Host.Outcome.next ((if_pos (by simp [hon, hcarry, hin])).trans ?_)
      rw [enterPool_eq, hx, hu, hw, hv]
    have hfec : u.fec = (entered key w s).fec := by rw [hu, honlyV]; rfl
    have hfecT : (addF x (F.FEC_CW g.val) 1).fec = (entered key w s).fec := by rw [← hfec, hx]; rfl
    refine ⟨_, w, hexec, ?_, ?_, ?_, ?_, ?_, ?_, ?_, ?_, ?_, ?_, fun i hi => ?_, ?_, ?_, ?_, ?_, ?_, ?_, ?_, ?_⟩
    · rw [hfecT]; rfl
    · rw [hw, honlyV]; rfl
    · rw [hw]; rfl
    · rw [hw]; rfl
    · rw [hw]; rfl
    · rw [hw]; rfl
    · rw [hw, honlyV]; rfl
    · rw [hw, honlyV]; rfl
    · rw [hw, honlyV]; rfl
    · rw [hw]; rfl
    · rw [hw]; exact getD_demap_of_bad hi ..
    · rw [hw, honlyV]; rfl
    · rw [hfecT]; rfl
    · rw [hfecT]; exact tget_tset_self s.fec.runPos key (w.num + 1) 0
    · rw [hfecT]; simp [entered]
    · rw [bank_addF_ne _ _ _ (fecBank_key_ne_fecCw _), hx, bank_setS, hbankU, havg]
      · have := bank_ge u g.val; omega
      · omega
    · rw [addF, getF_setF_self, hx, getF_setS_ne _ _ (fecBank_key_ne_fecCw _).symm, getF_of_regs hregsU]
    · rw [fieldsKept_addF (by simp), hx, fieldsKept_setS (by simp)]
      exact fieldsKept_of_regs hregsU fieldsKept_refl
    · rw [hx, hu, honlyV]; rfl
  case assign =>
    have hexec : exec .engineAssign s = .next (debit (cwSet s { w with phase := 1 }) w.grp) := by
      refine congrArg Host.Outcome.next ?_
      simp only [hwait]
      exact if_pos (by simp [hon, hfree])
    exact ⟨_, hexec, bank_debit hbank, rfl, (fieldsKept_setS (by simp)).2 fun _ _ => rfl, rfl⟩
  case idle =>
    refine congrArg Host.Outcome.next ?_
    split
    next hwait =>
      refine if_neg ?_
      rcases hno with hnone | hbusy
      · simp [hnone] at hwait
      · simp [hbusy]
    · rfl
  case iterate =>
    intro r w'
    obtain ⟨u, hu⟩ : ∃ u, u = addF (drewN s 23040) (F.FEC_ITER w.grp) 1 := ⟨_, rfl⟩
    have hbankU : bank u w.grp = bank s w.grp := by rw [hu, bank_addF_ne _ _ _ (fecBank_key_ne_fecIter _)]; rfl
    have hiter : getF u (F.FEC_ITER w.grp) = (getF s (F.FEC_ITER w.grp) + 1) % 2 ^ (F.FEC_ITER w.grp).width := by
      rw [hu, addF, getF_setF_self]; rfl
    have honly : onlyFields [F.FEC_ITER w.grp] { s with freeCnt := s.freeCnt + 23040 } u := hu ▸ onlyFields_setF (by simp)
    have hexec : exec (.decoderIteration id up) s = .next
        (if !syndromeZero w'.hard w.cfg.kb ∧ w'.iter < 32 ∧ (w'.iter < 2 ∨ 4 ≤ bank u w.grp) then debit (cwSet u w') w.grp else cwDone w' u) := by
      refine congrArg Host.Outcome.next ?_
      simp only [hw]
      rw [hu]
      exact if_neg (by simp [hon, hphase])
    refine ⟨fun hwrong hfew hcredit hbank => ?_, fun hend => ⟨u, ?_, hiter, honly⟩⟩
    · rw [if_pos ⟨by simp [hwrong], show w.iter + 1 < 32 by omega, by rw [hbankU]; rcases hcredit with h | h; exacts [.inl (show w.iter + 1 < 2 by omega), .inr h]⟩]
        at hexec
      refine ⟨_, hexec, ?_, ?_, ?_, ?_⟩
      · rw [← hbankU]
        exact bank_debit (s := cwSet u w') (hbankU ▸ hbank)
      · rw [hu]; rfl
      · rw [debit, getF_setS_ne _ _ (fecBank_key_ne_fecIter _).symm]
        exact hiter
      · exact (fieldsKept_setS (by simp)).2 (fieldsKept_mono honly.1 (by simp))
    · rw [hexec, if_neg]
      rintro ⟨hwrong, hfew, hcredit⟩
      rw [hbankU] at hcredit
      have hitersucc : w'.iter = w.iter + 1 := rfl
      rcases hend with hzero | hend | ⟨hone, hpoor⟩
      · simp [hzero] at hwrong
      · omega
      · omega
  case late =>
    refine ⟨addF s (F.FEC_LATE w.grp) 1, ?_, getF_setF_self .., onlyFields_setF (by simp)⟩
    refine congrArg Host.Outcome.next ?_
    simp only [hw]
    exact if_neg (by simp [hon, hphase])
  case done =>
    refine congrArg Host.Outcome.next ?_
    simp only [hw]
    exact if_pos (.inr hphase)

end Sys2Proof.Certificates

/-! ### Outer decoder, lost marks and the mapper (06 R173, R180, R182, R188) -/
namespace Sys2Proof.Machine
open Safety (fieldsKept onlyFields)

/-! #### Lost marks (R180, R182) -/

theorem rxq_setE (s : State) (f g e : Nat) : rxq (setE s f e) g = rxq s g := rfl

theorem rxq_setRxq (s : State) (f : Nat) (q : List QEnt) : rxq (setRxq s f q) f = q := tget_tset_self ..

theorem expect_setE (s : State) (f e : Nat) : tfind (setE s f e).fec.expect f = some (e % 65536) := tfind_tput_self ..

theorem cnt_firkinCount (s : State) (f c n : Nat) :
    tget (firkinCount s f c n).fec.cnt (4 * f + c) 0 = (tget s.fec.cnt (4 * f + c) 0 + n) % 2 ^ 64 := tget_tset_self ..

theorem pushLost_of_new {s : State} {f e : Nat} (h : tailTakes s f e 1 = 0) :
    pushLost s f e 1 = setRxq (reuseEntry 2 (firkinCount s f 1 1)) f (rxq s f ++ [.gaps 1 (e % 65536) 1]) := by
  unfold pushLost
  simp only [h]
  rfl

theorem pushLost_of_tail {s : State} {f e : Nat} (h : tailTakes s f e 1 = 1) :
    pushLost s f e 1 = setRxq (firkinCount s f 1 1) f (extendTail (rxq s f) 1) := by
  unfold pushLost
  simp only [h]
  rfl

/-! #### The mapper's next entry (R181, R188) -/

theorem firkinCapture_of_off {s : State} (h : isOn s 10 = false) (f fseq : Nat) (bytes : List Byte) : firkinCapture f fseq bytes s = s :=
  if_pos (by simp [h])

theorem commitAhead_of_none {s : State} {f : Nat} (h : tfind s.fec.commit f = none) : commitAhead s f = s := by
  unfold commitAhead
  simp only [h]

/-- The mapper of a client goes on to its next firkin. -/
def mapNext (l n : Nat) (s : State) : State := setMap s l { mapAt s l with next := ((mapAt s l).next + 1) % max n 1 }

theorem mapAt_setMap (s : State) (l : Nat) (x : MapSt) : mapAt (setMap s l x) l = x := tget_tset_self ..

theorem takeEntry_of_block {s : State} {l f n : Nat} {b : Blk} {q : List QEnt} (hoff : isOn s 10 = false) (hcommit : tfind s.fec.commit f = none)
    (hq : rxq s f = .block b :: q) : takeEntry l f n s = mapData l b.words (mapNext l n (setRxq s f q)) := by
  unfold takeEntry
  simp only [hcommit, hq]
  rw [commitAhead_of_none (by exact hcommit), firkinCapture_of_off (by exact hoff)]
  rfl

theorem takeEntry_of_gaps {s : State} {l f n cause e k : Nat} {q : List QEnt} (hoff : isOn s 10 = false) (hcommit : tfind s.fec.commit f = none)
    (hq : rxq s f = .gaps cause e k :: q) :
    takeEntry l f n s = mapGap l (mapNext l n (setRxq s f (if k ≤ 1 then q else .gaps cause ((e + 1) % 65536) (k - 1) :: q))) := by
  unfold takeEntry
  simp only [hcommit, hq]
  rw [commitAhead_of_none (by exact hcommit)]
  split
  · rw [firkinCapture_of_off (by exact hoff)]
    rfl
  · rw [firkinCapture_of_off (by exact hoff)]
    rfl

theorem takeEntry_of_empty {s : State} {l f n : Nat} (hcommit : tfind s.fec.commit f = none) (hq : rxq s f = []) : takeEntry l f n s = s := by
  unfold takeEntry
  simp only [hcommit, hq]

theorem mapData_of_hunt {s : State} {l : Nat} {ws : List Word} (hsync : getB s (F.CLI_SYNC l) = false)
    (hnone : huntStart ((mapAt s l).words ++ ws) = none) :
    mapData l ws s = setMap s l { mapAt s l with words := huntKeep ((mapAt s l).words ++ ws) } := by
  unfold mapData
  simp only [hsync, hnone]
  rfl

theorem mapGap_of_hunt {s : State} {l : Nat} (hsync : getB s (F.CLI_SYNC l) = false) : mapGap l s = setMap s l { mapAt s l with words := [] } :=
  if_neg (by simp [hsync])

end Sys2Proof.Machine

namespace Sys2Proof.Certificates
open Sys2Proof Sys2Proof.Machine
open Sys2Proof.Safety (onlyFields fieldsKept)

/-- Settles O36: each takes the entry at its front and leaves the rest of the queues. -/
theorem deliveryTakesEntriesInOrder : Obligations.DeliveryTakesEntriesInOrder := by
  intro s hon
  refine ⟨fun c sc w ws hcur => ⟨fun hlen houter hdone hfirst => ?decode, fun hno => ?early⟩,
    fun f e hexp => ⟨fun htail hfree => ?new, fun htail => ?tail, fun htail hfull => ?full⟩, fun f hnone => ?unset,
    fun l f hpres hnext hoff hsync hcommit => ?mapper⟩
  case decode =>
    refine congrArg Host.Outcome.next ?_
    simp only [hcur]
    exact if_pos (by simpa [hon, houter, hlen, hdone w (List.mem_cons_self ..)] using
      ⟨fun v hv => hdone v (List.mem_cons_of_mem _ hv), hfirst⟩)
  case early =>
    refine congrArg Host.Outcome.next ?_
    simp only [hcur]
    refine if_neg fun h => ?_
    simp only [Bool.and_eq_true, decide_eq_true_eq, List.all_eq_true, beq_iff_eq] at h
    obtain ⟨⟨⟨-, hlen⟩, hphase⟩, -⟩ := h
    rcases hno with hfew | ⟨v, hv, hne⟩
    · omega
    · exact hne (hphase v hv)
  case new =>
    obtain ⟨u, hu⟩ : ∃ u, u = reuseEntry 2 (firkinCount s f.val 1 1) := ⟨_, rfl⟩
    have hexec : exec (.firkinWaitExpiry f) s = .next (setE (setRxq u f.val (rxq s f.val ++ [.gaps 1 (e % 65536) 1])) f.val (e + 1)) := by
      refine congrArg Host.Outcome.next ?_
      simp only [hexp]
      refine (if_pos (by simp [hon, hfree])).trans ?_
      rw [pushLost_of_new htail, hu]
    have hkept : fieldsKept [F.POISONED 2] s u := hu ▸ reuseEntry_kept 2 (firkinCount s f.val 1 1)
    have honly := hu ▸ reuseEntry_only 2 (firkinCount s f.val 1 1)
    refine ⟨_, hexec, (rxq_setE ..).trans (rxq_setRxq ..), expect_setE .., ?_, fieldsKept_of_regs (t := u) rfl hkept, by rw [honly]; rfl⟩
    change tget u.fec.cnt (4 * f.val + 1) 0 = _
    rw [honly]
    exact cnt_firkinCount s f.val 1 1
  case tail =>
    have hexec : exec (.firkinWaitExpiry f) s = .next (setE (setRxq (firkinCount s f.val 1 1) f.val (extendTail (rxq s f.val) 1)) f.val (e + 1)) := by
      refine congrArg Host.Outcome.next ?_
      simp only [hexp]
      refine (if_pos (by simp [hon, htail])).trans ?_
      rw [pushLost_of_tail htail]
    exact ⟨_, hexec, (rxq_setE ..).trans (rxq_setRxq ..), expect_setE .., cnt_firkinCount s f.val 1 1, rfl⟩
  case full =>
    refine congrArg Host.Outcome.next ?_
    simp only [hexp]
    exact if_neg (by simp [htail, hfull])
  case unset =>
    refine congrArg Host.Outcome.next ?_
    simp only [hnone]
  case mapper =>
    obtain ⟨n, hn⟩ : ∃ n, n = (clientFirkins s l.val).length := ⟨_, rfl⟩
    have hpos : max n 1 = n := by
      have := (List.getElem?_eq_some_iff.1 hnext).1
      omega
    obtain ⟨u, hu⟩ : ∃ u, u = { s with fec := { s.fec with itemsOut := tdel s.fec.itemsOut l.val } } := ⟨_, rfl⟩
    have hexec : exec (.mapperChunk l) s = .next (takeEntry l.val f n u) := by
      refine congrArg Host.Outcome.next ((if_neg (by simp [hon, hpres])).trans ?_)
      simp only [hnext]
      rw [hu, hn]
    have hoffU : isOn u 10 = false := by rw [hu]; exact hoff
    have hcommitU : tfind u.fec.commit f = none := by rw [hu]; exact hcommit
    have hmapU : mapAt u l.val = mapAt s l.val := by rw [hu]; rfl
    rw [← hn]
    refine ⟨fun b q hq hhunt => ?_, fun cause e k q hq => ?_, fun hq => ?_⟩
    · obtain ⟨v, hv⟩ : ∃ v, v = mapNext l.val n (setRxq u f q) := ⟨_, rfl⟩
      have hmapV : mapAt v l.val = ⟨(mapAt s l.val).words, ((mapAt s l.val).next + 1) % n⟩ := by
        rw [hv, mapNext, mapAt_setMap, ← hmapU, hpos]
        rfl
      have honlyV : v = { s with fec := v.fec } := by rw [hv, hu]; rfl
      rw [takeEntry_of_block hoffU hcommitU (by rw [hu]; exact hq), ← hv,
        mapData_of_hunt (by rw [honlyV]; exact hsync) (by rw [hmapV]; exact hhunt), hmapV] at hexec
      exact ⟨_, hexec, by rw [hv]; exact rxq_setRxq u f q, mapAt_setMap .., by rw [honlyV]; rfl⟩
    · obtain ⟨q', hq'⟩ : ∃ q', q' = if k ≤ 1 then q else .gaps cause ((e + 1) % 65536) (k - 1) :: q := ⟨_, rfl⟩
      obtain ⟨v, hv⟩ : ∃ v, v = mapNext l.val n (setRxq u f q') := ⟨_, rfl⟩
      have hmapV : mapAt v l.val = ⟨(mapAt s l.val).words, ((mapAt s l.val).next + 1) % n⟩ := by
        rw [hv, mapNext, mapAt_setMap, ← hmapU, hpos]
        rfl
      have honlyV : v = { s with fec := v.fec } := by rw [hv, hu]; rfl
      rw [takeEntry_of_gaps hoffU hcommitU (by rw [hu]; exact hq), ← hq', ← hv, mapGap_of_hunt (by rw [honlyV]; exact hsync), hmapV] at hexec
      exact ⟨_, hexec, by rw [hv, ← hq']; exact rxq_setRxq u f q', mapAt_setMap .., by rw [honlyV]; rfl⟩
    · rw [takeEntry_of_empty hcommitU (by rw [hu]; exact hq)] at hexec
      exact ⟨u, hexec, by rw [hu]; exact hq, hmapU, by rw [hu]; exact tfind_tdel_self .., by rw [hu]⟩

end Sys2Proof.Certificates

/-! ### Main time, checkpoints and lifetime sets (13 R321-R326, R338) -/
namespace Sys2Proof.Machine
open Safety (fieldsKept onlyFields)

theorem getB_setF_zero (s : State) (f : Fld) : getB (setF s f 0) f = false := by
  rw [getB, getF_setF_self, Nat.zero_mod]
  rfl

theorem getB_setF_one (s : State) (f : Fld) (h : f.width ≠ 0) : getB (setF s f 1) f = true := by
  rw [getB, getF_setF_of_lt s (Nat.one_lt_two_pow h)]
  rfl

/-! #### Grains (R321, R322) -/

/-- A grain counted, before the temperature takes its sample. -/
def grainCounted (s : State) : State :=
  let e := s.time.err
  let e' : Int := if !getB s F.SLEWING then 0 else if 5 < e then e - 5 else if e < -5 then e + 5 else 0
  let n := if !getB s F.SLEWING ∧ e < 0 then 2 else 1
  let u := setB s F.SLEWING (getB s F.SLEWING && e' != 0)
  { u with time := { u.time with grains := (u.time.grains + n) % 2 ^ 40, sinceRst := u.time.sinceRst + n, err := e' } }

theorem getF_grainCounted {s : State} {f : Fld} (h : f.key ≠ F.SLEWING.key) : getF (grainCounted s) f = getF s f :=
  getF_setB_ne s _ h

theorem grainTick_eq (s : State) :
    grainTick s = onlyIf (getF s F.TEMP_SRC != 0) (histSample 144 (getS s F.TEMP) (getS s F.TEMP + 100) 20) (grainCounted s) := by
  have htick : grainTick s = onlyIf (getF (grainCounted s) F.TEMP_SRC != 0)
    (histSample 144 (getS (grainCounted s) F.TEMP) (getS (grainCounted s) F.TEMP + 100) 20) (grainCounted s) := rfl
  have htemp : getS (grainCounted s) F.TEMP = getS s F.TEMP := by rw [getS, getF_grainCounted (by decide), getS]
  rw [htick, htemp, getF_grainCounted (by decide)]

/-! #### Trim (R321-R323) -/

/-- A trim taken: the grain's length, what is still to correct, and slewing where it is more than a grain. -/
def trimTaken (len : Nat) (e : Int) (s : State) : State :=
  setB (setFs { s with time := { s.time with err := e } } [(F.GRAIN_LEN, len), (F.TIME_UNTRIMMED, 0)]) F.SLEWING (decide (512 < e.natAbs))

theorem trimMeasurement_eq (len : Nat) (e : Int) (s : State) :
    trimMeasurement len e s = onlyIf (decide (512 < e.natAbs) && !getB s F.SLEWING) (detect .ldg 10 0) (trimTaken len e s) := by
  have hslew : getB (setFs { s with time := { s.time with err := e } } [(F.GRAIN_LEN, len), (F.TIME_UNTRIMMED, 0)]) F.SLEWING = getB s F.SLEWING := by
    simp (disch := decide) only [setFs_cons, setFs_nil, getB_setF_ne]
    rfl
  unfold trimMeasurement
  dsimp only
  rw [hslew]
  rfl

/-- The reference is away: nothing is left to correct. -/
def untrimmed (s : State) : State := setFs { s with time := { s.time with err := 0 } } [(F.TIME_UNTRIMMED, 1), (F.SLEWING, 0)]

/-! #### Checkpoints (R324) -/

theorem checkpoint_of_ready {s : State} (hworks : mgmtWorks s = true) (hsize : s.st.small = false) (cause : Nat) :
    checkpoint cause 0 s = { s with st := { s.st with
      writes := s.st.writes ++ [⟨.checkpoint, ckptBytes s cause 0, cause⟩], waiting := s.st.waiting ++ [4] } } :=
  (if_pos hworks).trans (startRec_of_ready hworks hsize)

theorem checkpoint_of_mgmt_off {s : State} (h : mgmtWorks s = false) (cause d : Nat) : checkpoint cause d s = s := if_neg (by simp [h])

/-! #### Tables changed entry by entry -/

theorem tfind_map {α : Type} (g : α → α) (t : Tab α) (i : Nat) : tfind (t.map fun e => (e.1, g e.2)) i = (tfind t i).map g := by
  induction t with
  | nil => rfl
  | cons e t ih =>
    obtain ⟨k, v⟩ := e
    by_cases h : i = k
    · simp [tfind, h]
    · simpa [tfind, h] using ih

theorem tget_map {α : Type} {g : α → α} {d : α} (hd : g d = d) (t : Tab α) (i : Nat) :
    tget (t.map fun e => (e.1, g e.2)) i d = g (tget t i d) := by
  rw [tget, tfind_map, tget]
  cases tfind t i with
  | none => exact hd.symm
  | some x => rfl

theorem trising_map {α : Type} (g : α → α) {t : Tab α} (h : trising t = true) : trising (t.map fun e => (e.1, g e.2)) = true := by
  induction t with
  | nil => rfl
  | cons e t ih =>
    obtain ⟨k, v⟩ := e
    obtain ⟨habove, hrise⟩ := (trising_cons k v t).1 h
    refine (trising_cons k (g v) _).2 ⟨fun x hx => ?_, ih hrise⟩
    obtain ⟨y, hy, rfl⟩ := List.mem_map.1 hx
    exact habove y hy

/-- Unlisting the entries at the default changes no value of a table whose keys rise. -/
theorem tget_filter_ne {α : Type} [DecidableEq α] {d : α} {t : Tab α} (h : trising t = true) (i : Nat) :
    tget (t.filter fun e => e.2 != d) i d = tget t i d := by
  induction t with
  | nil => rfl
  | cons e t ih =>
    obtain ⟨k, v⟩ := e
    obtain ⟨habove, hrise⟩ := (trising_cons k v t).1 h
    by_cases hv : v = d
    · rw [List.filter_cons_of_neg (by simp [hv]), ih hrise]
      by_cases hi : i = k
      · have hnone : tfind t k = none := tfind_of_above habove
        simp [tget, tfind, hi, hnone, hv]
      · simp [tget, tfind, hi]
    · rw [List.filter_cons_of_pos (by simp [hv])]
      by_cases hi : i = k
      · simp [tget, tfind, hi]
      · simpa [tget, tfind, hi] using ih hrise

/-! #### Intervals (R338) -/

/-- A histogram at the end of an interval. -/
def histTurned (x : Hist) : Hist := { x with prev := x.cur, prevX := x.curX, cur := [], curX := Hist.empty.curX, sat := false }

/-- The histograms at the end of an interval. -/
def histsTurned (s : State) : State :=
  addF { s with ldg := { s.ldg with hist := (s.ldg.hist.map fun e => (e.1, histTurned e.2)).filter fun e => e.2 != Hist.empty } } F.HIST_SEQ 1

theorem histAt_histsTurned {s : State} (h : trising s.ldg.hist = true) (i : Nat) : histAt (histsTurned s) i = histTurned (histAt s i) :=
  (tget_filter_ne (trising_map histTurned h) i).trans (tget_map rfl s.ldg.hist i)

end Sys2Proof.Machine

namespace Sys2Proof.Certificates
open Sys2Proof Sys2Proof.Machine
open Sys2Proof.Safety (onlyFields fieldsKept)

/-- Settles O37: each command is its own part of the time's state, then its event or sample. -/
theorem mainTimeAndLifetimeSetsAreKept : Obligations.MainTimeAndLifetimeSetsAreKept := by
  refine ⟨fun s => ⟨⟨grainCounted s, fun hsrc => ?sample, fun hsrc => ?none, ?tickKept, rfl, rfl, fun hslew => ?whole, fun hslew => ?slews⟩,
    fun g e => ⟨trimTaken g.toNat e s, ?len, ?trimmed, rfl, ?big, ?trimKept, rfl, fun hbig hslew => ?began, fun hno => ?quiet⟩,
    ⟨untrimmed s, ?set, ?ended, rfl, ?untrimKept, rfl, fun hwas => ?again, fun hwas => ?first⟩⟩,
    fun s => ⟨fun c cause hc hsize => ?ckpt, fun hoff => ?off, fun hno => congrArg Host.Outcome.next (if_neg (by simp [hno])),
      fun hworks hrise => ?turn⟩⟩
  case sample =>
    refine congrArg Host.Outcome.next ((grainTick_eq s).trans ?_)
    rw [show (getF s F.TEMP_SRC != 0) = true by simpa using hsrc]
    rfl
  case none =>
    refine congrArg Host.Outcome.next ((grainTick_eq s).trans ?_)
    rw [show (getF s F.TEMP_SRC != 0) = false by simpa using hsrc]
    rfl
  case tickKept => exact fieldsKept_of_regs (t := setB s F.SLEWING _) rfl ((fieldsKept_setB (by simp)).2 fieldsKept_refl)
  case whole =>
    have hb : getB (grainCounted s) F.SLEWING = (getB s F.SLEWING && _) := getB_setB_self s F.SLEWING _ Nat.one_ne_zero
    refine ⟨?_, ?_, by rw [hb, hslew]; rfl⟩
    · simp [grainCounted, hslew]
    · simp [grainCounted, hslew]
  case slews =>
    have hb : getB (grainCounted s) F.SLEWING = (getB s F.SLEWING && (grainCounted s).time.err != 0) := getB_setB_self s F.SLEWING _ Nat.one_ne_zero
    have herr : (grainCounted s).time.err = if 5 < s.time.err then s.time.err - 5 else if s.time.err < -5 then s.time.err + 5 else 0 := by
      simp [grainCounted, hslew]
    refine ⟨by simp [grainCounted, hslew], fun h => ?_, fun h => ?_, fun hlo hhi => ?_, ?_⟩
    · rw [herr, if_pos h]
    · rw [herr, if_neg (by omega), if_pos h]
    · rw [herr, if_neg (by omega), if_neg (by omega)]
    · rw [hb, hslew]
      simp
  case len =>
    have hlt : g.toNat < 2 ^ F.GRAIN_LEN.width := g.isLt
    unfold trimTaken
    simp (disch := decide) only [setFs_cons, setFs_nil, getF_setB_ne, getF_setF_ne, getF_setF_of_lt _ hlt]
  case trimmed =>
    unfold trimTaken
    simp (disch := decide) only [setFs_cons, setFs_nil, getB_setB_ne, getB_setF_zero]
  case big =>
    rw [show getB (trimTaken g.toNat e s) F.SLEWING = _ from getB_setB_self _ F.SLEWING _ Nat.one_ne_zero, decide_eq_true_eq]
  case trimKept => exact (fieldsKept_setB (by simp)).2 (fieldsKept_setFs (by simp) (fieldsKept_of_regs (t := s) rfl fieldsKept_refl))
  case began =>
    refine congrArg Host.Outcome.next ((trimMeasurement_eq g.toNat e s).trans ?_)
    rw [decide_eq_true hbig, hslew]
    rfl
  case quiet =>
    refine congrArg Host.Outcome.next ((trimMeasurement_eq g.toNat e s).trans ?_)
    rcases hno with hsmall | hslew
    · rw [decide_eq_false (by omega : ¬ 512 < e.natAbs)]
      rfl
    · rw [hslew, Bool.not_true, Bool.and_false]
      rfl
  case set =>
    unfold untrimmed
    simp (disch := decide) only [setFs_cons, setFs_nil, getB_setF_ne, getB_setF_one]
  case ended =>
    unfold untrimmed
    simp (disch := decide) only [setFs_cons, setFs_nil, getB_setF_zero]
  case untrimKept => exact fieldsKept_setFs (by simp) (fieldsKept_of_regs (t := s) rfl fieldsKept_refl)
  case again =>
    refine congrArg Host.Outcome.next ?_
    rw [timeUntrimmed, hwas]
    rfl
  case first =>
    refine congrArg Host.Outcome.next ?_
    rw [timeUntrimmed, hwas]
    rfl
  case ckpt =>
    have hexec : exec c s = .next (checkpoint cause 0 s) ∧ mgmtWorks s = true := by
      rcases hc with ⟨rfl, rfl, hworks⟩ | ⟨rfl, rfl, hon⟩ | ⟨rfl, rfl, hworks, hretry⟩
      · exact ⟨rfl, hworks⟩
      · exact ⟨congrArg Host.Outcome.next (if_pos hon), mgmtWorks_of_on hon⟩
      · exact ⟨congrArg Host.Outcome.next (if_pos hretry), hworks⟩
    obtain ⟨hexec, hworks⟩ := hexec
    rw [checkpoint_of_ready hworks hsize] at hexec
    exact ⟨_, hexec, rfl, rfl, rfl⟩
  case off =>
    refine ⟨congrArg Host.Outcome.next (checkpoint_of_mgmt_off hoff 0 0), congrArg Host.Outcome.next ?_, congrArg Host.Outcome.next ?_⟩
    · exact (congrArg (if isOn s 1 = true then · else s) (checkpoint_of_mgmt_off hoff 2 0)).trans (ite_self s)
    · exact (congrArg (if s.time.ckptRetry = true then · else s) (checkpoint_of_mgmt_off hoff 0 0)).trans (ite_self s)
  case turn =>
    have hexec : exec .histogramIntervalEnd s = .next (detect .ldg 12 0 (histsTurned s)) := congrArg Host.Outcome.next (if_pos hworks)
    refine ⟨histsTurned s, hexec, fun h => ?_, getF_setF_self .., ?_, rfl⟩
    · rw [histAt_histsTurned hrise]
      exact ⟨rfl, rfl, rfl, rfl, rfl⟩
    · exact (fieldsKept_addF (by simp)).2 (fieldsKept_of_regs (t := s) rfl fieldsKept_refl)

end Sys2Proof.Certificates

/-! ### The record writer, LDG_FREE and the reserve (13 R330, R331, R334-R336) -/
namespace Sys2Proof.Machine
open Safety (fieldsKept onlyFields)

/-- A record that fits before the end of the ring is stored at WR. -/
theorem ringStore_of_inside {r : LRec} {s : State} (h7 : r.typ ≠ 7) (h8 : r.typ ≠ 8) (h : getF s F.LDG_WR + ringLen r ≤ 2 ^ 22) :
    ringStore r s = setF { s with ldg := { s.ldg with region := s.ldg.region ++ [(getF s F.LDG_WR, r)] } } F.LDG_WR
      ((getF s F.LDG_WR + ringLen r) % 2 ^ 22) := by
  unfold ringStore
  dsimp only
  rw [if_neg h7, if_neg h8, if_neg (Nat.not_lt.2 h), if_pos rfl, List.append_nil]

theorem loseAny_only (cause : Nat) (s : State) (r : LRec) : loseAny cause s r = { s with ldg := { s.ldg with runs := (loseAny cause s r).ldg.runs } } := by
  unfold loseAny
  split
  · rfl
  · dsimp only
    split <;> rfl

/-- Records lost change the pending runs alone. -/
theorem loseAll_only (cause : Nat) (l : List LRec) (s : State) :
    l.foldl (loseAny cause) s = { s with ldg := { s.ldg with runs := (l.foldl (loseAny cause) s).ldg.runs } } := by
  induction l generalizing s with
  | nil => rfl
  | cons r l ih =>
    rw [List.foldl_cons, ih, loseAny_only]

theorem reserveStore_of_room {r : LRec} {s : State} (h7 : r.typ ≠ 7) (h8 : r.typ ≠ 8) (h : s.ldg.reserve.length < 63) :
    reserveStore r s = { s with ldg := { s.ldg with reserve := s.ldg.reserve ++ [reserveEntry r] } } := by
  unfold reserveStore
  dsimp only
  rw [if_pos h, if_neg h8, if_neg h7]

theorem recordStore_of_queued {s : State} {r : LRec} {rest : List LRec} (hworks : mgmtWorks s = true) (hqueue : s.ldg.intake = r :: rest)
    {t : State} (ht : t = { s with ldg := { s.ldg with intake := rest } }) :
    recordStore s = settle (if getB t F.LDG_CLOSED then reserveStore r t else if ringFits t r then ringStore r t else ringStop r t) := by
  unfold recordStore
  rw [if_neg (by simp [hworks]), if_neg (by simp [hqueue]), ht]
  simp only [hqueue]

theorem dropWhile_ne_nil_of_mem {α : Type} {p : α → Bool} {l : List α} {x : α} (hx : x ∈ l) (hp : p x = false) : l.dropWhile p ≠ [] :=
  fun h => by simpa [hp] using List.dropWhile_eq_nil_iff.1 h x hx

/-- Records freed up to an offset. -/
def ringFreed (v : Nat) (keep : List (Nat × LRec)) (s : State) : State :=
  setFs { s with ldg := { s.ldg with region := keep } } [(F.LDG_RD, v), (F.LDG_STOPPED, 0)]

theorem ringFreed_spec {v : Nat} (hv : v < 2 ^ 22) (keep : List (Nat × LRec)) (s : State) :
    (ringFreed v keep s).ldg.region = keep ∧ getF (ringFreed v keep s) F.LDG_RD = v ∧ getB (ringFreed v keep s) F.LDG_STOPPED = false ∧
      fieldsKept [F.LDG_RD, F.LDG_STOPPED] s (ringFreed v keep s) := by
  refine ⟨rfl, ?_, getB_setF_zero _ F.LDG_STOPPED, fieldsKept_setFs (by simp) (fieldsKept_of_regs (t := s) rfl fieldsKept_refl)⟩
  unfold ringFreed
  simp (disch := decide) only [setFs_cons, setFs_nil, getF_setF_ne]
  exact getF_setF_of_lt _ hv

end Sys2Proof.Machine

namespace Sys2Proof.Certificates
open Sys2Proof Sys2Proof.Machine
open Sys2Proof.Safety (onlyFields fieldsKept)

/-- Settles O38: with no loss to report, the writer's three ways and LDG_FREE's three answers. -/
theorem recordWriterFillsTheRing : Obligations.RecordWriterFillsTheRing := by
  intro s hrep
  refine ⟨fun r rest hworks hqueue => ?writer, fun hoff => congrArg Host.Outcome.next (if_pos (by simp [hoff])), fun v hon hruns => ?free,
    fun hon hopen => congrArg Host.Outcome.next (if_pos (by simp [hon, hopen])),
    fun hno => congrArg Host.Outcome.next (if_neg (by rcases hno with h | h <;> simp [h]))⟩
  case writer =>
    obtain ⟨u, hu⟩ : ∃ u, u = { s with ldg := { s.ldg with intake := rest } } := ⟨_, rfl⟩
    have hstore := recordStore_of_queued hworks hqueue hu
    have hregs : u.regs = s.regs := by rw [hu]
    have hclosed : getB u F.LDG_CLOSED = getB s F.LDG_CLOSED := by rw [getB, getF_of_regs hregs, getB]
    have hwr : getF u F.LDG_WR = getF s F.LDG_WR := getF_of_regs hregs _
    have hfits : ringFits u r = ringFits s r := by rw [hu]; rfl
    refine ⟨fun hopen hroom h7 h8 hin => ?_, fun hopen hfull => ?_, fun hclose hroom h7 h8 => ?_⟩
    · obtain ⟨t, ht⟩ : ∃ t, t = ringStore r u := ⟨_, rfl⟩
      have hring := ht.trans (ringStore_of_inside h7 h8 (by rw [hwr]; exact hin))
      rw [hwr] at hring
      have hexec : exec .recordStore s = .next t := by
        refine congrArg Host.Outcome.next (hstore.trans ?_)
        rw [hclosed, hopen, hfits, hroom, ← ht]
        exact settle_of_reported (by rw [hring, hu]; exact hrep)
      refine ⟨t, hexec, by rw [hring, hu]; rfl, by rw [hring, hu]; rfl, ?_, ?_, by rw [hring, hu]; rfl⟩
      · rw [hring, getF_setF_self, F.LDG_WR_width, Nat.mod_mod]
      · rw [hring]
        exact (fieldsKept_setF (by simp)).2 (fieldsKept_of_regs (t := s) (by rw [hu]) fieldsKept_refl)
    · obtain ⟨v, hv⟩ : ∃ v, v = (r :: rest).foldl (loseAny 0) { u with ldg := { u.ldg with intake := [] } } := ⟨_, rfl⟩
      have honly := hv.trans (loseAll_only 0 (r :: rest) _)
      have hexec : exec .recordStore s = .next (settle (detect .ldg 0 0 (setB v F.LDG_STOPPED true))) := by
        refine congrArg Host.Outcome.next (hstore.trans ?_)
        rw [hclosed, hopen, hfits, hfull, hv, hu]
        rfl
      refine ⟨_, hexec, getB_setB_self v F.LDG_STOPPED true Nat.one_ne_zero, by rw [honly]; rfl, by rw [honly, hu]; rfl, ?_⟩
      exact (fieldsKept_setB (by simp)).2 (fieldsKept_of_regs (t := s) (by rw [honly, hu]) fieldsKept_refl)
    · obtain ⟨t, ht⟩ : ∃ t, t = reserveStore r u := ⟨_, rfl⟩
      have hres := ht.trans (reserveStore_of_room h7 h8 (by rw [hu]; exact hroom))
      have hexec : exec .recordStore s = .next t := by
        refine congrArg Host.Outcome.next (hstore.trans ?_)
        rw [hclosed, hclose, ← ht]
        exact settle_of_reported (by rw [hres, hu]; exact hrep)
      exact ⟨t, hexec, by rw [hres, hu]; rfl, by rw [hres, hu]⟩
  case free =>
    obtain ⟨n, hn⟩ : ∃ n, n = bitsOf v.toNat 0 22 := ⟨_, rfl⟩
    have hlt : n < 2 ^ 22 := hn ▸ Nat.mod_lt _ (Nat.two_pow_pos _)
    have hfree : exec (.ldgFree v) s = .next (ldgFree n s) := hn ▸ rfl
    have hfreed (keep : List (Nat × LRec)) : flushLoss (ringFreed n keep s) = ringFreed n keep s := flushLoss_of_no_runs hruns
    rw [← hn]
    refine ⟨fun hall => ?_, fun hne hnone => ?_, fun hne hsome => ?_⟩
    · have hexec : exec (.ldgFree v) s = .next (ringFreed n [] s) := by
        rw [hfree, ldgFree, if_neg (by simp [hon]), ← hfreed]
        simp only [hall, beq_self_eq_true]
        rfl
      exact ⟨_, hexec, ringFreed_spec hlt [] s⟩
    · have hkeep : (s.ldg.region.dropWhile fun e => e.1 != n) = [] := List.dropWhile_eq_nil_iff.2 fun e he => by simpa using hnone e he
      rw [hfree, ldgFree, if_neg (by simp [hon])]
      exact congrArg Host.Outcome.next (if_pos (by simp [hkeep, hne]))
    · obtain ⟨e, he, heq⟩ := hsome
      obtain ⟨keep, hkeep⟩ : ∃ keep, keep = s.ldg.region.dropWhile fun e => e.1 != n := ⟨_, rfl⟩
      have hnil : keep ≠ [] := hkeep ▸ dropWhile_ne_nil_of_mem he (by simp [heq])
      have hexec : exec (.ldgFree v) s = .next (ringFreed n keep s) := by
        rw [hfree, ldgFree, if_neg (by simp [hon]), ← hfreed, ← hkeep]
        refine congrArg Host.Outcome.next ((if_neg (by simp [hnil])).trans ?_)
        rw [show (n == getF s F.LDG_WR) = false by simpa using hne]
        rfl
      rw [← hkeep]
      exact ⟨_, hexec, ringFreed_spec hlt keep s⟩

end Sys2Proof.Certificates

/-! ### The parity code of a row (12 R306, R307) -/
namespace Sys2Proof.Machine

/-! #### One bit of a word wrong -/

theorem bitOf_eq_testBit (x i : Nat) : bitOf x i = x.testBit i := by
  rw [bitOf, Nat.testBit_eq_decide_div_mod_eq]

theorem bitOf_xor_two_pow (x i b : Nat) : bitOf (x ^^^ 2 ^ b) i = (bitOf x i != decide (i = b)) := by
  rw [bitOf_eq_testBit, bitOf_eq_testBit, Nat.testBit_xor, Nat.testBit_two_pow, decide_eq_decide.2 (eq_comm (a := b) (b := i))]

theorem xor_two_pow_zero_div_two (x : Nat) : (x ^^^ 2 ^ 0) / 2 = x / 2 := by
  rw [Nat.xor_div_two]
  exact Nat.xor_zero _

theorem xor_two_pow_succ_div_two (x b : Nat) : (x ^^^ 2 ^ (b + 1)) / 2 = x / 2 ^^^ 2 ^ b := by
  rw [Nat.xor_div_two, Nat.pow_succ, Nat.mul_div_cancel _ (by omega)]

/-- A wrong bit within the low bits flips their parity. -/
theorem oddBits_xor_two_pow (n x b : Nat) : oddBits n (x ^^^ 2 ^ b) = (oddBits n x != decide (b < n)) := by
  induction n generalizing x b with
  | zero => simp [oddBits]
  | succ n ih =>
    have hlow : decide ((x ^^^ 2 ^ b) % 2 = 1) = (decide (x % 2 = 1) != decide (0 = b)) := by
      have h := bitOf_xor_two_pow x 0 b
      simpa [bitOf] using h
    rw [oddBits, hlow, oddBits]
    cases b with
    | zero =>
      rw [xor_two_pow_zero_div_two]
      cases decide (x % 2 = 1) <;> cases oddBits n (x / 2) <;> simp
    | succ b =>
      rw [xor_two_pow_succ_div_two, ih]
      cases decide (x % 2 = 1) <;> cases oddBits n (x / 2 ) <;> simp

/-! #### One bit of a row wrong -/

theorem filter_range_eq_singleton {p : Nat → Bool} {n j : Nat} (hj : j < n) (h : ∀ i, i < n → p i = decide (i = j)) :
    (List.range n).filter p = [j] := by
  rw [List.filter_congr (q := (· == j)) fun i hi => by rw [h i (List.mem_range.1 hi)]; rfl, List.filter_beq,
    List.count_eq_one_of_mem List.nodup_range (List.mem_range.2 hj)]
  rfl

theorem foldl_bne_bne {l : List Nat} (f g : Nat → Bool) (a b : Bool) :
    l.foldl (fun p i => p != (f i != g i)) (a != b) = (l.foldl (fun p i => p != f i) a != l.foldl (fun p i => p != g i) b) := by
  induction l generalizing a b with
  | nil => rfl
  | cons i l ih =>
    rw [List.foldl_cons, List.foldl_cons, List.foldl_cons, ← ih]
    congr 1
    cases a <;> cases b <;> cases f i <;> cases g i <;> rfl

/-- The parity of a column. -/
def colOdd (row : List Nat) (c : Nat) : Bool := (List.range 8).foldl (fun p j => p != bitOf (row.getD j 0) c) false

/-- The check of a word. -/
def wordFails (row : List Nat) (j : Nat) : Bool := oddBits 56 (row.getD j 0) != bitOf (row.getD j 0) 63

/-- The check of a column. -/
def colFails (row : List Nat) (c : Nat) : Bool := colOdd row c != bitOf (row.getD (c / 7) 0) (56 + c % 7)

theorem wordFails_of_rowR {row : List Nat} (h : rowR row = []) {j : Nat} (hj : j < 8) : wordFails row j = false := by
  simpa [wordFails] using List.filter_eq_nil_iff.1 h j (List.mem_range.2 hj)

theorem colFails_of_rowC {row : List Nat} (h : rowC row = []) {c : Nat} (hc : c < 56) : colFails row c = false := by
  simpa [colFails, colOdd] using List.filter_eq_nil_iff.1 h c (List.mem_range.2 hc)

theorem bne_bne_bne_comm (a b c d : Bool) : ((a != b) != (c != d)) = ((a != c) != (b != d)) := by
  decide +revert

section OneBit
variable {row : List Nat} {j b : Nat} (hlen : row.length = 8) (hj : j < 8)
include hlen hj

/-- The words of a row with one bit wrong. -/
theorem getD_wrongBit (i : Nat) : (row.set j (row.getD j 0 ^^^ 2 ^ b)).getD i 0 = if i = j then row.getD i 0 ^^^ 2 ^ b else row.getD i 0 := by
  by_cases h : i = j
  · rw [if_pos h, h, List.getD_eq_getElem?_getD, List.getElem?_set_self (by omega), Option.getD_some]
  · rw [if_neg h, List.getD_eq_getElem?_getD, List.getElem?_set_ne (Ne.symm h), ← List.getD_eq_getElem?_getD]

theorem bitOf_wrongBit (i k : Nat) :
    bitOf ((row.set j (row.getD j 0 ^^^ 2 ^ b)).getD i 0) k = (bitOf (row.getD i 0) k != (decide (i = j) && decide (k = b))) := by
  rw [getD_wrongBit hlen hj]
  by_cases h : i = j
  · rw [if_pos h, bitOf_xor_two_pow, decide_eq_true h, Bool.true_and]
  · rw [if_neg h, decide_eq_false h, Bool.false_and, Bool.bne_false]

theorem wordFails_wrongBit (i : Nat) : wordFails (row.set j (row.getD j 0 ^^^ 2 ^ b)) i =
    (wordFails row i != (decide (i = j) && (decide (b < 56) != decide (63 = b)))) := by
  rw [wordFails, bitOf_wrongBit hlen hj, getD_wrongBit hlen hj, wordFails]
  by_cases h : i = j
  · rw [if_pos h, oddBits_xor_two_pow]
    cases oddBits 56 (row.getD i 0) <;> cases bitOf (row.getD i 0) 63 <;> simp [h]
  · rw [if_neg h]
    simp [h]

theorem colOdd_wrongBit (c : Nat) : colOdd (row.set j (row.getD j 0 ^^^ 2 ^ b)) c = (colOdd row c != decide (c = b)) := by
  have hsingle : (List.range 8).foldl (fun p i => p != (decide (i = j) && decide (c = b))) false = decide (c = b) := by
    cases decide (c = b) <;> revert j <;> decide
  rw [← hsingle, colOdd, colOdd, ← foldl_bne_bne]
  simp only [bitOf_wrongBit hlen hj, Bool.bne_false]

theorem colFails_wrongBit (c : Nat) : colFails (row.set j (row.getD j 0 ^^^ 2 ^ b)) c =
    (colFails row c != (decide (c = b) != (decide (c / 7 = j) && decide (56 + c % 7 = b)))) := by
  rw [colFails, colOdd_wrongBit hlen hj, bitOf_wrongBit hlen hj, colFails]
  exact bne_bne_bne_comm ..

end OneBit

end Sys2Proof.Machine

namespace Sys2Proof.Certificates
open Sys2Proof Sys2Proof.Machine

/-- Settles O39: a data bit fails its word and its column, a parity bit the check it belongs to. -/
theorem parityCorrectsAnyOneBit : Obligations.ParityCorrectsAnyOneBit := by
  intro row j b hlen hR hC hj hb
  have hword (i : Nat) (hi : i < 8) : wordFails (row.set j (row.getD j 0 ^^^ 2 ^ b)) i = (decide (i = j) && (decide (b < 56) != decide (63 = b))) := by
    rw [wordFails_wrongBit hlen hj, wordFails_of_rowR hR hi, Bool.false_bne]
  have hcol (c : Nat) (hc : c < 56) : colFails (row.set j (row.getD j 0 ^^^ 2 ^ b)) c =
      (decide (c = b) != (decide (c / 7 = j) && decide (56 + c % 7 = b))) := by
    rw [colFails_wrongBit hlen hj, colFails_of_rowC hC hc, Bool.false_bne]
  obtain ⟨w, hw⟩ : ∃ w, w = row.set j (row.getD j 0 ^^^ 2 ^ b) := ⟨_, rfl⟩
  rw [← hw] at hword hcol ⊢
  have hrest : (parityCheck row).fixed = [] ∧ (parityCheck row).bad = [] := by
    unfold parityCheck
    simp only [hR, hC, and_self]
  have hcheck : (parityCheck w).fixed = [(j, [b])] ∧ (parityCheck w).bad = [] := by
    rcases Nat.lt_or_ge b 56 with hdata | hpar
    · have hRw : rowR w = [j] := filter_range_eq_singleton hj fun i hi => by
        refine (hword i hi).trans ?_
        rw [decide_eq_true hdata, decide_eq_false (by omega : ¬ 63 = b)]
        simp
      have hCw : rowC w = [b] := filter_range_eq_singleton hdata fun c hc => by
        refine (hcol c hc).trans ?_
        rw [decide_eq_false (by omega : ¬ 56 + c % 7 = b)]
        simp
      unfold parityCheck
      simp only [hRw, hCw, and_self]
    · rcases Nat.lt_or_ge b 63 with hcolumn | htop
      · have hRw : rowR w = [] := List.filter_eq_nil_iff.2 fun i hi => by
          have h := hword i (List.mem_range.1 hi)
          rw [decide_eq_false (by omega : ¬ b < 56), decide_eq_false (by omega : ¬ 63 = b)] at h
          simpa [wordFails] using h
        have hCw : rowC w = [7 * j + (b - 56)] := filter_range_eq_singleton (by omega) fun c hc => by
          refine (hcol c hc).trans ?_
          rw [decide_eq_false (by omega : ¬ c = b), Bool.false_bne, ← Bool.decide_and, decide_eq_decide]
          omega
        unfold parityCheck
        simp only [hRw, hCw]
        refine ⟨?_, trivial⟩
        rw [show (7 * j + (b - 56)) / 7 = j by omega, show 56 + (7 * j + (b - 56)) % 7 = b by omega]
      · have hb63 : b = 63 := by omega
        have hRw : rowR w = [j] := filter_range_eq_singleton hj fun i hi => by
          refine (hword i hi).trans ?_
          simp [hb63]
        have hCw : rowC w = [] := List.filter_eq_nil_iff.2 fun c hc => by
          have hc := List.mem_range.1 hc
          have h := hcol c hc
          rw [decide_eq_false (by omega : ¬ c = b), decide_eq_false (by omega : ¬ 56 + c % 7 = b)] at h
          simpa [colFails, colOdd] using h
        unfold parityCheck
        simp only [hRw, hCw]
        rw [hb63]
        exact ⟨rfl, trivial⟩
  exact ⟨hcheck.1, hcheck.2, hrest.1, hrest.2⟩

end Sys2Proof.Certificates

/-! ### Scrubber visits, page restoration and the steward's own memory faults (12 R311-R315) -/
namespace Sys2Proof.Machine
open Safety (fieldsKept onlyFields)

@[simp] theorem memAt_setMem_self (s : State) (m : Nat) (x : MemSt) : memAt (setMem s m x) m = x := tget_tset_self ..

theorem memAt_of_prot {s t : State} (h : t.prot = s.prot) (m : Nat) : memAt t m = memAt s m := by rw [memAt, h, memAt]

theorem setMem_kept (s : State) (m : Nat) (x : MemSt) : fieldsKept [F.POISONED m] s (setMem s m x) :=
  (fieldsKept_setF (by simp)).2 fun _ _ => rfl

/-- Words written in full are no longer poisoned. -/
theorem poison_unpoison (m : Nat) (ws : List Nat) (s : State) :
    (memAt (unpoison m ws s) m).poison = (memAt s m).poison.filter fun w => !ws.contains w := by
  unfold unpoison
  dsimp only
  split
  · rw [memAt_setMem_self]
  next h =>
    refine (List.filter_eq_self.2 fun w hw => ?_).symm
    rw [Bool.not_eq_true, List.any_eq_false] at h
    simpa using h w (List.mem_append_left _ hw)

theorem scrubVisit_of_clean {m : Nat} {row : List Nat} {s : State} (hon : isOn s (memDom m) = true) (hperiod : getF s (F.SCRUB_PERIOD m) ≠ 0)
    (hfixed : (rowCheck m row).fixed = []) (hbad : (rowCheck m row).bad = []) :
    scrubVisit m row s = if (memAt s m).row + 1 < memRows m then setMem s m { memAt s m with row := (memAt s m).row + 1 }
      else addF (setMem s m { memAt s m with row := 0, runs := (memAt s m).runs.filter fun e => e.2.2 == getF s (F.PASSES m) }) (F.PASSES m) 1 := by
  unfold scrubVisit
  simp only [hfixed, hbad]
  exact if_neg (by simp [hon, hperiod])

/-! #### Words written as zero (R314) -/

/-- The entries of poisoned words that no snapshot restores. -/
def wordZeroed (s : State) (w : Nat) : State := each (List.range 4) (fun s i => setEntry s (4 * w + i) 0) s

theorem tableEntry_setEntry_zero (s : State) (k i : Nat) : tableEntry (setEntry s k 0) i = if i = k then 0 else tableEntry s i := by
  by_cases h : i = k
  · rw [if_pos h, h]
    exact tget_tset_self s.fth.table k 0 0
  · rw [if_neg h]
    exact tget_tset_ne s.fth.table 0 0 0 h

theorem tableEntry_zero_of_setEntry {s : State} {i : Nat} (k : Nat) (h : tableEntry s i = 0) : tableEntry (setEntry s k 0) i = 0 := by
  rw [tableEntry_setEntry_zero, h, ite_self]

theorem tableEntry_zero_each {α : Type} {l : List α} {k : State → α → State} {i : Nat}
    (hk : ∀ s x, tableEntry s i = 0 → tableEntry (k s x) i = 0) {s : State} (h : tableEntry s i = 0) : tableEntry (each l k s) i = 0 := by
  induction l generalizing s with
  | nil => exact h
  | cons x l ih => exact ih (hk s x h)

/-- What one step of a list zeroes stays zero. -/
theorem tableEntry_zero_of_mem {α : Type} {l : List α} {k : State → α → State} {i : Nat}
    (hk : ∀ s x, tableEntry s i = 0 → tableEntry (k s x) i = 0) {x : α} (hx : x ∈ l) (hzero : ∀ s, tableEntry (k s x) i = 0) (s : State) :
    tableEntry (each l k s) i = 0 := by
  induction l generalizing s with
  | nil => exact absurd hx List.not_mem_nil
  | cons y l ih =>
    rw [each_cons]
    rcases List.mem_cons.1 hx with rfl | hx
    · exact tableEntry_zero_each hk (hzero s)
    · exact ih hx _

theorem tableEntry_wordZeroed (s : State) (w : Nat) {i : Nat} (hi : i < 4) : tableEntry (wordZeroed s w) (4 * w + i) = 0 :=
  tableEntry_zero_of_mem (fun _ k h => tableEntry_zero_of_setEntry (4 * w + k) h) (List.mem_range.2 hi)
    (fun s => by rw [tableEntry_setEntry_zero, if_pos rfl]) s

theorem tableEntry_wordZeroed_zero (s : State) (w i : Nat) (h : tableEntry s i = 0) : tableEntry (wordZeroed s w) i = 0 :=
  tableEntry_zero_each (fun _ k h => tableEntry_zero_of_setEntry (4 * w + k) h) h

theorem fthOnly_each {α : Type} {l : List α} {k : State → α → State} (hk : ∀ s x, k s x = { s with fth := (k s x).fth }) (s : State) :
    each l k s = { s with fth := (each l k s).fth } := by
  induction l generalizing s with
  | nil => rfl
  | cons x l ih => rw [each_cons, ih, hk]

theorem wordsZeroed_only (ws : List Nat) (s : State) : each ws wordZeroed s = { s with fth := (each ws wordZeroed s).fth } :=
  fthOnly_each (fun s _ => fthOnly_each (fun _ _ => rfl) s) s

/-- A page that is not restored has its poisoned words written as zero. -/
theorem tripletRestore_of_failed {p : Nat} {s : State} (hon : isOn s 9 = true) :
    tripletRestore p false s = each ((memAt s 0).poison.filter fun w => w / 16384 == p) (fun s _ => detect .mem 24 0 s)
      (unpoison 0 ((memAt s 0).poison.filter fun w => w / 16384 == p)
        (storeDone (each ((memAt s 0).poison.filter fun w => w / 16384 == p) wordZeroed s) 2)) := by
  unfold tripletRestore
  exact if_neg (by simp [hon])

end Sys2Proof.Machine

namespace Sys2Proof.Certificates
open Sys2Proof Sys2Proof.Machine
open Sys2Proof.Safety (onlyFields fieldsKept)

/-- Settles O40: a clean row moves the scrubber on; a failed restoration zeroes words before it takes their poison. -/
theorem scrubberAndStewardMeetBadWords : Obligations.ScrubberAndStewardMeetBadWords := by
  refine ⟨⟨fun m row s => ⟨fun hon hperiod hfixed hbad => ?visit, fun hon hperiod => congrArg Host.Outcome.next (if_pos (by simp [hon, hperiod])), fun hno => ?off⟩,
    fun p s hon => ?restore⟩, fun line s => ⟨fun hon hrun hbad => ?fetch, fun hno => ?fetchOk⟩, fun w s => ⟨fun hon hrun hbad => ?load, fun hno => ?loadOk⟩⟩
  case visit =>
    have hexec : exec (.scrubVisit m row) s = .next _ := congrArg Host.Outcome.next (scrubVisit_of_clean hon hperiod hfixed hbad)
    refine ⟨fun hmore => ?_, fun hlast => ?_⟩
    · rw [if_pos hmore] at hexec
      exact ⟨_, hexec, memAt_setMem_self .., setMem_kept s _ _, rfl⟩
    · rw [if_neg (by omega)] at hexec
      obtain ⟨v, hv⟩ : ∃ v, v = setMem s m.val
          { memAt s m.val with row := 0, runs := (memAt s m.val).runs.filter fun e => e.2.2 == getF s (F.PASSES m.val) } := ⟨_, rfl⟩
      rw [← hv] at hexec
      have hmem : memAt (addF v (F.PASSES m.val) 1) m.val = memAt v m.val := rfl
      have hmemV : memAt v m.val = _ := hv ▸ memAt_setMem_self ..
      have hkept : fieldsKept [F.POISONED m.val] s v := hv ▸ setMem_kept s _ _
      refine ⟨_, hexec, by rw [hmem, hmemV], by rw [hmem, hmemV], ?_, (fieldsKept_addF (by simp)).2 (fieldsKept_mono hkept (by simp))⟩
      rw [addF, getF_setF_self, hkept _ (by clear * -; decide +revert)]
  case off =>
    have hcond : (!isOn s (memDom m.val) || getF s (F.SCRUB_PERIOD m.val) == 0) = true := by rcases hno with h | h <;> simp [h]
    refine ⟨congrArg Host.Outcome.next (if_pos hcond), congrArg Host.Outcome.next (if_neg fun h => ?_)⟩
    rcases hno with hno | hno <;> simp [hno] at h
  case restore =>
    obtain ⟨ws, hws⟩ : ∃ ws, ws = (memAt s 0).poison.filter fun w => w / 16384 == p.toNat := ⟨_, rfl⟩
    obtain ⟨v, hv⟩ : ∃ v, v = each ws wordZeroed s := ⟨_, rfl⟩
    have honlyV : v = { s with fth := v.fth } := hv ▸ wordsZeroed_only ws s
    obtain ⟨x, hx⟩ : ∃ x, x = storeDone v 2 := ⟨_, rfl⟩
    have honlyX := hx ▸ storeDone_only v 2
    obtain ⟨u, hu⟩ : ∃ u, u = unpoison 0 ws x := ⟨_, rfl⟩
    have honlyU := hu ▸ unpoison_only 0 ws x
    have hexec : exec (.tripletRestoreDone p false) s = .next (each ws (fun s _ => detect .mem 24 0 s) u) := by
      rw [hu, hx, hv, hws]
      exact congrArg Host.Outcome.next (tripletRestore_of_failed hon)
    rw [← hws]
    refine ⟨u, hexec, fun w hw hpage i hi => ?_, ?_, ?_⟩
    · have hentry : tableEntry u (4 * w + i) = tableEntry v (4 * w + i) := by rw [tableEntry, honlyU, honlyX, tableEntry]
      rw [hentry, hv]
      exact tableEntry_zero_of_mem (fun s w => tableEntry_wordZeroed_zero s w _) (hws ▸ List.mem_filter.2 ⟨hw, by simp [hpage]⟩)
        (fun s => tableEntry_wordZeroed s w hi) s
    · have hmem : memAt x 0 = memAt s 0 := memAt_of_prot (by rw [honlyX, honlyV]) 0
      rw [hu, poison_unpoison, hmem]
      refine List.filter_congr fun w hw => ?_
      rw [hws]
      by_cases hpage : w / 16384 = p.toNat <;> simp [hpage, hw]
    · have hkeptV : fieldsKept [] s v := fieldsKept_of_regs (t := s) (by rw [honlyV]) fieldsKept_refl
      have hkeptX : fieldsKept [F.STORE_ACTIVE] v x := hx ▸ storeDone_kept v 2
      have hkeptU : fieldsKept [F.POISONED 0] x u := hu ▸ unpoison_kept 0 ws x
      exact fieldsKept_trans (fieldsKept_mono hkeptV (by simp)) (fieldsKept_trans (fieldsKept_mono hkeptX (by simp)) (fieldsKept_mono hkeptU (by simp)))
  case fetch => exact ⟨_, congrArg Host.Outcome.next (if_pos (by simp [stwRuns, hon, hrun, hbad])), rfl, rfl, rfl⟩
  case fetchOk => exact congrArg Host.Outcome.next (if_neg (by rcases hno with h | h <;> simp [stwRuns, h]))
  case load =>
    obtain ⟨v, hv⟩ : ∃ v, v = detect .stw 19 0 s := ⟨_, rfl⟩
    have hexec : exec (.stewardLoadTrap w) s = .next (stwReinit v) := hv ▸ congrArg Host.Outcome.next (if_pos (by simp [stwRuns, hon, hrun, hbad]))
    have hmem : memAt (stwReinit v) 8 = (memAt v 8).clean := memAt_setMem_self ..
    refine ⟨_, hexec, rfl, rfl, by rw [hmem]; rfl, by rw [hmem]; rfl⟩
  case loadOk => exact congrArg Host.Outcome.next (if_neg (by rcases hno with h | h <;> simp [stwRuns, h]))

end Sys2Proof.Certificates

/-! ### Loads start, take words, abort and end (02 R51, R56, R447) -/
namespace Sys2Proof.Machine
open Safety (fieldsKept onlyFields)

/-! #### Records offered change the Ledger alone (13 R328) -/

theorem ledgerOnly_trans {s t u : State} (hst : LedgerOnly s t) (htu : LedgerOnly t u) : LedgerOnly s u := by
  rw [LedgerOnly] at *
  rw [htu, hst]

theorem ledgerOnly_foldl {α : Type} {k : State → α → State} (hk : ∀ s x, LedgerOnly s (k s x)) (l : List α) (s : State) :
    LedgerOnly s (l.foldl k s) := by
  induction l generalizing s with
  | nil => rfl
  | cons x l ih => exact ledgerOnly_trans (hk s x) (ih _)

theorem ledgerOnly_flushLoss (s : State) : LedgerOnly s (flushLoss s) := by
  unfold flushLoss
  split
  · exact ledgerOnly_trans (t := { s with ldg := { s.ldg with runs := [] } }) rfl (ledgerOnly_foldl (k := lossPut) (fun _ _ => rfl) _ _)
  · rfl

theorem ledgerOnly_offer (s : State) (typ extra : Nat) (payload : List Nat) : LedgerOnly s (offer s typ extra payload) := by
  unfold offer offerR
  refine ledgerOnly_trans (ledgerOnly_flushLoss s) ?_
  dsimp only
  split_ifs <;> rfl

theorem getF_of_ledgerOnly {s t : State} (h : LedgerOnly s t) (f : Fld) : getF t f = getF s f := getF_of_regs (by rw [h]) f

theorem zoneAt_of_zones {s t : State} (h : t.zones = s.zones) (z : Nat) : zoneAt t z = zoneAt s z := by rw [zoneAt, h, zoneAt]

/-! #### The ends of sections and loads (R56, R447) -/

/-- Going on to the next section, or ending the load, changes the loader alone. -/
theorem nextSection_only (s : State) : onlyFields [F.LOADER_STATE] { s with ld := (nextSection s).ld } (nextSection s) := by
  unfold nextSection
  split
  · exact onlyFields_setF (by simp)
  · split <;> exact onlyFields_setF (by simp)

theorem zones_onlyIf {c : Bool} {k : State → State} (hk : ∀ s, (k s).zones = s.zones) {s : State} : (onlyIf c k s).zones = s.zones := by
  cases c with
  | true => exact hk s
  | false => rfl

/-- A zone whose section has ended, before the record of R69. -/
def zoneEnded (z code : Nat) (s : State) : State :=
  setFs (setResult (setZone s z { zoneAt s z with copied := none, switched := false, waits := [] }) z code)
    [(F.ZONE_STATE z, zIdle), (F.PEND_EPOCH z, 0)]

/-- The end of a section: the loader goes on, the zone is idle, and a record is offered. -/
theorem endSection_eq (z code : Nat) (s : State) : ∃ u old target issue build, ∃ armed : Bool,
    endSection z code s = offerCommit (zoneEnded z code u) z code armed old target issue build ∧ u.zones = s.zones := by
  unfold endSection
  dsimp only
  exact ⟨_, _, _, _, _, _, rfl, zones_onlyIf fun s => by rw [(nextSection_only _).2]⟩

theorem zoneField_ne_result (z : Nat) : (F.ZONE_RESULT z).key ≠ F.LAST_ZONE.key ∧ (F.ZONE_RESULT z).key ≠ F.CFG_LAST_RESULT.key ∧
    (F.ZONE_RESULT z).key ≠ (F.ZONE_STATE z).key ∧ (F.ZONE_RESULT z).key ≠ (F.PEND_EPOCH z).key ∧ (F.ZONE_STATE z).key ≠ (F.PEND_EPOCH z).key := by
  simp only [Fld.key, F.ZONE_RESULT, F.ZONE_STATE, F.PEND_EPOCH, F.LAST_ZONE, F.CFG_LAST_RESULT]
  omega

/-- What a zone reads once its section has ended. -/
theorem getF_zoneEnded {z code : Nat} (hcode : code < 16) (s : State) : getF (zoneEnded z code s) (F.ZONE_STATE z) = 0 ∧
    getF (zoneEnded z code s) (F.ZONE_RESULT z) = code ∧ getF (zoneEnded z code s) (F.PEND_EPOCH z) = 0 := by
  obtain ⟨hlast, hloader, hstate, hpend, hstatePend⟩ := zoneField_ne_result z
  simp only [zoneEnded, setResult, setFs_cons, setFs_nil]
  refine ⟨?_, ?_, getF_setF_of_lt _ (Nat.two_pow_pos _)⟩
  · rw [getF_setF_ne _ _ hstatePend]
    exact getF_setF_of_lt _ (Nat.two_pow_pos _)
  · rw [getF_setF_ne _ _ hpend, getF_setF_ne _ _ hstate, getF_setF_ne _ _ hloader, getF_setF_ne _ _ hlast, getF_setF_of_lt _ hcode]

theorem cancel_of_staging {z code : Nat} {s : State} (h : getF s (F.ZONE_STATE z) = 1) : cancel z code s = detect .cfg 1 0 (endSection z code s) :=
  if_pos h

theorem cancel_of_other {z code : Nat} {s : State} (hstaging : getF s (F.ZONE_STATE z) ≠ 1) (harmed : getF s (F.ZONE_STATE z) ≠ 2) :
    cancel z code s = s :=
  (if_neg hstaging).trans (if_neg harmed)

theorem ldTrim_of_no_skip {s : State} (h : s.ld.skip = 0) : ldTrim s = s := by
  obtain ⟨ld, hld⟩ : ∃ ld, ld = s.ld := ⟨_, rfl⟩
  unfold ldTrim
  rw [← hld] at h ⊢
  simp only [h, Nat.zero_min, List.drop_zero, Nat.sub_zero, Nat.add_zero]
  subst hld
  rw [← h]

/-! #### Images of the store (R49, R446) -/

/-- What the checks of images and sections read: fuses, the flash and the Grave lock. -/
def SameChecks (s t : State) : Prop := t.sec = s.sec ∧ t.st.cells = s.st.cells ∧ getB t F.GRAVE_LOCK = getB s F.GRAVE_LOCK

section SameChecks
variable {s t : State} (h : SameChecks s t)
include h

theorem keyCheck_congr (bs : List Byte) (off : Nat) : keyCheck t bs off = keyCheck s bs off := by
  obtain ⟨hsec, -, -⟩ := h
  have hkey : keyOf t = keyOf s := by
    unfold keyOf fuseAt fuseBad
    rw [hsec]
  rw [keyCheck, hkey, keyCheck]

theorem storeImage_congr (slot : Nat) : storeImage t slot = storeImage s slot := by
  obtain ⟨-, hcells, hgrave⟩ := id h
  have hhead : imgHeadCheck t = imgHeadCheck s := by
    unfold imgHeadCheck graveLocked
    simp only [keyCheck_congr h, hgrave]
  unfold storeImage storeHead storeBody
  rw [hhead, hcells]

theorem secVerify_congr (bs : List Byte) : secVerify t bs = secVerify s bs := by
  rw [secVerify, keyCheck_congr h, secVerify]

end SameChecks

theorem sameChecks_storeDone (s : State) (r : Nat) : SameChecks s (storeDone s r) := by
  have honly := storeDone_only s r
  refine ⟨by rw [honly], by rw [honly], ?_⟩
  rw [getB, storeDone_kept s r _ (by simp; decide), getB]

theorem staleSec_storeDone (s : State) (r : Nat) (bs : List Byte) : staleSec (storeDone s r) bs = staleSec s bs := by
  have hepoch (z : Nat) (hz : zoneOk z = true) : getF (storeDone s r) (F.ZONE_EPOCH z) = getF s (F.ZONE_EPOCH z) := by
    have hlt : z < 64 := by simp only [zoneOk, Bool.or_eq_true, Bool.and_eq_true, decide_eq_true_eq] at hz; omega
    exact storeDone_kept s r _ (by simp only [List.mem_singleton, forall_eq, Fld.key, F.ZONE_EPOCH, F.STORE_ACTIVE]; omega)
  unfold staleSec
  cases hz : zoneOk (leAt bs 8 1) with
  | false => simp [hz]
  | true => simp [hz, hepoch _ hz]

end Sys2Proof.Machine

namespace Sys2Proof.Certificates
open Sys2Proof Sys2Proof.Machine
open Sys2Proof.Safety (onlyFields fieldsKept)

/-- Settles O41: each end by the loader's state, its source and the section it stages. -/
theorem loadsStartAndEnd : Obligations.LoadsStartAndEnd := by
  intro s
  refine ⟨fun src hon => ⟨fun hsrc hidle => ?start, fun hno => ?source⟩, fun v => ⟨fun hload hreg himg hskip => ?word, fun hno => ?ignored⟩,
    fun z hon hz => ?abort, fun z code hz hcode => ?ended, fun hon hsrc hwait himg hsec => ?streamTimeout, fun hno => ?noTimeout,
    fun x hon hst himg hsec => ?sectionTimeout, fun hon hst hsrc hsec hbuf => ⟨fun code hbad => ?imageBad, fun off bs rest hok hall hfresh => ?imageOk⟩⟩
  case start =>
    have hlt : src.toNat < 2 ^ F.LOAD_SRC.width := src.isLt
    obtain ⟨u, hu⟩ : ∃ u, u = setF { setF s F.LOAD_SRC src.toNat with ld := { LoaderSt.idle with src := src.toNat } } F.LOADER_STATE 1 := ⟨_, rfl⟩
    have hexec : exec (.loadStart src) s = .next (if src.toNat < 2 then storeWant u 3 else u) := by
      refine congrArg Host.Outcome.next ((if_neg (by simp [hon])).trans ((if_neg ?_).trans ?_))
      · rw [getF_setF_ne _ _ (by decide)]
        omega
      · rw [hu]
    have hstate : getF u F.LOADER_STATE = 1 := hu ▸ getF_setF_of_lt _ (by decide)
    have hreg : getF u F.LOAD_SRC = src.toNat := by
      rw [hu, getF_setF_ne _ _ (by decide)]
      exact getF_setF_of_lt s hlt
    have hkept : fieldsKept [F.LOADER_STATE, F.LOAD_SRC] s u := by
      rw [hu, fieldsKept_setF (by simp)]
      exact fieldsKept_of_regs (t := setF s F.LOAD_SRC src.toNat) rfl ((fieldsKept_setF (by simp)).2 fieldsKept_refl)
    refine ⟨_, hexec, ?_⟩
    split
    next h =>
      exact ⟨hstate, hreg, by rw [storeWant, hu]; rfl, by rw [storeWant, hu]; rfl, fieldsKept_of_regs (t := u) rfl hkept, by rw [storeWant, hu]; rfl⟩
    next h =>
      exact ⟨hstate, hreg, by rw [hu]; rfl, by rw [hu]; exact (List.append_nil _).symm, hkept, by rw [hu]; rfl⟩
  case source =>
    have hlt : src.toNat < 2 ^ F.LOAD_SRC.width := src.isLt
    refine ⟨_, congrArg Host.Outcome.next ((if_neg (by simp [hon])).trans (if_pos ?_)), getF_setF_of_lt s hlt, onlyFields_setF (by simp)⟩
    rw [getF_setF_ne _ _ (by decide)]
    exact hno
  case word =>
    refine congrArg Host.Outcome.next ((if_pos (by simp [hload, hreg])).trans ?_)
    unfold feed
    simp only [himg]
    exact ldTrim_of_no_skip hskip
  case ignored => exact congrArg Host.Outcome.next (if_neg (by simp [hno]))
  case abort =>
    have hlt : z.toNat < 2 ^ F.ABORT_ZONE.width := z.isLt
    have hstate : getF (setF s F.ABORT_ZONE z.toNat) (F.ZONE_STATE z.toNat) = getF s (F.ZONE_STATE z.toNat) :=
      getF_setF_ne s _ (by simp only [Fld.key, F.ZONE_STATE, F.ABORT_ZONE]; omega)
    have hexec : exec (.abort z) s = .next (cancel z.toNat 0xC (setF s F.ABORT_ZONE z.toNat)) :=
      congrArg Host.Outcome.next ((if_neg (by simp [hon])).trans (if_pos hz))
    refine ⟨setF s F.ABORT_ZONE z.toNat, getF_setF_of_lt s hlt, onlyFields_setF (by simp), fun hst => ?_, fun hst => ?_⟩
    · rw [hexec, cancel_of_staging (hstate.trans hst)]
    · rw [hexec, cancel_of_other (by rw [hstate]; omega) (by rw [hstate]; omega)]
  case ended =>
    obtain ⟨u, old, target, issue, build, armed, hend, hzones⟩ := endSection_eq z code s
    have honly : LedgerOnly (zoneEnded z code u) (endSection z code s) := by rw [hend]; exact ledgerOnly_offer ..
    obtain ⟨hstate, hresult, hpend⟩ := getF_zoneEnded (z := z) hcode u
    have hzone : zoneAt (endSection z code s) z = { zoneAt s z with copied := none, switched := false, waits := [] } := by
      rw [zoneAt_of_zones (s := zoneEnded z code u) (by rw [honly]), ← zoneAt_of_zones hzones]
      exact zoneAt_setZone_self u z _
    refine ⟨?_, ?_, ?_, by rw [hzone], by rw [hzone]⟩
    · rw [getF_of_ledgerOnly honly, hstate]
    · rw [getF_of_ledgerOnly honly, hresult]
    · rw [getF_of_ledgerOnly honly, hpend]
  case streamTimeout =>
    have hexec : exec .loadTimeout s = .next (loadEnd s) := by
      refine congrArg Host.Outcome.next ((if_neg (by simp [hon, hwait]; omega)).trans ((if_neg (by simp [himg])).trans ?_))
      simp only [hsec]
    exact ⟨_, hexec, getF_setF_of_lt _ (by decide), rfl, (fieldsKept_setF (by simp)).2 (fieldsKept_of_regs (t := s) rfl fieldsKept_refl), rfl⟩
  case noTimeout =>
    exact congrArg Host.Outcome.next (if_pos (by tauto))
  case sectionTimeout =>
    refine congrArg Host.Outcome.next ((if_neg (by simp [hon, hst])).trans ((if_neg (by simp [himg])).trans ?_))
    simp only [hsec]
    rfl
  case imageBad =>
    refine ⟨loadEnd (imageFail (imgOf (storeHead (storeDone s 3) s.ld.src)).seq code (storeDone s 3)), ?_, getF_setF_of_lt _ (by decide), rfl⟩
    refine congrArg Host.Outcome.next ((if_neg (by simp [hon, hst, hsrc, hsec, hbuf])).trans ?_)
    simp only [storeImage_congr (sameChecks_storeDone s 3), hbad]
  case imageOk =>
    obtain ⟨v, hv⟩ : ∃ v, v = storeDone s 3 := ⟨_, rfl⟩
    have hsame : SameChecks s v := hv ▸ sameChecks_storeDone s 3
    have honly := hv ▸ storeDone_only s 3
    have hfind : (((off, bs) :: rest).find? fun e => secVerify v e.2 != 0) = none :=
      List.find?_eq_none.2 fun e he => by simp [secVerify_congr hsame, hall e he]
    obtain ⟨w, hw⟩ : ∃ w, w = { v with ld := { v.ld with todo := (off, bs) :: rest } } := ⟨_, rfl⟩
    have hexec : exec .storeImageReadDone s = .next (nextSection w) := by
      refine congrArg Host.Outcome.next ((if_neg (by simp [hon, hst, hsrc, hsec, hbuf])).trans ?_)
      simp only [storeImage_congr (sameChecks_storeDone s 3), hok]
      rw [← hv, hfind, hw]
    have hstale : staleSec w bs = false := by rw [hw, ← hfresh, ← staleSec_storeDone s 3, ← hv]; rfl
    have hnext : nextSection w = setF { w with ld := { w.ld with sec := none, buf := bs, pos := off, todo := rest, skip := 0 } } F.LOADER_STATE 1 := by
      rw [nextSection, if_neg (by rw [hw, honly]; exact Nat.not_le.2 hsrc)]
      have hdrop : (w.ld.todo.dropWhile fun e => staleSec w e.2) = (off, bs) :: rest := by
        rw [show w.ld.todo = (off, bs) :: rest by rw [hw]]
        exact List.dropWhile_cons_of_neg (by simp [hstale])
      rw [hdrop]
    rw [hnext] at hexec
    refine ⟨_, hexec, rfl, rfl, rfl, getF_setF_of_lt _ (by decide), (fieldsKept_setF (by simp)).2 ?_⟩
    exact fieldsKept_of_regs (t := v) (by rw [hw]) (fieldsKept_mono (hv ▸ storeDone_kept s 3) (by simp))

end Sys2Proof.Certificates

/-! ### Headers, records, END and copies (02 R46-R50, R54, R56, R446, R447) -/
namespace Sys2Proof.Machine
open Safety (fieldsKept onlyFields)

theorem leAt_take {bs : List Byte} {o k n : Nat} (h : o + k ≤ n) : leAt (bs.take n) o k = leAt bs o k := by
  rw [leAt, List.drop_take, List.take_take, Nat.min_eq_left (by omega), leAt]

theorem imgHeadCheck_congr {s t : State} (h : SameChecks s t) (bs : List Byte) : imgHeadCheck t bs = imgHeadCheck s bs := by
  obtain ⟨-, -, hgrave⟩ := id h
  unfold imgHeadCheck graveLocked
  simp only [keyCheck_congr h, hgrave]

theorem secHeadCheck_congr {s t : State} (h : SameChecks s t) (startup : Bool) (bs : List Byte) :
    secHeadCheck t startup bs = secHeadCheck s startup bs := by
  unfold secHeadCheck
  simp only [keyCheck_congr h]

/-! #### Image headers (R446) -/

theorem imageHeader_of_ready {s : State} (hskip : s.ld.skip = 0) (hready : headReady s = true) (hat : atImage s = true) :
    imageHeader s = if imgHeadCheck s (s.ld.buf.take 128) ≠ 0 then
        let v := imageFail (leAt s.ld.buf 0x10 4) (imgHeadCheck s (s.ld.buf.take 128)) (takeBytes 128 s)
        { v with ld := { v.ld with buf := [], skip := 2 ^ 32 } }
      else
        let body := (s.ld.buf.drop 128).take (leAt s.ld.buf 0x14 4 - 128)
        forgetImages { takeBytes 128 s with ld := { (takeBytes 128 s).ld with
          buf := body, img := some { imgOf (s.ld.buf.take 128) with body := body } } } := by
  have hcheck : imgHeadCheck (takeBytes 128 s) (s.ld.buf.take 128) = imgHeadCheck s (s.ld.buf.take 128) := imgHeadCheck_congr ⟨rfl, rfl, rfl⟩ _
  have hlen : (imgOf (s.ld.buf.take 128)).len = leAt s.ld.buf 0x14 4 := leAt_take (by omega)
  have hseq : (imgOf (s.ld.buf.take 128)).seq = leAt s.ld.buf 0x10 4 := leAt_take (by omega)
  unfold imageHeader
  rw [ldTrim_of_no_skip hskip]
  dsimp only
  rw [if_neg (by simp [hready, hat]), hcheck, hlen, hseq]
  rfl

theorem zoneAt_forgetImages (s : State) (z : Nat) :
    zoneAt (forgetImages s) z = { zoneAt s z with copied := (zoneAt s z).copied.map fun p => { p with inImage := false } } :=
  tget_map (g := fun x : ZoneSt => { x with copied := x.copied.map fun p => { p with inImage := false } }) rfl s.zones z

/-! #### Section headers (R50) -/

/-- The section that a header starts. -/
def sectionOf (s : State) (x : SecHdr) (h : List Byte) : SecSt :=
  ⟨x, secDigest h, [], ZContent.empty, if s.ld.src < 2 then 1 + s.ld.src else 3, if (if s.ld.src < 2 then 1 + s.ld.src else 3) = 3 then 0 else s.ld.pos, s.ld.img.isSome⟩

/-- A zone in STAGING with the section that its header starts. -/
def staged (x : SecSt) (s : State) : State :=
  setFs { s with ld := { s.ld with sec := some x } }
    [(F.ZONE_STATE x.hdr.zone, zStaging), (F.PEND_EPOCH x.hdr.zone, x.hdr.epoch), (F.SWITCHED_TX x.hdr.zone, 0),
     (F.SWITCHED_RX x.hdr.zone, 0), (F.LOADER_STATE, 2)]

/-- Fields of a zone's words and the loader's state are told apart. -/
theorem zoneState_key_ne (z : Nat) : (F.ZONE_STATE z).key ≠ (F.PEND_EPOCH z).key ∧ (F.ZONE_STATE z).key ≠ (F.SWITCHED_TX z).key ∧
    (F.ZONE_STATE z).key ≠ (F.SWITCHED_RX z).key ∧ (F.ZONE_STATE z).key ≠ F.LOADER_STATE.key ∧ (F.PEND_EPOCH z).key ≠ (F.SWITCHED_TX z).key ∧
    (F.PEND_EPOCH z).key ≠ (F.SWITCHED_RX z).key ∧ (F.PEND_EPOCH z).key ≠ F.LOADER_STATE.key := by
  simp only [Fld.key, F.ZONE_STATE, F.PEND_EPOCH, F.SWITCHED_TX, F.SWITCHED_RX, F.LOADER_STATE]
  omega

theorem getF_staged (x : SecSt) (s : State) : getF (staged x s) F.LOADER_STATE = 2 ∧ getF (staged x s) (F.ZONE_STATE x.hdr.zone) = 1 ∧
    getF (staged x s) (F.PEND_EPOCH x.hdr.zone) = x.hdr.epoch % 2 ^ 16 := by
  obtain ⟨h1, h2, h3, h4, h5, h6, h7⟩ := zoneState_key_ne x.hdr.zone
  simp only [staged, setFs_cons, setFs_nil]
  refine ⟨getF_setF_of_lt _ (by decide), ?_, ?_⟩
  · rw [getF_setF_ne _ _ h4, getF_setF_ne _ _ h3, getF_setF_ne _ _ h2, getF_setF_ne _ _ h1]
    exact getF_setF_of_lt _ (Nat.one_lt_two_pow (Nat.succ_ne_zero 3))
  · rw [getF_setF_ne _ _ h7, getF_setF_ne _ _ h6, getF_setF_ne _ _ h5, getF_setF_self]
    rfl

theorem sectionHeader_of_ready {s : State} (hskip : s.ld.skip = 0) (hready : headReady s = true) (hat : atImage s = false) (himg : s.ld.img = none) :
    sectionHeader s =
      let h := s.ld.buf.take 128
      let code := if secHeadCheck s false h ≠ 0 then secHeadCheck s false h else secZoneCheck s (secOf h)
      if code ≠ 0 then
        let v := secRefuse (secOf h) code (takeBytes 128 s)
        nextSection { v with ld := { v.ld with skip := if leAt h 0 4 == secMagic && secLenOk (secOf h).len then (secOf h).len - 128 else skipAll } }
      else staged (sectionOf s (secOf h) h) (takeBytes 128 s) := by
  obtain ⟨u, hu⟩ : ∃ u, u = { s with ld := { s.ld with img := s.ld.img.map fun i : ImgSt => { i with zones := i.zones ++ [(secOf (s.ld.buf.take 128)).zone] } } } := ⟨_, rfl⟩
  have hus : u = s := by
    rw [hu, himg, Option.map_none, ← himg]
  have hhead : secHeadCheck (takeBytes 128 s) false (s.ld.buf.take 128) = secHeadCheck s false (s.ld.buf.take 128) := secHeadCheck_congr ⟨rfl, rfl, rfl⟩ ..
  have hzone (x : SecHdr) : secZoneCheck (takeBytes 128 s) x = secZoneCheck s x := rfl
  unfold sectionHeader
  rw [ldTrim_of_no_skip hskip]
  dsimp only
  rw [if_neg (by simp [hready, hat]), if_neg (by simp [himg]), ← hu, hus, hhead, hzone]
  rfl

/-! #### Records and END (R46, R48, R56) -/

section Record
variable {s : State} {x : SecSt} {typ n : Nat} {ws : List Nat} (hsec : stagingSec s = some x) (hin : overruns x s.ld.buf = false)
  (hrec : recordAt s.ld.buf = some (typ, ws, n))
include hsec hin hrec

theorem recordStaged_of_ok {ct : ZContent} (htyp : typ ≠ 0x7FFF) (hz : x.hdr.zone ≠ 3) (hok : applyRec x.hdr.zone typ ws x.content = .ok ct) :
    recordStaged s = if x.hdr.len ≤ 128 + x.body.length + n then cancel x.hdr.zone 2 (takeRecord x ct n s) else takeRecord x ct n s := by
  unfold recordStaged
  simp only [hsec, hin, hrec, hok, if_neg htyp, hz, false_and, if_false]
  rfl

theorem recordStaged_of_error {code : Nat} (htyp : typ ≠ 0x7FFF) (hz : x.hdr.zone ≠ 3) (hbad : applyRec x.hdr.zone typ ws x.content = .error code) :
    recordStaged s = cancel x.hdr.zone code s := by
  unfold recordStaged
  simp only [hsec, hin, hrec, hbad, if_neg htyp, hz, false_and, if_false]
  rfl

end Record

/-- What END copies to the inactive banks. -/
def copiedOf (x : SecSt) : Pending := ⟨x.content, x.hdr.epoch, x.hdr.build, x.src, x.off, x.inImage, x.hdr.tx, x.hdr.rx, x.hdr.mode, 0, 0⟩

section End
variable {s : State} {x : SecSt} {n : Nat} (hsec : stagingSec s = some x) (hin : overruns x s.ld.buf = false)
  (hrec : recordAt s.ld.buf = some (0x7FFF, [], n)) (hz : x.hdr.zone ≠ 3)
include hsec hin hrec hz

theorem sectionEnd_of_good (hbody : bodyBad x (x.body ++ s.ld.buf.take n) = none) (hcontent : contentBad s x.hdr.zone x.content = none)
    (hon : zoneOn s x.hdr.zone x.content = true) :
    sectionEnd s = setF (setZone (takeRecord x x.content n s) x.hdr.zone { zoneAt s x.hdr.zone with copied := some (copiedOf x) }) F.LOADER_STATE 3 := by
  unfold sectionEnd
  simp only [hsec, hin, hrec, hbody, hcontent, hon, hz, false_and, if_false, ne_eq, not_true_eq_false, Option.orElse_none]
  rfl

theorem sectionEnd_of_bad {code : Nat} (hbad : bodyBad x (x.body ++ s.ld.buf.take n) = some code) : sectionEnd s = cancel x.hdr.zone code s := by
  unfold sectionEnd
  simp only [hsec, hin, hrec, hbad, hz, false_and, if_false, ne_eq, not_true_eq_false, Option.orElse_some]
  rfl

end End

theorem zoneAt_armSection (z : Nat) (p : Pending) (tx : Nat) (s : State) : zoneAt (armSection z p tx s) z = { zoneAt s z with
    copied := some { p with tx := tx, issue := getF (addF s F.CFG_ISSUE_SEQ 1) F.CFG_ISSUE_SEQ, order := nextOrder (addF s F.CFG_ISSUE_SEQ 1) } } := by
  obtain ⟨x, hx⟩ : ∃ x, x = { zoneAt s z with
    copied := some { p with tx := tx, issue := getF (addF s F.CFG_ISSUE_SEQ 1) F.CFG_ISSUE_SEQ, order := nextOrder (addF s F.CFG_ISSUE_SEQ 1) } } := ⟨_, rfl⟩
  have hzones : (armSection z p tx s).zones = (setZone (addF s F.CFG_ISSUE_SEQ 1) z x).zones := by rw [hx]; rfl
  rw [zoneAt_of_zones hzones, zoneAt_setZone_self, hx]

/-! #### Ends of images (R447) -/

/-- The image that has arrived whole ends the load, its sections cancelled where it is found unacceptable. -/
theorem imageEnd_of_whole {s : State} {i : ImgSt} (hskip : s.ld.skip = 0) (himg : s.ld.img = some i) (hon : isOn s 1 = true)
    (hst : getF s F.LOADER_STATE = 1) (hlen : i.body.length + 128 = i.len) (hbuf : s.ld.buf = []) :
    imageEnd s = loadEnd (if i.zones.length ≠ i.count then imageCancel rFormat s else if sha256 i.body ≠ i.digest then imageCancel rSig s else s) := by
  unfold imageEnd
  rw [ldTrim_of_no_skip hskip]
  simp only [himg]
  refine (if_neg (by simp [hon, hst, hlen, hbuf])).trans ?_
  by_cases hcount : i.zones.length = i.count
  · rw [if_neg (not_not.2 hcount)]
    refine (if_neg (by simp [hcount, hbuf, hskip])).trans ?_
    split <;> rfl
  · rw [if_pos hcount]
    exact if_pos (.inl hcount)

end Sys2Proof.Machine

namespace Sys2Proof.Certificates
open Sys2Proof Sys2Proof.Machine
open Sys2Proof.Safety (onlyFields fieldsKept)

/-- Settles O42: the loader's place in the stream decides which check comes next, and the check decides the outcome. -/
theorem sectionsAreStagedAndArmed : Obligations.SectionsAreStagedAndArmed := by
  intro s
  refine ⟨fun hskip hready hat => ⟨fun hok => ?image, fun hbad => ?imageBad⟩, fun hno hskip => ?noImage,
    fun hskip hready hat himg hsrc => ⟨fun hhead hzone => ?section_, fun hbad => ?sectionBad⟩,
    fun x typ ws n hsec hin hrec => ⟨fun htyp hz => ⟨fun ct hok hfull => ?last, fun ct hok hmore => ?next, fun code hbad => ?bad⟩,
      fun htyp hws hz => ⟨fun hbody hcontent hon => ?end_, fun code hbad => ?endBad⟩⟩,
    fun z x p hsec hcop hon hst hz hzone => ⟨fun hcheck hsrc => ?arm, fun hcheck => ?refused⟩, fun z hst => ?notArming,
    fun i himg hon hst hlen hbuf hskip => ?whole, fun himg hskip => ?noEnd⟩
  case image =>
    have hheader := imageHeader_of_ready hskip hready hat
    rw [if_neg (not_not.2 hok)] at hheader
    have hseq : leAt (s.ld.buf.take 128) 0x10 4 = leAt s.ld.buf 0x10 4 := leAt_take (by decide)
    have hlen : leAt (s.ld.buf.take 128) 0x14 4 = leAt s.ld.buf 0x14 4 := leAt_take (by decide)
    obtain ⟨body, hbody⟩ : ∃ body, body = (s.ld.buf.drop 128).take (leAt s.ld.buf 0x14 4 - 128) := ⟨_, rfl⟩
    simp only [← hbody] at hheader
    obtain ⟨i, hi⟩ : ∃ i, i = { imgOf (s.ld.buf.take 128) with body := body } := ⟨_, rfl⟩
    rw [← hi] at hheader
    exact ⟨_, i, congrArg Host.Outcome.next hheader, rfl, by rw [hi]; exact hseq, by rw [hi]; exact hlen, by rw [hi]; rfl,
      fun z => zoneAt_forgetImages _ z, rfl⟩
  case imageBad =>
    have hheader := imageHeader_of_ready hskip hready hat
    rw [if_pos hbad] at hheader
    exact ⟨takeBytes 128 s, rfl, congrArg Host.Outcome.next hheader⟩
  case noImage =>
    refine congrArg Host.Outcome.next ?_
    rw [imageHeader, ldTrim_of_no_skip hskip]
    exact if_pos (by rcases hno with h | h <;> simp [h])
  case section_ =>
    have hheader := sectionHeader_of_ready hskip hready hat himg
    simp only [hhead, hzone, ne_eq, not_true_eq_false, if_false] at hheader
    obtain ⟨x, hx⟩ : ∃ x, x = sectionOf s (secOf (s.ld.buf.take 128)) (s.ld.buf.take 128) := ⟨_, rfl⟩
    rw [← hx] at hheader
    obtain ⟨hstate, hzoneState, hpend⟩ := getF_staged x (takeBytes 128 s)
    refine ⟨_, x, congrArg Host.Outcome.next hheader, rfl, by rw [hx]; rfl, by rw [hx]; rfl, by rw [hx]; rfl, rfl, hstate, hzoneState, hpend, ?_, rfl⟩
    exact fieldsKept_setFs (by simp) (fieldsKept_of_regs (t := s) rfl fieldsKept_refl)
  case sectionBad =>
    have hheader := sectionHeader_of_ready hskip hready hat himg
    simp only [if_pos hbad] at hheader
    exact ⟨takeBytes 128 s, rfl, _, congrArg Host.Outcome.next hheader⟩
  case last => exact congrArg Host.Outcome.next ((recordStaged_of_ok hsec hin hrec htyp hz hok).trans (if_pos hfull))
  case next => exact ⟨_, congrArg Host.Outcome.next ((recordStaged_of_ok hsec hin hrec htyp hz hok).trans (if_neg (by omega))), rfl, rfl, rfl, rfl⟩
  case bad => exact congrArg Host.Outcome.next (recordStaged_of_error hsec hin hrec htyp hz hbad)
  case end_ =>
    rw [htyp, hws] at hrec
    refine ⟨_, copiedOf x, congrArg Host.Outcome.next (sectionEnd_of_good hsec hin hrec hz hbody hcontent hon), getF_setF_of_lt _ (by decide), ?_, rfl, rfl, rfl, ?_⟩
    · rw [zoneAt_of_zones (setF_zones ..), zoneAt_setZone_self]
    · exact (fieldsKept_setF (by simp)).2 (fieldsKept_of_regs (t := s) rfl fieldsKept_refl)
  case endBad =>
    rw [htyp, hws] at hrec
    exact congrArg Host.Outcome.next (sectionEnd_of_bad hsec hin hrec hz hbad)
  case arm =>
    obtain ⟨u, hu⟩ : ∃ u, u = armSection z.toNat p (commitPoint s p) s := ⟨_, rfl⟩
    have hcopy := copyComplete_of_copied hsec hcop hon hst hz
    rw [if_neg (not_not.2 hcheck), ← hu, nextSection_of_stream (by rw [hu]; exact hsrc)] at hcopy
    have hissue : getF (setF u F.LOADER_STATE 1) F.CFG_ISSUE_SEQ = getF (addF s F.CFG_ISSUE_SEQ 1) F.CFG_ISSUE_SEQ := by
      rw [getF_setF_ne _ _ (by decide), hu, getF_of_regs (armSection_regs ..)]
      refine getF_setFs_ne _ _ _ fun q hq => ?_
      simp only [armWrites, List.mem_cons, List.not_mem_nil, or_false] at hq
      rcases hq with rfl | rfl | rfl <;> simp only [Fld.key, F.CFG_ISSUE_SEQ, F.COMMIT_TX, F.COMMIT_RX, F.ZONE_STATE] <;> omega
    have hzoneT : zoneAt (setF u F.LOADER_STATE 1) z.toNat = { zoneAt s z.toNat with
        copied := some { p with tx := commitPoint s p, issue := getF (addF s F.CFG_ISSUE_SEQ 1) F.CFG_ISSUE_SEQ, order := nextOrder (addF s F.CFG_ISSUE_SEQ 1) } } := by
      rw [zoneAt_of_zones (setF_zones ..), hu, zoneAt_armSection]
    refine ⟨_, _, congrArg Host.Outcome.next hcopy, ?_, ?_, ?_, by rw [hzoneT], hissue.symm, rfl, by rw [hu]; rfl, getF_setF_of_lt _ (by decide)⟩
    · rw [getF_setF_ne _ _ (zoneState_key_ne z.toNat).2.2.2.1, hu, getF_armSection_zoneState]
    · rw [getF_setF_ne _ _ (by simp only [Fld.key, F.COMMIT_TX, F.LOADER_STATE]; omega), hu, getF_armSection_commitTx]
    · rw [hissue, addF, getF_setF_self]
      rfl
  case refused =>
    have hcopy := copyComplete_of_copied hsec hcop hon hst hz
    rw [if_pos hcheck] at hcopy
    exact congrArg Host.Outcome.next hcopy
  case notArming =>
    refine congrArg Host.Outcome.next ?_
    unfold copyComplete
    split
    · exact if_pos (.inr (.inl hst))
    · rfl
  case whole =>
    have hend := imageEnd_of_whole hskip himg hon hst hlen hbuf
    obtain ⟨u, hu⟩ : ∃ u, u = if i.zones.length ≠ i.count then imageCancel rFormat s else if sha256 i.body ≠ i.digest then imageCancel rSig s else s := ⟨_, rfl⟩
    rw [← hu] at hend
    refine ⟨loadEnd u, congrArg Host.Outcome.next hend, getF_setF_of_lt _ (by decide), rfl, fun hcount hdigest => ?_⟩
    rw [if_neg (not_not.2 hcount), if_neg (not_not.2 hdigest)] at hu
    rw [hu]
    exact ⟨(fieldsKept_setF (by simp)).2 (fieldsKept_of_regs (t := s) rfl fieldsKept_refl), rfl⟩
  case noEnd =>
    refine congrArg Host.Outcome.next ?_
    unfold imageEnd
    rw [ldTrim_of_no_skip hskip]
    simp only [himg]

end Sys2Proof.Certificates

/-! ### Commits, restarts, reverts, reloads and the image at start-up (02 R53-R66; 12 R315) -/
namespace Sys2Proof.Machine
open Safety (fieldsKept onlyFields)

/-! #### A furlong boundary with no zone due (R53) -/

theorem countClips_only (s : State) (c : Nat) : onlyFields [F.TX_CLIP_CNT c] s (countClips s c) := by
  unfold countClips
  split
  · exact onlyFields_setF (by simp)
  · exact onlyFields_refl

/-- FURLONG_NOW counts, with the limited samples of the furlong. -/
def furlongCounted (s : State) : State := addF (countClips (countClips s 0) 1) F.FURLONG_NOW 1

theorem furlongCounted_only (s : State) : onlyFields [F.FURLONG_NOW, F.TX_CLIP_CNT 0, F.TX_CLIP_CNT 1] s (furlongCounted s) :=
  onlyFields_addF 1 (by simp) (onlyFields_trans (onlyFields_mono (countClips_only s 0) (by simp)) (onlyFields_mono (countClips_only _ 1) (by simp)))

theorem getF_furlongNow_furlongCounted (s : State) : getF (furlongCounted s) F.FURLONG_NOW = (getF s F.FURLONG_NOW + 1) % 2 ^ 32 := by
  rw [furlongCounted, addF, getF_setF_self, (countClips_only _ 1).1 _ (by decide), (countClips_only s 0).1 _ (by decide)]
  rfl

theorem tfind_mapKeys {α : Type} (g : Nat → α → α) (t : Tab α) (i : Nat) : tfind (t.map fun e => (e.1, g e.1 e.2)) i = (tfind t i).map (g i) := by
  induction t with
  | nil => rfl
  | cons e t ih =>
    obtain ⟨k, v⟩ := e
    by_cases h : i = k
    · simp [tfind, h]
    · simpa [tfind, h] using ih

/-- A unit as a furlong has passed for it. -/
def unitAged (s : State) (k : Nat) (x : AcqU) : AcqU :=
  if getF s (F.ACQ_STATE (k / 16) (k % 16)) < 4 then { x with intr := ageIntruders x.intr } else x

/-- A unit outside ALIGN and CARRY ages its intruders. -/
theorem intr_ageAway {s : State} {c u : Nat} (hu : u < 16) (hst : getF s (F.ACQ_STATE c u) < 4) :
    (unitAt (ageAway s) c u).intr = ageIntruders (unitAt s c u).intr := by
  have hkey : unitKey c u / 16 = c ∧ unitKey c u % 16 = u := by
    simp only [unitKey]
    omega
  have hmap : (ageAway s).rx.unit = s.rx.unit.map fun e => (e.1, unitAged s e.1 e.2) :=
    List.map_congr_left fun e _ => by simp only [unitAged, decide_eq_true_eq]; split <;> rfl
  rw [unitAt, hmap, tget, tfind_mapKeys (unitAged s), unitAt, tget]
  cases tfind s.rx.unit (unitKey c u) with
  | none => rfl
  | some x => simp [unitAged, hkey.1, hkey.2, hst]

theorem dueZones_of_none {s : State} (h : ∀ z ∈ zonesIn s 2, commitAt s z ≠ getF s F.FURLONG_NOW) : dueZones s = [] := by
  have hnone : ((zonesIn s zArmed).filter fun z => commitAt s z == getF s F.FURLONG_NOW) = [] :=
    List.filter_eq_nil_iff.2 fun z hz => by simpa using h z hz
  rw [dueZones, hnone]
  rfl

theorem furlongBoundary_of_none_due {s v : State} (hv : v = ageAway (furlongCounted s)) (hon : isOn s 8 = true) (hdue : dueZones v = [])
    (hrun : getF v F.FURLONG_NOW % 256 ≠ 0) :
    furlongBoundary s = sendHeaders (txStart (txStart (fthBoundary (calBoundary v)) 0) 1) := by
  have hcount : addF (countClips (countClips s 0) 1) F.FURLONG_NOW 1 = furlongCounted s := rfl
  unfold furlongBoundary
  rw [if_neg (by simp [hon])]
  dsimp only
  rw [hcount, ← hv, hdue, each_nil, beq_eq_false_iff_ne.2 hrun, onlyIf_false]

/-! #### The end of a commit (R56, R61, R65) -/

/-- The zone with its new content, before the record and event. -/
def contentApplied (z : Nat) (p : Pending) (s : State) : State :=
  setFs (setResult (setZone s z { zoneAt s z with copied := none, active := p.content, switched := false, waits := [] }) z 0)
    (applied z p ++ [(F.SWITCHED_TX z, 1), (F.SWITCHED_RX z, 1), (F.ZONE_STATE z, zIdle), (F.PEND_EPOCH z, 0)])

theorem zoneDone_of_copied {z : Nat} {p : Pending} {s : State} (hcop : (zoneAt s z).copied = some p) (hz : z ≠ 3) :
    zoneDone z s = detect .cfg 0 0 (offerCommit (contentApplied z p s) z 0 true (getF s (F.ZONE_EPOCH z)) p.epoch p.issue p.build) := by
  unfold zoneDone
  simp only [hcop, show (z == 3) = false by simpa using hz]
  rfl

theorem rxDone_of_copied {z : Nat} {p : Pending} {s : State} (hcop : (zoneAt s z).copied = some p) :
    rxDone z s = zoneDone z (zoneRx z p.content s) := by
  unfold rxDone
  simp only [hcop]

/-- What a zone reads with its new content. -/
theorem getF_contentApplied {z : Nat} (hz : z < 64) (p : Pending) (s : State) :
    getF (contentApplied z p s) (F.ZONE_EPOCH z) = p.epoch % 2 ^ 16 ∧ getF (contentApplied z p s) (F.ZONE_PRESENT z) = 1 ∧
      getF (contentApplied z p s) (F.ZONE_BUILD z) = p.build % 2 ^ 32 ∧ getF (contentApplied z p s) (F.ZONE_STATE z) = 0 ∧
      getF (contentApplied z p s) (F.ZONE_RESULT z) = 0 ∧ getF (contentApplied z p s) (F.SWITCHED_RX z) = 1 := by
  simp only [contentApplied, applied, setResult, setFs_cons, setFs_nil, List.cons_append, List.nil_append]
  refine ⟨?_, ?_, ?_, ?_, ?_, ?_⟩ <;>
    simp (disch := (simp only [Fld.key, F.ZONE_EPOCH, F.ZONE_PRESENT, F.ZONE_BUILD, F.ZONE_STATE, F.ZONE_RESULT, F.SWITCHED_RX, F.SWITCHED_TX,
      F.PEND_EPOCH, F.ZONE_SRC, F.ZONE_OFFSET, F.LAST_ZONE, F.CFG_LAST_RESULT]; omega)) only [getF_setF_ne, getF_setF_self] <;> rfl

/-! #### Withdrawals (R66) -/

/-- A zone withdrawn, before its record and event. -/
def withdrawn (z : Nat) (s : State) : State :=
  setFs (zoneStop z s) [(F.ZONE_PRESENT z, 0), (F.ZONE_EPOCH z, 0), (F.ZONE_SRC z, 0), (F.ZONE_OFFSET z, 0)]

theorem getF_withdrawn {z : Nat} (hz : z < 64) (s : State) :
    getF (withdrawn z s) (F.ZONE_PRESENT z) = 0 ∧ getF (withdrawn z s) (F.ZONE_EPOCH z) = 0 ∧ getF (withdrawn z s) (F.ZONE_SRC z) = 0 := by
  simp only [withdrawn, setFs_cons, setFs_nil]
  refine ⟨?_, ?_, ?_⟩ <;>
    simp (disch := (simp only [Fld.key, F.ZONE_EPOCH, F.ZONE_PRESENT, F.ZONE_SRC, F.ZONE_OFFSET]; omega)) only [getF_setF_ne, getF_setF_self] <;> rfl

theorem revertSwitch_of_withdrawal {z : Nat} {s : State} (hrev : (zoneAt s z).revert = some none) (hon : isOn s (zoneAt s z).waking = true) :
    revertSwitch z s = revertEnd z (getF s (F.ZONE_EPOCH z)) 0 (getF (withdrawn z (setZone s z { zoneAt s z with revert := none })) (F.ZONE_BUILD z))
      (withdrawn z (setZone s z { zoneAt s z with revert := none })) := by
  unfold revertSwitch
  simp only [hrev]
  exact if_neg (by simp [hon])

/-! #### Reload of a line of the steward's image (12 R315) -/

theorem imageFound_storeDone (s : State) (r : Nat) : imageFound (storeDone s r) = imageFound s := by
  have hsame := sameChecks_storeDone s r
  obtain ⟨-, hcells, -⟩ := id hsame
  have hbuild : getF (storeDone s r) (F.ZONE_BUILD 3) = getF s (F.ZONE_BUILD 3) := storeDone_kept s r _ (by simp; decide)
  have hbooted : getF (storeDone s r) F.BOOTED = getF s F.BOOTED := storeDone_kept s r _ (by simp; decide)
  have hsection (slot off : Nat) : storeSection (storeDone s r) slot off = storeSection s slot off := by
    simp only [storeSection, hcells]
  have hfind (slot : Nat) : findSection (storeDone s r) slot 3 = findSection s slot 3 := by
    unfold findSection storeHead storeBody
    simp only [hsection, hcells]
  have hcontent (slot off : Nat) : storeContent (storeDone s r) slot off = storeContent s slot off := by
    unfold storeContent
    simp only [hsection, secVerify_congr hsame]
  have hin (slot : Nat) (same : Bool) : firmwareIn (storeDone s r) slot same = firmwareIn s slot same := by
    unfold firmwareIn
    rw [hfind, hbuild]
    simp only [hcontent]
  simp only [imageFound, hbooted, hin]

theorem bad_unpoison (m : Nat) (ws : List Nat) (s : State) :
    (memAt (unpoison m ws s) m).bad = (memAt s m).bad.filter fun w => !ws.contains w := by
  unfold unpoison
  dsimp only
  split
  · rw [memAt_setMem_self]
  next h =>
    refine (List.filter_eq_self.2 fun w hw => ?_).symm
    rw [Bool.not_eq_true, List.any_eq_false] at h
    simpa using h w (List.mem_append_right _ hw)

/-- Words written in full are usable again. -/
theorem unusable_unpoison {m w : Nat} {ws : List Nat} (hw : w ∈ ws) (s : State) : unusable (unpoison m ws s) m w = false := by
  simp [unusable, poisoned, poison_unpoison, bad_unpoison, hw]

end Sys2Proof.Machine

namespace Sys2Proof.Certificates
open Sys2Proof Sys2Proof.Machine
open Sys2Proof.Safety (onlyFields fieldsKept)

/-- Settles O43: a commit ends in the zone's new words, a withdrawal in zero ones, before the record and event. -/
theorem commitsGiveTheZoneItsNewContent : Obligations.CommitsGiveTheZoneItsNewContent := by
  intro s
  refine ⟨fun hoff => congrArg Host.Outcome.next (if_pos (by simp [hoff])), fun hon hdue hrun => ?boundary, fun z p hcop hok hz => ?done,
    fun z p hcop => ⟨fun hpend hq => ?rx, fun hpend => ?timeout, fun hpend => ?notPending, fun hlo hhi hst => ?group, fun hst => ?notSwitching⟩,
    fun hrestart hon hcommit => ?restart, fun hno => congrArg Host.Outcome.next (if_pos (by simp [hno])),
    fun z hok => ⟨fun hno => ?noRevert, fun hrev hon => ?withdraw⟩,
    fun line hbad hon => ⟨fun hnone => ?lost, fun hfound => ?reload⟩, fun line hgood => congrArg Host.Outcome.next (if_pos (by simp [hgood])),
    fun hno => congrArg Host.Outcome.next (if_pos (by rcases hno with h | h <;> simp [h])), fun a b l hon hboot horder hcheck => ?select⟩
  case boundary =>
    obtain ⟨u, hu⟩ : ∃ u, u = furlongCounted s := ⟨_, rfl⟩
    obtain ⟨hkept, honly⟩ : onlyFields [F.FURLONG_NOW, F.TX_CLIP_CNT 0, F.TX_CLIP_CNT 1] s u := hu ▸ furlongCounted_only s
    have hnow : getF u F.FURLONG_NOW = (getF s F.FURLONG_NOW + 1) % 2 ^ 32 := hu ▸ getF_furlongNow_furlongCounted s
    obtain ⟨v, hv⟩ : ∃ v, v = ageAway u := ⟨_, rfl⟩
    have hregs : v.regs = u.regs := by rw [hv]; rfl
    have hkeptV := fieldsKept_of_regs hregs hkept
    have hnowV := (getF_of_regs hregs F.FURLONG_NOW).trans hnow
    have hzones : v.zones = s.zones := by rw [hv, ageAway, honly]
    have hdueV : dueZones v = [] := dueZones_of_none fun z hz => by
      obtain ⟨hzok, hzst⟩ := mem_zonesIn.1 hz
      have hstate : getF v (F.ZONE_STATE z) = getF s (F.ZONE_STATE z) := hkeptV _ (by
        simp only [List.mem_cons, List.not_mem_nil, or_false, forall_eq_or_imp, forall_eq, Fld.key, F.ZONE_STATE, F.FURLONG_NOW, F.TX_CLIP_CNT]
        have hlt : z < 64 := by simp only [zoneOk, Bool.or_eq_true, Bool.and_eq_true, decide_eq_true_eq] at hzok; omega
        omega)
      rw [commitAt, zoneAt_of_zones hzones, hnowV]
      exact hdue z (mem_zonesIn.2 ⟨hzok, hstate ▸ hzst⟩)
    refine ⟨v, ?_, hnowV, hkeptV, fun c w hst hc hw => ?_, by rw [hv, ageAway, honly]⟩
    · exact congrArg Host.Outcome.next (furlongBoundary_of_none_due (hu ▸ hv) hon hdueV (by rw [hnowV]; exact hrun))
    · have hstate : getF u (F.ACQ_STATE c w) = getF s (F.ACQ_STATE c w) := hkept _ (by
        simp only [List.mem_cons, List.not_mem_nil, or_false, forall_eq_or_imp, forall_eq, Fld.key, F.ACQ_STATE, F.FURLONG_NOW, F.TX_CLIP_CNT]
        omega)
      have hunit : unitAt u c w = unitAt s c w := unitAt_of_unit (by rw [honly]) c w
      rw [hv, intr_ageAway hw (by rw [hstate]; exact hst), hunit]
  case done =>
    have hlt : z < 64 := by simp only [zoneOk, Bool.or_eq_true, Bool.and_eq_true, decide_eq_true_eq] at hok; omega
    obtain ⟨hepoch, hpres, hbuild, hstate, hresult, hrx⟩ := getF_contentApplied hlt p s
    have hzone : zoneAt (contentApplied z p s) z = { zoneAt s z with copied := none, active := p.content, switched := false, waits := [] } := by
      rw [contentApplied, zoneAt_of_zones (setFs_zones ..), setResult, zoneAt_of_zones (setFs_zones ..), zoneAt_setZone_self]
    exact ⟨contentApplied z p s, zoneDone_of_copied hcop hz, hepoch, hpres, hbuild, hstate, hresult, hrx, by rw [hzone], by rw [hzone]⟩
  case rx => exact congrArg Host.Outcome.next ((if_pos (by simp [hpend, hq])).trans (rxDone_of_copied hcop))
  case timeout => exact congrArg Host.Outcome.next (if_pos hpend)
  case notPending => exact ⟨congrArg Host.Outcome.next (if_neg (by simp [hpend])), congrArg Host.Outcome.next (if_neg (by simp [hpend]))⟩
  case group =>
    have hcopU : (zoneAt (setB s (F.SWITCHED_TX z.toNat) true) z.toNat).copied = some p := hcop
    exact ⟨setB s (F.SWITCHED_TX z.toNat) true, getB_setB_self s (F.SWITCHED_TX z.toNat) true Nat.one_ne_zero, onlyFields_setB (by simp),
      congrArg Host.Outcome.next ((if_pos ⟨hlo, hhi, hst⟩).trans (rxDone_of_copied hcopU))⟩
  case notSwitching => exact congrArg Host.Outcome.next (if_neg fun h => hst h.2.2)
  case restart =>
    refine congrArg Host.Outcome.next ((if_neg (by simp [hrestart, hon])).trans ?_)
    rw [hcommit]
    rfl
  case noRevert =>
    refine congrArg Host.Outcome.next ((if_pos hok).trans ?_)
    unfold revertSwitch
    split
    · rfl
    next r hr =>
      refine if_pos ?_
      rcases hno with h | h
      · simp [h] at hr
      · simp [h]
  case withdraw =>
    have hlt : z.toNat < 64 := by simp only [zoneOk, Bool.or_eq_true, Bool.and_eq_true, decide_eq_true_eq] at hok; omega
    exact ⟨withdrawn z.toNat (setZone s z.toNat { zoneAt s z.toNat with revert := none }),
      congrArg Host.Outcome.next ((if_pos hok).trans (revertSwitch_of_withdrawal hrev hon)), getF_withdrawn hlt _⟩
  case lost =>
    refine ⟨storeDone s 1, congrArg Host.Outcome.next ((if_neg (by simp [hon, hbad])).trans (if_neg ?_)), storeDone_kept s 1⟩
    rw [imageFound_storeDone, hnone]
    exact Bool.false_ne_true
  case reload =>
    refine ⟨unpoison 7 (List.range' (4 * line.toNat) 4) (storeDone s 1), fun k hk => ?_, ?_, ?_⟩
    · exact unusable_unpoison (by simp only [List.mem_range'_1]; omega) _
    · exact fieldsKept_trans (fieldsKept_mono (storeDone_kept s 1) (by simp)) (fieldsKept_mono (unpoison_kept 7 _ _) (by simp))
    · refine congrArg Host.Outcome.next ((if_neg (by simp [hon, hbad])).trans (if_pos ?_))
      rw [imageFound_storeDone, hfound]
  case select =>
    refine congrArg Host.Outcome.next ((if_neg (by simp [hon, hboot])).trans ?_)
    rw [horder, bootTry]
    simp only [hcheck]

end Sys2Proof.Certificates

/-! ### The steps of a wake (14 R343-R345) -/

namespace Sys2Proof.Machine
open Safety (fieldsKept onlyFields)

/-- Every domain but AON, which has no wake, has a number other than 0. -/
theorem dom_num_ne_zero {d : Dom} (h : d ≠ .aon) : d.num ≠ 0 := by
  intro hz
  cases d
  case aon => exact h rfl
  all_goals exact absurd hz (by decide)

section
variable {d k n : Nat} {fromOff retry : Bool} {s : State} (hw : domAt s d = .waking k fromOff retry)
include hw

/-- A signal of another step than the one a wake waits in changes nothing. -/
theorem wakeNext_of_other_step (h : k ≠ n) : wakeNext d n s = s := by
  rw [wakeNext, hw]
  exact if_pos h

theorem wakeNext_powerGood (hk : k = 1) (hc : hasClock d = true) : wakeNext d 1 s = setDom s d (.waking 2 fromOff retry) := by
  rw [wakeNext, hw]
  exact (if_neg (by simp [hk])).trans (if_pos ⟨rfl, hc⟩)

theorem wakeNext_clock (hk : k = 2) (hp : hasPll d = true) : wakeNext d 2 s = setDom s d (.waking 3 fromOff retry) := by
  rw [wakeNext, hw]
  exact (if_neg (by simp [hk])).trans ((if_neg (by simp)).trans (if_pos ⟨by decide, hp⟩))

theorem wakeNext_pll (hk : k = 3) : wakeNext d 3 s = wakeAfter d fromOff retry s := by
  rw [wakeNext, hw]
  exact (if_neg (by simp [hk])).trans ((if_neg (by simp)).trans (if_neg (by simp)))

/-- A wake whose first four steps are not over does not complete. -/
theorem wakeComplete_of_early (hk : k < 4) : wakeComplete d s = s := by
  rw [wakeComplete, hw]
  exact (if_pos (.inl hk)).trans (if_neg (by omega))

theorem wakeComplete_of_last (hk : k = 5) : wakeComplete d s = domainUp d fromOff s := by
  rw [wakeComplete, hw]
  subst hk
  rfl

end

theorem wakeNext_of_on {d : Nat} {s : State} (hon : domAt s d = .on) (n : Nat) : wakeNext d n s = s := by
  rw [wakeNext, hon]

theorem wakeComplete_of_on {d : Nat} {s : State} (hon : domAt s d = .on) : wakeComplete d s = s := by
  rw [wakeComplete, hon]

/-- An owed retry that neither Grave nor HOT bars starts the wake again, from off. -/
theorem wakeRetry_of_owed {d : Nat} {s : State} (hpend : d ∈ s.pw.retryPend) (hoff : domAt s d = .off) (hgrave : graveBars s d = false)
    (hhot : hotBars s d = false) :
    wakeRetry d s = setDom { s with pw := { s.pw with retryPend := s.pw.retryPend.filter (· != d) } } d (.waking 1 true true) := by
  refine (if_pos (by simp [hpend, hoff])).trans ((if_neg ?_).trans (if_neg ?_))
  · exact ne_true_of_eq_false hgrave
  · exact ne_true_of_eq_false hhot

/-- A wake whose step ran out leaves its domain OFF, the step shown in WAKE_STEP. -/
def wakeCutOff (d step : Nat) (s : State) : State := setF (setDom s d .off) (F.WAKE_STEP d) step

theorem onlyIf_not (c : Bool) (k : State → State) (s : State) : onlyIf (!c) k s = if c then s else k s := by
  cases c <;> rfl

theorem wakeFail_first {d k step : Nat} {fromOff : Bool} {s : State} (hw : domAt s d = .waking k fromOff false) :
    wakeFail d step s =
      let u := wakeCutOff d step (onlyIf (!fromOff) (retentionLost d) s)
      detect .aon (9 + d) 0 { u with pw := { u.pw with retryPend := u.pw.retryPend ++ [d] } } := by
  rw [wakeFail, hw]
  exact if_neg Bool.false_ne_true

theorem wakeFail_retry {d k step : Nat} {fromOff : Bool} {s : State} (hw : domAt s d = .waking k fromOff true) :
    wakeFail d step s =
      let u := wakeCutOff d step (onlyIf (!fromOff) (retentionLost d) s)
      offerDomain (detect .aon (d - 1) 0 { u with pw := { u.pw with gaveUp := u.pw.gaveUp ++ [d] } }) d 5 step := by
  rw [wakeFail, hw]
  exact if_pos rfl

theorem wakeCutOff_kept (d step : Nat) (s : State) : fieldsKept [F.WAKE_STEP d] s (wakeCutOff d step s) :=
  (fieldsKept_setF (by simp)).2 fun _ _ => rfl

end Sys2Proof.Machine

namespace Sys2Proof.Certificates
open Sys2Proof Sys2Proof.Machine
open Sys2Proof.Safety (onlyFields fieldsKept)

/-- Settles O44: each signal of a wake ends its own step alone, a step that runs out turns the domain off with the step in WAKE_STEP, and
the one retry starts the wake again. -/
theorem wakesTakeTheirStepsInOrder : Obligations.WakesTakeTheirStepsInOrder := by
  unfold Obligations.WakesTakeTheirStepsInOrder
  intro d k fromOff retry s hd
  have hnum : d.num ≠ 0 := dom_num_ne_zero hd
  have hstep : ∀ s0 : State, k ≤ 3 → getF (wakeCutOff d.num k s0) (F.WAKE_STEP d.num) = k := fun s0 hk =>
    getF_setF_of_lt _ (lt_of_le_of_lt hk (by rw [F.WAKE_STEP_width]; decide))
  have hoff : ∀ s0 : State, domAt (wakeCutOff d.num k s0) d.num = .off := fun s0 => domAt_setDom_self s0 .off hnum
  refine ⟨fun hw => ⟨fun hk hc => ?powerGood, fun hk hp => ?clock, fun hk => ?pll, fun hk hf => ?retention,
      fun hk => ?_, fun hk => ?_, fun hk => ?_, ⟨fun hk hr => ?first, fun hk hr => ?again⟩, fun hk => ?late, fun hk => ?early, fun hk => ?up⟩,
    fun hpend hoff hgrave hhot => ?wakeRetry, fun hpend => ?noRetry, fun hon => ⟨?_, ?_, ?_⟩⟩
  case powerGood =>
    exact ⟨_, congrArg Host.Outcome.next (wakeNext_powerGood hw hk hc), domAt_setDom_self s _ hnum, fun e he => domAt_setDom_ne s _ he, rfl⟩
  case clock =>
    exact ⟨_, congrArg Host.Outcome.next (wakeNext_clock hw hk hp), domAt_setDom_self s _ hnum, fun e he => domAt_setDom_ne s _ he, rfl⟩
  case pll => exact congrArg Host.Outcome.next (wakeNext_pll hw hk)
  case retention =>
    subst hf
    exact ⟨_, congrArg Host.Outcome.next (wakeNext_pll hw hk), domAt_setDom_self _ _ hnum⟩
  case first =>
    subst hr
    have hexec : exec (.wakeStepTimeout d) s = .next (settle (wakeFail d.num k s)) := by
      refine congrArg Host.Outcome.next ?_
      rw [hw]
      exact if_pos hk
    rw [hexec, wakeFail_first hw, onlyIf_not]
    generalize (if fromOff then s else retentionLost d.num s) = s0
    exact ⟨_, rfl, hoff s0, hstep s0 hk, rfl, wakeCutOff_kept d.num k s0, rfl⟩
  case again =>
    subst hr
    have hexec : exec (.wakeStepTimeout d) s = .next (settle (wakeFail d.num k s)) := by
      refine congrArg Host.Outcome.next ?_
      rw [hw]
      exact if_pos hk
    rw [hexec, wakeFail_retry hw, onlyIf_not]
    generalize (if fromOff then s else retentionLost d.num s) = s0
    exact ⟨_, rfl, hoff s0, hstep s0 hk, wakeCutOff_kept d.num k s0, rfl⟩
  case late =>
    refine congrArg Host.Outcome.next ?_
    rw [hw]
    exact if_neg (Nat.not_le.2 hk)
  case early => exact congrArg Host.Outcome.next (wakeComplete_of_early hw hk)
  case up => exact congrArg Host.Outcome.next (wakeComplete_of_last hw hk)
  case wakeRetry =>
    exact ⟨_, congrArg Host.Outcome.next (wakeRetry_of_owed hpend hoff hgrave hhot), domAt_setDom_self _ _ hnum,
      by simp [setDom], rfl⟩
  case noRetry => exact congrArg Host.Outcome.next (if_neg (by simp [hpend]))
  case _ => exact congrArg Host.Outcome.next (wakeNext_of_other_step hw hk)
  case _ => exact congrArg Host.Outcome.next (wakeNext_of_other_step hw hk)
  case _ => exact congrArg Host.Outcome.next (wakeNext_of_other_step hw hk)
  case _ => exact congrArg Host.Outcome.next (wakeNext_of_on hon 1)
  case _ => exact congrArg Host.Outcome.next (wakeComplete_of_on hon)
  case _ =>
    refine congrArg Host.Outcome.next ?_
    rw [hon]

end Sys2Proof.Certificates

/-! ### The adaptive core voltage (14 R351-R353; 17 R422) -/

namespace Sys2Proof.Machine
open Safety (fieldsKept onlyFields)

section
variable {s : State}

/-- The voltage loop is at work: its steward runs, it is enabled, no request of it failed and its input is valid. -/
theorem avsRequest_of_work (hrun : stwRuns s = true) (hen : getB s F.AVS_EN = true) (hfail : getB s F.AVS_FAILED = false)
    (hvalid : getB s F.HR_VALID = true) :
    avsRequest s =
      if getF s F.HEADROOM < getF s F.HR_RAISE then avsRaise { s with avs := { s.avs with low := 0 } }
      else if getF s F.HR_LOWER ≤ getF s F.HEADROOM then avsLower { s with avs := { s.avs with ceiling := false } }
      else { s with avs := { s.avs with low := 0, ceiling := false } } :=
  if_neg (by simp [hrun, hen, hfail, hvalid])

theorem avsRequest_of_rest
    (h : stwRuns s = false ∨ getB s F.AVS_EN = false ∨ getB s F.AVS_FAILED = true ∨ getB s F.HR_VALID = false) : avsRequest s = s := by
  refine if_pos ?_
  simp only [Bool.or_eq_true, Bool.not_eq_true']
  tauto

/-- A request of `v` mV is outstanding from its first stage on. -/
theorem avsAsk_spec (v : Nat) (s : State) :
    (avsAsk v s).avs.request = some v ∧ (avsAsk v s).avs.stage = 0 ∧ (avsAsk v s).avs.low = s.avs.low ∧
      getF (avsAsk v s) F.VCORE_REQ = v % 2 ^ 16 ∧ fieldsKept [F.VCORE_REQ] s (avsAsk v s) ∧
      avsAsk v s = { s with regs := (avsAsk v s).regs, avs := (avsAsk v s).avs } :=
  ⟨rfl, rfl, rfl, getF_setF_self .., (fieldsKept_setF (by simp)).2 fun _ _ => rfl, rfl⟩

theorem avsRaise_of_room (hth : getF s F.TH_REQ = 0) (hmax : getF s F.VCORE_REQ < getF s F.VMAX) (hreq : s.avs.request = none) :
    avsRaise s = avsAsk (min (getF s F.VCORE_REQ + getF s F.AVS_STEP) (getF s F.VMAX)) s :=
  (if_neg (by simp [hth])).trans ((if_neg (Nat.not_le.2 hmax)).trans (if_neg (by simp [hreq])))

theorem avsRaise_of_ceiling (hth : getF s F.TH_REQ = 0) (hmax : getF s F.VMAX ≤ getF s F.VCORE_REQ) (hceil : s.avs.ceiling = false) :
    avsRaise s = detect .aon 25 0 { s with avs := { s.avs with ceiling := true } } :=
  (if_neg (by simp [hth])).trans ((if_pos hmax).trans (if_neg (by simp [hceil])))

theorem avsLower_of_short_run (hlow : s.avs.low < 15) : avsLower s = { s with avs := { s.avs with low := s.avs.low + 1 } } := by
  refine (if_pos (.inl (by omega))).trans ?_
  rw [Nat.min_eq_left hlow]

theorem avsLower_of_full_run (hlow : 15 ≤ s.avs.low) (hreq : s.avs.request = none) (hmin : getF s F.VMIN < getF s F.VCORE_REQ)
    (hstep : 0 < getF s F.AVS_STEP) :
    avsLower s = avsAsk (max (getF s F.VCORE_REQ - getF s F.AVS_STEP) (getF s F.VMIN)) { s with avs := { s.avs with low := 0 } } :=
  (if_neg (by simp only [hreq, Option.isSome_none, Bool.false_eq_true, or_false]; omega)).trans (if_neg (by omega))

/-- A request that failed is over, with FAILED set. -/
def avsFailed (s : State) : State := setB { s with avs := { s.avs with request := none, stage := 0 } } F.AVS_FAILED true

theorem avsFail_of_request {v : Nat} (h : s.avs.request = some v) : avsFail s = detect .aon 24 0 (avsFailed s) :=
  if_pos (by simp [h])

theorem avsFail_of_none (h : s.avs.request = none) : avsFail s = s := if_neg (by simp [h])

theorem avsFailed_spec (s : State) :
    getB (avsFailed s) F.AVS_FAILED = true ∧ (avsFailed s).avs.request = none ∧ fieldsKept [F.AVS_FAILED] s (avsFailed s) ∧
      avsFailed s = { s with regs := (avsFailed s).regs, avs := (avsFailed s).avs } :=
  ⟨getB_setB_self _ F.AVS_FAILED true Nat.one_ne_zero, rfl, (fieldsKept_setB (by simp)).2 fun _ _ => rfl, rfl⟩

/-- A reading within 10 mV of the request completes it. -/
theorem readVout_of_near {v raw : Nat} (hreq : s.avs.request = some v) (hstage : s.avs.stage = 2) (hfirst : s.avs.first = false)
    (hlo : v ≤ voutMv s raw + 10) (hhi : voutMv s raw ≤ v + 10) :
    readVout raw s =
      detect .aon 26 0 { setF s F.VCORE_READ (voutMv s raw) with avs := { s.avs with request := none, stage := 0 } } := by
  simp only [readVout, setF_avs, hfirst, hreq, hstage, Bool.false_eq_true, if_false]
  exact if_pos ⟨trivial, hlo, hhi⟩

theorem voutMv_lt (s : State) (raw : Nat) : voutMv s raw < 2 ^ 16 :=
  lt_of_le_of_lt (Nat.min_le_left ..) (by decide)

end

end Sys2Proof.Machine

namespace Sys2Proof.Certificates
open Sys2Proof Sys2Proof.Machine
open Sys2Proof.Safety (onlyFields fieldsKept)

/-- Settles O47: each update of the headroom takes the one branch of the loop that its thresholds name, and each stage of a request
ends in the next one or in its failure. -/
theorem voltageLoopFollowsTheHeadroom : Obligations.VoltageLoopFollowsTheHeadroom := by
  unfold Obligations.VoltageLoopFollowsTheHeadroom
  intro s
  refine ⟨fun hrun hen hfail hvalid => ?work, fun h => congrArg Host.Outcome.next (avsRequest_of_rest h), fun v w hon hreq => ?request,
    fun hreq ack w => ?none, fun en => ?enable⟩
  case work =>
    have hwork := avsRequest_of_work hrun hen hfail hvalid
    refine ⟨fun hlt hth hmax hreq => ?raise, fun hlt hth => ?hot, fun hlt hth hmax hceil => ?ceiling, fun hge hlt => ?between,
      fun hge hle hlow => ?count, fun hge hle hlow hreq hmin hstep => ?lower⟩
    case raise =>
      obtain ⟨hr, hstage, hlow, hf, hkept, honly⟩ := avsAsk_spec (min (getF s F.VCORE_REQ + getF s F.AVS_STEP) (getF s F.VMAX))
        { s with avs := { s.avs with low := 0 } }
      exact ⟨_, _, congrArg Host.Outcome.next (hwork.trans ((if_pos hlt).trans (avsRaise_of_room hth hmax hreq))), rfl,
        hr, hstage, hlow, hf, hkept, honly⟩
    case hot => exact congrArg Host.Outcome.next (hwork.trans ((if_pos hlt).trans (if_pos hth)))
    case ceiling => exact congrArg Host.Outcome.next (hwork.trans ((if_pos hlt).trans (avsRaise_of_ceiling hth hmax hceil)))
    case between => exact congrArg Host.Outcome.next (hwork.trans ((if_neg (Nat.not_lt.2 hge)).trans (if_neg (Nat.not_le.2 hlt))))
    case count =>
      exact congrArg Host.Outcome.next (hwork.trans ((if_neg (Nat.not_lt.2 hge)).trans ((if_pos hle).trans (avsLower_of_short_run hlow))))
    case lower =>
      obtain ⟨hr, -, hlow', hf, hkept, -⟩ := avsAsk_spec (max (getF s F.VCORE_REQ - getF s F.AVS_STEP) (getF s F.VMIN))
        { s with avs := { s.avs with low := 0, ceiling := false } }
      exact ⟨_, _, congrArg Host.Outcome.next (hwork.trans ((if_neg (Nat.not_lt.2 hge)).trans
        ((if_pos hle).trans (avsLower_of_full_run hlow hreq hmin hstep)))), rfl, hr, hlow', hf, hkept⟩
  case request =>
    refine ⟨fun hstage => ?command, fun hstage hbad => ?status, fun hstage hfirst hlo hhi => ?read, fun c hc => ?fails⟩
    case command =>
      refine ⟨{ s with avs := { s.avs with vout := voutWord s v, stage := 1 } }, congrArg Host.Outcome.next ?_, rfl, rfl, hreq, rfl⟩
      rw [hreq]
      exact if_neg (by simp [hon, hstage])
    case status =>
      refine ⟨{ setF s F.AVS_STATUS_WORD w.toNat with avs := { s.avs with stage := 2 } }, congrArg Host.Outcome.next ?_, rfl,
        getF_setF_of_lt _ w.isLt, fun g hg => getF_setF_ne s w.toNat (hg _ (List.mem_singleton_self _)), rfl⟩
      exact (if_neg (by simp [hon, hreq, hstage])).trans ((if_neg (by simp)).trans (if_neg (by simp [hbad])))
    case read =>
      refine ⟨{ setF s F.VCORE_READ (voutMv s w.toNat) with avs := { s.avs with request := none, stage := 0 } },
        congrArg Host.Outcome.next ?_, rfl, getF_setF_of_lt s (voutMv_lt s w.toNat),
        fun g hg => getF_setF_ne s _ (hg _ (List.mem_singleton_self _))⟩
      exact (if_neg (by simp [hon])).trans ((if_pos rfl).trans (readVout_of_near hreq hstage hfirst hlo hhi))
    case fails =>
      have hend : ∀ u : State, u.avs.request = some v → fieldsKept [F.AVS_FAILED, F.AVS_STATUS_WORD] s u →
          u = { s with regs := u.regs, avs := u.avs } →
          ∃ t, avsFail u = detect .aon 24 0 t ∧ getB t F.AVS_FAILED = true ∧ t.avs.request = none ∧
            fieldsKept [F.AVS_FAILED, F.AVS_STATUS_WORD] s t ∧ t = { s with regs := t.regs, avs := t.avs } := by
        intro u hu hkept honly
        obtain ⟨hf, hr, hkept', honly'⟩ := avsFailed_spec u
        refine ⟨avsFailed u, avsFail_of_request hu, hf, hr, fieldsKept_trans hkept (fieldsKept_mono hkept' (by simp)), ?_⟩
        rw [honly', honly]
      rcases hc with rfl | rfl | rfl | ⟨rfl, hstage⟩ | ⟨rfl, hstage⟩ | ⟨rfl, hstage, hbad⟩
      case inl =>
        obtain ⟨t, ht, hrest⟩ := hend s hreq fieldsKept_refl rfl
        exact ⟨t, congrArg Host.Outcome.next ((if_pos hon).trans ht), hrest⟩
      case inr.inl =>
        obtain ⟨t, ht, hrest⟩ := hend s hreq fieldsKept_refl rfl
        exact ⟨t, congrArg Host.Outcome.next ((if_pos hon).trans ht), hrest⟩
      case inr.inr.inl =>
        obtain ⟨t, ht, hrest⟩ := hend s hreq fieldsKept_refl rfl
        exact ⟨t, congrArg Host.Outcome.next ((if_neg (by simp [hon])).trans ((if_neg (by simp)).trans ht)), hrest⟩
      case inr.inr.inr.inl =>
        obtain ⟨t, ht, hrest⟩ := hend { s with avs := { s.avs with vout := voutWord s v } } hreq (fun _ _ => rfl) rfl
        refine ⟨t, congrArg Host.Outcome.next ?_, hrest⟩
        rw [hreq]
        exact (if_neg (by simp [hon, hstage])).trans ((if_neg (by simp)).trans ht)
      case inr.inr.inr.inr.inl =>
        obtain ⟨t, ht, hrest⟩ := hend s hreq fieldsKept_refl rfl
        exact ⟨t, congrArg Host.Outcome.next ((if_neg (by simp [hon, hreq, hstage])).trans ((if_pos rfl).trans ht)), hrest⟩
      case inr.inr.inr.inr.inr =>
        obtain ⟨t, ht, hrest⟩ := hend (setF s F.AVS_STATUS_WORD w.toNat) hreq ((fieldsKept_setF (by simp)).2 fun _ _ => rfl) rfl
        exact ⟨t, congrArg Host.Outcome.next ((if_neg (by simp [hon, hreq, hstage])).trans
          ((if_neg (by simp)).trans ((if_pos hbad).trans ht))), hrest⟩
  case none =>
    refine ⟨congrArg Host.Outcome.next ?_, congrArg Host.Outcome.next (if_pos (.inr (.inl hreq))), ?_, ?_⟩
    · rw [hreq]
    · refine congrArg Host.Outcome.next ?_
      rw [avsFail_of_none hreq, ite_self]
    · refine congrArg Host.Outcome.next ?_
      rw [avsFail_of_none hreq, ite_self]
  case enable =>
    cases en
    case false =>
      have hexec : exec (.avsEnWrite false) s = .next (setB (setB s F.AVS_EN false) F.AVS_FAILED false) := rfl
      refine ⟨_, hexec, ?_, fun _ => getB_setB_self _ F.AVS_FAILED false Nat.one_ne_zero, fun h => absurd h Bool.false_ne_true,
        onlyFields_trans (onlyFields_setB (by simp)) (onlyFields_setB (by simp))⟩
      rw [getB_setB_ne _ _ (by decide)]
      exact getB_setB_self s F.AVS_EN false Nat.one_ne_zero
    case true =>
      have hexec : exec (.avsEnWrite true) s = .next (setB s F.AVS_EN true) := rfl
      exact ⟨_, hexec, getB_setB_self s F.AVS_EN true Nat.one_ne_zero, fun h => absurd h.symm Bool.false_ne_true,
        fun _ => getB_setB_ne _ _ (by decide), onlyFields_setB (by simp)⟩

end Sys2Proof.Certificates

/-! ### The throttle and the thermal path (14 R354, R355, R359, R360, R363) -/

namespace Sys2Proof.Machine
open Safety (fieldsKept onlyFields)

section
variable {s : State}

/-- Limits of the throttle in order are stored, at the nearest values they may take. -/
theorem thermThreshold_of_ordered {v : Nat} (hle : clampN 600 1250 (bitsOf v 16 16) ≤ clampN 600 1250 (bitsOf v 0 16))
    (hlt : clampN 600 1250 (bitsOf v 0 16) < getF s F.SHUTDOWN) :
    thermThreshold false v s = setFs s [(F.WARN, clampN 600 1250 (bitsOf v 16 16)), (F.THROTTLE, clampN 600 1250 (bitsOf v 0 16)),
      (F.SHUTDOWN, getF s F.SHUTDOWN), (F.HYST, getF s F.HYST)] :=
  if_pos ⟨hle, hlt⟩

theorem clampN_le {lo hi : Nat} (h : lo ≤ hi) (x : Nat) : clampN lo hi x ≤ hi := by
  rw [clampN]
  split
  · exact h
  · split <;> omega

theorem thermThreshold_throttle {v : Nat} (hle : clampN 600 1250 (bitsOf v 16 16) ≤ clampN 600 1250 (bitsOf v 0 16))
    (hlt : clampN 600 1250 (bitsOf v 0 16) < getF s F.SHUTDOWN) :
    getF (thermThreshold false v s) F.THROTTLE = clampN 600 1250 (bitsOf v 0 16) := by
  rw [thermThreshold_of_ordered hle hlt]
  simp (disch := decide) only [setFs_cons, setFs_nil, getF_setF_ne, getF_setF_self]
  exact Nat.mod_eq_of_lt (lt_of_le_of_lt (clampN_le (by decide) _) (by decide))

/-- A request of the thermal path that does not rise from 0 raises no event. -/
theorem thReq_of_no_rise {n : Nat} (h : getF s F.TH_REQ ≠ 0 ∨ n = 0) : thReq n s = throttle (setF s F.TH_REQ n) := by
  refine congrArg throttle (if_neg ?_)
  rcases h with h | h <;> simp [h]

theorem getF_thReq {n : Nat} (hn : n ≤ 8) : getF (setF s F.TH_REQ n) F.TH_REQ = n :=
  getF_setF_of_lt s (lt_of_le_of_lt hn (by decide))

/-- A rise of the thermal path that is already at work. -/
theorem thermalThrottleRise_next (hrise : s.therm.rising = true) (hstale : s.therm.stale = false) (hreq : 0 < getF s F.TH_REQ) :
    ∃ u, exec .thermalThrottleRise s = .next (throttle u) ∧ getF u F.TH_REQ = min (getF s F.TH_REQ + 1) 8 :=
  ⟨_, congrArg Host.Outcome.next ((if_pos (by simp [hrise, hstale])).trans (thReq_of_no_rise (.inl hreq.ne'))),
    getF_thReq (Nat.min_le_right ..)⟩

theorem thermalThrottleFall_next (hlow : getS s F.TEMP < (getF s F.THROTTLE : Int) - getF s F.HYST) (hstale : s.therm.stale = false)
    (hreq : getF s F.TH_REQ ≤ 8) :
    ∃ u, exec .thermalThrottleFall s = .next (throttle u) ∧ getF u F.TH_REQ = getF s F.TH_REQ - 1 :=
  ⟨_, congrArg Host.Outcome.next ((if_pos ⟨hlow, by simp [hstale]⟩).trans (thReq_of_no_rise (by omega))), getF_thReq (by omega)⟩

/-- Without a source the thermal path asks for step 8. -/
theorem hostTempStale_next (hsrc : getF s F.TEMP_SRC = 0) (hstale : s.therm.stale = false) (hon : isOn s 8 = true) :
    ∃ u, exec .hostTempStale s = .next (throttle (detect .therm 6 0 u)) ∧ getF u F.TH_REQ = 8 :=
  ⟨setF { s with therm := { s.therm with stale := true } } F.TH_REQ 8,
    congrArg Host.Outcome.next (if_pos ⟨hsrc, by simp [hstale], List.any_eq_true.2 ⟨8, by decide, hon⟩⟩), getF_thReq (Nat.le_refl 8)⟩

theorem shutdownCountExpiry_next (hcount : getF s F.SHUT_COUNT ≤ 3) :
    ∃ t, exec .shutdownCountExpiry s = .next t ∧ getF t F.SHUT_COUNT = getF s F.SHUT_COUNT - 1 :=
  ⟨_, rfl, getF_setF_of_lt s (lt_of_le_of_lt (Nat.sub_le_of_le_add (Nat.le_succ_of_le hcount)) (by decide))⟩

end

/-- A register file that lists SHUTDOWN at its reset value, 1200, which is what it also holds unlisted. -/
def shutdownListed : State := { State.reset with regs := [(F.SHUTDOWN.key, 1200)] }

/-- The bits of SHUTDOWN under another reset value: a field that sees whether they are listed. -/
def shutdownBits : Fld := { F.SHUTDOWN with rst := 0 }

/-- A write of both limits of the throttle stores SHUTDOWN again at the value it has, which unlists it. -/
theorem shutdownBits_seen : getF shutdownListed shutdownBits = 1200 ∧ getF (thermThreshold false 0 shutdownListed) shutdownBits = 0 := by
  decide

end Sys2Proof.Machine

namespace Sys2Proof.Certificates
open Sys2Proof Sys2Proof.Machine
open Sys2Proof.Safety (onlyFields fieldsKept)

/-- Refutes O48: a write of WARN and THROTTLE stores SHUTDOWN and HYST again at the values they have. From a register file that lists
SHUTDOWN at its reset value, which the statement's "every state" admits, that unlists it, and a field at the same bits with another reset
value then reads differently, while `onlyFields [WARN, THROTTLE]` asks that every field but these two reads as before. -/
theorem not_throttleTakesTheHighestRequest : ¬ Obligations.ThrottleTakesTheHighestRequest := by
  unfold Obligations.ThrottleTakesTheHighestRequest
  intro h
  obtain ⟨hthresholds, -⟩ := h shutdownListed
  obtain ⟨hstored, -⟩ := hthresholds 0
  obtain ⟨t, hexec, -, -, hkept⟩ := hstored (by decide) (by decide)
  obtain ⟨hkept, -⟩ := hkept (by decide) (by decide)
  have ht : t = thermThreshold false 0 shutdownListed := (Host.Outcome.next.inj hexec).symm
  obtain ⟨hbefore, hafter⟩ := shutdownBits_seen
  have hread := hkept shutdownBits (by decide)
  rw [ht, hbefore, hafter] at hread
  exact absurd hread (by decide)

end Sys2Proof.Certificates

/-! ### TEMP and its sources (14 R356-R362) -/

namespace Sys2Proof.Machine
open Safety (fieldsKept onlyFields)

section
variable {s : State}

/-- A sensor value as the 16 bits of SENSOR hold it. -/
theorem getS_setS_toS {f : Fld} (hf : f.width = 16) (s : State) (n : Nat) : getS (setS s f (toS 16 n)) f = toS 16 n := by
  obtain ⟨hlo, hhi⟩ := toS_bounds (w := 16) (by decide) n
  exact getS_setS_self s (by rw [hf]; decide) (by rw [hf]; exact hlo) (by rw [hf]; exact hhi)

/-- What a reading that the converter may take does. -/
theorem tempReading_of_work (code : Int) (hon : isOn s 4 = true) (hbusy : getB s F.HK_CAL_BUSY = false) :
    tempReading code s =
      let t := toS 16 (ofS 16 (Config.tempOfCode code))
      let s := setS s F.SENSOR t
      if getB s F.SENSOR_BROKEN then s
      else
        let bad := decide (8000 < code) || decide (code < -8000) || decide (t < -400) || decide (1500 < t)
        let run := if bad then s.therm.badRun + 1 else 0
        let s := { s with therm := { s.therm with badRun := run, fresh := true } }
        if run = 4 then tempFall (detect .therm 5 0 (setB s F.SENSOR_BROKEN true)) else newTemp t 1 s :=
  if_neg (by simp [hon, hbusy])

theorem tempReading_of_rest (code : Int) (h : isOn s 4 = false ∨ getB s F.HK_CAL_BUSY = true) : tempReading code s = s :=
  if_pos (by rcases h with h | h <;> simp [h])

theorem getB_setS_ne {f g : Fld} (i : Int) (h : g.key ≠ f.key) : getB (setS s f i) g = getB s g := getB_setF_ne s _ h

theorem tempReading_of_broken (code : Int) (hon : isOn s 4 = true) (hbusy : getB s F.HK_CAL_BUSY = false)
    (hbroken : getB s F.SENSOR_BROKEN = true) :
    tempReading code s = setS s F.SENSOR (toS 16 (ofS 16 (Config.tempOfCode code))) := by
  rw [tempReading_of_work code hon hbusy]
  exact if_pos ((getB_setS_ne _ (by decide)).trans hbroken)

/-- A possible reading of a good sensor is the new value of TEMP. -/
theorem tempReading_of_good (code : Int) (hon : isOn s 4 = true) (hbusy : getB s F.HK_CAL_BUSY = false)
    (hbroken : getB s F.SENSOR_BROKEN = false) (hlo : -8000 ≤ code) (hhi : code ≤ 8000)
    (htlo : -400 ≤ toS 16 (ofS 16 (Config.tempOfCode code))) (hthi : toS 16 (ofS 16 (Config.tempOfCode code)) ≤ 1500) :
    tempReading code s = newTemp (toS 16 (ofS 16 (Config.tempOfCode code))) 1
      { setS s F.SENSOR (toS 16 (ofS 16 (Config.tempOfCode code))) with therm := { s.therm with badRun := 0, fresh := true } } := by
  rw [tempReading_of_work code hon hbusy]
  have hgood : (decide (8000 < code) || decide (code < -8000) || decide (toS 16 (ofS 16 (Config.tempOfCode code)) < -400) ||
      decide (1500 < toS 16 (ofS 16 (Config.tempOfCode code)))) = false := by
    simp only [Bool.or_eq_false_iff, decide_eq_false_iff_not]
    omega
  refine (if_neg (by simp [getB_setS_ne (s := s) _ (show F.SENSOR_BROKEN.key ≠ F.SENSOR.key by decide), hbroken])).trans ?_
  simp only [hgood, Bool.false_eq_true, if_false]
  rfl

/-- The fourth impossible reading in a row breaks the sensor. -/
theorem tempReading_of_fourth_bad (code : Int) (hon : isOn s 4 = true) (hbusy : getB s F.HK_CAL_BUSY = false)
    (hbroken : getB s F.SENSOR_BROKEN = false) (hbad : 8000 < code ∨ code < -8000) (hrun : s.therm.badRun = 3) :
    tempReading code s = tempFall (detect .therm 5 0 (setB
      { setS s F.SENSOR (toS 16 (ofS 16 (Config.tempOfCode code))) with therm := { s.therm with badRun := 4, fresh := true } }
      F.SENSOR_BROKEN true)) := by
  rw [tempReading_of_work code hon hbusy]
  have hbad' : (decide (8000 < code) || decide (code < -8000) || decide (toS 16 (ofS 16 (Config.tempOfCode code)) < -400) ||
      decide (1500 < toS 16 (ofS 16 (Config.tempOfCode code)))) = true := by
    simp only [Bool.or_eq_true, decide_eq_true_eq]
    tauto
  refine (if_neg (by simp [getB_setS_ne (s := s) _ (show F.SENSOR_BROKEN.key ≠ F.SENSOR.key by decide), hbroken])).trans ?_
  simp only [hbad', if_true, setS_therm, hrun]

/-- HOST_TEMP written makes it fresh. -/
def hostTempSet (v : Nat) (s : State) : State := setFs s [(F.HOST_TEMP, v), (F.HOST_AGE, 0), (F.HOST_STALE, 0)]

theorem hostTempSet_spec (v : Nat) (s : State) :
    getF (hostTempSet v s) F.HOST_TEMP = v % 2 ^ 16 ∧ getB (hostTempSet v s) F.HOST_STALE = false ∧ getF (hostTempSet v s) F.HOST_AGE = 0 ∧
      onlyFields [F.HOST_TEMP, F.HOST_AGE, F.HOST_STALE] s (hostTempSet v s) := by
  refine ⟨?_, getB_setF_zero _ F.HOST_STALE, ?_, onlyFields_setFs (by simp) onlyFields_refl⟩
  · simp (disch := decide) only [hostTempSet, setFs_cons, setFs_nil, getF_setF_ne, getF_setF_self]
    rfl
  · simp (disch := decide) only [hostTempSet, setFs_cons, setFs_nil, getF_setF_ne, getF_setF_self]
    rfl

/-- HOST_TEMP is TEMP's source only where the sensor is not. -/
theorem tempSource_hostTempSet (v : Nat) (s : State) :
    tempSource (hostTempSet v s) = if getB s F.SENSOR_BROKEN = false ∧ s.therm.fresh = true then 1 else 2 := by
  have hbroken : getB (hostTempSet v s) F.SENSOR_BROKEN = getB s F.SENSOR_BROKEN := by
    simp (disch := decide) only [hostTempSet, setFs_cons, setFs_nil, getB_setF_ne]
  have hfresh : (hostTempSet v s).therm = s.therm := rfl
  obtain ⟨-, hstale, -, -⟩ := hostTempSet_spec v s
  simp [tempSource, hbroken, hfresh, hstale]

/-- With an old reading the sensor is no source. -/
theorem tempSource_of_old (s : State) :
    tempSource { s with therm := { s.therm with fresh := false } } = if getB s F.HOST_STALE then 0 else 2 := by
  have hread : getB { s with therm := { s.therm with fresh := false } } F.HOST_STALE = getB s F.HOST_STALE := rfl
  rw [tempSource, hread, Bool.and_false]
  cases getB s F.HOST_STALE <;> rfl

theorem tempFall_of_same (h : tempSource s = getF s F.TEMP_SRC) : tempFall s = s := if_pos h

theorem tempFall_of_host (h : tempSource s = 2) (hsrc : getF s F.TEMP_SRC ≠ 2) : tempFall s = newTemp (getS s F.HOST_TEMP) 2 s :=
  (if_neg (by rw [h]; exact hsrc.symm)).trans (if_pos h)

theorem tempFall_of_none (h : tempSource s = 0) (hsrc : getF s F.TEMP_SRC ≠ 0) : tempFall s = setF s F.TEMP_SRC 0 := by
  refine (if_neg (by rw [h]; exact hsrc.symm)).trans ((if_neg (by rw [h]; decide)).trans ?_)
  rw [h]

/-- TEMP takes a value from a source. -/
def tempTaken (t : Int) (src : Nat) (s : State) : State := setF (setS s F.TEMP t) F.TEMP_SRC src

theorem tempTaken_onlyFields (t : Int) (src : Nat) (s : State) : onlyFields [F.TEMP, F.TEMP_SRC] s (tempTaken t src s) :=
  onlyFields_trans (onlyFields_setS (by simp)) (onlyFields_setF (by simp))

/-- A value below every threshold with its hysteresis ends the warning, HOT and the thermal rise. -/
theorem newTemp_of_cool {t : Int} {src : Nat} (hwarn : t < (getF s F.WARN : Int) - getF s F.HYST) (hthr : t < getF s F.THROTTLE)
    (hshut : t < (getF s F.SHUTDOWN : Int) - getF s F.HYST) :
    newTemp t src s =
      setB { tempTaken t src s with therm := { s.therm with warned := false, stale := false, rising := false } } F.HOT false := by
  obtain ⟨hkept, -⟩ := tempTaken_onlyFields t src s
  have hW : getF (tempTaken t src s) F.WARN = getF s F.WARN := hkept _ (by decide)
  have hH : getF (tempTaken t src s) F.HYST = getF s F.HYST := hkept _ (by decide)
  have hT : getF (tempTaken t src s) F.THROTTLE = getF s F.THROTTLE := hkept _ (by decide)
  have hS : getF (tempTaken t src s) F.SHUTDOWN = getF s F.SHUTDOWN := hkept _ (by decide)
  have hwarned : tempWarn t (tempTaken t src s) = { tempTaken t src s with therm := { s.therm with warned := false } } :=
    (if_neg (by rw [hW]; omega)).trans (if_pos (by rw [hW, hH]; exact hwarn))
  have hthrottle : tempThrottle t { tempTaken t src s with therm := { s.therm with warned := false } } =
      { tempTaken t src s with therm := { s.therm with warned := false, stale := false, rising := false } } :=
    if_pos (show t < (getF (tempTaken t src s) F.THROTTLE : Int) by rw [hT]; exact hthr)
  have hnew : newTemp t src s = tempShut t (tempThrottle t (tempWarn t (tempTaken t src s))) := rfl
  rw [hnew, hwarned, hthrottle]
  refine (if_neg (show ¬ (getF (tempTaken t src s) F.SHUTDOWN : Int) ≤ t by rw [hS]; omega)).trans (if_pos ?_)
  exact show t < (getF (tempTaken t src s) F.SHUTDOWN : Int) - getF (tempTaken t src s) F.HYST by rw [hS, hH]; exact hshut

end

end Sys2Proof.Machine

namespace Sys2Proof.Certificates
open Sys2Proof Sys2Proof.Machine
open Sys2Proof.Safety (onlyFields fieldsKept)

/-- Settles O49: a reading, a write of HOST_TEMP and the loss of a source each leave TEMP to the best source there is, and a value below
every threshold ends what was above them. -/
theorem temperatureTakesItsBestSource : Obligations.TemperatureTakesItsBestSource := by
  unfold Obligations.TemperatureTakesItsBestSource
  intro s
  refine ⟨fun code hon hbusy => ⟨fun hbroken => ?broken, fun hbroken hlo hhi htlo hthi => ?good, fun hbroken hbad hrun => ?fourth⟩,
    fun code h => congrArg Host.Outcome.next (tempReading_of_rest code h), fun v => ?host, fun hstale => congrArg Host.Outcome.next (if_pos hstale),
    fun hstale hbroken hfresh hsrc => ?hostStale, fun hstale hsrc => ?old, fun hstale hsrc => ?oldNone,
    fun t src htlo hthi hsrc hwarn hthr hshut => ?cool⟩
  case broken =>
    exact ⟨_, congrArg Host.Outcome.next (tempReading_of_broken code hon hbusy hbroken), getS_setS_toS rfl s _, onlyFields_setS (by simp)⟩
  case good =>
    exact ⟨_, congrArg Host.Outcome.next (tempReading_of_good code hon hbusy hbroken hlo hhi htlo hthi), getS_setS_toS rfl s _, rfl, rfl,
      (onlyFields_setS (s := s) (i := toS 16 (ofS 16 (Config.tempOfCode code))) (List.mem_singleton_self F.SENSOR)).1, rfl⟩
  case fourth =>
    refine ⟨_, congrArg Host.Outcome.next (tempReading_of_fourth_bad code hon hbusy hbroken hbad hrun),
      getB_setB_self _ F.SENSOR_BROKEN true Nat.one_ne_zero, (fieldsKept_setB (by simp)).2 ?_⟩
    exact (onlyFields_setS (s := s) (i := toS 16 (ofS 16 (Config.tempOfCode code))) (fs := [F.SENSOR, F.SENSOR_BROKEN]) (by simp)).1
  case host =>
    obtain ⟨htemp, hstale, hage, honly⟩ := hostTempSet_spec v.toNat s
    refine ⟨hostTempSet v.toNat s, htemp, hstale, hage, honly, fun hbroken hfresh => congrArg Host.Outcome.next (if_neg ?_),
      fun h => congrArg Host.Outcome.next (if_pos ?_)⟩
    · exact fun h => absurd ((tempSource_hostTempSet v.toNat s).symm.trans h) (by rw [if_pos ⟨hbroken, hfresh⟩]; decide)
    · refine (tempSource_hostTempSet v.toNat s).trans (if_neg ?_)
      rintro ⟨hbroken, hfresh⟩
      rcases h with h | h
      · exact absurd (h.symm.trans hbroken) (by decide)
      · exact absurd (h.symm.trans hfresh) (by decide)
  case hostStale =>
    refine ⟨setB s F.HOST_STALE true, congrArg Host.Outcome.next ((if_neg (by simp [hstale])).trans (tempFall_of_same ?_)),
      getB_setB_self s F.HOST_STALE true Nat.one_ne_zero, onlyFields_setB (by simp)⟩
    rw [getF_setB_ne s true (by decide), hsrc]
    exact if_pos (by rw [getB_setB_ne s true (by decide), hbroken, setB_therm, hfresh]; rfl)
  case old =>
    refine congrArg Host.Outcome.next (tempFall_of_host ((tempSource_of_old s).trans (by rw [hstale]; rfl)) ?_)
    exact fun h => absurd (hsrc.symm.trans h) (by decide)
  case oldNone =>
    refine ⟨_, congrArg Host.Outcome.next (tempFall_of_none ((tempSource_of_old s).trans (by rw [hstale]; rfl)) ?_),
      getF_setF_of_lt _ (by decide), getS_setF_ne _ 0 (by decide), rfl, (fieldsKept_setF (by simp)).2 fun _ _ => rfl⟩
    exact fun h => absurd (hsrc.symm.trans h) (by decide)
  case cool =>
    rw [newTemp_of_cool hwarn hthr hshut]
    obtain ⟨hkept, -⟩ := tempTaken_onlyFields t src s
    obtain ⟨u, hu⟩ : ∃ u : State, u = { tempTaken t src s with therm := { s.therm with warned := false, stale := false, rising := false } } :=
      ⟨_, rfl⟩
    have htherm : u.therm = { s.therm with warned := false, stale := false, rising := false } := by rw [hu]
    have hregs : u.regs = (tempTaken t src s).regs := by rw [hu]
    have htemp : getS u F.TEMP = t := by
      rw [getS, getF_of_regs hregs]
      exact (getS_setF_ne (setS s F.TEMP t) src (f := F.TEMP_SRC) (by decide)).trans
        (getS_setS_self s (by decide) (le_trans (by decide) htlo) (lt_of_le_of_lt hthi (by decide)))
    have hsource : getF u F.TEMP_SRC = src := by
      rw [getF_of_regs hregs]
      exact getF_setF_of_lt _ (lt_of_le_of_lt hsrc (by decide))
    rw [← hu]
    refine ⟨?_, ?_, getB_setB_self u F.HOT false Nat.one_ne_zero, by rw [setB_therm, htherm], by rw [setB_therm, htherm], ?_⟩
    · exact (getS_setF_ne u _ (by decide)).trans htemp
    · exact (getF_setB_ne u false (by decide)).trans hsource
    · refine (fieldsKept_setB (by simp)).2 ?_
      exact fieldsKept_trans (fieldsKept_mono hkept (by simp)) (fieldsKept_of_regs hregs fieldsKept_refl)

end Sys2Proof.Certificates

/-! ### Bushels: windows, headroom, thresholds and slips (01 R23-R33) -/

namespace Sys2Proof.Machine
open Safety (fieldsKept onlyFields)

section
variable {s : State} {n : Nat}

theorem bitsOf_lt (v lo w : Nat) : bitsOf v lo w < 2 ^ w := Nat.mod_lt _ (Nat.two_pow_pos w)

theorem bushelAt_setBushel_self (s : State) (n : Nat) (x : Bushel) : bushelAt (setBushel s n x) n = x := tget_tset_self ..

theorem bushelAt_of_fab {t : State} (h : t.fab = s.fab) (n : Nat) : bushelAt t n = bushelAt s n := by rw [bushelAt, h, bushelAt]

theorem histSample_of_mgmt_off (h : mgmtWorks s = false) (i : Nat) (value num den : Int) : histSample i value num den s = s :=
  if_pos (by simp [h])

/-! #### Windows -/

/-- A bushel at the end of a window of 2^`w` samples. -/
def windowedBushel (x : Bushel) (w count slack occ : Nat) : Bushel :=
  { x with done := true, since := true, h := min count (2 ^ w) * 2 ^ (26 - w), win := 0, occ := occ, owed := if slack = 0 then x.owed else 0 }

/-- The window's count and slack are kept, with the bushel as the window left it. -/
def windowed (n w count slack : Nat) (s : State) : State :=
  let x := bushelAt s n
  let occ := if x.slipping then x.occ else windowOcc n (min slack 256) s
  setFs (drew (setBushel s n (windowedBushel x w count slack occ))) [(F.BUSHEL_SAT n, min count (2 ^ w)), (F.SLACK_MIN n, min slack 256)]

theorem getF_windowed_slack (n w count slack : Nat) (s : State) : getF (windowed n w count slack s) (F.SLACK_MIN n) = min slack 256 := by
  rw [windowed, setFs_cons, setFs_cons, setFs_nil]
  exact getF_setF_of_lt _ (lt_of_le_of_lt (Nat.min_le_right ..) (by rw [F.SLACK_MIN_width]; decide))

theorem windowed_spec (n w count slack : Nat) (s : State) (hw : w ≤ 26) :
    getF (windowed n w count slack s) (F.BUSHEL_SAT n) = min count (2 ^ w) ∧
      getF (windowed n w count slack s) (F.SLACK_MIN n) = min slack 256 ∧
      fieldsKept [F.BUSHEL_SAT n, F.SLACK_MIN n] s (windowed n w count slack s) ∧
      windowed n w count slack s =
        { s with regs := (windowed n w count slack s).regs, fab := (windowed n w count slack s).fab, freeCnt := s.freeCnt + 1 } := by
  have hpow : 2 ^ w ≤ 2 ^ 26 := Nat.pow_le_pow_right (by decide) hw
  refine ⟨?_, getF_windowed_slack n w count slack s, fieldsKept_setFs (by simp) fun _ _ => rfl, rfl⟩
  rw [windowed, setFs_cons, setFs_cons, setFs_nil, getF_setF_ne _ _ (by simp only [Fld.key, F.BUSHEL_SAT, F.SLACK_MIN]; omega)]
  exact getF_setF_of_lt _ (lt_of_le_of_lt (Nat.min_le_right ..) (lt_of_le_of_lt hpow (by rw [F.BUSHEL_SAT_width]; decide)))

theorem bushelAt_windowed (n w count slack : Nat) (s : State) :
    bushelAt (windowed n w count slack s) n = windowedBushel (bushelAt s n) w count slack
      (if (bushelAt s n).slipping then (bushelAt s n).occ else windowOcc n (min slack 256) s) := by
  rw [windowed, bushelAt_of_fab (setFs_fab ..)]
  exact bushelAt_setBushel_self ..

theorem windowed_pw (n w count slack : Nat) (s : State) : (windowed n w count slack s).pw = s.pw := setFs_pw ..

theorem mgmtWorks_of_pw {t : State} (h : t.pw = s.pw) : mgmtWorks t = mgmtWorks s := by simp only [mgmtWorks, domAt, h]

theorem isOn_of_pw {t : State} (h : t.pw = s.pw) (d : Nat) : isOn t d = isOn s d := by simp only [isOn, domAt, h]

theorem windowEnd_of_on (hon : bushelOn s n = true) (hmgmt : mgmtWorks s = false) (count slack : Nat) :
    windowEnd n count slack s =
      let u := windowed n (if (bushelAt s n).win = 0 then getF s F.WIN_LOG2 else (bushelAt s n).win) count slack s
      if isOn s 1 then headroomPath (headroomReport u) else u := by
  obtain ⟨u, hu⟩ : ∃ u, u = windowed n (if (bushelAt s n).win = 0 then getF s F.WIN_LOG2 else (bushelAt s n).win) count slack s := ⟨_, rfl⟩
  have hpw : u.pw = s.pw := by rw [hu, windowed_pw]
  have hhist (i : Nat) (value num den : Int) : histSample i value num den u = u :=
    histSample_of_mgmt_off ((mgmtWorks_of_pw hpw).trans hmgmt) i value num den
  have hend : ∃ value num den : Int, windowEnd n count slack s =
      if !isOn (histSample (128 + n) value num den u) 1 then histSample (128 + n) value num den u
      else headroomPath (headroomReport (histSample (128 + n) value num den u)) := by
    rw [hu]
    exact ⟨_, _, _, if_neg (by simp [hon])⟩
  obtain ⟨value, num, den, hend⟩ := hend
  rw [hend, hhist, isOn_of_pw hpw, ← hu]
  cases isOn s 1 <;> rfl

/-! #### The headroom path and its thresholds -/

/-- HR_REQ takes a value, and the run of good windows starts again. -/
def headroomAsk (req : Nat) (s : State) : State := setF { s with fab := { s.fab with good := 0 } } F.HR_REQ req

theorem headroomAsk_spec {req : Nat} (hreq : req < 2 ^ 4) (s : State) :
    getF (headroomAsk req s) F.HR_REQ = req ∧ (headroomAsk req s).fab.good = 0 ∧ fieldsKept [F.HR_REQ] s (headroomAsk req s) :=
  ⟨getF_setF_of_lt _ hreq, rfl, (fieldsKept_setF (by simp)).2 fun _ _ => rfl⟩

theorem headroomPath_of_short (h : getF s F.HEADROOM < getF s F.HR_THROTTLE) (hlo : 1 ≤ getF s F.HR_REQ) (hhi : getF s F.HR_REQ < 7) :
    headroomPath s = throttle (headroomAsk (getF s F.HR_REQ + 1) s) := by
  refine (if_pos h).trans ((if_neg (Nat.not_le.2 (Nat.lt_succ_of_lt hhi))).trans (congrArg throttle ?_))
  exact (if_neg (by simp only [beq_iff_eq]; omega)).trans (if_neg (by simp only [beq_iff_eq]; omega))

theorem headroomPath_of_good (hthr : getF s F.HR_THROTTLE ≤ getF s F.HEADROOM) (hraise : getF s F.HR_RAISE ≤ getF s F.HEADROOM)
    (hgood : s.fab.good < 3) : headroomPath s = { s with fab := { s.fab with good := s.fab.good + 1 } } :=
  (if_neg (Nat.not_lt.2 hthr)).trans ((if_pos hraise).trans (if_pos (Nat.succ_lt_succ hgood)))

theorem headroomPath_of_fourth_good (hthr : getF s F.HR_THROTTLE ≤ getF s F.HEADROOM) (hraise : getF s F.HR_RAISE ≤ getF s F.HEADROOM)
    (hgood : s.fab.good = 3) (hreq : 1 ≤ getF s F.HR_REQ) : headroomPath s = throttle (headroomAsk (getF s F.HR_REQ - 1) s) :=
  (if_neg (Nat.not_lt.2 hthr)).trans ((if_pos hraise).trans ((if_neg (by rw [hgood]; decide)).trans (if_neg (Nat.one_le_iff_ne_zero.1 hreq))))

/-- The three thresholds are stored. -/
def thresholdsSet (lower raise thr : Nat) (s : State) : State := setFs s [(F.HR_LOWER, lower), (F.HR_RAISE, raise), (F.HR_THROTTLE, thr)]

theorem getF_thresholdsSet {lower raise thr : Nat} (hl : lower < 2 ^ 16) (hr : raise < 2 ^ 16) (ht : thr < 2 ^ 16) (s : State) :
    getF (thresholdsSet lower raise thr s) F.HR_LOWER = lower ∧ getF (thresholdsSet lower raise thr s) F.HR_RAISE = raise ∧
      getF (thresholdsSet lower raise thr s) F.HR_THROTTLE = thr := by
  refine ⟨?_, ?_, getF_setF_of_lt _ ht⟩
  · simp (disch := decide) only [thresholdsSet, setFs_cons, setFs_nil, getF_setF_ne, getF_setF_self]
    exact Nat.mod_eq_of_lt hl
  · simp (disch := decide) only [thresholdsSet, setFs_cons, setFs_nil, getF_setF_ne, getF_setF_self]
    exact Nat.mod_eq_of_lt hr

theorem hrThreshold_pair (hon : isOn s 1 = true) {v : Nat} (hlt : bitsOf v 0 16 < bitsOf v 16 16) (hthr : getF s F.HR_THROTTLE < bitsOf v 0 16) :
    hrThreshold false v s = thresholdsSet (bitsOf v 16 16) (bitsOf v 0 16) (getF s F.HR_THROTTLE) s :=
  (if_neg (by simp [hon])).trans (if_pos ⟨hlt, hthr⟩)

/-- LOWER and RAISE after a write that keeps the three in order. -/
theorem getF_hrThreshold_pair (hon : isOn s 1 = true) {v : Nat} (hlt : bitsOf v 0 16 < bitsOf v 16 16)
    (hthr : getF s F.HR_THROTTLE < bitsOf v 0 16) :
    getF (hrThreshold false v s) F.HR_LOWER = bitsOf v 16 16 ∧ getF (hrThreshold false v s) F.HR_RAISE = bitsOf v 0 16 := by
  rw [hrThreshold_pair hon hlt hthr]
  obtain ⟨hl, hr, -⟩ := getF_thresholdsSet (bitsOf_lt v 16 16) (bitsOf_lt v 0 16) (hthr.trans (bitsOf_lt v 0 16)) s
  exact ⟨hl, hr⟩

theorem getF_hrThreshold_throttle (hon : isOn s 1 = true) {v : Nat} (hlt : getF s F.HR_RAISE < getF s F.HR_LOWER)
    (hthr : bitsOf v 0 16 < getF s F.HR_RAISE) : getF (hrThreshold true v s) F.HR_THROTTLE = bitsOf v 0 16 := by
  have heq : hrThreshold true v s = thresholdsSet (getF s F.HR_LOWER) (getF s F.HR_RAISE) (bitsOf v 0 16) s :=
    (if_neg (by simp [hon])).trans (if_pos ⟨hlt, hthr⟩)
  rw [heq]
  exact getF_setF_of_lt _ (bitsOf_lt v 0 16)

/-! #### Slips -/

/-- A slip that no host lane shares counts its tokens and raises its event at the first. -/
theorem slipToken_of_line {k : Nat} (h : clockDom n = 4 ∨ clockDom n = 5) (lane : Nat) (s : State) :
    slipToken n lane k s =
      if k = 1 then detect .fabric n k (setF s F.SLIP_TOKENS (min k 0x1FF)) else setF s F.SLIP_TOKENS (min k 0x1FF) :=
  if_neg (by omega)

theorem getF_slipTokens (k : Nat) (s : State) : getF (setF s F.SLIP_TOKENS (min k 0x1FF)) F.SLIP_TOKENS = min k 0x1FF :=
  getF_setF_of_lt s (lt_of_le_of_lt (Nat.min_le_right ..) (by decide))

/-- Beside the bushel, a slip touches the receive path's erased and unfixed subcarriers alone. -/
theorem slipLine_eq (n : Nat) (s : State) :
    slipLine n s = { s with rx := { s.rx with slipped := (slipLine n s).rx.slipped, retime := (slipLine n s).rx.retime } } := by
  unfold slipLine
  split <;> rfl

theorem slipLine_fab (n : Nat) (s : State) : (slipLine n s).fab = s.fab := by rw [slipLine_eq]
theorem slipLine_regs (n : Nat) (s : State) : (slipLine n s).regs = s.regs := by rw [slipLine_eq]

/-- Every subcarrier of a line receiver that slips is delivered as erased. -/
theorem mem_slipped_slipLine (hn : n = 0 ∨ n = 6) {k : Nat} (hk : k < 32) (s : State) : 32 * (n / 6) + k ∈ (slipLine n s).rx.slipped := by
  rw [slipLine, if_pos hn]
  exact List.mem_append_right _ (List.mem_range'_1.2 ⟨Nat.le_add_right .., Nat.add_lt_add_left hk _⟩)

/-- The bushels into the fabric of a LINE domain are those of its receiver. -/
theorem receiver_of_slipsIn : ∀ n : Fin 12, slipsIn n.val = true → clockDom n.val = 4 ∨ clockDom n.val = 5 → n.val = 0 ∨ n.val = 6 := by decide

/-- A bushel at whose full side a token was discarded. -/
def slippedBushel (x : Bushel) : Bushel :=
  { x with slipping := true, tokens := if x.slipping then x.tokens + 1 else 1, occ := if x.slipping then x.occ else 256 }

theorem slippedBushel_of_slipping {x : Bushel} (h : x.slipping = true) : slippedBushel x = { x with tokens := x.tokens + 1 } := by
  obtain ⟨slipping, tokens, done, since, c, win, occ, written, owed, fill⟩ := x
  obtain rfl : slipping = true := h
  rfl

/-- A slip into the fabric, up to its event. -/
def slipped (n : Nat) (s : State) : State := slipLine n (setBushel s n (slippedBushel (bushelAt s n)))

theorem bushelAt_slipped (n : Nat) (s : State) : bushelAt (slipped n s) n = slippedBushel (bushelAt s n) :=
  (bushelAt_of_fab (slipLine_fab ..) n).trans (bushelAt_setBushel_self ..)

theorem slipped_kept (fs : List Fld) (n : Nat) (s : State) : fieldsKept fs s (slipped n s) :=
  fieldsKept_of_regs (slipLine_regs ..) fun _ _ => rfl

theorem slipped_eq (n : Nat) (s : State) :
    slipped n s = { s with fab := (slipped n s).fab, rx := { s.rx with slipped := (slipped n s).rx.slipped, retime := (slipped n s).rx.retime } } := by
  unfold slipped slipLine
  split <;> rfl

theorem bushelSlip_of_in (x : BushelTok) (hon : bushelOn s x.n.val = true) (hin : slipsIn x.n.val = true) :
    exec (.bushelSlip x) s =
      .next (slipToken x.n.val x.lane.val (slippedBushel (bushelAt s x.n.val)).tokens (slipped x.n.val s)) :=
  congrArg Host.Outcome.next (if_pos (by rw [hin, hon]; rfl))

theorem slipRecovery_of_slipping (x : BushelTok) (h : (bushelAt s x.n.val).slipping = true) :
    exec (.slipRecovery x) s = .next (slipLine x.n.val (setBushel s x.n.val
      { bushelAt s x.n.val with slipping := false, tokens := 0, occ := 129, written := some { x.token with slip := true } })) :=
  congrArg Host.Outcome.next (if_pos h)

/-- A bushel at whose empty side a fill token was sent. -/
def filledBushel (x : Bushel) (k arrived : Nat) (fill : List Int) : Bushel :=
  { x with tokens := k, occ := 0, owed := x.owed - arrived + 1, fill := fill }

/-- The tokens of a slip with a fill token: more arrivals than were owed begin a new one. -/
def fillCount (x : Bushel) (arrived : Nat) : Nat := if x.owed = 0 ∨ x.owed < arrived then 1 else x.tokens + 1

/-- A slip out of the fabric, up to its event. -/
def filled (y : FillReq) (s : State) : State :=
  setBushel s y.n.val (filledBushel (bushelAt s y.n.val) (fillCount (bushelAt s y.n.val) y.arrived) y.arrived
    (fillContent (y.n.val % 6 == 1) (laneNrz s (halfLane y.n.val y.lane.val).val)))

theorem bushelAt_filled (y : FillReq) (s : State) :
    bushelAt (filled y s) y.n.val = filledBushel (bushelAt s y.n.val) (fillCount (bushelAt s y.n.val) y.arrived) y.arrived
      (fillContent (y.n.val % 6 == 1) (laneNrz s (halfLane y.n.val y.lane.val).val)) :=
  bushelAt_setBushel_self ..

theorem fillToken_of_out (y : FillReq) (hon : bushelOn s y.n.val = true) (hout : slipsOut y.n.val = true) :
    exec (.fillToken y) s =
      .next (slipToken y.n.val y.lane.val (fillCount (bushelAt s y.n.val) y.arrived) (filled y s)) :=
  congrArg Host.Outcome.next (if_pos (by rw [hout, hon]; rfl))

end

end Sys2Proof.Machine

namespace Sys2Proof.Certificates
open Sys2Proof Sys2Proof.Machine
open Sys2Proof.Safety (onlyFields fieldsKept)

/-- Settles O50: a window keeps its count and slack before it reports headroom, thresholds are stored only in their order, and each token
of a slip is counted where it stands. -/
theorem bushelsReportHeadroomAndSlips : Obligations.BushelsReportHeadroomAndSlips := by
  unfold Obligations.BushelsReportHeadroomAndSlips
  refine ⟨fun n count slack s => ⟨fun hoff => congrArg Host.Outcome.next (if_pos (by simp [hoff])), fun hon hmgmt hwin hlog => ?window⟩,
    fun s => ⟨fun h hlo hhi => ?short, fun hthr hraise hgood => headroomPath_of_good hthr hraise hgood, fun hthr hraise hgood hlo hhi => ?good⟩,
    fun v s hon => ⟨fun hlt hthr => ?pair, fun h => ?pairRejected, fun hlt hthr => ?thr, fun h => ?thrRejected⟩,
    fun x s => ⟨fun hon hin hslip hline => ?first, fun hon hin hslip hline => ?further, fun h => ?noSlip, fun hslip => ?recovery,
      fun hslip => congrArg Host.Outcome.next (if_neg (by simp [hslip]))⟩,
    fun y s => ⟨fun hon hout howed hline => ?newFill, fun hon hout howed harr htok hline => ?nextFill, fun h => ?noFill⟩⟩
  case window =>
    obtain ⟨hsat, hslack, hkept, honly⟩ := windowed_spec n.val (getF s F.WIN_LOG2) count slack s hlog
    have hbushel := bushelAt_windowed n.val (getF s F.WIN_LOG2) count slack s
    refine ⟨windowed n.val (getF s F.WIN_LOG2) count slack s, congrArg Host.Outcome.next ?_, hsat, hslack, by rw [hbushel]; rfl, fun h => ?_,
      fun h => ?_, by rw [hbushel]; rfl, hkept, honly⟩
    · rw [windowEnd_of_on hon hmgmt, if_pos hwin]
    · rw [hbushel]
      exact if_pos h
    · rw [hbushel]
      exact if_neg h
  case short =>
    obtain ⟨hreq, hgood, hkept⟩ := headroomAsk_spec (req := getF s F.HR_REQ + 1) (by omega) s
    exact ⟨_, headroomPath_of_short h hlo hhi, hreq, hgood, hkept⟩
  case good =>
    obtain ⟨hreq, hgood', hkept⟩ := headroomAsk_spec (req := getF s F.HR_REQ - 1) (by omega) s
    exact ⟨_, headroomPath_of_fourth_good hthr hraise hgood hlo, hreq, hgood', hkept⟩
  case pair => exact ⟨_, rfl, getF_hrThreshold_pair hon hlt hthr⟩
  case pairRejected => exact congrArg Host.Outcome.next ((if_neg (by simp [hon])).trans (if_neg fun ⟨h1, h2⟩ => by
    change bitsOf v.toNat 0 16 < bitsOf v.toNat 16 16 at h1
    change getF s F.HR_THROTTLE < bitsOf v.toNat 0 16 at h2
    omega))
  case thr => exact ⟨_, rfl, getF_hrThreshold_throttle hon hlt hthr⟩
  case thrRejected => exact congrArg Host.Outcome.next ((if_neg (by simp [hon])).trans (if_neg fun ⟨_, h2⟩ => Nat.not_lt.2 h h2))
  case first =>
    have hcount : (slippedBushel (bushelAt s x.n.val)).tokens = 1 := if_neg (by simp [hslip])
    refine ⟨setF (slipped x.n.val s) F.SLIP_TOKENS (min 1 0x1FF), ?_, getF_slipTokens 1 _, ?_, fun k hk => ?_, ?_, ?_⟩
    · rw [bushelSlip_of_in x hon hin, hcount, slipToken_of_line hline, if_pos rfl]
    · refine (bushelAt_slipped x.n.val s).trans ?_
      rw [slippedBushel, hslip]
      rfl
    · exact mem_slipped_slipLine (receiver_of_slipsIn x.n hin hline) hk _
    · exact (fieldsKept_setF (by simp)).2 (slipped_kept _ _ s)
    · rw [slipped_eq]
      rfl
  case further =>
    have hcount : (slippedBushel (bushelAt s x.n.val)).tokens = (bushelAt s x.n.val).tokens + 1 := if_pos hslip
    refine ⟨setF (slipped x.n.val s) F.SLIP_TOKENS (min ((bushelAt s x.n.val).tokens + 1) 0x1FF), ?_, getF_slipTokens _ _, ?_, ?_⟩
    · rw [bushelSlip_of_in x hon hin, hcount, slipToken_of_line hline]
      by_cases htok : (bushelAt s x.n.val).tokens = 0
      · rw [htok]
        rfl
      · rw [if_neg htok, if_neg (by omega)]
    · exact (bushelAt_slipped x.n.val s).trans (slippedBushel_of_slipping hslip)
    · exact (fieldsKept_setF (by simp)).2 (slipped_kept _ _ s)
  case noSlip => exact congrArg Host.Outcome.next (if_neg (by rcases h with h | h <;> simp [h]))
  case recovery =>
    refine ⟨_, slipRecovery_of_slipping x hslip, (bushelAt_of_fab (slipLine_fab ..) _).trans (bushelAt_setBushel_self ..), ?_⟩
    rw [slipLine_eq]
    rfl
  case newFill =>
    have hcount : fillCount (bushelAt s y.n.val) y.arrived = 1 := if_pos howed
    refine ⟨setF (filled y s) F.SLIP_TOKENS (min 1 0x1FF), ?_, getF_slipTokens 1 _, ?_, (fieldsKept_setF (by simp)).2 fun _ _ => rfl, rfl⟩
    · rw [fillToken_of_out y hon hout, hcount, slipToken_of_line hline, if_pos rfl]
    · refine (bushelAt_filled y s).trans ?_
      rw [hcount]
      rfl
  case nextFill =>
    have hcount : fillCount (bushelAt s y.n.val) y.arrived = (bushelAt s y.n.val).tokens + 1 := if_neg (by omega)
    refine ⟨setF (filled y s) F.SLIP_TOKENS (min ((bushelAt s y.n.val).tokens + 1) 0x1FF), ?_, getF_slipTokens _ _, ?_,
      (fieldsKept_setF (by simp)).2 fun _ _ => rfl, rfl⟩
    · rw [fillToken_of_out y hon hout, hcount, slipToken_of_line hline, if_neg (by omega)]
    · refine (bushelAt_filled y s).trans ?_
      rw [hcount]
      rfl
  case noFill => exact congrArg Host.Outcome.next (if_neg (by rcases h with h | h <;> simp [h]))

end Sys2Proof.Certificates

/-! ### The Chain port: link, packets and credits (15 R375-R379) -/

namespace Sys2Proof.Machine
open Safety (fieldsKept onlyFields)

section
variable {s : State}

/-- A packet whose number is the one expected, or the first one, only moves the number on. -/
theorem takeSeq_of_expected {seq : Nat} (h : s.chn.inSeq = none ∨ s.chn.inSeq = some seq) :
    takeSeq seq s = { s with chn := { s.chn with inSeq := some ((seq + 1) % 65536), blockLock := true } } := by
  refine if_neg ?_
  rcases h with h | h <;> simp [h]

theorem inbound_of_good {typ : Nat} {p : Packet} (hhears : chnHears s = true) (hgood : pktGood typ p.payload.length p = true)
    (hlen : p.payload.length ≤ 4096) (f : State → State) : inbound typ p s f = f (takeSeq p.seq.toNat s) :=
  (if_neg (by simp [hhears])).trans ((if_neg (by simp [hgood])).trans (if_neg (Nat.not_lt.2 hlen)))

theorem inbound_of_bad_crc {typ : Nat} {p : Packet} (hhears : chnHears s = true) (hbad : pktGood typ p.payload.length p = false)
    (f : State → State) : inbound typ p s f = detect .chn 4 0 s :=
  (if_neg (by simp [hhears])).trans (if_pos (by simp [hbad]))

theorem inbound_of_deaf (h : chnHears s = false) (typ : Nat) (p : Packet) (f : State → State) : inbound typ p s f = s :=
  if_pos (by simp [h])

/-- The link is down, with drain and stream ended. -/
def linkCut (s : State) : State := setFs { s with chn := { s.chn with drain := none } } [(F.CHN_LINK, 0), (F.STREAMING, 0)]

theorem linkCut_spec (s : State) :
    getB (linkCut s) F.CHN_LINK = false ∧ getB (linkCut s) F.STREAMING = false ∧ (linkCut s).chn = { s.chn with drain := none } ∧
      fieldsKept [F.CHN_LINK, F.STREAMING] s (linkCut s) := by
  refine ⟨?_, getB_setF_zero _ F.STREAMING, setFs_chn .., fieldsKept_setFs (by simp) fun _ _ => rfl⟩
  rw [linkCut, setFs_cons, setFs_cons, setFs_nil, getB_setF_ne _ 0 (by decide)]
  exact getB_setF_zero _ F.CHN_LINK

theorem linkDown_of_up (h : getB s F.CHN_LINK = true) :
    linkDown s = if (detect .chn 1 0 (linkCut s)).chn.snapNext.isSome then snapInFail (detect .chn 1 0 (linkCut s))
      else detect .chn 1 0 (linkCut s) :=
  if_neg (by simp [h])

/-! #### Credits -/

theorem tget_foldl_tset {v : Nat → Nat} {l : List Nat} (hl : l.Nodup) (t : Tab Nat) (k : Nat) :
    tget (l.foldl (fun t k => tset t k (v k) 0) t) k 0 = if k ∈ l then v k else tget t k 0 := by
  induction l generalizing t with
  | nil => rfl
  | cons x l ih =>
    obtain ⟨hx, hl⟩ := List.nodup_cons.1 hl
    rw [List.foldl_cons, ih hl]
    by_cases hk : k = x
    · subst hk
      rw [if_neg hx, if_pos (List.mem_cons_self ..), tget_tset_self]
    · rw [tget_tset_ne _ _ _ _ hk]
      simp [hk]

theorem takeCredit_limOut {k : Nat} (hk : k < 5) (bs : List Byte) (s : State) : tget (takeCredit bs s).chn.limOut k 0 = leAt bs (8 * k) 4 :=
  (tget_foldl_tset (v := fun k => leAt bs (8 * k) 4) List.nodup_range _ k).trans (if_pos (List.mem_range.2 hk))

theorem takeCredit_usedIn {k : Nat} (hlo : 5 ≤ k) (hhi : k < 8) (bs : List Byte) (s : State) :
    tget (takeCredit bs s).chn.usedIn k 0 = leAt bs (8 * k + 4) 4 :=
  (tget_foldl_tset (v := fun k => leAt bs (8 * k + 4) 4) (by decide) _ k).trans (if_pos (by simp; omega))

theorem length_leBytes (k v : Nat) : (leBytes k v).length = k := by
  induction k generalizing v with
  | zero => rfl
  | succ k ih => simp [leBytes, ih]

/-- 64 KiB beyond what an inbound stream has used. -/
@[irreducible] def limitGranted (s : State) (k : Nat) : Nat := (tget s.chn.usedIn k 0 + 1024) % 2 ^ 32

/-- The limits of the inbound streams that a CREDIT packet grants. -/
def limitsGranted (s : State) : Tab Nat := [5, 6, 7].foldl (fun t k => tset t k (limitGranted s k) 0) s.chn.limIn

theorem limitGranted_eq (s : State) (k : Nat) : limitGranted s k = (tget s.chn.usedIn k 0 + 1024) % 2 ^ 32 := by
  unfold limitGranted
  rfl

theorem limitsGranted_of_inbound {k : Nat} (hlo : 5 ≤ k) (hhi : k < 8) (s : State) : tget (limitsGranted s) k 0 = limitGranted s k :=
  (tget_foldl_tset (v := limitGranted s) (by decide) _ k).trans (if_pos (by simp; omega))

/-- The payload of a CREDIT packet (R378). -/
def creditPayload (s : State) : List Byte := (List.range 8).flatMap fun k =>
  leBytes 4 (if 5 ≤ k then tget (limitsGranted s) k 0 else 0) ++ leBytes 4 (if k < 5 then tget s.chn.usedOut k 0 else 0)

theorem length_creditPayload (s : State) : (creditPayload s).length = 64 := by
  simp [creditPayload, List.length_flatMap, length_leBytes]

/-- The CREDIT packet is out, and its limits are granted. -/
def creditSent (s : State) : State := sendPkt { s with chn := { s.chn with limIn := limitsGranted s } } none 0x7F 3 0 (creditPayload s)

theorem creditSent_limIn (s : State) : (creditSent s).chn.limIn = limitsGranted s := rfl

theorem creditSend_of_hears (h : chnHears s = true) : creditSend s = creditSent s := by
  unfold creditSent creditPayload limitsGranted limitGranted
  exact if_neg (by simp [h])

end

end Sys2Proof.Machine

namespace Sys2Proof.Certificates
open Sys2Proof Sys2Proof.Machine
open Sys2Proof.Safety (onlyFields fieldsKept)

/-- Settles O51: the link's signals raise and cut it, credits are taken and granted stream by stream, and a packet that is not good is
named by what is wrong with it. -/
theorem chainLinkAndCredits : Obligations.ChainLinkAndCredits := by
  unfold Obligations.ChainLinkAndCredits
  intro s
  refine ⟨fun hhears hlink => ?up, fun h => ?noUp, fun hhears hlink => ?timeout, fun h => ?noTimeout, fun hhears hlock => ?lockLost,
    fun hlock => congrArg Host.Outcome.next (if_neg (by simp [hlock])), fun k => ⟨fun hup hwait hcred => ?stall, fun h => ?noStall⟩,
    fun p hhears hgood hlen hseq => ?credit, fun hhears => ?send, fun typ len p hhears => ⟨fun hbad => ?badCrc, fun hgood hbad hseq => ?bad⟩,
    fun hdeaf typ len p => ?deaf⟩
  case up =>
    refine ⟨_, congrArg Host.Outcome.next (if_pos (by simp [hhears, hlink])), getB_setB_self _ F.CHN_LINK true Nat.one_ne_zero, rfl, rfl,
      (fieldsKept_setB (by simp)).2 fun _ _ => rfl⟩
  case noUp => exact congrArg Host.Outcome.next (if_neg (by rcases h with h | h <;> simp [h]))
  case timeout =>
    obtain ⟨hcut, hstream, hchn, hkept⟩ := linkCut_spec s
    exact ⟨linkCut s, hcut, hstream, by rw [hchn], hkept, congrArg Host.Outcome.next ((if_pos hhears).trans (linkDown_of_up hlink))⟩
  case noTimeout =>
    rcases h with h | h
    · exact congrArg Host.Outcome.next (if_neg (by simp [h]))
    · refine congrArg Host.Outcome.next ?_
      rw [show linkDown s = s from if_pos (by simp [h]), ite_self]
  case lockLost => exact congrArg Host.Outcome.next (if_pos (by simp [hhears, hlock]))
  case stall => exact congrArg Host.Outcome.next (if_pos (by simp [hup, hwait, hcred]))
  case noStall => exact congrArg Host.Outcome.next (if_neg (by rcases h with h | h | h <;> simp [h]))
  case credit =>
    obtain ⟨u, hu⟩ : ∃ u : State, u = { s with chn := { s.chn with inSeq := some ((p.seq.toNat + 1) % 65536), blockLock := true } } := ⟨_, rfl⟩
    have hexec : exec (.credit p) s = .next (takeCredit p.payload u) := by
      refine congrArg Host.Outcome.next ((inbound_of_good hhears (hlen ▸ hgood) (by omega) _).trans ?_)
      rw [takeSeq_of_expected hseq, ← hu]
      exact if_pos hlen
    refine ⟨_, hexec, fun k hk => takeCredit_limOut hk _ _, fun k hlo hhi => takeCredit_usedIn hlo hhi _ _, ?_, ?_⟩
    · rw [hu]; rfl
    · rw [hu]; rfl
  case send =>
    have hexec : exec .creditSend s = .next (creditSent s) := congrArg Host.Outcome.next (creditSend_of_hears hhears)
    refine ⟨_, ⟨0x7F, 3, s.chn.outSeq, 0, creditPayload s⟩, hexec, rfl, rfl, rfl, length_creditPayload s, fun k hlo hhi => ?_, rfl, rfl⟩
    rw [creditSent_limIn]
    exact (limitsGranted_of_inbound hlo hhi s).trans (limitGranted_eq s k)
  case badCrc => exact congrArg Host.Outcome.next ((if_neg (by simp [hhears])).trans (if_pos (by simp [hbad])))
  case bad =>
    refine ⟨{ s with chn := { s.chn with inSeq := some ((p.seq.toNat + 1) % 65536), blockLock := true } }, congrArg Host.Outcome.next ?_, rfl, rfl⟩
    rw [← takeSeq_of_expected hseq]
    refine (if_neg (by simp [hhears])).trans ((if_neg (by simp [hgood])).trans (if_neg ?_))
    rintro ⟨hlen, htyp⟩
    rcases hbad with h | h
    · exact h htyp
    · omega
  case deaf =>
    exact ⟨congrArg Host.Outcome.next (if_pos (by simp [hdeaf])), congrArg Host.Outcome.next (inbound_of_deaf hdeaf ..),
      congrArg Host.Outcome.next (if_pos (by simp [hdeaf])), congrArg Host.Outcome.next (inbound_of_deaf hdeaf ..),
      congrArg Host.Outcome.next (inbound_of_deaf hdeaf ..), congrArg Host.Outcome.next (inbound_of_deaf hdeaf ..)⟩

end Sys2Proof.Certificates

/-! ### Drains and captures of the Chain port (15 R381, R384, R385) -/

namespace Sys2Proof.Machine
open Safety (fieldsKept onlyFields)

section
variable {s : State}

/-! #### Drains -/

/-- A drain that waits takes the records of the region, and the reserve where asked. -/
def drainBegun (s : State) : DrainSt :=
  ⟨s.ldg.region.filter fun e => e.2.typ != 0, if getB s F.DRAIN_RES then s.ldg.reserve else [], 0, false⟩

theorem drainReq_of_ready (hup : chnUp s = true) (hon : isOn s 1 = true) (hidle : s.chn.drain = none) :
    drainReq s = { s with chn := { s.chn with drain := some (drainBegun s) } } :=
  if_neg (by simp [hup, hon, hidle])

theorem exec_ledger_of_drain {d : DrainSt} (hdrain : s.chn.drain = some d) (hup : chnUp s = true) : exec .ledger s = .next (ledgerPacket s d) := by
  refine congrArg Host.Outcome.next ?_
  rw [hdrain]
  exact if_pos hup

/-- A drain with nothing left is done. -/
theorem ledgerPacket_of_empty {d : DrainSt} (hrecs : d.recs = []) (hresv : d.resv = []) :
    ledgerPacket s d = detect .chn 10 0 { s with chn := { s.chn with drain := none } } := by
  simp only [ledgerPacket, hrecs, hresv, fitRecs, List.isEmpty_nil, if_true]

/-- The bytes of records in a drain's packet. -/
def drainBytes (l : List (Nat × LRec)) : List Byte := l.flatMap fun r => recBytes r.2

/-- A packet of a drain is out, with `b` left of its records. -/
def drainSent (d : DrainSt) (offset : Nat) (bs : List Byte) (b : List (Nat × LRec)) (s : State) : State :=
  let t := sendPkt s (some 1) 0x02 (if d.begun then 0 else 1) offset bs
  { t with chn := { t.chn with drain := some { d with recs := b, begun := true } } }

/-- Records that fit a packet, with more behind them, go out where credit allows. -/
theorem ledgerPacket_of_more {d : DrainSt} {e : Nat × LRec} {a b : List (Nat × LRec)} (hfit : fitRecs 0 d.recs = (e :: a, b)) (hmore : b ≠ []) :
    ledgerPacket s d =
      if hasCredit s 1 (pktUnits (drainBytes (e :: a)).length) then drainSent d e.1 (drainBytes (e :: a)) b s else s := by
  have hlast : (b.isEmpty && d.resv.isEmpty) = false := by rw [List.isEmpty_eq_false_iff.2 hmore, Bool.false_and]
  rw [ledgerPacket, hfit]
  simp only [hlast, Bool.false_eq_true, if_false, Nat.zero_add, Nat.add_zero]
  rw [← drainBytes]
  cases hasCredit s 1 (pktUnits (drainBytes (e :: a)).length) <;> rfl

/-! #### Captures -/

theorem capStart_of_idle (hon : isOn s 10 = true) (hidle : getB s F.CAP_BUSY = false) :
    capStart s =
      let s' := setB { s with chn := { s.chn with capArmed := true } } F.CAP_BUSY true
      if getF s F.CAP_TRIGGER = 0 then capTrigger s' else s' := by
  refine (if_neg (by simp [hon])).trans ((if_neg (by simp [hidle])).trans ?_)
  simp only [beq_iff_eq]

/-- What a trigger leaves of the capture. -/
theorem capTrigger_spec (s : State) :
    (capTrigger s).chn.capArmed = false ∧ (capTrigger s).chn.capTrig = true ∧ (capTrigger s).chn.capWords = getF s F.CAP_WORDS ∧
      (capTrigger s).chn.capSeq = (s.chn.capSeq + 1) % 2 ^ 32 ∧ capTrigger s = { s with chn := (capTrigger s).chn } :=
  ⟨rfl, rfl, rfl, rfl, rfl⟩

/-- Values written one after the other from key `k` on. -/
theorem tget_foldl_zipIdx (ws : List (BitVec 56)) (k : Nat) (t : Tab Nat) (i : Nat) :
    tget ((ws.zipIdx k).foldl (fun t e => tset t e.2 e.1.toNat 0) t) i 0 =
      if k ≤ i ∧ i < k + ws.length then (ws.getD (i - k) 0).toNat else tget t i 0 := by
  induction ws generalizing k t with
  | nil => exact (if_neg (by simp only [List.length_nil]; omega)).symm
  | cons w ws ih =>
    rw [List.zipIdx_cons, List.foldl_cons, ih, List.length_cons]
    by_cases hik : i = k
    · subst hik
      rw [if_neg (by omega), if_pos ⟨Nat.le_refl _, by omega⟩, tget_tset_self, Nat.sub_self]
      rfl
    · rw [tget_tset_ne _ _ _ _ hik]
      by_cases hin : k + 1 ≤ i ∧ i < k + 1 + ws.length
      · rw [if_pos hin, if_pos (by omega), show i - k = (i - (k + 1)) + 1 by omega]
        rfl
      · rw [if_neg hin, if_neg (by omega)]

/-- Capture memory with its first words written. -/
def capMemWith (ws : List (BitVec 56)) (t : Tab Nat) : Tab Nat := ws.zipIdx.foldl (fun t e => tset t e.2 e.1.toNat 0) t

theorem tget_capMemWith (ws : List (BitVec 56)) (t : Tab Nat) (i : Nat) :
    tget (capMemWith ws t) i 0 = if i < ws.length then (ws.getD i 0).toNat else tget t i 0 := by
  rw [capMemWith, tget_foldl_zipIdx]
  simp

/-- The words of a capture are in capture memory, and their poison is gone. -/
def captured (samples : List (BitVec 56)) (s : State) : State :=
  unpoison 1 (List.range samples.length)
    { s with chn := { s.chn with capMem := capMemWith samples s.chn.capMem, capTrig := false, capPos := 0 } }

theorem captured_chn (samples : List (BitVec 56)) (s : State) :
    (captured samples s).chn = { s.chn with capMem := capMemWith samples s.chn.capMem, capTrig := false, capPos := 0 } := by
  rw [captured, unpoison_only]

theorem captureDone_of_samples {samples : List (BitVec 56)} (hon : isOn s 10 = true) (htrig : s.chn.capTrig = true)
    (hlen : samples.length = s.chn.capWords) :
    captureDone samples s = detect .chn 8 0 (setFs (captured samples s) [(F.CAP_BUSY, 0), (F.CAP_SEQ, (captured samples s).chn.capSeq),
      (F.STREAMING, if getB (captured samples s) F.CAP_STREAM && chnUp (captured samples s) then 1 else 0)]) := by
  have hall : samples.take s.chn.capWords = samples := by rw [← hlen, List.take_length]
  refine (if_neg (by simp [hon, htrig])).trans ?_
  dsimp only
  rw [hall]
  rfl

/-! #### The stream of a capture -/

/-- The bytes of the stream's next packet. -/
def capNext (s : State) : Nat := min 4096 (64 + 8 * s.chn.capWords - s.chn.capPos)

/-- A packet of the stream is out. -/
def capSent (last : Bool) (s : State) : State :=
  let t := sendPkt s (some 0) 0x01 ((if s.chn.capPos = 0 then 1 else 0) + (if last then 2 else 0)) s.chn.capPos (capBytes s s.chn.capPos (capNext s))
  { t with chn := { t.chn with capPos := s.chn.capPos + capNext s } }

theorem capturePacket_of_ready (hstream : getB s F.STREAMING = true) (hup : chnUp s = true) (hon : isOn s 1 = true)
    (hdma : s.stw.dmaStop = false) (hcred : hasCredit s 0 (pktUnits (capNext s)) = true) :
    capturePacket s =
      let last := s.chn.capPos + capNext s == 64 + 8 * s.chn.capWords
      if last then detect .dma 1 0 (setB (capSent last s) F.STREAMING false) else capSent last s :=
  if_neg (by rw [capNext] at hcred; simp [hstream, hup, hon, hdma, hcred])

end

end Sys2Proof.Machine

namespace Sys2Proof.Certificates
open Sys2Proof Sys2Proof.Machine
open Sys2Proof.Safety (onlyFields fieldsKept)

/-- Settles O52: a drain sends what it took in order as credit allows, and a capture is armed, triggered once, done and streamed from its
header on. -/
theorem drainsAndCapturesGoOut : Obligations.DrainsAndCapturesGoOut := by
  unfold Obligations.DrainsAndCapturesGoOut
  intro s
  refine ⟨fun hup hon hidle => ⟨_, drainBegun s, congrArg Host.Outcome.next (drainReq_of_ready hup hon hidle), rfl, rfl, rfl, rfl, rfl⟩,
    fun h => congrArg Host.Outcome.next (if_pos ?noDrain), fun d hdrain hup => ⟨fun hrecs hresv => ?drained, fun e a b hfit hmore => ?more⟩,
    fun hidle => ?idle, fun hon hidle => ?start, fun hon hbusy => ⟨fun htrig => ?again, fun htrig => ?armed⟩, fun hon harmed => ?trigger,
    fun hon harmed hbusy => ?retrigger, fun samples => ⟨fun hon htrig hlen => ?done, fun h => congrArg Host.Outcome.next (if_pos ?notDone)⟩,
    fun hstream hup hon hdma => ⟨fun hcred hmore => ?packet, fun hlast hcred => ?last⟩, fun h => congrArg Host.Outcome.next (if_pos ?noStream)⟩
  case noDrain => rcases h with h | h <;> simp [h]
  case drained => rw [exec_ledger_of_drain hdrain hup, ledgerPacket_of_empty hrecs hresv]
  case more =>
    have hexec := exec_ledger_of_drain hdrain hup
    rw [ledgerPacket_of_more hfit hmore] at hexec
    refine ⟨fun hcred => ?_, fun hcred => hexec.trans (congrArg Host.Outcome.next (if_neg (ne_true_of_eq_false hcred)))⟩
    exact ⟨_, hexec.trans (congrArg Host.Outcome.next (if_pos hcred)), rfl, rfl, rfl, tget_tset_self .., rfl⟩
  case idle =>
    refine congrArg Host.Outcome.next ?_
    rw [hidle]
  case start =>
    obtain ⟨u, hu⟩ : ∃ u : State, u = setB { s with chn := { s.chn with capArmed := true } } F.CAP_BUSY true := ⟨_, rfl⟩
    have hbusy : getB u F.CAP_BUSY = true := by rw [hu]; exact getB_setB_self _ F.CAP_BUSY true Nat.one_ne_zero
    have hkept : fieldsKept [F.CAP_BUSY] s u := by rw [hu]; exact (fieldsKept_setB (by simp)).2 fun _ _ => rfl
    have honly : u = { s with regs := u.regs, chn := { s.chn with capArmed := true } } := by rw [hu]; rfl
    have hexec : exec .capStart s = .next (if getF s F.CAP_TRIGGER = 0 then capTrigger u else u) := by
      rw [hu]
      exact congrArg Host.Outcome.next (capStart_of_idle hon hidle)
    by_cases htrig : getF s F.CAP_TRIGGER = 0
    case pos =>
      rw [if_pos htrig] at hexec
      obtain ⟨harmed, htrigd, hwords, -, hchn⟩ := capTrigger_spec u
      refine ⟨_, hexec, ?_, fun h => absurd htrig h, fun _ => ⟨harmed, htrigd, hwords.trans (hkept _ (by decide))⟩, ?_, ?_⟩
      · rw [hchn]; exact hbusy
      · rw [hchn]; exact hkept
      · rw [hchn, honly]
    case neg =>
      rw [if_neg htrig] at hexec
      exact ⟨u, hexec, hbusy, fun _ => by rw [honly]; exact ⟨rfl, rfl⟩, fun h => absurd h htrig, hkept, by rw [honly]⟩
  case again => exact congrArg Host.Outcome.next ((if_neg (by simp [hon])).trans ((if_pos hbusy).trans (if_pos (by simp [htrig]))))
  case armed => exact congrArg Host.Outcome.next ((if_neg (by simp [hon])).trans ((if_pos hbusy).trans (if_neg (by simp [htrig]))))
  case trigger =>
    obtain ⟨harm, htrig, -, hseq, honly⟩ := capTrigger_spec s
    exact ⟨_, congrArg Host.Outcome.next ((if_neg (by simp [hon])).trans (if_pos harmed)), harm, htrig, hseq, honly⟩
  case retrigger =>
    exact congrArg Host.Outcome.next ((if_neg (by simp [hon])).trans ((if_neg (by simp [harmed])).trans (if_pos hbusy)))
  case done =>
    have hexec : exec (.captureDone samples) s = .next _ := congrArg Host.Outcome.next (captureDone_of_samples hon htrig hlen)
    have hmem (i : Nat) := tget_capMemWith samples s.chn.capMem i
    refine ⟨_, hexec, ?_, ?_, fun i hi => ?_, fun i hi => ?_, ?_⟩
    · simp (disch := decide) only [setFs_cons, setFs_nil, getB_setF_ne]
      exact getB_setF_zero _ F.CAP_BUSY
    · rw [setFs_chn, captured_chn]
    · rw [setFs_chn, captured_chn]
      exact (hmem i).trans (if_pos hi)
    · rw [setFs_chn, captured_chn]
      exact (hmem i).trans (if_neg (Nat.not_lt.2 hi))
    · exact fieldsKept_setFs (by simp) (fieldsKept_mono (unpoison_kept 1 _ _) (by simp))
  case notDone => rcases h with h | h <;> simp [h]
  case packet =>
    have hnext : capNext s = 4096 := Nat.min_eq_left (by omega)
    have hlast : (s.chn.capPos + capNext s == 64 + 8 * s.chn.capWords) = false := by rw [hnext, beq_eq_false_iff_ne]; omega
    have hexec : exec .capture s = .next (capSent false s) := by
      refine congrArg Host.Outcome.next ((capturePacket_of_ready hstream hup hon hdma (by rw [hnext]; exact hcred)).trans ?_)
      rw [hlast]
      rfl
    refine ⟨_, hexec, ?_, ?_, rfl⟩
    · rw [← hnext]; rfl
    · rw [← hnext]; rfl
  case last =>
    have hnext : capNext s = 4096 := Nat.min_eq_left (by omega)
    have hlast' : (s.chn.capPos + capNext s == 64 + 8 * s.chn.capWords) = true := by rw [hnext, beq_iff_eq]; exact hlast
    have hexec : exec .capture s = .next (detect .dma 1 0 (setB (capSent true s) F.STREAMING false)) := by
      refine congrArg Host.Outcome.next ((capturePacket_of_ready hstream hup hon hdma (by rw [hnext]; exact hcred)).trans ?_)
      rw [hlast']
      rfl
    refine ⟨_, hexec, getB_setB_self _ F.STREAMING false Nat.one_ne_zero, ?_⟩
    rw [← hnext]; rfl
  case noStream => rcases h with h | h <;> simp [h]

end Sys2Proof.Certificates

/-! ### Inbound streams of the Chain port (15 R379, R386) -/

namespace Sys2Proof.Machine
open Safety (fieldsKept onlyFields)

section
variable {s : State} {p : Packet} {k typ : Nat}

/-- What a stream has used with one more packet. -/
def usedWith (k : Nat) (p : Packet) (s : State) : Nat := (tget s.chn.usedIn k 0 + pktUnits p.payload.length) % 2 ^ 32

/-- A good packet, in sequence, moves the number on. -/
def packetTaken (p : Packet) (s : State) : State :=
  { s with chn := { s.chn with inSeq := some ((p.seq.toNat + 1) % 65536), blockLock := true } }

/-- A packet within its stream's credit takes it. -/
def streamTaken (k : Nat) (p : Packet) (s : State) : State :=
  { packetTaken p s with chn := { (packetTaken p s).chn with usedIn := tset s.chn.usedIn k (usedWith k p s) 0 } }

theorem inStream_eq (hhears : chnHears s = true) (hlen : p.payload.length ≤ 4096) (hseq : s.chn.inSeq = none ∨ s.chn.inSeq = some p.seq.toNat)
    (hgood : pktGood typ p.payload.length p = true) (f : State → State) :
    inStream k typ p s f =
      if 2 ^ 31 ≤ (tget s.chn.limIn k 0 + 2 ^ 32 - usedWith k p s) % 2 ^ 32 then detect .chn (16 + k) 0 (packetTaken p s)
      else f (streamTaken k p s) := by
  refine (inbound_of_good hhears hgood hlen _).trans ?_
  rw [takeSeq_of_expected hseq]
  rfl

theorem inStream_beyond (hhears : chnHears s = true) (hlen : p.payload.length ≤ 4096)
    (hseq : s.chn.inSeq = none ∨ s.chn.inSeq = some p.seq.toNat) (hgood : pktGood typ p.payload.length p = true)
    (hover : 2 ^ 31 ≤ (tget s.chn.limIn k 0 + 2 ^ 32 - usedWith k p s) % 2 ^ 32) (f : State → State) :
    inStream k typ p s f = detect .chn (16 + k) 0 (packetTaken p s) :=
  (inStream_eq hhears hlen hseq hgood f).trans (if_pos hover)

theorem inStream_within (hhears : chnHears s = true) (hlen : p.payload.length ≤ 4096)
    (hseq : s.chn.inSeq = none ∨ s.chn.inSeq = some p.seq.toNat) (hgood : pktGood typ p.payload.length p = true)
    (hroom : (tget s.chn.limIn k 0 + 2 ^ 32 - usedWith k p s) % 2 ^ 32 < 2 ^ 31) (f : State → State) :
    inStream k typ p s f = f (streamTaken k p s) :=
  (inStream_eq hhears hlen hseq hgood f).trans (if_neg (Nat.not_le.2 hroom))

theorem streamTaken_spec (k : Nat) (p : Packet) (s : State) :
    streamTaken k p s = { s with chn := (streamTaken k p s).chn } ∧ (streamTaken k p s).chn.inSeq = some ((p.seq.toNat + 1) % 65536) ∧
      tget (streamTaken k p s).chn.usedIn k 0 = usedWith k p s :=
  ⟨rfl, rfl, tget_tset_self ..⟩

/-- A snapshot packet at an offset that no snapshot in progress expects fails. -/
theorem snapIn_of_unexpected (harg : p.arg.toNat ≠ 0) (hnone : s.chn.snapNext = none) (hbad : s.chn.snapBad = false) :
    snapIn p s = snapInFail s :=
  (if_neg harg).trans ((if_neg (by simp [hnone])).trans (if_neg (by simp [hbad])))

/-- A snapshot begins with the packet at offset 0. -/
theorem snapIn_of_first (harg : p.arg.toNat = 0) (hnone : s.chn.snapNext = none) (hbusy : getB s F.SNAP_BUSY = false) (hdma : dmaRuns s = true)
    (hsize : s.st.small = false) : snapIn p s = snapInData p.payload (bitOf p.flags.toNat 1) (snapInStart s) := by
  refine (if_pos harg).trans ?_
  rw [show onlyIf s.chn.snapNext.isSome snapInFail s = s from if_neg (by simp [hnone])]
  exact if_neg (by simp [hbusy, hdma, hsize])

/-- The store takes a packet's payload, its block erased first where the payload begins it. -/
def storeTaken (p : Packet) (s : State) : State :=
  let u := setB (if getB s (F.DMA_BUSY 3) then s else storeWant s 7) (F.DMA_BUSY 3) true
  let v := if p.arg.toNat % 65536 = 0 then setCells u (flashErase s.st.cells p.arg.toNat 0x10000) else u
  setCells v (flashProgram v.st.cells p.arg.toNat p.payload)

theorem storeIn_of_accepted (halign : p.arg.toNat % 256 = 0) (hdma : dmaRuns s = true)
    (hacc : storeAccepts s p.arg.toNat p.payload.length = true) : storeIn p s = storeTaken p s := by
  refine (if_neg (by simp [halign, hdma, hacc])).trans ?_
  unfold storeTaken
  cases getB s (F.DMA_BUSY 3) <;> rfl

theorem storeTaken_spec (p : Packet) (s : State) :
    getB (storeTaken p s) (F.DMA_BUSY 3) = true ∧ fieldsKept [F.DMA_BUSY 3] s (storeTaken p s) ∧
      (storeTaken p s).st.cells =
        flashProgram (if p.arg.toNat % 65536 = 0 then flashErase s.st.cells p.arg.toNat 0x10000 else s.st.cells) p.arg.toNat p.payload := by
  obtain ⟨w, hw⟩ : ∃ w, w = if getB s (F.DMA_BUSY 3) then s else storeWant s 7 := ⟨_, rfl⟩
  have hregs : w.regs = s.regs := by rw [hw]; split <;> rfl
  have hcells : w.st.cells = s.st.cells := by rw [hw]; split <;> rfl
  have htaken : (storeTaken p s).regs = (setB w (F.DMA_BUSY 3) true).regs := by
    rw [storeTaken, ← hw]
    split <;> rfl
  refine ⟨?_, ?_, ?_⟩
  · rw [getB, getF_of_regs htaken]
    exact getB_setB_self w (F.DMA_BUSY 3) true Nat.one_ne_zero
  · exact fieldsKept_of_regs htaken ((fieldsKept_setB (by simp)).2 (fieldsKept_of_regs hregs fieldsKept_refl))
  · rw [storeTaken, ← hw]
    split
    · rfl
    · exact congrArg (flashProgram · p.arg.toNat p.payload) hcells

end

end Sys2Proof.Machine

namespace Sys2Proof.Certificates
open Sys2Proof Sys2Proof.Machine
open Sys2Proof.Safety (onlyFields fieldsKept)

/-- Settles O53: within its credit, each inbound stream hands its payload to the load, the snapshot or the store it belongs to, or says
why it does not. -/
theorem inboundStreamsFeedTheirTargets : Obligations.InboundStreamsFeedTheirTargets := by
  unfold Obligations.InboundStreamsFeedTheirTargets
  intro p s hhears hlen hseq
  refine ⟨fun k typ c hk hgood => ?_, fun hbad => congrArg Host.Outcome.next (inbound_of_bad_crc hhears hbad _)⟩
  have htaken : packetTaken p s = { s with chn := (packetTaken p s).chn } := rfl
  obtain ⟨honly, hinSeq, hused⟩ := streamTaken_spec k p s
  rcases hk with ⟨rfl, rfl, rfl⟩ | ⟨rfl, rfl, rfl⟩ | ⟨rfl, rfl, rfl⟩
  case inl =>
    refine ⟨fun hover => ⟨packetTaken p s, congrArg Host.Outcome.next (inStream_beyond hhears hlen hseq hgood hover _), htaken, rfl⟩,
      fun hroom => ⟨streamTaken 5 p s, honly, hinSeq, hused, fun _ hload hsrc hdisc => ?feeds, fun _ hload => ?noLoad,
        fun h => absurd h (by decide), fun h => absurd h (by decide), fun h => absurd h (by decide), fun h => absurd h (by decide)⟩⟩
    case feeds =>
      refine congrArg Host.Outcome.next ((inStream_within hhears hlen hseq hgood hroom _).trans ((if_pos ?_).trans (if_neg ?_)))
      · exact Bool.and_eq_true_iff.2 ⟨hload, beq_iff_eq.2 hsrc⟩
      · exact ne_true_of_eq_false hdisc
    case noLoad =>
      refine congrArg Host.Outcome.next ((inStream_within hhears hlen hseq hgood hroom _).trans (if_neg ?_))
      exact fun h => Bool.false_ne_true (hload.symm.trans (Bool.and_eq_true_iff.1 h).1)
  case inr.inl =>
    refine ⟨fun hover => ⟨packetTaken p s, congrArg Host.Outcome.next (inStream_beyond hhears hlen hseq hgood hover _), htaken, rfl⟩,
      fun hroom => ⟨streamTaken 6 p s, honly, hinSeq, hused, fun h => absurd h (by decide), fun h => absurd h (by decide),
        fun _ harg hnone hbad => ?fails, fun _ harg hnone hbusy hdma hsize => ?begins,
        fun h => absurd h (by decide), fun h => absurd h (by decide)⟩⟩
    case fails =>
      exact congrArg Host.Outcome.next ((inStream_within hhears hlen hseq hgood hroom _).trans (snapIn_of_unexpected harg hnone hbad))
    case begins =>
      exact congrArg Host.Outcome.next ((inStream_within hhears hlen hseq hgood hroom _).trans (snapIn_of_first harg hnone hbusy hdma hsize))
  case inr.inr =>
    refine ⟨fun hover => ⟨packetTaken p s, congrArg Host.Outcome.next (inStream_beyond hhears hlen hseq hgood hover _), htaken, rfl⟩,
      fun hroom => ⟨streamTaken 7 p s, honly, hinSeq, hused, fun h => absurd h (by decide), fun h => absurd h (by decide),
        fun h => absurd h (by decide), fun h => absurd h (by decide), fun _ hrefused => ?refused, fun _ halign hdma hacc => ?stored⟩⟩
    case refused =>
      refine congrArg Host.Outcome.next ((inStream_within hhears hlen hseq hgood hroom _).trans (if_pos ?_))
      rcases hrefused with h | h | h
      · exact .inl h
      · exact .inr (.inl (by rw [show dmaRuns (streamTaken 7 p s) = false from h]; rfl))
      · exact .inr (.inr (by rw [show storeAccepts (streamTaken 7 p s) p.arg.toNat p.payload.length = false from h]; rfl))
    case stored =>
      obtain ⟨hbusy, hkept, hcells⟩ := storeTaken_spec p (streamTaken 7 p s)
      exact ⟨_, congrArg Host.Outcome.next ((inStream_within hhears hlen hseq hgood hroom _).trans (storeIn_of_accepted halign hdma hacc)),
        hbusy, hkept, hcells⟩

end Sys2Proof.Certificates

/-! ### The steward's mailbox, DMA and self-test (15 R387, R388; 16 R391-R393) -/

namespace Sys2Proof.Machine
open Safety (fieldsKept onlyFields)

section
variable {s : State} {c : Nat}

/-! #### Mailbox and watchdog -/

/-- The steward's answer to a command of the mailbox, which ends with it. -/
def mboxAnswered (r0 r1 r2 r3 : Word) (res : Byte) (s : State) : State :=
  setFs s [(F.MBOX_RSP 0, r0.toNat), (F.MBOX_RSP 1, r1.toNat), (F.MBOX_RSP 2, r2.toNat), (F.MBOX_RSP 3, r3.toNat),
    (F.MBOX_RESULT, res.toNat), (F.MBOX_BUSY, 0)]

theorem mboxAnswered_spec (r0 r1 r2 r3 : Word) (res : Byte) (s : State) :
    let u := mboxAnswered r0 r1 r2 r3 res s
    getF u (F.MBOX_RSP 0) = r0.toNat ∧ getF u (F.MBOX_RSP 1) = r1.toNat ∧ getF u (F.MBOX_RSP 2) = r2.toNat ∧
      getF u (F.MBOX_RSP 3) = r3.toNat ∧ getF u F.MBOX_RESULT = res.toNat ∧ getB u F.MBOX_BUSY = false ∧
      onlyFields [F.MBOX_RSP 0, F.MBOX_RSP 1, F.MBOX_RSP 2, F.MBOX_RSP 3, F.MBOX_RESULT, F.MBOX_BUSY] s u := by
  refine ⟨?_, ?_, ?_, ?_, ?_, getB_setF_zero _ F.MBOX_BUSY, onlyFields_setFs (by simp) onlyFields_refl⟩
  · simp (disch := decide) only [mboxAnswered, setFs_cons, setFs_nil, getF_setF_ne, getF_setF_self]
    exact Nat.mod_eq_of_lt r0.isLt
  · simp (disch := decide) only [mboxAnswered, setFs_cons, setFs_nil, getF_setF_ne, getF_setF_self]
    exact Nat.mod_eq_of_lt r1.isLt
  · simp (disch := decide) only [mboxAnswered, setFs_cons, setFs_nil, getF_setF_ne, getF_setF_self]
    exact Nat.mod_eq_of_lt r2.isLt
  · simp (disch := decide) only [mboxAnswered, setFs_cons, setFs_nil, getF_setF_ne, getF_setF_self]
    exact Nat.mod_eq_of_lt r3.isLt
  · simp (disch := decide) only [mboxAnswered, setFs_cons, setFs_nil, getF_setF_ne, getF_setF_self]
    exact Nat.mod_eq_of_lt res.isLt

theorem stwRestart_kept (s : State) : fieldsKept [F.MBOX_BUSY, F.MBOX_RESULT] s (stwRestart s) := by
  unfold stwRestart
  split
  · exact fieldsKept_of_regs (t := setFs s [(F.MBOX_BUSY, 0), (F.MBOX_RESULT, 0xFF)]) rfl (fieldsKept_setFs (by simp) fieldsKept_refl)
  · exact fun _ _ => rfl

theorem stwRestart_stw (s : State) : (stwRestart s).stw = { s.stw with running := false, restart := !s.stw.held, halted := none } := by
  unfold stwRestart
  split <;> rfl

/-- A restart with the data memory re-initialised leaves no poison of it. -/
theorem stwReinit_spec (s : State) :
    (stwReinit s).stw = { s.stw with running := false, restart := !s.stw.held, halted := none } ∧
      memAt (stwReinit s) 8 = (memAt s 8).clean ∧ fieldsKept [F.MBOX_BUSY, F.MBOX_RESULT, F.POISONED 8] s (stwReinit s) :=
  ⟨stwRestart_stw s, memAt_setMem_self .., fieldsKept_trans (fieldsKept_mono (stwRestart_kept s) (by simp))
    (fieldsKept_mono (setMem_kept (stwRestart s) 8 _) (by simp))⟩

/-! #### Channels of the user -/

/-- What a channel's registers ask for. -/
def dmaAsked (s : State) (c : Nat) : DmaRun :=
  ⟨getF s (F.SRC_SPACE c), getF s (F.DST_SPACE c), getF s (F.DMA_SRC c), getF s (F.DMA_DST c), getF s (F.DMA_LEN c)⟩

theorem dmaStart_of_refused (hc : 4 ≤ c) (hon : isOn s 1 = true) (hidle : getB s (F.DMA_BUSY c) = false) (hstop : s.stw.dmaStop = false)
    (href : dmaRefused s c = true) : dmaStart c s = setF s (F.DMA_ERR c) 1 :=
  (if_neg (by simp [hon, hidle, hstop, hc])).trans (if_pos href)

/-- A channel runs, its transfer waiting for the store where it uses it. -/
def dmaStarted (c : Nat) (s : State) : State :=
  onlyIf (dmaAsked s c).usesStore (fun s => storeWant s 8)
    (setFs { s with stw := { s.stw with dma := tput s.stw.dma c (dmaAsked s c) } } [(F.DMA_BUSY c, 1), (F.DMA_ERR c, 0)])

theorem dmaStart_of_accepted (hc : 4 ≤ c) (hon : isOn s 1 = true) (hidle : getB s (F.DMA_BUSY c) = false) (hstop : s.stw.dmaStop = false)
    (href : dmaRefused s c = false) : dmaStart c s = dmaStarted c s :=
  (if_neg (by simp [hon, hidle, hstop, hc])).trans (if_neg (ne_true_of_eq_false href))

theorem dmaStarted_spec (c : Nat) (s : State) :
    getB (dmaStarted c s) (F.DMA_BUSY c) = true ∧ getF (dmaStarted c s) (F.DMA_ERR c) = 0 ∧
      tfind (dmaStarted c s).stw.dma c = some (dmaAsked s c) ∧ fieldsKept [F.DMA_BUSY c, F.DMA_ERR c] s (dmaStarted c s) := by
  have hregs : (dmaStarted c s).regs = (setFs s [(F.DMA_BUSY c, 1), (F.DMA_ERR c, 0)]).regs := by
    unfold dmaStarted onlyIf
    split <;> rfl
  have hstw : (dmaStarted c s).stw = { s.stw with dma := tput s.stw.dma c (dmaAsked s c) } := by
    unfold dmaStarted onlyIf
    split <;> rfl
  refine ⟨?_, ?_, by rw [hstw]; exact tfind_tput_self .., fieldsKept_of_regs hregs (fieldsKept_setFs (by simp) fieldsKept_refl)⟩
  · rw [getB, getF_of_regs hregs, setFs_cons, setFs_cons, setFs_nil, getF_setF_ne _ _ (by simp only [Fld.key, F.DMA_BUSY, F.DMA_ERR]; omega)]
    exact getB_setF_one s (F.DMA_BUSY c) Nat.one_ne_zero
  · rw [getF_of_regs hregs, setFs_cons, setFs_cons, setFs_nil, getF_setF_self]
    exact Nat.zero_mod _

/-! #### A copy from the store to capture memory -/

/-- One word of the copy, which a word outside capture memory is not. -/
theorem dmaWord_of_capture {r : DmaRun} (hdst : r.dstSpace = 2) (hsrc : r.srcSpace = 0) (s : State) (i : Nat) :
    dmaWord r s i =
      if spaceWords ≤ r.dst + i then s
      else unpoison 1 [r.dst + i]
        { s with chn := { s.chn with capMem := tset s.chn.capMem (r.dst + i) (ofLe (flashRead s.st.cells (r.src + 8 * i) 8) % 2 ^ 56) 0 } } := by
  unfold dmaWord dmaWrite dmaRead dmaDrew wordAddr onlyIf
  simp only [hdst, hsrc, OfNat.ofNat_ne_zero, if_false, if_true, bne_self_eq_false, Bool.false_and, Bool.false_eq_true]
  rfl

/-- What the first `n` words of the copy leave of a state. -/
structure CapCopied (r : DmaRun) (n : Nat) (s u : State) : Prop where
  only : u = { s with regs := u.regs, prot := u.prot, chn := { s.chn with capMem := u.chn.capMem } }
  kept : fieldsKept [F.POISONED 1] s u
  word : ∀ i, i < n → r.dst + i < spaceWords → tget u.chn.capMem (r.dst + i) 0 = ofLe (flashRead s.st.cells (r.src + 8 * i) 8) % 2 ^ 56
  rest : ∀ a, a < r.dst ∨ r.dst + n ≤ a → tget u.chn.capMem a 0 = tget s.chn.capMem a 0

theorem capCopied_zero (r : DmaRun) (s : State) : CapCopied r 0 s s :=
  ⟨rfl, fieldsKept_refl, fun _ h => absurd h (Nat.not_lt_zero _), fun _ _ => rfl⟩

theorem capCopied_succ {r : DmaRun} (hdst : r.dstSpace = 2) (hsrc : r.srcSpace = 0) {n : Nat} {u : State} (h : CapCopied r n s u) :
    CapCopied r (n + 1) s (dmaWord r u n) := by
  obtain ⟨honly, hkept, hword, hrest⟩ := h
  rw [dmaWord_of_capture hdst hsrc]
  have hcells : u.st.cells = s.st.cells := by rw [honly]
  rw [hcells]
  split
  case isTrue hout =>
    refine ⟨honly, hkept, fun i hi hin => hword i (by omega) hin, fun a ha => hrest a (by omega)⟩
  case isFalse hin =>
    obtain ⟨v, hv⟩ : ∃ v : State, v = { u with chn := { u.chn with
      capMem := tset u.chn.capMem (r.dst + n) (ofLe (flashRead s.st.cells (r.src + 8 * n) 8) % 2 ^ 56) 0 } } := ⟨_, rfl⟩
    have hmem : (unpoison 1 [r.dst + n] v).chn.capMem =
        tset u.chn.capMem (r.dst + n) (ofLe (flashRead s.st.cells (r.src + 8 * n) 8) % 2 ^ 56) 0 := by
      rw [unpoison_only, hv]
    rw [← hv]
    refine ⟨?_, ?_, fun i hi hin' => ?_, fun a ha => ?_⟩
    · rw [unpoison_only, hv]
      generalize tset u.chn.capMem _ _ 0 = m
      rw [honly]
    · exact fieldsKept_trans hkept (fieldsKept_trans (fieldsKept_of_regs (by rw [hv]) fieldsKept_refl) (unpoison_kept 1 _ v))
    · rw [hmem]
      by_cases h : i = n
      · rw [h]
        exact tget_tset_self ..
      · rw [tget_tset_ne _ _ _ _ (by omega)]
        exact hword i (by omega) hin'
    · rw [hmem, tget_tset_ne _ _ _ _ (by omega)]
      exact hrest a (by omega)

theorem capCopied_dmaCopy {r : DmaRun} (hdst : r.dstSpace = 2) (hsrc : r.srcSpace = 0) (n : Nat) (s : State) :
    CapCopied r n s (dmaCopy r n s) := by
  rw [dmaCopy, if_neg (by rw [hdst]; decide)]
  induction n with
  | zero => exact capCopied_zero r s
  | succ n ih =>
    rw [List.range_succ, each, List.foldl_append]
    exact capCopied_succ hdst hsrc ih

/-- A source that is the store has no word that a copy could not use. -/
theorem meets_of_store {r : DmaRun} (hsrc : r.srcSpace = 0) (o : DmaOutcome) (s : State) : r.meets o s = o := by
  have hnone : (List.range (r.len / 8)).find? (fun i => spaceBad s r.srcSpace (r.src + i)) = none :=
    List.find?_eq_none.2 fun i _ => by simp [spaceBad, hsrc]
  unfold DmaRun.meets
  rw [hnone]
  cases o <;> rfl

/-- A copy of a channel is over: the channel is free, and so is the store that it used. -/
def dmaFreed (c : Nat) (s : State) : State :=
  setB (storeDone { s with stw := { s.stw with dma := tdel s.stw.dma c } } 8) (F.DMA_BUSY c) false

theorem userDone_of_copied {r : DmaRun} (hrun : tfind s.stw.dma c = some r) (hdst : r.dstSpace = 2) (hsrc : r.srcSpace = 0) :
    userDone c .done s = detect .dma c 0 (dmaFreed c (dmaCopy r (r.len / 8) s)) := by
  have hget : tget s.stw.dma c DmaRun.blank = r := by rw [tget, hrun]; rfl
  have huses : r.usesStore = true := by rw [DmaRun.usesStore, hsrc]; rfl
  unfold userDone
  simp only [hget, meets_of_store hsrc, hdst, huses]
  exact if_neg (by simp)

/-! #### Self-test -/

/-- Every domain but MGMT has a number other than 1. -/
theorem dom_num_ne_one {d : Dom} (h : d ≠ .mgmt) : d.num ≠ 1 := by
  intro hone
  cases d
  case mgmt => exact h rfl
  all_goals exact absurd hone (by decide)

/-- NEXT_SLICE names the next slice. -/
def sliceCounted (d : Nat) (s : State) : State := addF s (F.NEXT_SLICE d) 1

theorem getF_sliceCounted (d : Nat) (s : State) : getF (sliceCounted d s) (F.NEXT_SLICE d) = (getF s (F.NEXT_SLICE d) + 1) % 2 ^ 16 :=
  getF_setF_self ..

theorem bistSlice_of_clean {d : Nat} {r : SliceReport} (hd : d ≠ 1) (hlate : r.late = false) (hfails : r.fails = []) (hlogic : r.logicBad = false)
    (hslice : getF s (F.NEXT_SLICE d) ≠ 0) :
    bistSlice d r s =
      if r.last then bistComplete d s
      else if wakeHeld (sliceCounted d s) d || decide (getF (sliceCounted d s) F.BIST_LIMIT ≤ r.elapsed) then bistStop d (sliceCounted d s)
      else sliceCounted d s := by
  unfold bistSlice onlyIf
  simp only [hlate, hfails, hlogic, List.foldl_nil, Bool.false_eq_true, if_false, beq_iff_eq, hslice, Bool.and_eq_true, hd, false_and]
  rfl

theorem wakeHeld_sliceCounted (d : Nat) (s : State) : wakeHeld (sliceCounted d s) d = wakeHeld s d := by
  unfold wakeHeld sliceCounted addF
  rw [getF_setF_ne _ _ (by simp only [Fld.key, F.WAKE_PEND, F.NEXT_SLICE]; omega)]

theorem limit_sliceCounted (d : Nat) (s : State) : getF (sliceCounted d s) F.BIST_LIMIT = getF s F.BIST_LIMIT :=
  getF_setF_ne _ _ (by simp only [Fld.key, F.BIST_LIMIT, F.NEXT_SLICE]; omega)

/-- The last slice is over, up to its event. -/
def bistEnded (d : Nat) (s : State) : State :=
  setFs { s with bist := ⟨s.bist.failed.filter (· != d)⟩ }
    [(F.BIST_RESULT d, if s.bist.failed.contains d then 2 else 1), (F.NEXT_SLICE d, 0), (F.COMPLETE_TIME d, mainTime s)]

theorem bistComplete_eq (d : Nat) (s : State) : bistComplete d s = setDom (detect .sec 10 d (bistEnded d s)) d (.entering 4 .orderly) := rfl

theorem bistEnded_spec (d : Nat) (s : State) :
    getF (bistEnded d s) (F.NEXT_SLICE d) = 0 ∧ getF (bistEnded d s) (F.BIST_RESULT d) = (if d ∈ s.bist.failed then 2 else 1) ∧
      d ∉ (bistEnded d s).bist.failed ∧ fieldsKept [F.NEXT_SLICE d, F.BIST_RESULT d, F.COMPLETE_TIME d] s (bistEnded d s) := by
  refine ⟨?_, ?_, ?_, fieldsKept_setFs (by simp) fun _ _ => rfl⟩
  · simp (disch := simp only [Fld.key, F.BIST_RESULT, F.NEXT_SLICE, F.COMPLETE_TIME]; omega) only [bistEnded, setFs_cons, setFs_nil,
      getF_setF_ne, getF_setF_self]
    exact Nat.zero_mod _
  · simp (disch := simp only [Fld.key, F.BIST_RESULT, F.NEXT_SLICE, F.COMPLETE_TIME]; omega) only [bistEnded, setFs_cons, setFs_nil,
      getF_setF_ne, getF_setF_self, List.contains_eq_mem, decide_eq_true_eq, F.BIST_RESULT_width]
    split <;> rfl
  · rw [bistEnded, setFs_bist]
    simp

/-- A test that stops, up to its event. -/
theorem bistStop_eq (d : Nat) (s : State) :
    bistStop d s = setDom (detect .sec 11 d (setF s (F.BIST_RESULT d) 3)) d (.entering 4 .orderly) := rfl

theorem getF_bistStop (d : Nat) (s : State) : getF (setF s (F.BIST_RESULT d) 3) (F.BIST_RESULT d) = 3 :=
  getF_setF_of_lt s (by rw [F.BIST_RESULT_width]; decide)

theorem exec_bistSliceEnd {d : Dom} {k : EntryKind} (hdom : domAt s d.num = .entering 3 k) (r : SliceReport) :
    exec (.bistSliceEnd d r) s = .next (bistSlice d.num r s) := by
  refine congrArg Host.Outcome.next ?_
  rw [hdom]
  rfl

theorem exec_bistSliceCut {d : Dom} {k : EntryKind} (hdom : domAt s d.num = .entering 3 k) :
    exec (.bistSliceCut d) s = .next (if wakeHeld s d.num then bistStop d.num s else s) := by
  refine congrArg Host.Outcome.next ?_
  rw [hdom]
  rfl

end

end Sys2Proof.Machine

namespace Sys2Proof.Certificates
open Sys2Proof Sys2Proof.Machine
open Sys2Proof.Safety (onlyFields fieldsKept)

/-- Settles O54: a command of the mailbox, a transfer of the user and a slice of self-test each begin and end in the one way that their
rule names. -/
theorem stewardDmaAndSelfTestAnswer : Obligations.StewardDmaAndSelfTestAnswer := by
  unfold Obligations.StewardDmaAndSelfTestAnswer
  refine ⟨fun s hon => ⟨fun hidle => ?doorbell, fun hbusy => ?overrun, fun r0 r1 r2 r3 res => ⟨fun hrun hbusy => ?response, fun h => ?noResponse⟩,
      fun hrun => ?watchdog, fun hrun => ?noWatchdog, fun c hc hidle hstop => ⟨fun href => ?refused, fun href => ?accepted⟩,
      fun c h => congrArg Host.Outcome.next (if_pos (h.imp_right fun h => .inr (.inl h))), fun c r hc hbusy hstop hrun hdst hsrc hactive => ?copied,
      fun c o hc hidle => ?noCopy⟩,
    fun d k s hd hdom => ⟨fun r hmgmt hlate hfails hlogic hslice => ⟨fun hmore hheld hlimit => ?next, fun hmore hlimit => ?limit, fun hlast => ?last⟩,
      fun hheld => ?cut, fun hheld => ?noCut, fun e r hon => ?outside⟩⟩
  case doorbell =>
    exact ⟨_, congrArg Host.Outcome.next ((if_neg (by simp [hon])).trans (if_neg (by simp [hidle]))),
      getB_setB_self s F.MBOX_BUSY true Nat.one_ne_zero, onlyFields_setB (by simp)⟩
  case overrun => exact congrArg Host.Outcome.next ((if_neg (by simp [hon])).trans (if_pos hbusy))
  case response =>
    exact ⟨mboxAnswered r0 r1 r2 r3 res s, congrArg Host.Outcome.next (if_pos (by simp [stwRuns, hon, hrun, hbusy])),
      mboxAnswered_spec r0 r1 r2 r3 res s⟩
  case noResponse => exact congrArg Host.Outcome.next (if_neg (by rcases h with h | h <;> simp [stwRuns, h]))
  case watchdog =>
    obtain ⟨hstw, hmem, hkept⟩ := stwReinit_spec s
    exact ⟨stwReinit s, congrArg Host.Outcome.next (if_pos (by simp [stwRuns, hon, hrun])), by rw [hstw], by rw [hstw], by rw [hmem]; rfl,
      by rw [hmem]; rfl, hkept⟩
  case noWatchdog => exact congrArg Host.Outcome.next (if_neg (by simp [stwRuns, hrun]))
  case refused =>
    exact ⟨_, congrArg Host.Outcome.next (dmaStart_of_refused hc hon hidle hstop href), getF_setF_of_lt s (by rw [F.DMA_ERR_width]; decide),
      onlyFields_setF (by simp)⟩
  case accepted =>
    exact ⟨dmaStarted c.val s, congrArg Host.Outcome.next (dmaStart_of_accepted hc hon hidle hstop href), dmaStarted_spec c.val s⟩
  case copied =>
    obtain ⟨honly, hkept, hword, hrest⟩ := capCopied_dmaCopy hdst hsrc (r.len / 8) s
    obtain ⟨u, hu⟩ : ∃ u, u = dmaCopy r (r.len / 8) s := ⟨_, rfl⟩
    rw [← hu] at honly hkept hword hrest
    have hexec : exec (.dmaDone c .done) s = .next (detect .dma c.val 0 (dmaFreed c.val u)) := by
      rw [hu]
      refine congrArg Host.Outcome.next ((if_neg (by simp [hon, hstop])).trans ?_)
      refine (if_neg (by omega)).trans ((if_neg (by omega)).trans ((if_neg (by omega)).trans ((if_neg (by omega)).trans ((if_pos hbusy).trans ?_))))
      exact userDone_of_copied hrun hdst hsrc
    have hactiveU : getF u F.STORE_ACTIVE = 8 := (hkept _ (by decide)).trans hactive
    have hfreed : dmaFreed c.val u = setB (setF { u with stw := { u.stw with dma := tdel u.stw.dma c.val } } F.STORE_ACTIVE 0) (F.DMA_BUSY c.val) false := by
      rw [dmaFreed, storeDone]
      exact congrArg (setB · (F.DMA_BUSY c.val) false) (if_pos hactiveU)
    rw [hfreed] at hexec
    refine ⟨_, hexec, getB_setB_self _ (F.DMA_BUSY c.val) false Nat.one_ne_zero, tfind_tdel_self .., ?_, ?_, hword, hrest⟩
    · rw [getF_setB_ne _ false (by simp only [Fld.key, F.STORE_ACTIVE, F.DMA_BUSY]; omega), getF_setF_self]
      rfl
    · show u.st.cells = s.st.cells
      rw [honly]
  case noCopy =>
    refine congrArg Host.Outcome.next ?_
    rw [dmaDone]
    split
    · rfl
    · exact (if_neg (by omega)).trans ((if_neg (by omega)).trans ((if_neg (by omega)).trans ((if_neg (by omega)).trans (if_neg (by simp [hidle])))))
  case next =>
    have hcount := getF_sliceCounted d.num s
    refine ⟨sliceCounted d.num s, (exec_bistSliceEnd hdom r).trans (congrArg Host.Outcome.next ?_), hcount, onlyFields_setF (by simp)⟩
    rw [bistSlice_of_clean (dom_num_ne_one hmgmt) hlate hfails hlogic hslice, if_neg (by simp [hmore]), wakeHeld_sliceCounted,
      limit_sliceCounted, if_neg (by simp [hheld, hlimit])]
  case limit =>
    have hcount := getF_sliceCounted d.num s
    refine ⟨setF (sliceCounted d.num s) (F.BIST_RESULT d.num) 3, (exec_bistSliceEnd hdom r).trans (congrArg Host.Outcome.next ?_), ?_,
      getF_bistStop d.num _, onlyFields_trans (onlyFields_setF (f := F.NEXT_SLICE d.num) (by simp)) (onlyFields_setF (by simp))⟩
    · rw [bistSlice_of_clean (dom_num_ne_one hmgmt) hlate hfails hlogic hslice, if_neg (by simp [hmore]), limit_sliceCounted,
        if_pos (by simp [hlimit]), bistStop_eq]
    · rw [getF_setF_ne _ 3 (by simp only [Fld.key, F.NEXT_SLICE, F.BIST_RESULT]; omega)]
      exact hcount
  case last =>
    refine ⟨bistEnded d.num s, (exec_bistSliceEnd hdom r).trans (congrArg Host.Outcome.next ?_), bistEnded_spec d.num s⟩
    rw [bistSlice_of_clean (dom_num_ne_one hmgmt) hlate hfails hlogic hslice, if_pos hlast, bistComplete_eq]
  case cut =>
    exact ⟨_, (exec_bistSliceCut hdom).trans (congrArg Host.Outcome.next (if_pos hheld)), getF_bistStop d.num s, onlyFields_setF (by simp)⟩
  case noCut => exact (exec_bistSliceCut hdom).trans (congrArg Host.Outcome.next (if_neg (by simp [hheld])))
  case outside =>
    refine ⟨congrArg Host.Outcome.next ?_, congrArg Host.Outcome.next ?_⟩
    · rw [hon]
    · rw [hon]

end Sys2Proof.Certificates

/-! ### Field access and the fuses (16 R396-R402) -/

namespace Sys2Proof.Machine
open Safety (fieldsKept onlyFields)

section
variable {s : State}

/-! #### The challenge -/

/-- The words of the challenge's register are written. -/
def challengeSet (v : Nat → Nat) (s : State) : State := each (List.range 8) (fun s i => setF s (F.CHALLENGE i) (v i)) s

theorem getF_challengeSet (v : Nat → Nat) {i : Nat} (hi : i < 8) (s : State) :
    getF (challengeSet v s) (F.CHALLENGE i) = v i % 2 ^ 32 :=
  rel_each_of_mem (G := F.CHALLENGE) (Q := fun _ => True) (R := fun i _ b => b = v i % 2 ^ 32)
    (fun _ _ h => by simp only [Fld.key, F.CHALLENGE]; omega) (fun s _ _ h => getF_setF_ne s _ h) (fun _ _ _ => trivial)
    (fun s _ _ => getF_setF_self s _ _) List.nodup_range trivial (List.mem_range.2 hi)

theorem challengeSet_onlyFields (v : Nat → Nat) (s : State) : onlyFields ((List.range 8).map F.CHALLENGE) s (challengeSet v s) :=
  onlyFields_each (fun _ _ hi => onlyFields_setF (List.mem_map_of_mem hi)) onlyFields_refl

/-- A field that is no word of the challenge's register. -/
theorem getF_challengeSet_ne (v : Nat → Nat) (s : State) {f : Fld} (h : ∀ i, i < 8 → f.key ≠ (F.CHALLENGE i).key) :
    getF (challengeSet v s) f = getF s f := by
  obtain ⟨hkept, -⟩ := challengeSet_onlyFields v s
  refine hkept f fun g hg => ?_
  obtain ⟨i, hi, rfl⟩ := List.mem_map.1 hg
  exact h i (List.mem_range.1 hi)

theorem challengeSet_eq (v : Nat → Nat) (s : State) : challengeSet v s = { s with regs := (challengeSet v s).regs } :=
  (challengeSet_onlyFields v s).2

theorem challengeDrop_eq (s : State) : challengeDrop s = challengeSet (fun _ => 0) { s with sec := { s.sec with challenge := none } } := rfl

theorem challengeDrop_sec (s : State) : (challengeDrop s).sec = { s.sec with challenge := none } := by
  rw [challengeDrop_eq, challengeSet_eq]

theorem getF_challengeDrop_challenge {i : Nat} (hi : i < 8) (s : State) : getF (challengeDrop s) (F.CHALLENGE i) = 0 :=
  (getF_challengeSet (fun _ => 0) hi _).trans (Nat.zero_mod _)

theorem getF_challengeDrop_ne (s : State) {f : Fld} (h : ∀ i, i < 8 → f.key ≠ (F.CHALLENGE i).key) : getF (challengeDrop s) f = getF s f :=
  getF_challengeSet_ne _ { s with sec := { s.sec with challenge := none } } h

/-- A request makes a challenge of the bits of the entropy source for the scopes asked. -/
def challenged (entropy : Nat) (s : State) : State :=
  setFs (challengeSet (fun i => ofBe (((sha256 (leBytes 32 entropy)).drop (4 * i)).take 4))
    { s with sec := { s.sec with challenge := some (getF s F.ACC_SCOPE) } }) [(F.ACC_STATE, 1), (F.ACC_RESULT, 0)]

theorem accReq_of_free (entropy : Nat) (hon : isOn s 1 = true) (hlock : getF s F.ACC_STATE ≠ 3) (hid : fuseBad s 0 = false)
    (hkey : fuseBad s 1 = false) : accReq entropy s = challenged entropy s :=
  (if_neg (by simp [hon])).trans ((if_neg hlock).trans (if_neg (by simp [hid, hkey])))

theorem challenged_spec (entropy : Nat) (s : State) :
    let t := challenged entropy s
    getF t F.ACC_STATE = 1 ∧ getF t F.ACC_RESULT = 0 ∧ t.sec.challenge = some (getF s F.ACC_SCOPE) ∧
      (∀ i, i < 8 → getF t (F.CHALLENGE i) = ofBe (((sha256 (leBytes 32 entropy)).drop (4 * i)).take 4) % 2 ^ 32) ∧
      fieldsKept (F.ACC_STATE :: F.ACC_RESULT :: (List.range 8).map F.CHALLENGE) s t ∧
      t = { s with regs := t.regs, sec := { s.sec with challenge := t.sec.challenge } } := by
  obtain ⟨v, hv⟩ : ∃ v : Nat → Nat, v = fun i => ofBe (((sha256 (leBytes 32 entropy)).drop (4 * i)).take 4) := ⟨_, rfl⟩
  obtain ⟨w, hw⟩ : ∃ w : State, w = { s with sec := { s.sec with challenge := some (getF s F.ACC_SCOPE) } } := ⟨_, rfl⟩
  have ht : challenged entropy s = setFs (challengeSet v w) [(F.ACC_STATE, 1), (F.ACC_RESULT, 0)] := by rw [hv, hw, challenged]
  obtain ⟨hkept, honly⟩ := challengeSet_onlyFields v w
  refine ⟨?_, ?_, ?_, fun i hi => ?_, ?_, ?_⟩
  · rw [ht]
    simp (disch := decide) only [setFs_cons, setFs_nil, getF_setF_ne, getF_setF_self]
    rfl
  · rw [ht, setFs_cons, setFs_cons, setFs_nil, getF_setF_self]
    exact Nat.zero_mod _
  · rw [ht, setFs_sec, honly, hw]
  · rw [ht, setFs_cons, setFs_cons, setFs_nil, getF_setF_ne _ _ (by simp only [Fld.key, F.CHALLENGE, F.ACC_RESULT]; omega),
      getF_setF_ne _ _ (by simp only [Fld.key, F.CHALLENGE, F.ACC_STATE]; omega), getF_challengeSet v hi, hv]
  · rw [ht]
    refine fieldsKept_setFs (by simp) ?_
    have hregs : w.regs = s.regs := by rw [hw]
    exact fieldsKept_trans (fieldsKept_of_regs hregs fieldsKept_refl) (fieldsKept_mono hkept fun f hf => List.mem_cons_of_mem _ (List.mem_cons_of_mem _ hf))
  · rw [ht, setFs_cons, setFs_cons, setFs_nil, honly, hw]
    rfl

/-! #### A submission -/

/-- A submission clears the response, the copy of the key and the challenge. -/
def submitted (s : State) : State := challengeDrop { s with sec := { s.sec with keyCopy := 0, respBuf := 0 } }

theorem submitted_sec (s : State) : (submitted s).sec = { s.sec with keyCopy := 0, respBuf := 0, challenge := none } :=
  challengeDrop_sec _

theorem accSubmit_of_none (hon : isOn s 1 = true) (hnone : s.sec.challenge = none) : accSubmit s = setF s F.ACC_RESULT 2 := by
  refine (if_neg (by simp [hon])).trans ?_
  rw [hnone]

theorem accSubmit_of_challenge {scope : Nat} (hon : isOn s 1 = true) (hch : s.sec.challenge = some scope) (hid : fuseBad s 0 = false)
    (hkey : fuseBad s 1 = false) :
    accSubmit s = if accResponse s == accExpected s scope then accOpen scope (submitted s) else accMismatch (submitted s) := by
  refine (if_neg (by simp [hon])).trans ?_
  rw [hch]
  exact if_neg (by simp [hid, hkey])

/-- The scopes that a right response opens. -/
def opened (scope : Nat) (s : State) : State :=
  let s := { s with sec := { s.sec with opened := s.time.sinceRst } }
  setFs s [(F.ACC_STATE, 2), (F.OPEN_SCOPE, scope), (F.ACC_REMAIN, getF s F.ACC_LIFE), (F.ACC_RESULT, 0)]

theorem accOpen_eq (scope : Nat) (s : State) : accOpen scope s = detect .sec 17 0 (opened scope s) := rfl

theorem opened_spec (scope : Nat) (s : State) :
    let u := opened scope s
    getF u F.ACC_STATE = 2 ∧ getF u F.OPEN_SCOPE = scope % 8 ∧ u.sec.challenge = s.sec.challenge ∧ u.sec.keyCopy = s.sec.keyCopy ∧
      u.sec.respBuf = s.sec.respBuf ∧ (∀ i, i < 8 → getF u (F.CHALLENGE i) = getF s (F.CHALLENGE i)) := by
  refine ⟨?_, ?_, by rw [opened, setFs_sec], by rw [opened, setFs_sec], by rw [opened, setFs_sec], fun i hi => ?_⟩
  · simp (disch := decide) only [opened, setFs_cons, setFs_nil, getF_setF_ne, getF_setF_self]
    rfl
  · simp (disch := decide) only [opened, setFs_cons, setFs_nil, getF_setF_ne, getF_setF_self]
    rfl
  · rw [opened, getF_setFs_ne]
    · rfl
    · simp only [List.mem_cons, List.not_mem_nil, or_false, forall_eq_or_imp, forall_eq, Fld.key, F.CHALLENGE, F.ACC_STATE, F.OPEN_SCOPE,
        F.ACC_REMAIN, F.ACC_RESULT]
      omega

/-- The mismatch is counted, and the eighth locks field access. -/
def mismatched (n : Nat) (s : State) : State :=
  setFs s [(F.ACC_STATE, if n = 8 then 3 else 0), (F.OPEN_SCOPE, 0), (F.ACC_FAILS, n), (F.ACC_RESULT, 1)]

theorem mismatched_spec {n : Nat} (hn : n ≤ 8) (s : State) :
    let u := mismatched n s
    getF u F.ACC_STATE = (if n = 8 then 3 else 0) ∧ getF u F.OPEN_SCOPE = 0 ∧ getF u F.ACC_FAILS = n ∧ u.sec = s.sec := by
  refine ⟨?_, ?_, ?_, by rw [mismatched, setFs_sec]⟩
  · simp (disch := decide) only [mismatched, setFs_cons, setFs_nil, getF_setF_ne, getF_setF_self]
    split <;> rfl
  · simp (disch := decide) only [mismatched, setFs_cons, setFs_nil, getF_setF_ne, getF_setF_self]
    rfl
  · simp (disch := decide) only [mismatched, setFs_cons, setFs_nil, getF_setF_ne, getF_setF_self]
    exact Nat.mod_eq_of_lt (lt_of_le_of_lt hn (by decide))

theorem accMismatch_of_few {n : Nat} (hn : getF s F.ACC_FAILS + 1 = n) (hlt : n < 8) : accMismatch s = detect .sec 15 0 (mismatched n s) := by
  unfold accMismatch
  rw [hn, Nat.min_eq_right hlt.le]
  exact if_neg (by simp only [beq_iff_eq]; omega)

theorem accMismatch_of_eighth (h : 7 ≤ getF s F.ACC_FAILS) : accMismatch s = detect .sec 16 0 (detect .sec 15 0 (mismatched 8 s)) := by
  unfold accMismatch
  rw [Nat.min_eq_left (Nat.succ_le_succ h)]
  rfl

/-! #### Closing and expiry -/

/-- What is open closes, with its challenge. -/
def closed (s : State) : State :=
  setFs (onlyIf s.sec.challenge.isSome challengeDrop s) [(F.ACC_STATE, 0), (F.OPEN_SCOPE, 0), (F.ACC_REMAIN, 0)]

theorem accClose_of_open (h : accessOpen s = true) : accClose s = detect .sec 18 0 (closed s) := if_pos h

theorem closed_spec (s : State) :
    getF (closed s) F.ACC_STATE = 0 ∧ getF (closed s) F.OPEN_SCOPE = 0 ∧ getF (closed s) F.ACC_REMAIN = 0 ∧ (closed s).sec.challenge = none := by
  refine ⟨?_, ?_, ?_, ?_⟩
  · simp (disch := decide) only [closed, setFs_cons, setFs_nil, getF_setF_ne, getF_setF_self]
    rfl
  · simp (disch := decide) only [closed, setFs_cons, setFs_nil, getF_setF_ne, getF_setF_self]
    rfl
  · simp (disch := decide) only [closed, setFs_cons, setFs_nil, getF_setF_self]
    rfl
  · rw [closed, setFs_sec, onlyIf]
    split
    · rw [challengeDrop_sec]
    · next h => simpa using h

theorem challengeExpires_spec (s : State) :
    let t := challengeExpires s
    getF t F.ACC_RESULT = 3 ∧ t.sec.challenge = none ∧ getF t F.OPEN_SCOPE = getF s F.OPEN_SCOPE ∧ (∀ i, i < 8 → getF t (F.CHALLENGE i) = 0) := by
  refine ⟨?_, ?_, ?_, fun i hi => ?_⟩
  · rw [challengeExpires, setFs_cons, setFs_cons, setFs_nil, getF_setF_self]
    rfl
  · rw [challengeExpires, setFs_sec, challengeDrop_sec]
  · simp (disch := decide) only [challengeExpires, setFs_cons, setFs_nil, getF_setF_ne]
    exact getF_challengeDrop_ne s fun i hi => by simp only [Fld.key, F.OPEN_SCOPE, F.CHALLENGE]; omega
  · rw [challengeExpires, setFs_cons, setFs_cons, setFs_nil, getF_setF_ne _ _ (by simp only [Fld.key, F.CHALLENGE, F.ACC_RESULT]; omega),
      getF_setF_ne _ _ (by simp only [Fld.key, F.CHALLENGE, F.ACC_STATE]; omega)]
    exact getF_challengeDrop_challenge hi s

/-! #### Fuses -/

/-- A group as sensed. -/
def sensedAt (l : List FuseWord) (g : Nat) : FuseWord := l.getD g FuseWord.blank

/-- The groups that fail a check of R401. -/
def fuseBads (l : List FuseWord) (s : State) : List Nat :=
  (List.range 14).filter fun g => !fuseGood g (sensedAt l g) || sensedAt l g != fuseAt s g

/-- The array holds what was sensed, and INTEGRITY_OK whether every group passes. -/
def fuseSensed (l : List FuseWord) (s : State) : State :=
  setB { s with sec := { s.sec with fuses := (List.range 14).map (sensedAt l) } } F.INTEGRITY_OK (fuseBads l s).isEmpty

theorem fuseCheck_eq (l : List FuseWord) (s : State) : fuseCheck l s = settle (each (fuseBads l s) fuseFails (fuseSensed l s)) := rfl

theorem getB_fuseSensed (l : List FuseWord) (s : State) : getB (fuseSensed l s) F.INTEGRITY_OK = (fuseBads l s).isEmpty :=
  getB_setB_self _ F.INTEGRITY_OK _ Nat.one_ne_zero

theorem fuseBads_of_good {l : List FuseWord} (h : ∀ g, g < 14 → fuseGood g (sensedAt l g) = true ∧ sensedAt l g = fuseAt s g) :
    fuseBads l s = [] := by
  refine List.filter_eq_nil_iff.2 fun g hg => ?_
  obtain ⟨hgood, hsame⟩ := h g (List.mem_range.1 hg)
  rw [hgood, hsame, bne_self_eq_false]
  decide

theorem mem_fuseBads {l : List FuseWord} {g : Nat} (hg : g < 14) (h : fuseGood g (sensedAt l g) = false) : g ∈ fuseBads l s :=
  List.mem_filter.2 ⟨List.mem_range.2 hg, by simp [h]⟩

theorem progRefused_of_closed (h : bitOf (getF s F.OPEN_SCOPE) 1 = false) (g : Nat) : progRefused s g = some 1 := if_pos (by simp [h])

theorem prog_of_refused {code : Nat} (hidle : getB s F.FUSE_BUSY = false) (href : progRefused s (getF s F.FUSE_GROUP) = some code) :
    prog s = detect .sec 20 (getF s F.FUSE_GROUP) (setF s F.FUSE_RESULT code) := by
  refine (if_neg (by simp [hidle])).trans ?_
  rw [href]

/-- The word that PROG is to program into a group. -/
def progWord (s : State) (g : Nat) : FuseWord := ⟨true, fuseInput s g, fuseCrc g (fuseInput s g)⟩

/-- A programming is in progress. -/
def programming (s : State) : State :=
  setFs { s with sec := { s.sec with prog := some (getF s F.FUSE_GROUP, progWord s (getF s F.FUSE_GROUP)) } } [(F.FUSE_BUSY, 1), (F.FUSE_RESULT, 0)]

theorem prog_of_accepted (hidle : getB s F.FUSE_BUSY = false) (href : progRefused s (getF s F.FUSE_GROUP) = none) : prog s = programming s := by
  refine (if_neg (by simp [hidle])).trans ?_
  rw [href]
  rfl

theorem programming_spec (s : State) :
    getB (programming s) F.FUSE_BUSY = true ∧ getF (programming s) F.FUSE_RESULT = 0 ∧
      (programming s).sec = { s.sec with prog := some (getF s F.FUSE_GROUP, progWord s (getF s F.FUSE_GROUP)) } ∧
      fieldsKept [F.FUSE_BUSY, F.FUSE_RESULT] s (programming s) := by
  refine ⟨?_, ?_, setFs_sec .., fieldsKept_setFs (by simp) fun _ _ => rfl⟩
  · rw [programming, setFs_cons, setFs_cons, setFs_nil, getB_setF_ne _ 0 (by decide)]
    exact getB_setF_one _ F.FUSE_BUSY Nat.one_ne_zero
  · rw [programming, setFs_cons, setFs_cons, setFs_nil, getF_setF_self]
    rfl

/-- The programming of a group is over, and the array holds what was sensed. -/
def programmed (g : Nat) (x : FuseWord) (s : State) : State :=
  setB { s with sec := { s.sec with prog := none, fuses := s.sec.fuses.set g x } } F.FUSE_BUSY false

theorem progEnd_of_none (h : s.sec.prog = none) (x : FuseWord) : progEnd x s = s := by rw [progEnd, h]

/-- The group is in use as it was programmed. -/
def takenIntoUse (g : Nat) (f : FuseWord) (s : State) : State :=
  { programmed g f s with sec := { s.sec with prog := none, fuses := s.sec.fuses.set g f, shadow := s.sec.shadow.set g f } }

theorem getB_takenIntoUse (g : Nat) (f : FuseWord) (s : State) : getB (takenIntoUse g f s) F.FUSE_BUSY = false := by
  have hregs : (takenIntoUse g f s).regs = (programmed g f s).regs := rfl
  rw [getB, getF_of_regs hregs]
  exact getB_setB_self _ F.FUSE_BUSY false Nat.one_ne_zero

theorem progEnd_of_good {g : Nat} {f : FuseWord} (h : s.sec.prog = some (g, f)) :
    progEnd f s = onlyIf (decide (10 ≤ g)) (detect .sec 21 g)
      (detect .sec 19 g (takenIntoUse g f s)) := by
  rw [progEnd, h]
  exact if_pos rfl

theorem progEnd_of_bad {g : Nat} {f x : FuseWord} (h : s.sec.prog = some (g, f)) (hne : x ≠ f) (hbad : fuseGood g x = false) :
    progEnd x s = settle (fuseFails (setB (programmed g x s) F.INTEGRITY_OK false) g) := by
  rw [progEnd, h]
  exact (if_neg hne).trans (if_pos (by simp [hbad]))

end

end Sys2Proof.Machine

namespace Sys2Proof.Certificates
open Sys2Proof Sys2Proof.Machine
open Sys2Proof.Safety (onlyFields fieldsKept)

/-- Settles O55: a challenge is made once and used once, its response opens, counts or locks, and a fuse group is in use only as it was
to be programmed. -/
theorem fieldAccessAndFusesFollowTheirRules : Obligations.FieldAccessAndFusesFollowTheirRules := by
  unfold Obligations.FieldAccessAndFusesFollowTheirRules
  refine ⟨fun s => ⟨fun e hon => ⟨fun hlock hid hkey => ?asked, fun hlock => ?locked⟩,
      fun hon => ⟨fun hnone => ?noChallenge, fun scope hch hid hkey => ⟨fun hgood => ?right, fun hbad hfew => ?wrong, fun hbad hmany => ?eighth⟩⟩,
      fun c hc => ⟨fun hopen => ?closes, fun hshut => ?shut⟩, fun hch => ?expires, fun hnone => congrArg Host.Outcome.next (if_neg (by simp [hnone]))⟩,
    fun s => ⟨fun l => ?check, fun hbusy => congrArg Host.Outcome.next (if_pos hbusy), fun h => progRefused_of_closed h _,
      fun code hidle href => ?refused, fun hidle href => ?accepted, fun g f hprog => ?good, fun g f x hprog hne hbad => ?bad,
      fun f hnone => congrArg Host.Outcome.next (progEnd_of_none hnone f)⟩⟩
  case asked => exact ⟨challenged e.toNat s, congrArg Host.Outcome.next (accReq_of_free e.toNat hon hlock hid hkey), challenged_spec e.toNat s⟩
  case locked =>
    exact ⟨_, congrArg Host.Outcome.next ((if_neg (by simp [hon])).trans (if_pos hlock)), getF_setF_of_lt s (by decide), onlyFields_setF (by simp)⟩
  case noChallenge =>
    exact ⟨_, congrArg Host.Outcome.next (accSubmit_of_none hon hnone), getF_setF_of_lt s (by decide), onlyFields_setF (by simp)⟩
  case right =>
    have hexec : exec .accSubmit s = .next (detect .sec 17 0 (opened scope (submitted s))) := by
      refine congrArg Host.Outcome.next ((accSubmit_of_challenge hon hch hid hkey).trans (if_pos ?_))
      rw [hgood, beq_self_eq_true]
    obtain ⟨hstate, hscope, hch', hkeyCopy, hresp, hwords⟩ := opened_spec scope (submitted s)
    rw [submitted_sec] at hch' hkeyCopy hresp
    exact ⟨_, hexec, hstate, hscope, hch', hkeyCopy, hresp, fun i hi => (hwords i hi).trans (getF_challengeDrop_challenge hi _)⟩
  case wrong =>
    have hfails : getF (submitted s) F.ACC_FAILS = getF s F.ACC_FAILS :=
      getF_challengeDrop_ne _ fun i hi => by simp only [Fld.key, F.ACC_FAILS, F.CHALLENGE]; omega
    obtain ⟨hstate, hscope, hcount, hsec⟩ := mismatched_spec (n := getF s F.ACC_FAILS + 1) (by omega) (submitted s)
    refine ⟨mismatched (getF s F.ACC_FAILS + 1) (submitted s), ?_, hstate.trans (if_neg (by omega)), hscope, hcount, by rw [hsec, submitted_sec]⟩
    refine congrArg Host.Outcome.next ((accSubmit_of_challenge hon hch hid hkey).trans ((if_neg (by simp [hbad])).trans ?_))
    exact accMismatch_of_few (by rw [hfails]) (by omega)
  case eighth =>
    have hfails : getF (submitted s) F.ACC_FAILS = getF s F.ACC_FAILS :=
      getF_challengeDrop_ne _ fun i hi => by simp only [Fld.key, F.ACC_FAILS, F.CHALLENGE]; omega
    obtain ⟨hstate, hscope, hcount, hsec⟩ := mismatched_spec (n := 8) (by omega) (submitted s)
    refine ⟨mismatched 8 (submitted s), ?_, hstate, hscope, hcount, by rw [hsec, submitted_sec]⟩
    refine congrArg Host.Outcome.next ((accSubmit_of_challenge hon hch hid hkey).trans ((if_neg (by simp [hbad])).trans ?_))
    exact accMismatch_of_eighth (by rw [hfails]; exact hmany)
  case closes =>
    have hexec : exec c s = .next (detect .sec 18 0 (closed s)) := by
      rcases hc with rfl | rfl
      · exact congrArg Host.Outcome.next (accClose_of_open hopen)
      · exact congrArg Host.Outcome.next (accClose_of_open hopen)
    exact ⟨closed s, hexec, closed_spec s⟩
  case shut =>
    rcases hc with rfl | rfl
    · exact congrArg Host.Outcome.next (if_neg (by simp [hshut]))
    · exact congrArg Host.Outcome.next (if_neg (by simp [hshut]))
  case expires => exact ⟨challengeExpires s, congrArg Host.Outcome.next (if_pos hch), challengeExpires_spec s⟩
  case check =>
    refine ⟨fuseSensed l s, rfl, (fieldsKept_setB (by simp)).2 fun _ _ => rfl, rfl, fun hall hunrep => ?_, fun g hg hbad => ?_⟩
    · have hnone : fuseBads l s = [] := fuseBads_of_good hall
      refine ⟨by rw [getB_fuseSensed, hnone]; rfl, ?_⟩
      have hexec : exec (.fuseIntegrityCheck l) s = .next (settle (each (fuseBads l s) fuseFails (fuseSensed l s))) := rfl
      rw [hexec, hnone, each_nil]
      exact congrArg Host.Outcome.next (settle_of_reported hunrep)
    · have hmem : g ∈ fuseBads l s := mem_fuseBads hg hbad
      refine ⟨?_, fuseBads l s, hmem, rfl⟩
      rw [getB_fuseSensed, List.isEmpty_eq_false_iff]
      exact List.ne_nil_of_mem hmem
  case refused =>
    exact ⟨_, congrArg Host.Outcome.next (prog_of_refused hidle href), getF_setF_self .., onlyFields_setF (by simp)⟩
  case accepted =>
    obtain ⟨hbusy, hresult, hsec, hkept⟩ := programming_spec s
    exact ⟨programming s, progWord s (getF s F.FUSE_GROUP), congrArg Host.Outcome.next (prog_of_accepted hidle href), hbusy, hresult,
      by rw [hsec], rfl, rfl, by rw [hsec], by rw [hsec], hkept⟩
  case good =>
    exact ⟨takenIntoUse g f s, getB_takenIntoUse g f s, rfl, rfl, rfl,
      fieldsKept_of_regs (t := programmed g f s) rfl ((fieldsKept_setB (by simp)).2 fun _ _ => rfl),
      congrArg Host.Outcome.next (progEnd_of_good hprog)⟩
  case bad =>
    refine ⟨setB (programmed g x s) F.INTEGRITY_OK false, ?_, rfl, rfl, rfl, getB_setB_self _ F.INTEGRITY_OK false Nat.one_ne_zero, ?_,
      congrArg Host.Outcome.next (progEnd_of_bad hprog hne hbad)⟩
    · rw [getB_setB_ne _ false (by decide)]
      exact getB_setB_self _ F.FUSE_BUSY false Nat.one_ne_zero
    · exact (fieldsKept_setB (by simp)).2 ((fieldsKept_setB (by simp)).2 fun _ _ => rfl)

end Sys2Proof.Certificates

/-! ### Accesses of registers, of the window and of MPORT that end well (01 R36; 15 R365-R368, R382; 18 R437) -/

namespace Sys2Proof.Machine
open Safety (fieldsKept onlyFields)

section
variable {s : State} {a : Nat}

/-! #### Registers and windows -/

/-- ACC_CTRL is in no fabric half. -/
theorem submitOff_of_fabric (hdom : regDom a = 6 ∨ regDom a = 7) (v : Nat) (s : State) : submitOff a v s = false := by
  have hne : a ≠ 0x00080010 := by
    rintro rfl
    exact absurd hdom (by decide)
  simp [submitOff, hne]

/-- A write of a register in a fabric half that is on waits for its perch. -/
theorem regWrite_of_fabric (hmap : mapped a = true) (hwin : isWindow a = false) (hon : isOn s (regDom a) = true)
    (hdom : regDom a = 6 ∨ regDom a = 7) (r v : Nat) :
    regWrite r a v s = ({ s with fab := { s.fab with writes := s.fab.writes ++ [(a, v)] } }, 0) :=
  (if_neg (by simp [hmap])).trans ((if_neg (by simp [hwin])).trans
    ((if_neg (by simp [hon, submitOff_of_fabric hdom])).trans (if_pos hdom)))

/-- A read of the triplet table through MPORT's window keeps the entry for the next access. -/
theorem tblOut_of_triplets (hsel : getF s F.TBL_SEL = 0x10) (haddr : getF s F.TBL_ADDR < 2 ^ 24) (hon : isOn s 9 = true) :
    (tblRead 0 s).st.mp.tblOut = tableEntry s (getF s F.TBL_ADDR) := by
  have hwinSel : winSel s 0 = 0x10 := hsel
  have hfault : tblFault s 0x10 (getF s F.TBL_ADDR) = none := (if_neg (by simp [tblDom, hon])).trans (if_neg (Nat.not_le.2 haddr))
  have hwinAddr : winAddr s 0 = getF s F.TBL_ADDR := rfl
  rw [tblRead, hwinSel, hwinAddr, hfault]
  rfl

/-- A register that is listed, is no window's and lies in a domain that is on is read as it stands. -/
theorem regRead_of_on (hmap : mapped a = true) (hwin : isWindow a = false) (hon : isOn s (regDom a) = true) (r : Nat) :
    regRead r a s = readWord r a s :=
  (if_neg (by simp [hmap])).trans ((if_neg (by simp [hwin])).trans (if_neg (by simp [hon])))

/-! #### MPORT -/

theorem readDom_of_no_window (hwin : isWindow a = false) (s : State) : readDom s a = regDom a := by
  refine if_neg ?_
  rintro rfl
  exact absurd hwin (by decide)

theorem isWaking_of_on {d : Nat} (hon : isOn s d = true) : isWaking s d = false := by
  rw [isWaking, show domAt s d = .on from beq_iff_eq.1 hon]

/-- A READ of a register that is on answers with its value once the earlier writes have taken effect. -/
theorem performRead_of_on (hmap : mapped a = true) (hwin : isWindow a = false) (hon : isOn s (regDom a) = true) (hdone : writesDone s = true) :
    performRead a s = frameEnd 0 (readWord 0 a s).value (readWord 0 a s).st := by
  have hread := regRead_of_on hmap hwin hon 0
  refine (if_neg ?_).trans ?_
  · rw [readDom_of_no_window hwin, isWaking_of_on hon, hdone]
    simp
  · rw [hread]
    rfl

theorem applyWords_cons (a : Nat) (w : Word) (ws : List Word) (n : Nat) (s : State) :
    applyWords a (w :: ws) n s =
      if (regWrite 0 a w.toNat s).2 = 0 then applyWords a ws (n + 1) (regWrite 0 a w.toNat s).1
      else ((regWrite 0 a w.toNat s).1, n, (regWrite 0 a w.toNat s).2) := rfl

/-- Words applied in order: the status is 0 exactly when all of them are. -/
theorem applyWords_count (a : Nat) (ws : List Word) (n : Nat) (s : State) :
    ((applyWords a ws n s).2.2 = 0 ↔ (applyWords a ws n s).2.1 = n + ws.length) ∧ n ≤ (applyWords a ws n s).2.1 := by
  induction ws generalizing n s with
  | nil => exact ⟨iff_of_true rfl rfl, Nat.le_refl n⟩
  | cons w ws ih =>
    rw [applyWords_cons]
    by_cases hst : (regWrite 0 a w.toNat s).2 = 0
    · obtain ⟨hiff, hle⟩ := ih (n + 1) (regWrite 0 a w.toNat s).1
      rw [if_pos hst, List.length_cons]
      exact ⟨hiff.trans (by rw [Nat.add_right_comm, Nat.add_assoc]), by omega⟩
    · rw [if_neg hst, List.length_cons]
      exact ⟨iff_of_false hst (by simp), Nat.le_refl n⟩

theorem last_performFrame (f : MpFrame) (s : State) :
    (performFrame s f).mp.last = some ((applyWords f.addr f.words 0 s).2.2, (applyWords f.addr f.words 0 s).2.1) := rfl

/-- The frame of a WRITE that its register takes. -/
theorem last_performFrame_of_taken {v : Word} (h : (regWrite 0 a v.toNat s).2 = 0) : (performFrame s ⟨a, [v]⟩).mp.last = some (0, 1) := by
  rw [last_performFrame]
  simp only [applyWords, h, if_true]

/-- The frame of a WRITE_SAME is performed at once by a port at rest. -/
theorem exec_writeSame_at_rest {x : Word} {ws : List Word} {crc : Byte} (hq : s.mp.queue = []) (hr : s.mp.pendRead = none)
    (hlo : 1 ≤ ws.length) (hhi : ws.length ≤ 64)
    (hcrc : crc8 (3#8 :: (wordBytes x ++ leBytes 1 ws.length ++ ws.flatMap wordBytes)) = crc.toNat) :
    exec (.writeSame x ws crc) s = .next (performFrame s ⟨x.toNat, ws⟩) :=
  congrArg Host.Outcome.next ((if_neg (by omega)).trans (writeFrame_at_rest hq hr (by simpa using hcrc)))

/-- A READ that stretches for a domain in its wake ends with DOMAIN_OFF at its time limit. -/
theorem exec_stretchTimeout_of_waking (hpend : s.mp.pendRead = some a) (hmap : mapped a = true) (hwake : isWaking s (readDom s a) = true) :
    exec .mportReadStretchTimeout s = .next (frameEnd 4 0 s) := by
  obtain ⟨u, hu⟩ : ∃ u : State, u = { s with mp := { s.mp with pendRead := none } } := ⟨_, rfl⟩
  have hself : { s with mp := { s.mp with pendRead := some a } } = s := by rw [← hpend]
  have hwakeU : isWaking u (readDom u a) = true := by rw [hu]; exact hwake
  have hretry : retryRead s = s := by
    rw [retryRead, hpend]
    have hperform : performRead a u = { u with mp := { u.mp with pendRead := some a } } := if_pos (by simp [hmap, hwakeU])
    rw [hu] at hperform
    exact hperform.trans hself
  refine congrArg Host.Outcome.next ?_
  rw [hretry]
  dsimp only
  rw [hpend]
  exact if_pos hwake

/-- A telemetry period with nothing listed sends an empty packet where credit allows. -/
theorem telemetryPeriod_of_empty_list (hon : isOn s 10 = true) (hperiod : getF s F.TLM_PERIOD ≠ 0) (hlist : tlmList s = [])
    (hup : chnUp s = true) (hcred : hasCredit s 3 1 = true) :
    exec .telemetryPeriod s = .next (sendPkt s (some 3) 0x04 3 (mainTime s % 2 ^ 32) []) := by
  have hread : tlmRead s = (s, []) := by rw [tlmRead, hlist, List.foldl_nil]
  refine congrArg Host.Outcome.next ((if_neg (by simp [hon, hperiod])).trans ?_)
  rw [hread]
  exact if_pos (Bool.and_eq_true_iff.2 ⟨hup, hcred⟩)

/-! #### Packets of an unknown type -/

/-- The CRC covers LEN as its sixteen bits. -/
theorem leBytes_mod (k x : Nat) : leBytes k (x % 256 ^ k) = leBytes k x := by
  induction k generalizing x with
  | zero => rfl
  | succ k ih =>
    rw [leBytes, leBytes, ← ih (x / 256)]
    refine congrArg₂ List.cons (BitVec.eq_of_toNat_eq ?_) (congrArg (leBytes k) ?_)
    · rw [BitVec.toNat_ofNat, BitVec.toNat_ofNat, pow_succ', Nat.mod_mul_right_mod]
    · rw [pow_succ', Nat.mod_mul_right_div_self]

theorem pktGood_len_mod (typ len : Nat) (p : Packet) : pktGood typ (len % 2 ^ 16) p = pktGood typ len p := by
  have hlen : leBytes 4 (len % 2 ^ 16 * 2 ^ 16) = leBytes 4 (len * 2 ^ 16) := by
    rw [← leBytes_mod 4 (len * 2 ^ 16), ← Nat.mul_mod_mul_right, show 2 ^ 16 * 2 ^ 16 = 256 ^ 4 by decide]
  rw [pktGood, pktGood, pktBytes, pktBytes, hlen]

end

end Sys2Proof.Machine

/-! ### Every command goes on (01 R23-R36; 14 R351-R363; 15 R365-R388; 16 R391-R402; 18 R431-R438) -/

namespace Sys2Proof.Machine

theorem fab_of_apart {s t : State} (h : apart t = apart s) : t.fab = s.fab := congrArg (fun p => p.2.2.2.2.2.2.2.2.1) h

end Sys2Proof.Machine

namespace Sys2Proof.Certificates
open Sys2Proof Sys2Proof.Machine
open Sys2Proof.Safety (onlyFields fieldsKept)

/-- Settles O2: `keeps_exec` answers a next state with the same queue for every command; the effect of each command named is what the
rules of its own chapter, settled above, say of it. -/
theorem everyCommandGoesOn : Obligations.EveryCommandGoesOn := by
  unfold Obligations.EveryCommandGoesOn
  refine ⟨fun c s => ?every, fun s v w x code en => ?power, fun s b f count slack v => ?bushels, fun s p k hhears => ?chain,
    fun s samples => ?outbound, fun s r0 r1 r2 r3 res c d hon => ?steward, fun s e scope => ?access, fun s a v crc ws f => ?registers⟩
  case every =>
    obtain ⟨t, hexec, hkeeps⟩ := keeps_exec (Keeps.refl s) c
    exact ⟨t, hexec, hkeeps.pending⟩
  case power =>
    obtain ⟨hwork, -, hrequest, -, henable⟩ := voltageLoopFollowsTheHeadroom s
    obtain ⟨htemp, -, hhost, -, hstale, -, hold, -⟩ := temperatureTakesItsBestSource s
    refine ⟨fun hrun hen hfail hvalid hth hlt hmax hreq => ?_, fun hon hreq => ?_, ?_, fun hle hlt => ?_,
      fun hrise hst hreq => thermalThrottleRise_next hrise hst hreq, fun hlow hst hreq => thermalThrottleFall_next hlow hst hreq,
      fun hsrc hst hon => hostTempStale_next hsrc hst hon, fun hcount => shutdownCountExpiry_next hcount, fun hon hbusy hbroken => ?_,
      fun hbroken hfresh => ?_, fun hst hbroken hfresh hsrc => ?_, fun hst hsrc => ?_⟩
    · obtain ⟨hraise, -⟩ := hwork hrun hen hfail hvalid
      obtain ⟨t, v, hexec, rfl, hv, -⟩ := hraise hlt hth hmax hreq
      exact ⟨t, hexec, hv⟩
    · obtain ⟨hcommand, hstatus, hread, hfails⟩ := hrequest v w hon hreq
      refine ⟨fun hstage => ?_, fun hstage hbad => ?_, fun hstage hfirst hlo hhi => ?_, ?_, ?_⟩
      · obtain ⟨t, hexec, hnext, -⟩ := hcommand hstage
        exact ⟨t, hexec, hnext⟩
      · obtain ⟨t, hexec, hnext, -⟩ := hstatus hstage hbad
        exact ⟨t, hexec, hnext⟩
      · obtain ⟨u, hexec, hnone, -⟩ := hread hstage hfirst hlo hhi
        exact ⟨u, hexec, hnone⟩
      · obtain ⟨u, hexec, hfailed, -⟩ := hfails .avsRequestTimeout (.inl rfl)
        exact ⟨u, hexec, hfailed⟩
      · obtain ⟨u, hexec, hfailed, -⟩ := hfails .avsStretchTimeout (.inr (.inl rfl))
        exact ⟨u, hexec, hfailed⟩
    · obtain ⟨t, hexec, hen, -⟩ := henable en
      exact ⟨t, hexec, hen⟩
    · exact ⟨_, rfl, thermThreshold_throttle hle hlt⟩
    · obtain ⟨hsensor, -⟩ := htemp code hon hbusy
      obtain ⟨u, hexec, hread, -⟩ := hsensor hbroken
      exact ⟨u, hexec, hread⟩
    · obtain ⟨u, hread, -, -, -, hexec, -⟩ := hhost x
      exact ⟨u, hexec hbroken hfresh, hread⟩
    · obtain ⟨t, hexec, hnow, -⟩ := hstale hst hbroken hfresh hsrc
      exact ⟨t, hexec, hnow⟩
    · obtain ⟨t, hexec, hnone, -⟩ := hold hst hsrc
      exact ⟨t, hexec, hnone⟩
  case bushels =>
    obtain ⟨-, -, hthreshold, hslip, hfill⟩ := bushelsReportHeadroomAndSlips
    refine ⟨fun hon hmgmt => ?_, fun hon hlt hthr => ?_, fun hon hin hslips hn => ?_, fun hslips => ?_, fun hon howed hn => ?_⟩
    · exact ⟨_, getF_windowed_slack .., congrArg Host.Outcome.next (windowEnd_of_on hon hmgmt count slack)⟩
    · obtain ⟨hpair, -⟩ := hthreshold v s hon
      obtain ⟨t, hexec, -, hraise⟩ := hpair hlt hthr
      exact ⟨t, hexec, hraise⟩
    · obtain ⟨-, hfurther, -⟩ := hslip b s
      have hline : clockDom b.n.val = 4 ∨ clockDom b.n.val = 5 := by rcases hn with h | h <;> simp [h, clockDom]
      obtain ⟨t, hexec, -, hbushel, -⟩ := hfurther hon hin hslips hline
      refine ⟨_, hexec, ?_⟩
      split
      · rw [bushelAt_of_fab (fab_of_apart (apart_detect ..)), hbushel]
      · rw [hbushel]
    · obtain ⟨-, -, -, hrecovery, -⟩ := hslip b s
      obtain ⟨t, hexec, hbushel, -⟩ := hrecovery hslips
      exact ⟨t, hexec, by rw [hbushel]⟩
    · obtain ⟨hnew, -⟩ := hfill f s
      have hline : clockDom f.n.val = 4 ∨ clockDom f.n.val = 5 := by rcases hn with h | h <;> simp [h, clockDom]
      have hout : slipsOut f.n.val = true := by rcases hn with h | h <;> simp [h, slipsOut]
      obtain ⟨u, hexec, -, hbushel, -⟩ := hnew hon hout (.inl howed) hline
      exact ⟨u, hexec, by rw [hbushel]⟩
  case chain =>
    obtain ⟨hup, -, -, -, hlock, -, hstall, hcredit, hsend, hbad, -⟩ := chainLinkAndCredits s
    refine ⟨fun hlink => ?_, fun hlink hnone => ?_, fun hblock => ⟨_, hlock hhears hblock, rfl⟩, fun hchn hwait hcred => ?_,
      fun hgood hlen hseq => ?_, ?_, fun hgood hseq => ?_, fun hseq hlen => ⟨fun hgood hroom hload hsrc hdisc => ?_,
        fun hgood hroom harg hnone hbusy hdma hsize => ?_, fun hgood hroom halign hdma hacc => ?_⟩⟩
    · obtain ⟨u, hexec, hlinked, -⟩ := hup hhears hlink
      exact ⟨u, hexec, hlinked⟩
    · obtain ⟨hcut, -, hchn, -⟩ := linkCut_spec s
      exact ⟨linkCut s, hcut, by rw [hchn, ← hnone], congrArg Host.Outcome.next ((if_pos hhears).trans (linkDown_of_up hlink))⟩
    · exact (hstall k).1 hchn hwait hcred
    · obtain ⟨t, hexec, hlimit, -⟩ := hcredit p hhears hgood hlen (.inl hseq)
      exact ⟨t, hexec, hlimit 0 (by decide)⟩
    · obtain ⟨t, pkt, hexec, -, -, -, -, -, hnext, -⟩ := hsend hhears
      exact ⟨t, hexec, hnext⟩
    · obtain ⟨-, hunknown⟩ := hbad 0x55 (BitVec.ofNat 16 p.payload.length) p hhears
      have hgood' : pktGood (0x55#8).toNat (BitVec.ofNat 16 p.payload.length).toNat p = true :=
        (pktGood_len_mod 0x55 p.payload.length p).trans hgood
      obtain ⟨u, hexec, hnext, -⟩ := hunknown hgood' (.inl (by decide)) (.inl hseq)
      exact ⟨u, hexec, hnext⟩
    · obtain ⟨hstreams, -⟩ := inboundStreamsFeedTheirTargets p s hhears hlen (.inl hseq)
      obtain ⟨-, hwithin⟩ := hstreams 5 0x10 (.config p) (.inl ⟨rfl, rfl, rfl⟩) hgood
      obtain ⟨u, honly, -, -, hfeed, -⟩ := hwithin hroom
      exact ⟨u, hfeed rfl hload hsrc hdisc, by rw [honly]⟩
    · obtain ⟨hstreams, -⟩ := inboundStreamsFeedTheirTargets p s hhears hlen (.inl hseq)
      obtain ⟨-, hwithin⟩ := hstreams 6 0x11 (.snapshot p) (.inr (.inl ⟨rfl, rfl, rfl⟩)) hgood
      obtain ⟨u, honly, -, -, -, -, -, hbegin, -⟩ := hwithin hroom
      exact ⟨u, hbegin rfl (by rw [harg]; rfl) hnone hbusy hdma hsize, by rw [honly]⟩
    · obtain ⟨hstreams, -⟩ := inboundStreamsFeedTheirTargets p s hhears hlen (.inl hseq)
      obtain ⟨-, hwithin⟩ := hstreams 7 0x12 (.store p) (.inr (.inr ⟨rfl, rfl, rfl⟩)) hgood
      obtain ⟨u, -, -, -, -, -, -, -, -, hstore⟩ := hwithin hroom
      obtain ⟨t, hexec, hbusy, -⟩ := hstore rfl halign hdma hacc
      exact ⟨t, hexec, hbusy⟩
  case outbound =>
    obtain ⟨hdrain, -, hledger, -, hstart, -, htrigger, -, hdone, hcapture, -⟩ := drainsAndCapturesGoOut s
    refine ⟨fun hup hon hidle => ?_, fun d hd hup hrecs hresv => (hledger d hd hup).1 hrecs hresv, fun hon hidle => ?_, fun hon harmed => ?_,
      fun hon htrig hlen => ?_, fun hstream hup hon hdma hcred hmore => ?_, fun hon hperiod hlist hup hcred => ?_⟩
    · obtain ⟨t, d, hexec, ht, hrecs, -⟩ := hdrain hup hon hidle
      exact ⟨t, d, hexec, ht, hrecs⟩
    · obtain ⟨t, hexec, hbusy, -⟩ := hstart hon hidle
      exact ⟨t, hexec, hbusy⟩
    · obtain ⟨t, hexec, -, htrig, -⟩ := htrigger hon harmed
      exact ⟨t, hexec, htrig⟩
    · obtain ⟨u, hexec, hbusy, -⟩ := (hdone samples).1 hon htrig hlen
      exact ⟨u, hexec, hbusy⟩
    · obtain ⟨t, hexec, hpos, -⟩ := (hcapture hstream hup hon hdma).1 hcred hmore
      exact ⟨t, hexec, hpos⟩
    · exact ⟨_, telemetryPeriod_of_empty_list hon hperiod hlist hup hcred, rfl⟩
  case steward =>
    obtain ⟨hsteward, htest⟩ := stewardDmaAndSelfTestAnswer
    obtain ⟨hbell, -, hmbox, hwatch, -, hstart, -, hdone, -⟩ := hsteward s hon
    refine ⟨fun hidle => ?_, fun hrun hbusy => ?_, fun hrun => ?_, fun hc hidle hstop href => ?_, fun r hc hbusy hstop hrun hdst hsrc hact => ?_,
      fun hd hmgmt hdom hslice => ⟨fun r hlate hfails hlogic hlast hheld hlimit => ?_, fun hheld => ?_⟩⟩
    · obtain ⟨t, hexec, hbusy, -⟩ := hbell hidle
      exact ⟨t, hexec, hbusy⟩
    · obtain ⟨u, hexec, -, -, -, -, hresult, -⟩ := (hmbox r0 r1 r2 r3 res).1 hrun hbusy
      exact ⟨u, hexec, hresult⟩
    · obtain ⟨u, hexec, hstopped, -⟩ := hwatch hrun
      exact ⟨u, hexec, hstopped⟩
    · obtain ⟨t, hexec, hbusy, -⟩ := (hstart c hc hidle hstop).2 href
      exact ⟨t, hexec, hbusy⟩
    · obtain ⟨u, hexec, hfree, -⟩ := hdone c r hc hbusy hstop hrun hdst hsrc hact
      exact ⟨u, hexec, hfree⟩
    · obtain ⟨hnext, -⟩ := (htest d .orderly s hd hdom).1 r hmgmt hlate hfails hlogic hslice
      obtain ⟨t, hexec, hcount, -⟩ := hnext hlast hheld hlimit
      exact ⟨t, hexec, hcount⟩
    · obtain ⟨-, hcut, -⟩ := htest d .orderly s hd hdom
      obtain ⟨u, hexec, hresult, -⟩ := hcut hheld
      exact ⟨u, hexec, hresult⟩
  case access =>
    obtain ⟨haccess, hfuses⟩ := fieldAccessAndFusesFollowTheirRules
    obtain ⟨hreq, hsubmit, hclose, hexpire, -⟩ := haccess s
    obtain ⟨hcheck, -, -, -, hprog, hend, -⟩ := hfuses s
    refine ⟨fun hon hid hkey => ⟨fun hlock => ?_, fun hch hgood => ?_⟩, fun hopen => ⟨?_, ?_⟩, fun hch => ?_, fun l hall hunrep => ?_,
      fun hidle href => ?_, fun g w hpending => ?_⟩
    · obtain ⟨t, hexec, -, -, hch, -⟩ := (hreq e hon).1 hlock hid hkey
      exact ⟨t, hexec, hch⟩
    · obtain ⟨u, hexec, -, hopen, -⟩ := ((hsubmit hon).2 scope hch hid hkey).1 hgood
      exact ⟨u, hexec, hopen⟩
    · obtain ⟨u, hexec, -, hshut, -⟩ := (hclose .accClose (.inl rfl)).1 hopen
      exact ⟨u, hexec, hshut⟩
    · obtain ⟨u, hexec, -, hshut, -⟩ := (hclose .accessLifeExpiry (.inr rfl)).1 hopen
      exact ⟨u, hexec, hshut⟩
    · obtain ⟨t, hexec, -, hnone, -⟩ := hexpire hch
      exact ⟨t, hexec, hnone⟩
    · obtain ⟨u, -, -, -, hgood, -⟩ := hcheck l
      obtain ⟨hok, hexec⟩ := hgood hall hunrep
      exact ⟨u, hexec, hok⟩
    · obtain ⟨t, -, hexec, hbusy, -⟩ := hprog hidle href
      exact ⟨t, hexec, hbusy⟩
    · obtain ⟨u, hfree, -, hset, -, -, hexec⟩ := hend g w hpending
      exact ⟨u, hfree, hset, hexec⟩
  case registers =>
    refine ⟨fun hmap hwin hon hdom => ?_, fun q qs hwrites => ?_, fun hsel haddr hon => ⟨_, rfl, tblOut_of_triplets hsel haddr hon⟩,
      fun hrest => ⟨fun hq hmap hwin hon hdone hcrc => ?_, fun hq htaken hcrc => ?_, fun hlo hhi hq hcrc => ?_, ?_, ⟨_, rfl, rfl⟩, ⟨_, rfl, rfl⟩⟩,
      fun x hpend hmap hwake => ⟨_, exec_stretchTimeout_of_waking hpend hmap hwake, rfl⟩⟩
    · refine congrArg Host.Outcome.next ?_
      rw [canAccess, if_pos rfl, regWrite_of_fabric hmap hwin hon hdom]
    · refine congrArg Host.Outcome.next ?_
      rw [hwrites, List.foldl_cons]
    · exact ⟨_, (exec_read_at_rest hq hrest hcrc).trans (congrArg Host.Outcome.next (performRead_of_on hmap hwin hon hdone)), rfl⟩
    · exact ⟨_, exec_write_at_rest hq hrest hcrc, last_performFrame_of_taken htaken⟩
    · obtain ⟨hcount, -⟩ := applyWords_count a.toNat ws 0 s
      exact ⟨_, _, _, exec_writeSame_at_rest hq hrest hlo hhi hcrc, last_performFrame _ s, hcount.trans (by rw [Nat.zero_add])⟩
    · refine ⟨{ s with mp := { s.mp with reply := replyBytes s } }, congrArg Host.Outcome.next ?_, rfl⟩
      rw [retryRead_of_none hrest]
      exact if_neg (by simp [hrest])

end Sys2Proof.Certificates
